-- ==== Sys2Proof/Word.lean ====
section
/-! DEFINITION. The machine's word types (R3, chapter 00: registers are 32 bits wide) and the plainest arithmetic on bits held as numbers. -/

namespace Sys2Proof

/-- One byte of memory or of a packet. -/
abbrev Byte := BitVec 8

/-- One 32-bit register. -/
abbrev Word := BitVec 32

/-- One 64-bit general register of the Stavte instruction set. -/
abbrev DWord := BitVec 64

/-- Bits `hi` to `lo` of a number. -/
def bitsOf (x hi lo : Nat) : Nat := (x / 2 ^ lo) % 2 ^ (hi + 1 - lo)

/-- Bit `i` of a number. -/
def bitOf (x i : Nat) : Bool := (x / 2 ^ i) % 2 == 1

/-- A truth value as a bit. -/
def natOf (b : Bool) : Nat := if b then 1 else 0

/-- `x` with bit `i` set to `b`. -/
def withBit (x i : Nat) (b : Bool) : Nat :=
  if bitOf x i == b then x else if b then x + 2 ^ i else x - 2 ^ i

/-- Division rounded up; 0 for a zero divisor. -/
def ceilDiv (a b : Nat) : Nat := if b = 0 then 0 else (a + b - 1) / b

/-- The low `n` bytes of a number, least significant first (R3). -/
def leBytes : Nat → Nat → List Byte
  | 0, _ => []
  | n + 1, x => BitVec.ofNat 8 x :: leBytes n (x / 256)

/-- The number that bytes spell, least significant first (R3). -/
def leVal : List Byte → Nat
  | [] => 0
  | b :: t => b.toNat + 256 * leVal t

/-- The number that bytes spell in wire order, most significant first (R3). -/
def beVal (bs : List Byte) : Nat := bs.foldl (fun a b => 256 * a + b.toNat) 0

/-- The low `n` bytes of a number in wire order, most significant first (R3). -/
def beBytes (n x : Nat) : List Byte := (leBytes n x).reverse

/-- `n` bytes of a list from offset `o`; bytes past the end read as 0. -/
def sliceB (l : List Byte) (o n : Nat) : List Byte :=
  (List.range n).map fun k => l.getD (o + k) 0

/-- A list with its elements from offset `o` on replaced by those of `v`, as far as the list reaches. -/
def overB (l : List Byte) (o : Nat) (v : List Byte) : List Byte :=
  l.take o ++ (v.take (l.length - o)) ++ l.drop (o + v.length)

/-- A number below 2^64 as a signed integer, by its bit 63. -/
def toSigned64 (x : Nat) : Int := if x < 2 ^ 63 then (x : Int) else (x : Int) - 2 ^ 64

end Sys2Proof
end

