-- ==== Sys2Proof/Syntax.lean ====
section
/-! DEFINITION. The commands that the block takes from outside, one constructor per row of the manual's table of operations and events, and the types of their operands. -/

namespace Sys2Proof

/-- Who writes a shared control (R16). A host writes through one of its functions; a firmware writer is one core. -/
inductive Writer where
  | keystone
  | sideband
  | host (f : Fin 512)
  | serviceCore (i : Fin 52)
  | packetCore (i : Fin 272)
  deriving DecidableEq, Repr

/-- One write of a 32-bit value by one writer. -/
structure Write where
  writer : Writer
  value : Word
  deriving DecidableEq, Repr


/-- The capabilities of R171's table, and those that it names as absent. -/
inductive Capability where
  | powerManagement
  | pciExpress
  | msi
  | msix
  | aer
  | ari
  | sriov
  | ats
  | pri
  | pasid
  | doe
  | deviceSerialNumber
  | dataLinkFeature
  | physicalLayer16
  | physicalLayer32
  | physicalLayer64
  | laneMargining
  | secondaryPciExpress
  | tph
  | ltr
  | l1PmSubstates
  | resizableBar
  | ptm
  deriving DecidableEq, Repr

/-- The fields of a function's configuration space that the block acts on or reports (R165, R171, R172, R184, R194), each named as the PCI Express Base Specification names it; `capability` asks whether one is present, `bar` and `vfBar` name the registers of 32 bits. -/
inductive CfgField where
  | capability (c : Capability)
  | bar (n : Fin 6)
  | vfBar (n : Fin 6)
  | vfMemorySpaceEnable
  | initialVfs
  | firstVfOffset
  | vfStride
  | ariNextFunction
  | deviceSerialNumber
  | maxReadRequestSize
  | correctableErrorReportingEnable
  | nonFatalErrorReportingEnable
  | fatalErrorReportingEnable
  | unsupportedRequestReportingEnable
  | serrEnable
  | deviceStatus
  | uncorrectableErrorStatus
  | uncorrectableErrorMask
  | uncorrectableErrorSeverity
  | correctableErrorStatus
  | correctableErrorMask
  | firstErrorPointer
  | ecrcGenerationEnable
  | ecrcCheckEnable
  | headerLog (i : Fin 4)
  | maxLinkSpeed
  | maxLinkWidth
  | currentLinkSpeed
  | negotiatedLinkWidth
  | multipleMessageCapable
  | msiPending
  | invalidateQueueDepth
  | outstandingPageRequestCapacity
  | outstandingPageRequestAllocation
  | priResponseFailure
  | priStopped
  | maxPasidWidth
  | executePermissionSupported
  | privilegedModeSupported
  | executePermissionEnable
  | privilegedModeEnable
  | memorySpaceEnable
  | busMasterEnable
  | interruptDisable
  | powerState
  | completionTimeoutValue
  | tagRequesterEnable
  | msixEnable
  | functionMask
  | msiEnable
  | multipleMessageEnable
  | msiAddress
  | msiData
  | msiMask
  | atsEnable
  | priEnable
  | pasidEnable
  | vfEnable
  | numVfs
  | initiateFlr
  | totalVfs
  | classCode
  | msixTableSize
  deriving DecidableEq, Repr

/-- An operation on flash or fuses under a PLDM firmware update (R391, R392, R403): bytes programmed, a range erased, a digest programmed in an owner key slot, a slot revoked, the minimum SVN raised. -/
inductive FlashOp where
  | program (addr : Nat) (data : List Byte)
  | erase (addr len : Nat)
  | slot (i : Fin 4) (digest : List Byte)
  | revoke (i : Fin 4)
  | svn (n : Nat)
  deriving DecidableEq, Repr

/-- The paths that reach the device's management services (R410, R413): MCTP over SMBus, I3C or PCI Express VDM, DOE on a PF, and the pair peer over Flume. -/
inductive MgmtPath where
  | smbus
  | i3c
  | vdm
  | doe
  | flume
  deriving DecidableEq, Repr

/-- The vector that an 802.1AS announce message carries (R71): priority1, clock quality, priority2, clockIdentity of the grandmaster, and steps removed. -/
structure SyncVector where
  priority1 : Nat
  quality : Nat
  priority2 : Nat
  identity : Nat
  steps : Nat
  deriving DecidableEq, Repr

/-- Why synchronisation may be gained or lost (R31, R71): writes of MAC_TC_CTL, or what the factory image's time-aware system meets: the end of a sync interval with its offset from the master in ns, an announce message on a port, an announce-receipt timeout. -/
inductive SyncCause where
  | write (ws : List Write)
  | interval (offset : Int)
  | announce (port : Fin 16) (vector : SyncVector)
  | announceTimeout
  deriving DecidableEq, Repr

/-- Where an ECC error lies: at a memory address, in a parcel (with the record read, for a page of records), or in other storage of a cell. -/
inductive ErrPlace where
  | memory (addr : Nat)
  | parcel (id record : Nat)
  | other
  deriving DecidableEq, Repr

/-- What a parity error hits: a packet, a job, or neither. -/
inductive Victim where
  | packet (id : Nat)
  | job (j : Nat)
  | other
  deriving DecidableEq, Repr

/-- A clock that a monitor finds lost or off by more than 2 %: the root PLL, a divided clock, the SerDes PLL of some lanes, the PHY PLL of a host port. -/
inductive ClockLost where
  | root
  | divided
  | serdes (lanes : List (Fin 16))
  | phy (host : Fin 2)
  deriving DecidableEq, Repr

/-- A unit from which no heartbeat came in a span: a cell, a block or controller of a region, one whose containment would stop the region's shared SRAM or a memory channel (R419), a chip-level block, the Lookout. -/
inductive SilentUnit where
  | cell (kind : Fin 10) (cell : Nat)
  | region (r : Fin 4)
  | memory (r : Fin 4)
  | chip
  | lookout
  deriving DecidableEq, Repr

/-- An action that waits for the acknowledgement of its intent record (R450): a doorbell, the write of an event or completion queue's consumer index, a write of CBF_ISSUE or CBF_DONE, an NVMe doorbell, and a completion or event entry: function, ring (0 a CQ by its page, 1 an EQ as 16 × function + queue, 2 an NVMe CQ), number of the ring, producer index once it is written, the write itself, and the vector that it triggers. -/
inductive Intent where
  | doorbell (n : Nat) (rq : Bool) (value : Nat)
  | eqDoorbell (f e value : Nat)
  | cqIndex (n value : Nat)
  | cbf (f : Nat) (done : Bool) (value : Nat)
  | nvme (f off value : Nat)
  | entry (f ring number index addr : Nat) (pasid : Option Nat) (data : List Byte) (vector : Option Nat)
  deriving DecidableEq, Repr

/-- What a Flume heartbeat carries (R443, R446, R457): the sender's ROLE and CASC_ID, its state, the sequence number of its last commit, its CLAIM (priority and serial number), whether it concedes, and its time counter, to which a standby slaves its own (R451). -/
structure Heartbeat where
  role : Fin 4
  member : Fin 8
  state : Fin 8
  seq : Word
  prio : Fin 256
  serial : Nat
  conceded : Bool
  tc : Nat
  deriving DecidableEq, Repr

/-- One item of a mirror commit, a bulk copy or a cascade replication (R448, R459, R460). -/
inductive CommitItem where
  /-- A register word of class T: its address and value. -/
  | reg (addr : Nat) (value : Word)
  /-- A counter by its address, a tally by its offset (class S). -/
  | counter (addr value : Nat)
  | tally (off value : Nat)
  /-- A way or stash position of a table, empty or with its entry: key, under h2, HIT, action program, action data, record index. -/
  | way (region table position : Nat) (stash : Bool) (entry : Option (List Byte × Bool × Bool × Nat × Nat × Nat))
  /-- Bytes of a parcel of class T, at their address. -/
  | memory (addr : Nat) (data : List Byte)
  | template (region n : Nat) (bytes : List Byte) (len : Nat) (fixes : List Nat)
  | program (region slot : Nat) (words : List Nat)
  /-- A route by family, VRF, length and bits, with its next hop or withdrawn; a next hop. -/
  | route (v6 : Bool) (vrf len bits : Nat) (nh : Option Nat)
  | nextHop (n : Nat) (value : Nat × Nat)
  /-- A security association by its image and replay state; none: deleted. -/
  | sa (id : Nat) (image : Option (List Byte)) (seen : Nat)
  /-- An installed image of a packet-core block at an address of its code store, or of service cores at its address; empty: gone. -/
  | image (block : Option Nat) (addr : Nat) (data : List Byte)
  /-- The place of a table's buckets, their number and tenant; none of them: gone. -/
  | buckets (region table : Nat) (sram : Option Nat) (nb tenant : Nat)
  /-- A parcel's place, PIN and hint, its home region, bytes and tenant (R387); without bytes it is gone. -/
  | parcel (id : Nat) (sram : Option Nat) (home bytes tenant : Nat) (pin : Option (Option Nat)) (hint : Option Nat)
  /-- A transport QP's context by function and image; none: gone. A path's transport point: last acknowledged and expected PSN, MSN and RSN. -/
  | qpContext (qpn : Nat) (value : Option (Nat × List Byte))
  | transport (qpn path acked expected msn rsn : Nat)
  | key (index : Nat) (image : List Byte)
  /-- Indices of a queue pair (SQ and RQ consumer and producer, CQ producer), of an event queue, of an NVMe queue, and the tags of a compact block function: busy tags with their slots. -/
  | indices (n sqCi sqPi rqCi rqPi cqPi : Nat)
  | eqIndices (n pi ci : Nat)
  | nvmeRegs (f intms cc aqa asq acq : Nat) (rdy : Bool)
  | nvmeQueue (f : Nat) (completion : Bool) (id base size head tail cq : Nat) (phase ien : Bool) (iv : Nat)
  | cbfTags (f : Nat) (busy : List (Nat × List Byte)) (done : Nat)
  deriving DecidableEq, Repr

/-- A thread that issues instructions (R302): a context of a packet core, a thread of a service core, or the Keystone. -/
inductive Thread where
  | packet (core : Fin 272) (ctx : Fin 16)
  | service (core : Fin 52) (thr : Fin 2)
  | keystone
  deriving DecidableEq, Repr

/-- How reads of host memory come back (R190): with data, with data whose TLP carries EP = 1, or not within the completion timeout. -/
inductive ReadEnd where
  | good
  | poisoned
  | timedOut
  deriving DecidableEq, Repr

/-- Errors of a link that it corrects by itself (R194). -/
inductive LinkError where
  | receiver
  | badTlp
  | badDllp
  | replayRollover
  | replayTimeout
  deriving DecidableEq, Repr

/-- What the reads of a command's buffer in host memory bring (R190): the bytes, and how the reads end. -/
structure HostBytes where
  data : List Byte
  ends : ReadEnd
  deriving DecidableEq, Repr

/-- A submission queue entry, with what the reads of the buffer that it names bring. -/
structure SqeBytes where
  sqe : List Byte
  data : List Byte
  ends : ReadEnd
  deriving DecidableEq, Repr

/-- What meets at one 32-bit register in one cycle (R19, R22): its writes, and its plain reads. -/
structure Meeting where
  writes : List Write
  readers : List Writer := []
  deriving DecidableEq, Repr

/-- The end of a frame on a port, and the FEC codewords that the port corrected and could not correct since the frame before (R72). -/
structure FrameEnd where
  port : Fin 16
  corrected : Nat
  uncorrectable : Nat
  deriving DecidableEq, Repr

/-- What a received TLP carries beside its data (R179, R190, R194): EP, the Relaxed Ordering and ID-Based Ordering attributes, whether writes that may pass it do so, an ECRC that fails, a malformed form, and the errors that the link
corrected to bring it. -/
structure Tlp where
  ep : Bool := false
  relaxed : Bool := false
  idBased : Bool := false
  held : Bool := false
  ecrcBad : Bool := false
  malformed : Bool := false
  corrected : List LinkError := []
  deriving DecidableEq, Repr

/-- Why a host link goes down (R194, R197): an error of the link that R194 calls fatal, or none. -/
inductive LinkLoss where
  | plain
  | dataLinkProtocol
  | flowControl
  | receiverOverflow
  deriving DecidableEq, Repr

/-- The link that goes down, and why. -/
structure LinkDown where
  link : Fin 4
  loss : LinkLoss
  deriving DecidableEq, Repr

/-- A memory read request: its length, and what its TLP carries. -/
structure ReadRequest where
  len : Fin 4097
  tlp : Tlp
  deriving DecidableEq, Repr

/-- The read that a completion names: the function that requested it, and its tag. -/
structure ReadName where
  fn : Fin 512
  tag : Nat
  deriving DecidableEq, Repr

/-- How an access that a thread waits for ends (R312, R323, R336): what a host window returns, no data from the host, or an error beyond correction. -/
inductive AccessEnd where
  | ok (host : List Byte) (ends : ReadEnd)
  | failed
  | uncorrectable
  deriving DecidableEq, Repr


/-- The commands of the block: one constructor per row of the table of operations and events. -/
inductive Instr where
  /-- PWRGD_RISE (R466): The rising edge of PWRGD ends cold reset, samples the straps and starts the first boot attempt. -/
  | pwrgdRise (role : Fin 4) (cascId : Fin 8) (wakeIn : Bool)
  /-- PWRGD_LOW_PULSE (R466): A low pulse of PWRGD of at least 1 µs while the rails are present causes a cold reset that keeps the retained store and LK_STAT. -/
  | pwrgdLowPulse
  /-- VRET_LOSS (R404): Loss of VRET clears the retained store and LK_STAT and stops the Lookout. -/
  | vretLoss
  /-- PERST_ASSERT (R197): Assertion of a port's PERST warm-resets that port's registers and resets every function of the port as for an FLR. -/
  | perstAssert (host : Fin 2)
  /-- PERST_DEASSERT (R162): Deassertion of a port's PERST samples BIFURC and MAX_GEN and lets the links of the port train. -/
  | perstDeassert (host : Fin 2)
  /-- REGISTER_WRITE (R17): A write to a register that has no row of its own commits in one CLK_PIPE cycle after the writer and range checks and conflict arbitration. -/
  | registerWrite (addr : Nat) (cycle : Meeting)
  /-- COUNTER_READ_CLEAR (R21): A read-clear access returns a 64-bit counter and clears it atomically, arbitrated as a write. -/
  | counterReadClear (addr : Nat) (readers : List Writer)
  /-- SIDEBAND_REGISTER_WRITE (R413): A vendor-defined sideband register write message is accepted whole and starts its message time. -/
  | sidebandRegisterWrite (path : MgmtPath) (inSession : Bool) (addr : Nat) (value : Word)
  /-- SIDEBAND_WRITE_COMMIT (R18): The write of an accepted sideband message commits at the end of its message time, with the sideband's rank. -/
  | sidebandWriteCommit (others : List Write)
  /-- SIDEBAND_REGISTER_READ (R413): A vendor-defined sideband register read message returns a register value. -/
  | sidebandRegisterRead (path : MgmtPath) (inSession : Bool) (addr : Nat)
  /-- SPAN_BOUNDARY (R33): At each span boundary the device latches tallies, captures the mirror commit, plans placement and checks heartbeats. -/
  | spanBoundary (silent : List SilentUnit)
  /-- SPAN_CFG_WRITE (R30): A write to SPAN_CFG sets PENDING, or BADCFG for a length out of range, and fixes the next boundary under the new settings. -/
  | spanCfgWrite (ws : List Write)
  /-- TIME_COUNTER_STEP (R69): A write to word +0x4 of MAC_TC_ADJ steps the time counter by the signed 64-bit value and sets STEPPED. -/
  | timeCounterStep (ws : List Write)
  /-- SYNC_CHANGE (R31): Gaining or losing PTP synchronisation ends the span in progress at the first boundary at least 10 µs later under the new rule. -/
  | syncChange (cause : SyncCause)
  /-- PPS_IN_EDGE (R77): A rising edge of PTP_PPS_IN is captured into MAC_TC_TIME[1] while PPS_IN_EN is set. -/
  | ppsInEdge
  /-- PPS_OUT_SECOND (R77): At each second boundary and 100 ms later PTP_PPS_OUT rises and falls while PPS_OUT_EN is set. -/
  | ppsOutSecond
  /-- LANE_MAP_WRITE (R45): A write to MAC_LANE_MAP disables and restarts every port whose lanes change, or is discarded with BADMAP when invalid. -/
  | laneMapWrite (ws : List Write)
  /-- PORT_ENABLE (R46): A write that sets EN evaluates the DISABLED rows, starting auto-negotiation or a forced trial, or setting CFGERR. -/
  | portEnable (lane : Fin 16) (ws : List Write)
  /-- PORT_DISABLE (R46): A write of EN = 0 squelches the transmitter, raises PORT_DOWN if the port was UP and takes it to DISABLED. -/
  | portDisable (lane : Fin 16) (ws : List Write)
  /-- PORT_CFG_CHANGE (R46): A write that changes AN_EN, FEC or LANE_RATE squelches the port and re-evaluates the DISABLED rows under the new settings. -/
  | portCfgChange (lane : Fin 16) (ws : List Write)
  /-- AN_RESOLVED (R46): Auto-negotiation resolves a common mode and link training starts. -/
  | anResolved (port : Fin 16) (rates : List (Fin 6)) (fecs : List (Fin 6 × Fin 4))
  /-- AN_NO_COMMON_MODE (R46): Base pages exchanged with no common mode restart auto-negotiation. -/
  | anNoCommonMode (port : Fin 16)
  /-- AN_BASE_PAGE_TIMEOUT (R46): Signal detected with no base page for 500 ms sets the first trial rate and enters FORCED. -/
  | anBasePageTimeout (port : Fin 16)
  /-- TRAINING_COMPLETE (R46): Link training completes with PCS aligned, and the port goes UP or holds while remote fault is received. -/
  | trainingComplete (port : Fin 16)
  /-- TRAINING_FAIL (R46): Training fails or its wait timer expires and auto-negotiation restarts. -/
  | trainingFail (port : Fin 16)
  /-- TRIAL_ALIGNED (R46): PCS aligns within 500 ms of a forced trial start, and the port goes UP or holds on remote fault. -/
  | trialAligned (port : Fin 16)
  /-- TRIAL_TIMEOUT (R46): No alignment within 500 ms of a trial start moves to the next lower trial rate, or back to AN or the highest rate. -/
  | trialTimeout (port : Fin 16)
  /-- PCS_ALIGNMENT_LOSS (R46): Loss of PCS alignment or block lock on any lane takes the port out of its state, raising PORT_DOWN from UP. -/
  | pcsAlignmentLoss (port : Fin 16)
  /-- REMOTE_FAULT_RECEIVED (R46): Remote fault received in UP raises PORT_DOWN and restarts the port. -/
  | remoteFaultReceived (port : Fin 16)
  /-- REMOTE_FAULT_CLEARED (R46): Remote fault no longer received takes a held port to UP. -/
  | remoteFaultCleared (port : Fin 16)
  /-- FRAME_RECEIVE_START (R49): The first cell of a received frame fixes its PRIO, BD and TENANT and, for an 8-lane port, its pipeline by hash. -/
  | frameReceiveStart (port : Fin 16) (head : List Byte)
  /-- CELL_ARRIVAL (R142): Each 256-byte cell of a port frame is admitted against the ingress limit and region buffer, or the whole frame is discarded. -/
  | cellArrival (port : Fin 16) (data : List Byte) (noSlot : Bool)
  /-- FRAME_RECEIVE_END (R492): The last byte of a received frame completes its FCS and length checks, MACsec validation and counting. -/
  | frameReceiveEnd (frame : FrameEnd)
  /-- CONTROL_FRAME_RECEIVE (R57): A received MAC control frame is consumed, obeyed as PAUSE or PFC, or discarded and counted. -/
  | controlFrameReceive (port : Fin 16) (frame : List Byte)
  /-- PAUSE_HOLD_EXPIRY (R55): A priority's received-pause hold runs out and its frames may start again. -/
  | pauseHoldExpiry (port : Fin 16) (prio : Fin 8)
  /-- PAUSE_REFRESH (R52): While XOFF stays asserted above the low watermark, a refresh pause falls due on its fixed grid. -/
  | pauseRefresh (port : Fin 16) (prio : Fin 8)
  /-- PAUSE_FRAME_SEND (R54): At a frame boundary a PAUSE or PFC frame carrying every due priority is sent ahead of data. -/
  | pauseFrameSend (port : Fin 16)
  /-- PFC_MODE_CHANGE (R50): A write that changes MAC_PFC_CFG.MODE sends XON for asserted priorities, ends holds and retests watermarks. -/
  | pfcModeChange (port : Fin 16) (ws : List Write)
  /-- PFC_TX_EN_CHANGE (R51): Setting or clearing a TX_EN bit asserts XOFF at once, or sends XON and deasserts it. -/
  | pfcTxEnChange (port : Fin 16) (ws : List Write)
  /-- PAUSE_WATERMARK_WRITE (R51): A write of a high watermark retests the level and may assert XOFF at once. -/
  | pauseWatermarkWrite (port : Fin 16) (prio : Fin 8) (high : Bool) (ws : List Write)
  /-- STORM_STATE_ENTRY (R59): A priority paused continuously for T_wd enters storm state, ending its hold and discarding its egress frames. -/
  | stormStateEntry (port : Fin 16) (prio : Fin 8)
  /-- PAUSE_GAP_EXPIRY (R59): A gap of 1 µs without a running hold ends a stretch of continuous pause and its timing. -/
  | pauseGapExpiry (port : Fin 16) (prio : Fin 8)
  /-- STORM_STATE_EXIT (R61): T_rec after entry or the last non-zero pause received, a priority leaves storm state. -/
  | stormStateExit (port : Fin 16) (prio : Fin 8)
  /-- WATCHDOG_CFG_WRITE (R59): A write of MAC_WD_CFG applies new TWD_MS and TREC_MS at once and starts timing when EN is set. -/
  | watchdogCfgWrite (port : Fin 16) (ws : List Write)
  /-- WATCHDOG_DISABLE (R61): A write that clears MAC_WD_CFG.EN ends storm state for every priority and stops all timing. -/
  | watchdogDisable (port : Fin 16) (ws : List Write)
  /-- GCL_COMMIT (R63): COMMIT captures the admin gate list, cycle time and base time and computes the ConfigChangeTime. -/
  | gclCommit (port : Fin 16) (ws : List Write)
  /-- GCL_CONFIG_CHANGE (R63): At the ConfigChangeTime the captured list becomes operational, or sets BADLIST when it breaks a limit. -/
  | gclConfigChange (port : Fin 16)
  /-- GATE_ENTRY_CHANGE (R62): An entry's interval expires and the gates take the next entry's states. -/
  | gateEntryChange (port : Fin 16)
  /-- GATE_CYCLE_START (R64): A gate cycle ends and the list restarts at its first entry. -/
  | gateCycleStart (port : Fin 16)
  /-- FRAME_TRANSMIT_START (R145): The scheduler chooses the next eligible frame for a free port, charges its buckets and stamps tags, and the frame starts on the wire. -/
  | frameTransmitStart (port : Fin 16)
  /-- FRAME_TRANSMIT_END (R141): A frame finishes on the wire, releases its cells and is counted. -/
  | frameTransmitEnd (port : Fin 16)
  /-- MOD_CMD_GO (R74): GO starts a module bus read or write of 1 to 8 bytes, after recovery when needed. -/
  | modCmdGo (bus : Fin 16) (sdaLow : Bool) (ws : List Write)
  /-- MOD_CMD_DONE (R74): A module bus command ends, setting DONE and NACK as found. -/
  | modCmdDone (bus : Fin 16) (nack : Bool) (data : List Byte)
  /-- MOD_STRETCH_TIMEOUT (R74): A target stretching the clock beyond 25 ms per byte ends the command with TIMEOUT. -/
  | modStretchTimeout (bus : Fin 16)
  /-- MOD_BUS_RECOVERY (R75): SDA low on an idle bus starts at most 9 SCL pulses, ending with STOP at the first high. -/
  | modBusRecovery (bus : Fin 16) (highAfter : Option (Fin 9))
  /-- MOD_RECOVERY_WAIT_EXPIRY (R75): After 35 ms a second pulse run is made and a still-low SDA sets UNAVAIL. -/
  | modRecoveryWaitExpiry (bus : Fin 16) (highAfter : Option (Fin 9))
  /-- PIPELINE_SLOT_GRANT (R78): The input arbiter grants one pipeline slot per CLK_PIPE cycle to port ingress or by weighted round robin. -/
  | pipelineSlotGrant (region : Fin 4)
  /-- RECIRC_WAIT_EXPIRY (R79): A recirculated packet that has waited more than 10 µs for a slot is discarded and counted. -/
  | recircWaitExpiry (region : Fin 4)
  /-- PACKET_PARSE (R83): The parser runs the parse program over the first 256 bytes, records layers, runs malformed checks and computes FLOW_HASH. -/
  | packetParse (region : Fin 4)
  /-- STAGE_LOOKUP (R103): A stage looks up the table named by NEXT_TBL and runs the match or miss action program. -/
  | stageLookup (region : Fin 4) (stage : Fin 12)
  /-- DEFER_FETCH_COMPLETE (R100): A fetched bucket arrives and its waiting packets join the recirculation queue with PASS incremented. -/
  | deferFetchComplete (region : Fin 4)
  /-- PASS_EXIT (R104): At the exit of stage 11 the device carries out the packet's disposition, encapsulation and mirrors. -/
  | passExit (region : Fin 4)
  /-- PARSE_BANK_COMMIT (R87): A write of CLS_PARSE_CTL.COMMIT switches parse banks between two packets. -/
  | parseBankCommit (region : Fin 4) (ws : List Write)
  /-- TABLE_CFG_WRITE (R91): A write to CLS_TBL creates or frees bucket parcels, or is discarded with HELDCFG while the table holds entries. -/
  | tableCfgWrite (region : Fin 4) (table : Fin 64) (word : Fin 6) (ws : List Write)
  /-- LOOKUP (R92): Table command OP 0 looks up a key and returns action and ADATA. -/
  | lookup (region : Fin 4) (ws : List Write)
  /-- INSERT (R95): Table command OP 1 inserts or replaces an entry by cuckoo displacement or the stash. -/
  | insert (region : Fin 4) (ws : List Write)
  /-- DELETE (R97): Table command OP 2 deletes an entry and tries to move one stash entry into a way. -/
  | delete (region : Fin 4) (ws : List Write)
  /-- TMPL (R105): Table command OP 3 stages a template's upper half or replaces a whole encapsulation template. -/
  | tmpl (region : Fin 4) (ws : List Write)
  /-- CREAD (R106): Table command OP 4 reads and clears a flow-count pair. -/
  | cread (region : Fin 4) (ws : List Write)
  /-- TREAD (R105): Table command OP 5 returns one half of a template with its length and fix-ups. -/
  | tread (region : Fin 4) (ws : List Write)
  /-- FWD (R103): Primitive 0x01 sets disposition FWD to a port and egress class. -/
  | fwd (packet : Nat) (operand : DWord)
  /-- DROP (R104): Primitive 0x02 sets disposition DROP, which stands for the rest of the pass. -/
  | drop (packet : Nat) (operand : DWord)
  /-- MIRROR (R104): Primitive 0x03 requests a copy to a mirror session at the end of the pass. -/
  | mirror (packet : Nat) (operand : DWord)
  /-- SETMD (R103): Primitive 0x04 writes 1 to 8 bytes of user metadata. -/
  | setmd (packet : Nat) (operand : DWord)
  /-- POLICE (R152): Primitive 0x05 meters the frame against a policer and writes COLOUR. -/
  | police (packet : Nat) (operand : DWord)
  /-- COUNT (R106): Primitive 0x06 adds one packet and the frame bytes to a flow-count pair. -/
  | count (packet : Nat) (operand : DWord)
  /-- ENCAP (R105): Primitive 0x07 prepends an encapsulation template at the exit of stage 11. -/
  | encap (packet : Nat) (operand : DWord)
  /-- DECAP (R103): Primitive 0x08 removes 1 to 11 layers from the front of the stack at the exit of stage 11. -/
  | decap (packet : Nat) (operand : DWord)
  /-- ATTACH_SA (R273): Primitive 0x09 binds the packet to a security association. -/
  | attachSa (packet : Nat) (operand : DWord)
  /-- DELIVER_HOST (R103): Primitive 0x0A sets disposition DELIVER_HOST to a function queue, optionally spread by RSS. -/
  | deliverHost (packet : Nat) (operand : DWord)
  /-- DELIVER_POOL (R103): Primitive 0x0B sets disposition DELIVER_POOL to a thread pool, optionally by flow bucket. -/
  | deliverPool (packet : Nat) (operand : DWord)
  /-- RECIRC (R107): Primitive 0x0C sets disposition RECIRC for another pass of the same pipeline. -/
  | recirc (packet : Nat) (operand : DWord)
  /-- NEXT (R103): Primitive 0x0D sets NEXT_TBL. -/
  | next (packet : Nat) (operand : DWord)
  /-- SETCTX (R103): Primitive 0x0E writes BD and TENANT in system metadata. -/
  | setctx (packet : Nat) (operand : DWord)
  /-- TUQ_DOORBELL (R116): A write of FWD_TUQ_PI gives the trie builder new update queue entries. -/
  | tuqDoorbell (ws : List Write)
  /-- TUQ_NOP (R117): Update queue op 0 does nothing and completes. -/
  | tuqNop
  /-- TUQ_ADD (R118): Update queue op 1 prepares a prefix in shadow nodes, or replaces its next hop. -/
  | tuqAdd
  /-- TUQ_DEL (R118): Update queue op 2 prepares the removal of a prefix. -/
  | tuqDel
  /-- TUQ_COMMIT (R119): Update queue op 3 publishes every prepared change in one cycle in all four regions. -/
  | tuqCommit
  /-- TUQ_SETNH (R118): Update queue op 4 replaces one next-hop entry. -/
  | tuqSetnh
  /-- TRIE_NODE_FREE (R119): 128 cycles after a commit the replaced trie nodes are freed. -/
  | trieNodeFree
  /-- LEARN_REQUEST (R124): The learn engine looks up a learn request, setting HIT, queuing an insert or counting a static block. -/
  | learnRequest (region : Fin 4)
  /-- LEARN_INSERT (R124): A queued learn insert runs on the home region's insert engine at the learning rank. -/
  | learnInsert (region : Fin 4)
  /-- SWEEPER_VISIT (R130): The sweeper visits one position, clearing HIT, counting or removing an aged entry. -/
  | sweeperVisit (region : Fin 4) (table : Fin 64)
  /-- SWEEP_ROUND_START (R133): A new sweep round starts and applies any written PERIOD_S. -/
  | sweepRoundStart (region : Fin 4) (table : Fin 64)
  /-- TNODE_WRITE (R158): A write to SCH_TNODE changes a tenant node, or is discarded with BUSYCFG or BADCFG. -/
  | tnodeWrite (region : Fin 4) (node : Fin 4096) (word : Fin 2) (ws : List Write)
  /-- POLICER_WRITE (R153): A parameter write to a policer fills both buckets to their new bursts. -/
  | policerWrite (region : Fin 4) (policer : Fin 65536) (word : Fin 4) (ws : List Write)
  /-- HOST_PORT_ENABLE (R163): A write of HIF_PORT_CFG.EN from 0 to 1 samples BIFURC and MAX_GEN and lets the links leave Detect. -/
  | hostPortEnable (host : Fin 2) (ws : List Write)
  /-- HOST_LINK_UP (R161): A host link completes training to the highest common rate and its data link comes up. -/
  | hostLinkUp (host : Fin 2) (link : Fin 4) (gen : Fin 8)
  /-- HOST_LINK_DOWN (R197): A host link goes down and every function of that link is reset as for an FLR. -/
  | hostLinkDown (host : Fin 2) (down : LinkDown)
  /-- CONFIG_REQUEST (R164): A PCI Express configuration request is answered, with Request Retry Status before release. -/
  | configRequest (fn : Fin 512) (field : CfgField) (write : Option Nat)
  /-- VF_ENABLE (R166): The host's VF Enable write enables or disables a PF's VFs. -/
  | vfEnable (fn : Fin 512) (enable : Bool) (numVfs : Nat)
  /-- FUNCTION_ENABLE (R174): A function becomes enabled and its discovery table and ITT entries 2f and 2f+1 are generated. -/
  | functionEnable (fn : Fin 512)
  /-- FUNC_RES_WRITE (R169): A write to HIF_FUNC_RES takes effect at once, or is held PENDING until the function's next reset. -/
  | funcResWrite (fn : Fin 512) (word : Fin 3) (ws : List Write)
  /-- HOST_MEMORY_READ (R178): A host memory read is translated through HIF_ITT and completed, or answered with UR or CA. -/
  | hostMemoryRead (fn : Fin 512) (bar : Fin 3) (offset : Nat) (req : ReadRequest)
  /-- HOST_MEMORY_WRITE (R178): A host memory write is translated through HIF_ITT and written, rejected for poison, or discarded. -/
  | hostMemoryWrite (fn : Fin 512) (bar : Fin 3) (offset : Nat) (data : List Byte) (tlp : Tlp)
  /-- HOST_COMPLETION_RECEIVE (R190): A completion to a device read arrives and its data is stored, marked with poison when EP = 1. -/
  | hostCompletionReceive (read : ReadName) (data : List Byte) (tlp : Tlp)
  /-- COMPLETION_TIMEOUT (R190): A device read times out and its data is marked with poison. -/
  | completionTimeout (tag : Nat)
  /-- ATS_INVALIDATE (R183): An ATS invalidation request removes a translation from the address translation cache. -/
  | atsInvalidate (fn : Fin 512) (itag : Nat) (page : Nat) (pages : Nat)
  /-- ATS_INVALIDATE_COMPLETE (R183): An invalidation completes once no request that used the translation is outstanding. -/
  | atsInvalidateComplete (fn : Fin 512)
  /-- PAGE_REQUEST_RESPONSE (R184): A PRI response resolves a page request, or a Response Failure stops the PF's page requests. -/
  | pageRequestResponse (fn : Fin 512) (page : Nat) (pasid : Nat) (code : Fin 16)
  /-- MSIX_UNMASK (R187): Unmasking a vector with its pending bit set sends one message within 1 µs and clears the bit. -/
  | msixUnmask (fn : Fin 512) (vector : Fin 2048)
  /-- FLR_INITIATE (R195): An Initiate Function Level Reset write stops the function, abandons its jobs and moves its QPs to ERROR. -/
  | flrInitiate (fn : Fin 512)
  /-- FLR_COMPLETE (R195): Within 10.5 ms the function's registers are restored, pending values applied and the function made ready. -/
  | flrComplete (fn : Fin 512)
  /-- DOORBELL (R209): A send or receive queue doorbell carries a new producer index, accepted or counted in DB_BAD. -/
  | doorbell (fn : Fin 512) (qp : Fin 256) (rq : Bool) (value : Word)
  /-- EQ_DOORBELL (R217): An event queue doorbell updates CI and ARM, or is discarded and counted in EQC_DB_BAD. -/
  | eqDoorbell (fn : Fin 512) (eq : Fin 16) (value : Word)
  /-- QUEUE_SERVICE_TURN (R211): The port's queue engine gives a send queue one turn of at most BURST descriptors in its weighted round. -/
  | queueServiceTurn (host : Fin 2) (descs : List (List Byte))
  /-- TX (R205): Job 0x01 reads one frame from host memory and enters it in the pipeline as a host-originated packet. -/
  | tx (fn : Fin 512) (qp : Fin 256)
  /-- TX_SEG (R206): Job 0x02 cuts one buffer into frames of at most MSS payload and sends them. -/
  | txSeg (fn : Fin 512) (qp : Fin 256)
  /-- RX (R207): Job 0x03 posts one receive buffer on the receive queue. -/
  | rx (fn : Fin 512) (qp : Fin 256) (desc : List Byte)
  /-- COPY (R204): Job 0x04 copies LEN bytes from ADDR to ADDR2. -/
  | copy (fn : Fin 512) (qp : Fin 256)
  /-- FILL (R204): Job 0x05 writes an 8-byte pattern over LEN bytes. -/
  | fill (fn : Fin 512) (qp : Fin 256)
  /-- RX_FRAME_DELIVERY (R207): A frame directed to a host queue is written to the next posted RX buffer, or discarded and counted. -/
  | rxFrameDelivery (fn : Fin 512) (queue : Fin 512)
  /-- JOB_COMPLETION (R213): A finished job writes its completion entry in ring order, when the CQ has room. -/
  | jobCompletion (fn : Fin 512) (qp : Fin 256) (rq : Bool) (desc : List Byte)
  /-- CQ_ARM_WRITE (R215): A write to QCP_CQ_ARM updates CI and arms the CQ, or triggers its vector at once. -/
  | cqArmWrite (fn : Fin 512) (qp : Fin 256) (ws : List Write)
  /-- EVENT_WRITE (R219): A raised event is written to each selected event queue within 2 µs, or counted as lost. -/
  | eventWrite
  /-- QP_STOP (R220): A write of QCP_CTL.EN = 0 stops the queue pair and completes its pending descriptors with QUEUE_STOPPED. -/
  | qpStop (fn : Fin 512) (qp : Fin 256) (ws : List Write)
  /-- CHAIN_START (R222): START reads the chain entry at CHN_HEAD and the engine runs. -/
  | chainStart (region : Fin 4) (engine : Fin 8) (ws : List Write)
  /-- CHAIN_RESUME (R222): RESUME re-reads the LINK of STOPPED_AT once and runs on if END is clear. -/
  | chainResume (region : Fin 4) (engine : Fin 8) (ws : List Write)
  /-- CHAIN_HALT (R222): HALT finishes the current entry and takes the engine to IDLE. -/
  | chainHalt (region : Fin 4) (engine : Fin 8) (ws : List Write)
  /-- CHAIN_ENTRY_DONE (R222): An entry's job finishes, its result is written and the engine follows LINK or stops. -/
  | chainEntryDone (region : Fin 4) (engine : Fin 8) (host : List Byte) (ends : ReadEnd)
  /-- RM_SEND (R233): Job 0x20 sends a message on a transport QP. -/
  | rmSend (fn : Fin 512) (qp : Fin 256) (present : Bool)
  /-- RM_SEND_IMM (R233): Job 0x21 sends a message with immediate data. -/
  | rmSendImm (fn : Fin 512) (qp : Fin 256) (present : Bool)
  /-- RM_WRITE (R233): Job 0x22 writes a local buffer to remote memory. -/
  | rmWrite (fn : Fin 512) (qp : Fin 256) (present : Bool)
  /-- RM_WRITE_IMM (R233): Job 0x23 writes remote memory with immediate data. -/
  | rmWriteImm (fn : Fin 512) (qp : Fin 256) (present : Bool)
  /-- RM_READ (R233): Job 0x24 reads remote memory into a local buffer. -/
  | rmRead (fn : Fin 512) (qp : Fin 256) (present : Bool)
  /-- RM_CMP_SWAP (R233): Job 0x25 performs a remote compare and swap. -/
  | rmCmpSwap (fn : Fin 512) (qp : Fin 256) (present : Bool)
  /-- RM_FETCH_ADD (R233): Job 0x26 performs a remote fetch and add. -/
  | rmFetchAdd (fn : Fin 512) (qp : Fin 256) (present : Bool)
  /-- RM_ATOMIC_WRITE (R233): Job 0x27 performs a remote 8-byte atomic write. -/
  | rmAtomicWrite (fn : Fin 512) (qp : Fin 256)
  /-- RM_FLUSH (R236): Job 0x28 asks the responder to place earlier writes to a visibility or persistence domain. -/
  | rmFlush (fn : Fin 512) (qp : Fin 256)
  /-- RDMA_REQUEST_RECEIVE (R232): A responder checks a received request packet and places it, or answers with a NAK. -/
  | rdmaRequestReceive (region : Fin 4) (qpn psn : Fin 16777216)
  /-- RDMA_RESPONSE_RECEIVE (R239): A requester receives an ACK, NAK or read response and retires, resends or fails jobs. -/
  | rdmaResponseReceive (region : Fin 4)
  /-- MP_DATA_RECEIVE (R245): A multipath packet is placed by its placement header and sets its arrival bitmap bit. -/
  | mpDataReceive (region : Fin 4) (qpn psn : Fin 16777216)
  /-- CNP_RECEIVE (R242): A received CNP halves the QP's send rate when congestion reaction is enabled. -/
  | cnpReceive (region : Fin 4)
  /-- ACK_TIMEOUT (R239): The local ACK timeout expires and the requester resends by go-back-N or enters ERROR. -/
  | ackTimeout (qpn : Fin 16777216) (path : Fin 8)
  /-- RNR_TIMER_EXPIRY (R239): The time named by an RNR NAK passes and the requester resends from that packet's PSN. -/
  | rnrTimerExpiry (qpn : Fin 16777216)
  /-- ODP_PAGE_RESOLVED (R248): An on-demand page fault is resolved through PRI or the device page tables. -/
  | odpPageResolved (key : Fin 16777216) (page : Nat) (at_ : Option Nat)
  /-- LOCAL_PAGE_FAULT_TIMEOUT (R249): A local buffer page stall of 100 ms ends the job with ACCESS and LOCAL_PF. -/
  | localPageFaultTimeout (qpn : Fin 16777216)
  /-- QP_WRITE (R250): Window command 1 writes a QP context image and moves the QP between states. -/
  | qpWrite (fn : Fin 512) (ws : List Write)
  /-- QP_READ (R250): Window command 2 returns a QP context image. -/
  | qpRead (fn : Fin 512) (ws : List Write)
  /-- KEY_WRITE (R231): Window command 3 writes a memory key context. -/
  | keyWrite (fn : Fin 512) (ws : List Write)
  /-- KEY_READ (R231): Window command 4 returns a memory key context. -/
  | keyRead (fn : Fin 512) (ws : List Write)
  /-- KEY_INVAL (R232): Window command 5 invalidates a memory key. -/
  | keyInval (fn : Fin 512) (ws : List Write)
  /-- KEY_INVAL_COMPLETE (R232): KEY_INVAL completes once no placement checked before its commit is outstanding. -/
  | keyInvalComplete (fn : Fin 512)
  /-- FABRIC_COMMAND_COMPLETE (R254): A storage command issued on a backing path completes from the target, or with a path error. -/
  | fabricCommandComplete (id : Nat) (status : Nat) (data : List Byte) (ep : Bool)
  /-- PATH_DOWN (R253): A backing path goes DOWN and commands issued on it end with a path error. -/
  | pathDown (path : Fin 255) (ws : List Write)
  /-- NVME_CC_ENABLE (R258): CC.EN = 1 brings the controller ready within 1 ms. -/
  | nvmeCcEnable (fn : Fin 512) (value : Word)
  /-- NVME_CC_DISABLE (R262): CC.EN = 0 resets the controller and abandons outstanding commands. -/
  | nvmeCcDisable (fn : Fin 512) (value : Word)
  /-- NVME_SHUTDOWN (R262): A write of CC.SHN starts a controller shutdown. -/
  | nvmeShutdown (fn : Fin 512) (value : Word)
  /-- NVME_SHUTDOWN_COMPLETE (R262): CSTS.SHST = 2 is set once every command has completed and every fabric path has flushed. -/
  | nvmeShutdownComplete (fn : Fin 512)
  /-- NVME_DOORBELL (R259): An NVMe submission or completion queue doorbell is written. -/
  | nvmeDoorbell (fn : Fin 512) (index : Fin 2050) (value : Word)
  /-- NVME_CREATE_IO_SQ (R259): Admin command that creates an I/O submission queue. -/
  | nvmeCreateIoSq (fn : Fin 512) (sqe : List Byte)
  /-- NVME_CREATE_IO_CQ (R259): Admin command that creates an I/O completion queue. -/
  | nvmeCreateIoCq (fn : Fin 512) (sqe : List Byte)
  /-- NVME_DELETE_IO_SQ (R259): Admin command that deletes an I/O submission queue. -/
  | nvmeDeleteIoSq (fn : Fin 512) (sqe : List Byte)
  /-- NVME_DELETE_IO_CQ (R259): Admin command that deletes an I/O completion queue. -/
  | nvmeDeleteIoCq (fn : Fin 512) (sqe : List Byte)
  /-- NVME_IDENTIFY (R259): Admin command Identify with CNS 00h to 03h. -/
  | nvmeIdentify (fn : Fin 512) (sqe : List Byte)
  /-- NVME_GET_LOG_PAGE (R259): Admin command that returns an error, health or changed namespace log. -/
  | nvmeGetLogPage (fn : Fin 512) (sqe : List Byte) (list : List Nat)
  /-- NVME_GET_FEATURES (R259): Admin command that returns a supported feature. -/
  | nvmeGetFeatures (fn : Fin 512) (sqe : List Byte)
  /-- NVME_SET_FEATURES (R259): Admin command that sets a supported feature. -/
  | nvmeSetFeatures (fn : Fin 512) (sqe : List Byte)
  /-- NVME_ABORT (R259): Admin command Abort. -/
  | nvmeAbort (fn : Fin 512) (sqe : List Byte)
  /-- NVME_ASYNC_EVENT_REQUEST (R259): Admin command Asynchronous Event Request. -/
  | nvmeAsyncEventRequest (fn : Fin 512) (sqe : List Byte)
  /-- NVME_READ (R260): NVM command Read. -/
  | nvmeRead (fn : Fin 512) (sq : Fin 1025) (sqe : List Byte) (list : List Nat)
  /-- NVME_WRITE (R260): NVM command Write, refused for poisoned source data. -/
  | nvmeWrite (fn : Fin 512) (sq : Fin 1025) (sqe : List Byte) (list : List Nat) (src : HostBytes)
  /-- NVME_FLUSH (R260): NVM command Flush, forwarded to fabric namespaces. -/
  | nvmeFlush (fn : Fin 512) (sq : Fin 1025) (sqe : List Byte)
  /-- NVME_WRITE_ZEROES (R259): NVM command Write Zeroes. -/
  | nvmeWriteZeroes (fn : Fin 512) (sq : Fin 1025) (sqe : List Byte)
  /-- NVME_DATASET_MANAGEMENT (R259): NVM command Dataset Management with deallocate. -/
  | nvmeDatasetManagement (fn : Fin 512) (sq : Fin 1025) (cmd : SqeBytes)
  /-- CBF_ISSUE (R263): A write of a bit to CBF_ISSUE copies a FREE slot and makes its tag BUSY, or rejects the tag. -/
  | cbfIssue (fn : Fin 512) (ws : List Write)
  /-- CBF_DONE_CLEAR (R263): A write of 1 to a CBF_DONE bit frees that tag. -/
  | cbfDoneClear (fn : Fin 512) (ws : List Write)
  /-- CBF_READ (R264): Compact block command 0x01 reads blocks into a host buffer once no overlapping write is BUSY. -/
  | cbfRead (fn : Fin 512)
  /-- CBF_WRITE (R267): Compact block command 0x02 writes blocks once no overlapping write is BUSY. -/
  | cbfWrite (fn : Fin 512) (data : List Byte) (ends : ReadEnd)
  /-- CBF_FLUSH (R264): Compact block command 0x03 flushes completed writes to the medium. -/
  | cbfFlush (fn : Fin 512)
  /-- CBF_COMMAND_END (R266): A command ends, its STATUS, SSYND and BYTES are written, its DONE bit set and the vector triggered. -/
  | cbfCommandEnd (fn : Fin 512) (tag : Fin 32)
  /-- IDLE_REQ_SET (R269): A write of IDLE_REQ = 1 starts idle entry. -/
  | idleReqSet (fn : Fin 512) (ws : List Write)
  /-- IDLE_REQ_CLEAR (R269): A write of IDLE_REQ = 0 returns the handshake to ACTIVE. -/
  | idleReqClear (fn : Fin 512) (ws : List Write)
  /-- IDLE_ACK (R269): With no tag BUSY and writes flushed, IDLE_ACK is set and the vector triggered. -/
  | idleAck (fn : Fin 512)
  /-- TLS_SEAL (R284): Job 0x30 seals one TLS 1.3 record under a seal SA. -/
  | tlsSeal (fn : Fin 512) (qp : Fin 256)
  /-- TLS_OPEN (R284): Job 0x31 opens and authenticates one TLS 1.3 record. -/
  | tlsOpen (fn : Fin 512) (qp : Fin 256)
  /-- SA_WRITE (R287): SA command 1 writes a security association image. -/
  | saWrite (ws : List Write)
  /-- SA_READ (R287): SA command 2 returns a security association image. -/
  | saRead (ws : List Write)
  /-- SA_DELETE (R287): SA command 3 deletes a security association. -/
  | saDelete (ws : List Write)
  /-- MODEXP (R290): Public-key op 0x01 modular exponentiation. -/
  | modexp (region : Fin 4) (host : List Byte) (ends : ReadEnd)
  /-- EC_PUBKEY (R290): Public-key op 0x10 derives an EC public key. -/
  | ecPubkey (region : Fin 4) (host : List Byte) (ends : ReadEnd)
  /-- ECDSA_SIGN (R290): Public-key op 0x11 ECDSA signature. -/
  | ecdsaSign (region : Fin 4) (host : List Byte) (ends : ReadEnd)
  /-- ECDSA_VERIFY (R290): Public-key op 0x12 ECDSA verification. -/
  | ecdsaVerify (region : Fin 4) (host : List Byte) (ends : ReadEnd)
  /-- ECDH (R290): Public-key op 0x13 ECDH shared secret. -/
  | ecdh (region : Fin 4) (host : List Byte) (ends : ReadEnd)
  /-- ED25519_PUBKEY (R290): Public-key op 0x20 Ed25519 public key. -/
  | ed25519Pubkey (region : Fin 4) (host : List Byte) (ends : ReadEnd)
  /-- ED25519_SIGN (R290): Public-key op 0x21 Ed25519 signature. -/
  | ed25519Sign (region : Fin 4) (host : List Byte) (ends : ReadEnd)
  /-- ED25519_VERIFY (R290): Public-key op 0x22 Ed25519 verification. -/
  | ed25519Verify (region : Fin 4) (host : List Byte) (ends : ReadEnd)
  /-- X25519 (R290): Public-key op 0x23 X25519 exchange. -/
  | x25519 (region : Fin 4) (host : List Byte) (ends : ReadEnd)
  /-- ML_KEM_KEYGEN (R290): Public-key op 0x30 ML-KEM key generation. -/
  | mlKemKeygen (region : Fin 4) (host : List Byte) (ends : ReadEnd)
  /-- ML_KEM_ENCAPS (R290): Public-key op 0x31 ML-KEM encapsulation. -/
  | mlKemEncaps (region : Fin 4) (host : List Byte) (ends : ReadEnd)
  /-- ML_KEM_DECAPS (R290): Public-key op 0x32 ML-KEM decapsulation. -/
  | mlKemDecaps (region : Fin 4) (host : List Byte) (ends : ReadEnd)
  /-- ML_DSA_KEYGEN (R290): Public-key op 0x40 ML-DSA key generation. -/
  | mlDsaKeygen (region : Fin 4) (host : List Byte) (ends : ReadEnd)
  /-- ML_DSA_SIGN (R293): Public-key op 0x41 ML-DSA signature over 96 candidates. -/
  | mlDsaSign (region : Fin 4) (host : List Byte) (ends : ReadEnd)
  /-- ML_DSA_VERIFY (R290): Public-key op 0x42 ML-DSA verification. -/
  | mlDsaVerify (region : Fin 4) (host : List Byte) (ends : ReadEnd)
  /-- PK_OPERATION_COMPLETE (R291): A public-key operation writes its result, STATUS and PKSTAT after its fixed time. -/
  | pkOperationComplete (region : Fin 4)
  /-- CVU_ASSIGN_WRITE (R294): A write of CVU_ASSIGN gives a check-value unit to a function or core and resets its registers. -/
  | cvuAssignWrite (unit : Fin 64) (ws : List Write)
  /-- CVU_FEED (R296): A write to CVU_FEED feeds 1, 2 or 4 bytes through the unit's queue into its CRC register. -/
  | cvuFeed (unit : Fin 64) (size : Fin 3) (ws : List Write)
  /-- CVU_RESET (R295): CVU_CTL.RESET loads INIT into the CRC register. -/
  | cvuReset (unit : Fin 64) (ws : List Write)
  /-- CVU_MSG (R297): CVU_CTL.MSG loads INIT and feeds the data identifier and alive counter. -/
  | cvuMsg (unit : Fin 64) (ws : List Write)
  /-- SEAL (R297): CVU_CTL.SEAL latches the result and advances the alive counter in send mode. -/
  | cvuSeal (unit : Fin 64) (ws : List Write)
  /-- CHECK (R298): CVU_CTL.CHECK compares the CRC and classifies the alive counter in check mode. -/
  | check (unit : Fin 64) (ws : List Write)
  /-- ADD (R307): ALU funct 0x000 adds rs1 and rs2. -/
  | add (thread : Thread) (rd : Fin 32) (rs1 : Fin 32) (rs2 : Fin 32)
  /-- SUB (R307): ALU funct 0x001 subtracts rs2 from rs1. -/
  | sub (thread : Thread) (rd : Fin 32) (rs1 : Fin 32) (rs2 : Fin 32)
  /-- AND (R307): ALU funct 0x002 bitwise AND. -/
  | and (thread : Thread) (rd : Fin 32) (rs1 : Fin 32) (rs2 : Fin 32)
  /-- OR (R307): ALU funct 0x003 bitwise OR. -/
  | or (thread : Thread) (rd : Fin 32) (rs1 : Fin 32) (rs2 : Fin 32)
  /-- XOR (R307): ALU funct 0x004 bitwise XOR. -/
  | xor (thread : Thread) (rd : Fin 32) (rs1 : Fin 32) (rs2 : Fin 32)
  /-- ANDN (R307): ALU funct 0x005 rs1 AND NOT rs2. -/
  | andn (thread : Thread) (rd : Fin 32) (rs1 : Fin 32) (rs2 : Fin 32)
  /-- SLL (R307): ALU funct 0x006 shift left logical. -/
  | sll (thread : Thread) (rd : Fin 32) (rs1 : Fin 32) (rs2 : Fin 32)
  /-- SRL (R307): ALU funct 0x007 shift right logical. -/
  | srl (thread : Thread) (rd : Fin 32) (rs1 : Fin 32) (rs2 : Fin 32)
  /-- SRA (R307): ALU funct 0x008 shift right arithmetic. -/
  | sra (thread : Thread) (rd : Fin 32) (rs1 : Fin 32) (rs2 : Fin 32)
  /-- ROR (R307): ALU funct 0x009 rotate right. -/
  | ror (thread : Thread) (rd : Fin 32) (rs1 : Fin 32) (rs2 : Fin 32)
  /-- SLT (R307): ALU funct 0x00A set on signed less than. -/
  | slt (thread : Thread) (rd : Fin 32) (rs1 : Fin 32) (rs2 : Fin 32)
  /-- SLTU (R307): ALU funct 0x00B set on unsigned less than. -/
  | sltu (thread : Thread) (rd : Fin 32) (rs1 : Fin 32) (rs2 : Fin 32)
  /-- MIN (R307): ALU funct 0x00C signed minimum. -/
  | min (thread : Thread) (rd : Fin 32) (rs1 : Fin 32) (rs2 : Fin 32)
  /-- MAX (R307): ALU funct 0x00D signed maximum. -/
  | max (thread : Thread) (rd : Fin 32) (rs1 : Fin 32) (rs2 : Fin 32)
  /-- MINU (R307): ALU funct 0x00E unsigned minimum. -/
  | minu (thread : Thread) (rd : Fin 32) (rs1 : Fin 32) (rs2 : Fin 32)
  /-- MAXU (R307): ALU funct 0x00F unsigned maximum. -/
  | maxu (thread : Thread) (rd : Fin 32) (rs1 : Fin 32) (rs2 : Fin 32)
  /-- CLZ (R307): ALU funct 0x010 count leading zeros. -/
  | clz (thread : Thread) (rd : Fin 32) (rs1 : Fin 32)
  /-- CTZ (R307): ALU funct 0x011 count trailing zeros. -/
  | ctz (thread : Thread) (rd : Fin 32) (rs1 : Fin 32)
  /-- POPC (R307): ALU funct 0x012 population count. -/
  | popc (thread : Thread) (rd : Fin 32) (rs1 : Fin 32)
  /-- BSWAP (R307): ALU funct 0x013 reverses the 8 bytes. -/
  | bswap (thread : Thread) (rd : Fin 32) (rs1 : Fin 32)
  /-- MUL (R308): Writes the low 64 bits of the product. -/
  | mul (thread : Thread) (rd : Fin 32) (rs1 : Fin 32) (rs2 : Fin 32)
  /-- MULH (R308): Writes the high 64 bits of the signed product. -/
  | mulh (thread : Thread) (rd : Fin 32) (rs1 : Fin 32) (rs2 : Fin 32)
  /-- MULHU (R308): Writes the high 64 bits of the unsigned product. -/
  | mulhu (thread : Thread) (rd : Fin 32) (rs1 : Fin 32) (rs2 : Fin 32)
  /-- DIV (R308): Signed division, saturating where the quotient does not fit. -/
  | div (thread : Thread) (rd : Fin 32) (rs1 : Fin 32) (rs2 : Fin 32)
  /-- DIVU (R308): Unsigned division, saturating on a zero divisor. -/
  | divu (thread : Thread) (rd : Fin 32) (rs1 : Fin 32) (rs2 : Fin 32)
  /-- REM (R308): Signed remainder. -/
  | rem (thread : Thread) (rd : Fin 32) (rs1 : Fin 32) (rs2 : Fin 32)
  /-- REMU (R308): Unsigned remainder. -/
  | remu (thread : Thread) (rd : Fin 32) (rs1 : Fin 32) (rs2 : Fin 32)
  /-- ADDI (R309): Adds a sign-extended immediate. -/
  | addi (thread : Thread) (rd : Fin 32) (rs1 : Fin 32) (imm : BitVec 16)
  /-- ANDI (R309): ANDs a zero-extended immediate. -/
  | andi (thread : Thread) (rd : Fin 32) (rs1 : Fin 32) (imm : BitVec 16)
  /-- ORI (R309): ORs a zero-extended immediate. -/
  | ori (thread : Thread) (rd : Fin 32) (rs1 : Fin 32) (imm : BitVec 16)
  /-- XORI (R309): XORs a zero-extended immediate. -/
  | xori (thread : Thread) (rd : Fin 32) (rs1 : Fin 32) (imm : BitVec 16)
  /-- SLTI (R309): Sets on signed less than a sign-extended immediate. -/
  | slti (thread : Thread) (rd : Fin 32) (rs1 : Fin 32) (imm : BitVec 16)
  /-- SLTIU (R309): Sets on unsigned less than a sign-extended immediate. -/
  | sltiu (thread : Thread) (rd : Fin 32) (rs1 : Fin 32) (imm : BitVec 16)
  /-- SHI_SLL (R306): SHI kind 0 shifts left by an immediate amount. -/
  | shiSll (thread : Thread) (rd : Fin 32) (rs1 : Fin 32) (amount : Fin 64)
  /-- SHI_SRL (R306): SHI kind 1 shifts right logically by an immediate amount. -/
  | shiSrl (thread : Thread) (rd : Fin 32) (rs1 : Fin 32) (amount : Fin 64)
  /-- SHI_SRA (R306): SHI kind 2 shifts right arithmetically by an immediate amount. -/
  | shiSra (thread : Thread) (rd : Fin 32) (rs1 : Fin 32) (amount : Fin 64)
  /-- SHI_ROR (R306): SHI kind 3 rotates right by an immediate amount. -/
  | shiRor (thread : Thread) (rd : Fin 32) (rs1 : Fin 32) (amount : Fin 64)
  /-- LUI (R309): Writes the sign extension of imm × 2^16. -/
  | lui (thread : Thread) (rd : Fin 32) (imm : BitVec 16)
  /-- SHORI (R309): Writes (rs1 << 16) OR a zero-extended immediate. -/
  | shori (thread : Thread) (rd : Fin 32) (rs1 : Fin 32) (imm : BitVec 16)
  /-- LB (R312): Loads a sign-extended byte. -/
  | lb (thread : Thread) (rd : Fin 32) (rs1 : Fin 32) (imm : BitVec 16)
  /-- LBU (R312): Loads a zero-extended byte. -/
  | lbu (thread : Thread) (rd : Fin 32) (rs1 : Fin 32) (imm : BitVec 16)
  /-- LH (R312): Loads a sign-extended halfword. -/
  | lh (thread : Thread) (rd : Fin 32) (rs1 : Fin 32) (imm : BitVec 16)
  /-- LHU (R312): Loads a zero-extended halfword. -/
  | lhu (thread : Thread) (rd : Fin 32) (rs1 : Fin 32) (imm : BitVec 16)
  /-- LW (R312): Loads a sign-extended word. -/
  | lw (thread : Thread) (rd : Fin 32) (rs1 : Fin 32) (imm : BitVec 16)
  /-- LWU (R312): Loads a zero-extended word. -/
  | lwu (thread : Thread) (rd : Fin 32) (rs1 : Fin 32) (imm : BitVec 16)
  /-- LD (R312): Loads a doubleword. -/
  | ld (thread : Thread) (rd : Fin 32) (rs1 : Fin 32) (imm : BitVec 16)
  /-- SB (R312): Stores a byte. -/
  | sb (thread : Thread) (rs : Fin 32) (rs1 : Fin 32) (imm : BitVec 16)
  /-- SH (R312): Stores a halfword. -/
  | sh (thread : Thread) (rs : Fin 32) (rs1 : Fin 32) (imm : BitVec 16)
  /-- SW (R312): Stores a word. -/
  | sw (thread : Thread) (rs : Fin 32) (rs1 : Fin 32) (imm : BitVec 16)
  /-- SD (R312): Stores a doubleword. -/
  | sd (thread : Thread) (rs : Fin 32) (rs1 : Fin 32) (imm : BitVec 16)
  /-- MEMORY_ACCESS_COMPLETE (R336): A blocked load, atomic or store outside local memory completes in the thread's first slot after its data or room arrives. -/
  | memoryAccessComplete (thread : Thread) (result : AccessEnd)
  /-- BEQ (R313): Branches when rs1 equals rs2. -/
  | beq (thread : Thread) (rs1 : Fin 32) (rs2 : Fin 32) (offset : BitVec 16)
  /-- BNE (R313): Branches when rs1 differs from rs2. -/
  | bne (thread : Thread) (rs1 : Fin 32) (rs2 : Fin 32) (offset : BitVec 16)
  /-- BLT (R313): Branches on signed less than. -/
  | blt (thread : Thread) (rs1 : Fin 32) (rs2 : Fin 32) (offset : BitVec 16)
  /-- BGE (R313): Branches on signed greater or equal. -/
  | bge (thread : Thread) (rs1 : Fin 32) (rs2 : Fin 32) (offset : BitVec 16)
  /-- BLTU (R313): Branches on unsigned less than. -/
  | bltu (thread : Thread) (rs1 : Fin 32) (rs2 : Fin 32) (offset : BitVec 16)
  /-- BGEU (R313): Branches on unsigned greater or equal. -/
  | bgeu (thread : Thread) (rs1 : Fin 32) (rs2 : Fin 32) (offset : BitVec 16)
  /-- J (R313): Jumps by a word offset. -/
  | j (thread : Thread) (offset : BitVec 26)
  /-- JAL (R313): Jumps and writes the return address into g31. -/
  | jal (thread : Thread) (offset : BitVec 26)
  /-- JALR (R313): Jumps to rs1 plus immediate and writes the return address into rd. -/
  | jalr (thread : Thread) (rd : Fin 32) (rs1 : Fin 32) (imm : BitVec 16)
  /-- CAS (R314): Atomic compare and swap. -/
  | cas (thread : Thread) (word : Bool) (acq : Bool) (rel : Bool) (rd : Fin 32) (rs1 : Fin 32) (rs2 : Fin 32)
  /-- FADD (R314): Atomic fetch and add. -/
  | fadd (thread : Thread) (word : Bool) (acq : Bool) (rel : Bool) (rd : Fin 32) (rs1 : Fin 32) (rs2 : Fin 32)
  /-- SWAP (R314): Atomic swap. -/
  | swap (thread : Thread) (word : Bool) (acq : Bool) (rel : Bool) (rd : Fin 32) (rs1 : Fin 32) (rs2 : Fin 32)
  /-- BFX (R310): Extracts a bitfield, sign- or zero-extended. -/
  | bfx (thread : Thread) (signed : Bool) (rd : Fin 32) (rs1 : Fin 32) (lsb : Fin 64) (widthM1 : Fin 64)
  /-- BFI (R310): Inserts a bitfield into rd. -/
  | bfi (thread : Thread) (rd : Fin 32) (rs1 : Fin 32) (lsb : Fin 64) (widthM1 : Fin 64)
  /-- CRC (R311): Feeds 1 to 8 bytes into a CRC-32C or CRC-32 state. -/
  | crc (thread : Thread) (ieee : Bool) (size : Fin 4) (rd : Fin 32) (rs1 : Fin 32) (rs2 : Fin 32)
  /-- MIX (R311): Mixes rs1 and rs2 by multiply and shift. -/
  | mix (thread : Thread) (rd : Fin 32) (rs1 : Fin 32) (rs2 : Fin 32)
  /-- FENCE (R329): Orders selected earlier accesses before selected later ones. -/
  | fence (thread : Thread) (bits : Fin 32)
  /-- FENCE_COMPLETE (R336): A blocked FENCE completes once its selected earlier accesses are performed. -/
  | fenceComplete (core : Fin 272) (ctx : Fin 16)
  /-- FORK (R338): Starts a new thread in the lowest FREE context, or writes all ones. -/
  | fork (thread : Thread) (rd : Fin 32) (rs1 : Fin 32) (rs2 : Fin 32)
  /-- JOIN (R339): Takes a DONE child's QUIT value, or blocks, or returns all ones. -/
  | join (thread : Thread) (rd : Fin 32) (rs1 : Fin 32)
  /-- JOIN_UNBLOCK (R339): A blocked JOIN completes when its child becomes DONE. -/
  | joinUnblock (core : Fin 272) (ctx : Fin 16)
  /-- QUIT (R337): Ends the thread with a value and releases its current packet; ends an action program. -/
  | quit (thread : Thread) (rs1 : Fin 32)
  /-- CHIN (R317): Takes the oldest word of a channel, or the next packet on c0, blocking while empty. -/
  | chin (thread : Thread) (rd : Fin 32) (chan : Fin 32)
  /-- CHIN_UNBLOCK (R345): A blocked CHIN completes in the thread's first slot after a word is appended. -/
  | chinUnblock (core : Fin 272) (ctx : Fin 16)
  /-- CHOUT (R344): Appends a word to a channel FIFO, blocking while full. -/
  | chout (thread : Thread) (rs : Fin 32) (chan : Fin 32)
  /-- CHOUT_UNBLOCK (R344): A blocked CHOUT retries in its slot and succeeds when room appears. -/
  | choutUnblock (core : Fin 272) (ctx : Fin 16)
  /-- CHTEST (R317): Returns readable words or free room of a channel without blocking. -/
  | chtest (thread : Thread) (room : Bool) (rd : Fin 32) (chan : Fin 32)
  /-- PKTLD (R319): Loads bytes of the packet window big-endian. -/
  | pktld (thread : Thread) (size : Fin 4) (rd : Fin 32) (rs1 : Fin 32) (off : Fin 1024)
  /-- PKTLDM (R319): Loads bytes of packet metadata. -/
  | pktldm (thread : Thread) (size : Fin 4) (rd : Fin 32) (byte : Fin 64)
  /-- PKTST (R319): Stores bytes into the packet window. -/
  | pktst (thread : Thread) (size : Fin 4) (rs : Fin 32) (rs1 : Fin 32) (off : Fin 1024)
  /-- PKTSTM (R319): Stores bytes into user metadata 16 to 63. -/
  | pktstm (thread : Thread) (size : Fin 4) (rs : Fin 32) (byte : Fin 1024)
  /-- PKTLAY (R319): Returns the byte offset of a recorded layer, or all ones. -/
  | pktlay (thread : Thread) (rd : Fin 32) (layer : Fin 1024)
  /-- PKTFWD (R320): Hands the current packet to the pipeline as a core-originated packet. -/
  | pktfwd (thread : Thread)
  /-- PKTDROP (R319): Releases the current packet and counts a core drop. -/
  | pktdrop (thread : Thread)
  /-- PKTRECIRC (R320): Hands the current packet to the recirculation queue. -/
  | pktrecirc (thread : Thread)
  /-- TLOOKUP (R321): Looks up a key in a logical table, with the result on c3. -/
  | tlookup (thread : Thread) (rs1 : Fin 32) (table : Fin 64)
  /-- TINSERT (R321): Inserts an entry in an exact-match table, with the status on c3. -/
  | tinsert (thread : Thread) (rs1 : Fin 32) (table : Fin 64)
  /-- TDELETE (R321): Deletes an entry from an exact-match table, with the status on c3. -/
  | tdelete (thread : Thread) (rs1 : Fin 32) (table : Fin 64)
  /-- TABLE_OP_RESULT (R322): A table operation's two result words arrive on c3 in issue order. -/
  | tableOpResult (core : Fin 272) (ctx : Fin 16)
  /-- TABLE_OP_UNBLOCK (R322): A third table operation blocked in its issue completes once c3 has room. -/
  | tableOpUnblock (core : Fin 272) (ctx : Fin 16)
  /-- CSRR (R327): Reads a 64-bit CSR. -/
  | csrr (thread : Thread) (rd : Fin 32) (num : Fin 4096)
  /-- CSRW (R327): Writes a 64-bit CSR without behaviour of its own. -/
  | csrw (thread : Thread) (rs1 : Fin 32) (num : Fin 4096)
  /-- XLINV (R331): A CSR write removes cached translations by page, ASID or all. -/
  | xlinv (thread : Thread) (rs1 : Fin 32)
  /-- TICKCMP_WRITE (R326): A write of TICKCMP sets the timer compare value and clears a pending TIMER interrupt. -/
  | tickcmpWrite (thread : Thread) (rs1 : Fin 32)
  /-- CTXCMD_RESTART (R337): CTXCMD op 1 restarts a HALTED context at a given address. -/
  | ctxcmdRestart (thread : Thread) (rs1 : Fin 32)
  /-- CTXCMD_KILL (R337): CTXCMD op 2 ends a context as by QUIT with all ones. -/
  | ctxcmdKill (thread : Thread) (rs1 : Fin 32)
  /-- CHBIND_BIND (R343): CHBIND binds a channel of a context to a block FIFO as a read or write end. -/
  | chbindBind (thread : Thread) (rs1 : Fin 32)
  /-- CHBIND_UNBIND (R343): CHBIND unbinds a channel, discarding the FIFO's words for a read end. -/
  | chbindUnbind (thread : Thread) (rs1 : Fin 32)
  /-- TRAP (R324): The TRAP instruction takes a trap with TRAP cause. -/
  | trap (thread : Thread) (rs1 : Fin 32)
  /-- ERET (R324): Returns from a trap, restoring PRIV and IE. -/
  | eret (thread : Thread)
  /-- WFE (R326): Waits until an enabled interrupt becomes pending. -/
  | wfe (thread : Thread)
  /-- WFE_WAKE (R326): A waiting WFE continues when an enabled IRQPEND bit is set. -/
  | wfeWake (thread : Thread)
  /-- INTERRUPT_TAKEN (R326): An enabled pending interrupt is taken before the next instruction at TENTRY + 0x200. -/
  | interruptTaken (thread : Thread)
  /-- TIMER_COMPARE (R326): CYCLE reaching TICKCMP raises the TIMER interrupt. -/
  | timerCompare (thread : Thread)
  /-- SCC_MSG_WRITE (R355): A write to SCC_MSG sets IRQPEND.MSG of a service-core thread. -/
  | sccMsgWrite (core : Fin 52) (ws : List Write)
  /-- CORE_RUN (R351): A write of PCB_CORE.RUN = 1 starts a packet core's context 0 at ENTRY. -/
  | coreRun (region : Fin 4) (core : Fin 68) (ws : List Write)
  /-- CORE_STOP (R351): A write of RUN = 0 stops a packet core, freeing contexts and returning packets. -/
  | coreStop (region : Fin 4) (core : Fin 68) (ws : List Write)
  /-- SFAULT_ACK_TIMEOUT (R351): SFAULT still set ACK_US after it was set escalates to the region controller. -/
  | sfaultAckTimeout (core : Fin 272)
  /-- SERVICE_CORE_RELEASE (R353): The Keystone's write of SCC_CORE.RUN = 1 starts both threads at ENTRY. -/
  | serviceCoreRelease (core : Fin 52) (ws : List Write)
  /-- THREAD_SWITCH (R354): A service core switches threads after a 40-cycle miss when the other thread is ready. -/
  | threadSwitch (core : Fin 52)
  /-- DISPATCH (R348): The dispatcher places the oldest eligible queued packet into a ready member's c0. -/
  | dispatch (region : Fin 4)
  /-- DIRECTORY_REQUEST (R358): The home directory orders same-cycle requests for a line and transfers it to each in turn. -/
  | directoryRequest (region : Fin 4) (line : Nat) (writeback : Option (Fin 52)) (requests : List (Fin 52 × Bool))
  /-- MOVE_START (R372): A planned, pinned or evacuation move reserves destination space and begins copying a parcel. -/
  | moveStart (region : Fin 4)
  /-- MOVE_SWITCH (R372): The copy completes and the placement map names the new place in cycle S. -/
  | moveSwitch (parcel : Nat)
  /-- MOVE_DRAIN (R372): The old SRAM copy is released once its earlier accesses complete, and the log entry is written. -/
  | moveDrain (parcel : Nat)
  /-- FLOW_BUCKET_MOVE_START (R375): The dispatcher stops delivering a flow bucket's packets and holds them for a pool move. -/
  | flowBucketMoveStart (region : Fin 4)
  /-- FLOW_BUCKET_SWITCH (R375): Once the old pool's members have drained the bucket, it moves to the new pool with its held packets. -/
  | flowBucketSwitch (region : Fin 4) (bucket : Fin 65536)
  /-- FLOW_BUCKET_HOLD_EXPIRY (R375): Undrained after HOLD_NS, the move is abandoned and the held packets rejoin the old pool. -/
  | flowBucketHoldExpiry (region : Fin 4) (bucket : Fin 65536)
  /-- QPCTX_WORK_MOVE (R377): A QP context move holds the QP's packets and jobs, drains and moves the context within 5 µs. -/
  | qpctxWorkMove (region : Fin 4) (ns : Fin 5001) (drained : Bool)
  /-- PIN (R379): Parcel command 1 fixes a parcel at a tier and region. -/
  | pin (ws : List Write)
  /-- UNPIN (R379): Parcel command 2 returns a parcel to the policy. -/
  | unpin (ws : List Write)
  /-- HINT (R380): Parcel command 3 sets an affinity hint region. -/
  | hint (ws : List Write)
  /-- UNHINT (R380): Parcel command 4 removes an affinity hint. -/
  | unhint (ws : List Write)
  /-- QUERY (R389): Parcel command 5 returns a parcel's place, flags and heat. -/
  | query (ws : List Write)
  /-- ALLOC_PAGE (R366): Parcel command 6 allocates a firmware page for a tenant. -/
  | allocPage (ws : List Write)
  /-- FREE_PAGE (R361): Parcel command 7 frees a firmware page. -/
  | freePage (ws : List Write)
  /-- FREEZE_WRITE (R382): A write to CRU_FREEZE stops every move of the frozen classes except evacuation. -/
  | freezeWrite (ws : List Write)
  /-- FBMAP_POOL_WRITE (R389): A software write of CRU_FBMAP.POOL starts the drain barrier for that bucket. -/
  | fbmapPoolWrite (region : Fin 4) (bucket : Fin 65536) (ws : List Write)
  /-- ACTION_PROGRAM_SWAP (R384): Swap KIND 0 flips unfrozen flow buckets from program OLD to NEW. -/
  | actionProgramSwap (region : Fin 4) (ws : List Write)
  /-- SWAP_COMPLETE (R384): Once all buckets have flipped and no OLD packet remains, NEW is copied into slot OLD and ACTIVE clears. -/
  | swapComplete (region : Fin 4)
  /-- POOL_SWAP (R385): Swap KIND 1 moves every flow bucket of pool OLD to pool NEW under barriers. -/
  | poolSwap (region : Fin 4) (ws : List Write)
  /-- BOOT_ATTEMPT_START (R395): Stage 0 runs boot self-tests, chooses a bank, checks the stage 1 header and starts stage 1 or the fast path. -/
  | bootAttemptStart (proofs : Fin 4096)
  /-- RELEASE (R396): The verifier reports a pass for stage 1 and the configuration store, and the output gates open. -/
  | release
  /-- BOOT_ATTEMPT_FAIL (R400): A failed check asserts chip reset, counts ATTEMPTS, records LAST_FAIL and starts the 100 ms wait. -/
  | bootAttemptFail
  /-- BOOT_RETRY_WAIT_EXPIRY (R400): The 100 ms wait after a failed attempt ends and the next attempt begins. -/
  | bootRetryWaitExpiry
  /-- BOOT_PREF_WRITE (R401): A write of BOOT_CTL.PREF programs the boot record's preferred bank. -/
  | bootPrefWrite (ws : List Write)
  /-- DEEP_SLEEP_ENTRY (R405): SLEEP_REQ asserted without WAKE_IN stops new work, downs ports and finishes flash operations. -/
  | deepSleepEntry (wakeIn : Bool)
  /-- SLEEP_RECORD_WRITE (R405): After flash operations finish, the sleep record and its MAC are written and SLEPT set. -/
  | sleepRecordWrite (training : List Byte)
  /-- SLEEP_ABORT (R405): SLEEP_REQ deasserted with rails present clears SLEPT and asserts chip reset. -/
  | sleepAbort
  /-- INSTALL_SC (R411): Loader op 1 verifies and installs a service-core image into a protected DRAM range. -/
  | installSc (ws : List Write) (host : List Byte) (ends : ReadEnd)
  /-- INSTALL_PC (R411): Loader op 2 verifies and installs a packet-core image into a block's code store. -/
  | installPc (ws : List Write) (host : List Byte) (ends : ReadEnd)
  /-- INSTALL_ACT (R411): Loader op 3 verifies, checks and installs an action program in a slot. -/
  | installAct (ws : List Write) (host : List Byte) (ends : ReadEnd)
  /-- INSTALL_PARSE (R411): Loader op 4 verifies and installs a parse program in the inactive bank. -/
  | installParse (ws : List Write) (host : List Byte) (ends : ReadEnd)
  /-- LOADER_COMMAND_COMPLETE (R411): A loader command ends with its status within 5 ms. -/
  | loaderCommandComplete
  /-- PLDM_REQUEST_UPDATE (R403): RequestUpdate begins a PLDM firmware update and stops new boot attempts. -/
  | pldmRequestUpdate
  /-- PLDM_ACTIVATE_FIRMWARE (R403): ActivateFirmware sets PREF to the written bank for the next chip reset. -/
  | pldmActivateFirmware
  /-- PLDM_CANCEL_UPDATE (R403): CancelUpdate ends a PLDM firmware update. -/
  | pldmCancelUpdate
  /-- PLDM_MONITORING (R413): A PLDM platform monitoring request returns temperatures, power and rail readings. -/
  | pldmMonitoring (path : MgmtPath)
  /-- GET_MEASUREMENTS (R410): An SPDM GET_MEASUREMENTS request returns signed measurement blocks. -/
  | getMeasurements (path : MgmtPath)
  /-- ECC_ERROR_DETECTED (R422): A read finds an ECC error, corrected in place or marked with poison beyond correction. -/
  | eccErrorDetected (kind : Fin 10) (cell : Fin 1024) (place : ErrPlace) (beyond : Bool) (device : Bool)
  /-- PARITY_ERROR_DETECTED (R422): End-to-end flit parity fails at a block boundary and the frame or job is discarded. -/
  | parityErrorDetected (kind : Fin 10) (cell : Fin 1024) (victim : Victim)
  /-- LOCKSTEP_MISCOMPARE (R438): The Keystone lockstep comparator miscompares and the Lookout takes over. -/
  | lockstepMiscompare
  /-- LOOKOUT_WATCHDOG_EXPIRY (R438): No Keystone heartbeat within WD_US makes the Lookout take over and drive the safe state. -/
  | lookoutWatchdogExpiry
  /-- CLOCK_MONITOR_TRIP (R422): A clock monitor finds a PLL or clock lost or off by more than 2 %. -/
  | clockMonitorTrip (clock : ClockLost)
  /-- VOLTAGE_MONITOR_TRIP (R468): A rail leaving its window while PWRGD is high brings the chip to its safe state. -/
  | voltageMonitorTrip (rail : Fin 8) (microvolts : Nat)
  /-- THERMAL_TRIP (R422): Junction temperature at or above 130 °C brings the chip to its safe state. -/
  | thermalTrip (region : Fin 4) (decidegrees : Int)
  /-- CHIP_REBOOT_TIMER (R418): REBOOT_MS after the safe state is complete, the Keystone asserts chip reset. -/
  | chipRebootTimer
  /-- SAFE_STATE_RESET (R418): A write of ERR_STAT.RESET in the safe state asserts chip reset. -/
  | safeStateReset (ws : List Write)
  /-- SPARE_SUBSTITUTION_COMPLETE (R426): Within 200 µs of detection the spare carries the fenced cell's traffic. -/
  | spareSubstitutionComplete
  /-- REGION_RESTORE (R420): A write of ERR_RGN.RESTORE region-resets a fenced region, self-tests it and rebuilds its tries. -/
  | regionRestore (region : Fin 4) (ws : List Write)
  /-- REGION_REJOIN (R420): Within 20 ms the restored region rejoins and raises PORT_UP for its ports, or stays fenced. -/
  | regionRejoin (region : Fin 4) (pass : Bool)
  /-- SCRUB_VISIT (R423): The scrubber reads a line on its period and writes back corrected or marked data. -/
  | scrubVisit (kind : Fin 10) (cell : Fin 1024) (place : ErrPlace) (error : Bool) (beyond : Bool)
  /-- SELFTEST_ROUND (R432): Every 500 µs a self-test round evacuates its cells onto spares and starts their BIST. -/
  | selftestRound (proofs : Option (Fin 4096))
  /-- BIST_COMPLETE (R435): A cell's BIST and wear measurement end, returning it to service or retiring it. -/
  | bistComplete (kind : Fin 10) (cell : Fin 1024) (pass : Bool) (measure : Fin 65536) (bufferBank : Bool)
  /-- FLUME_HEARTBEAT_SEND (R446): Every 10 µs each Flume port sends a heartbeat with role, state, commit sequence and CLAIM. -/
  | flumeHeartbeatSend (fl : Fin 2)
  /-- FLUME_HEARTBEAT_RECEIVE (R446): A peer heartbeat arrives and drives election and pair state. -/
  | flumeHeartbeatReceive (fl : Fin 2) (beat : Heartbeat)
  /-- FLUME_REFRESH_TIMEOUT (R447): 30 µs without a Keystone refresh stops heartbeats, deasserts ACTIVE_N and squelches transmitters. -/
  | flumeRefreshTimeout
  /-- PEER_HEARTBEAT_TIMEOUT (R453): Three consecutive missed heartbeats lead to failure declaration, DETACHED or member failure. -/
  | peerHeartbeatTimeout (fl : Fin 2) (member : Fin 8)
  /-- PEER_ACTIVE_CHANGE (R453): A change of PEER_ACTIVE_N is judged against heartbeats for failure or pin fault. -/
  | peerActiveChange (asserted : Bool)
  /-- COMMIT_APPLY (R449): The standby receives a commit whole, applies it in one cycle in SEQ order and acknowledges it. -/
  | commitApply (seq : Word) (covers : Nat) (good : Bool) (items : List CommitItem)
  /-- COMMIT_ACK (R449): The active receives the standby's acknowledgement of a commit. -/
  | commitAck (seq : Word)
  /-- INTENT_RECORD (R450): Before a doorbell, index write or completion takes effect, the active forwards an intent record. -/
  | intentRecord (received : Option (Nat × Intent))
  /-- INTENT_ACK (R450): The standby's acknowledgement of an intent record lets the action take effect. -/
  | intentAck (number : Nat)
  /-- INTENT_TIMEOUT (R450): An intent record unacknowledged for 5 µs lets the action take effect and clears PROTECTED. -/
  | intentTimeout
  /-- PROMOTION (R454): The standby becomes active, applies intent records, announces, replays jobs and resynchronises transport. -/
  | promotion
  /-- ELECT_TIMER_EXPIRY (R457): The ELECT_US timer ends and the device becomes ACTIVE or applies the pin rule. -/
  | electTimerExpiry
  /-- BULK_COPY_COMPLETE (R459): The bulk copy of class T and C state finishes and, after one applied commit, the device enters STANDBY. -/
  | bulkCopyComplete (items : List CommitItem)
  /-- PROMOTE (R457): PAIR_CTL.PROMOTE promotes a DETACHED device from its last applied commit. -/
  | promote (ws : List Write)
  /-- SWITCH (R457): PAIR_CTL.SWITCH makes a protected active hand over at the next boundary. -/
  | switch (ws : List Write)
  /-- CASCADE_REPLICATION_APPLY (R460): A cascade member applies the master's replicated change whole in one cycle. -/
  | cascadeReplicationApply (fl : Fin 2) (full : Bool) (items : List CommitItem)
  /-- FLUME_REMOTE_FRAME_RECEIVE (R461): A remote frame from the ring is queued at its port, recirculated, or relayed on. -/
  | flumeRemoteFrameReceive (fl : Fin 2) (member : Fin 8) (port : Fin 16) (cls : Fin 8) (md : List Byte) (bytes : List Byte)
  /-- TALLY_BASE_WRITE (R487): A write of TLY_BASE sets the tally bank base and enable, or is discarded when the carve-out is invalid. -/
  | tallyBaseWrite (word : Fin 2) (ws : List Write)
  /-- BYPASS (R476): Test access port instruction BYPASS. -/
  | bypass
  /-- IDCODE (R476): Test access port instruction IDCODE returns 0x3320_0A1B. -/
  | idcode
  /-- SAMPLE_PRELOAD (R476): Test access port instruction SAMPLE/PRELOAD. -/
  | samplePreload (sampled : List Bool) (preload : List Bool)
  /-- EXTEST (R476): Test access port instruction EXTEST, effective only while PWRGD is deasserted. -/
  | extest
  /-- CLAMP (R476): Test access port instruction CLAMP, effective only while PWRGD is deasserted. -/
  | clamp
  /-- HIGHZ (R476): Test access port instruction HIGHZ, effective only while PWRGD is deasserted. -/
  | highz
  /-- FLUME_PORT_UP (R446): A Flume port completes link training and the SPDM session with its neighbour, and comes up authenticated. -/
  | flumePortUp (fl : Fin 2) (authentic : Bool)
  /-- FLUME_LANE_LOSS (R445): A Flume lane fails; the port's spare lane takes over, or the port retrains on 2 lanes, or the port goes down. -/
  | flumeLaneLoss (lane : Fin 10)
  /-- DRAM_TRAINING_COMPLETE (R407): DRAM training ends and the DRAM accesses held until then proceed. -/
  | dramTrainingComplete
  /-- PLDM_COMPONENT_TRANSFER (R403): Stage 0 programs or erases bank, configuration store or fuse data received under a PLDM firmware update, and each operation advances the write epoch. -/
  | pldmComponentTransfer (op : FlashOp)
  /-- SPDM_SECURE_SESSION (R414): An SPDM key exchange sets up a secure session, inside which register writes are served while REQ_SESSION is set. -/
  | spdmSecureSession (path : MgmtPath)
  deriving DecidableEq, Repr

end Sys2Proof
end

