-- ==== Sys2Proof/Decode.lean ====
section
/-! DEFINITION. The command that a word spells by the bits of the table of operations and events: the table gives no row any bits. -/

namespace Sys2Proof

/-- The command spelled by a word: none, since no row of the table has bits. Stavte instruction words are decoded by `Machine.SOp.decode`. -/
def decodeTableWord (_nbits _w : Nat) : Option Instr := none

end Sys2Proof
end

