-- ==== Sys2Proof/Config.lean ====
section
/-! DEFINITION. The free values: what the manual leaves open and the machine nevertheless produces. Each is a constant without a body, so that nothing can be proved of its value;
the number each is applied to is either an operand that the value depends on or a draw, the count of draws made so far. Entry 1 of the assumption log. -/

namespace Sys2Proof.Config

/-- Beyond the capacity that R114 guarantees, whether an ADD finds shadow space. -/
opaque trieFull : Nat → Bool

/-- `FWD_TRIE_STAT.USED_KIB` after a change of the trie: the manual gives no size of a node. -/
opaque trieUsedKib : Nat → Nat

/-- Where in a region's shared SRAM the packet buffer, the coherence directory and the placement space lie (R483): the manual gives their sizes alone. Offsets from the SRAM's base, applied to the region. -/
opaque bufferAt : Nat → Nat
opaque directoryAt : Nat → Nat
opaque placementAt : Nat → Nat

/-- A metadata byte beyond byte 63: an extract or a PKTLDM may reach it, and the manual gives no value there. -/
opaque metaPast : Nat → Nat

/-- The region whose pipeline a host-originated packet enters: the manual names none. Applied to a draw. -/
opaque hostRegion : Nat → Nat

/-- The bytes that a timed-out read leaves in place of its data (R190): only their mark is given. Applied to a draw and a position. -/
opaque timedOutByte : Nat → Nat → Nat

/-- SRC of a completion for a packet that has no arrival bridge port (R212): one that a core sent. Applied to a draw. -/
opaque noBridgePort : Nat → Nat

/-- The rate in Mb/s of the egress port from which a transport QP's send rate starts (R242): the port is the pipeline's later choice. Applied to the QPN. -/
opaque startRate : Nat → Nat

/-- The PSN from which a path other than path 0 of a multipath QP counts (R243): SQ_PSN and RQ_PSN name path 0's alone. Applied to the path. -/
opaque pathPsn : Nat → Nat

/-- SYND of the event of a QP that software moves to ERROR (R240, R250): the manual's table has no cause for it. Applied to a draw. -/
opaque softErrorSynd : Nat → Nat

/-- A byte of the random bit generators. Applied to a draw and a position. -/
opaque randomByte : Nat → Nat → Nat

/-- The void bytes that a failed TLS_OPEN leaves at ADDR2 (R284). Applied to a draw and a position. -/
opaque voidByte : Nat → Nat → Nat

/-- A byte of an Identify structure or log page whose value the manual does not give (R258, R259). Applied to the function, the structure (CNS, or 256 + log page) and the position. -/
opaque nvmeByte : Nat → Nat → Nat → Nat

/-- The digest in owner key slot 0, which holds Qorpata's key (R392). -/
opaque ownerSlotZero : List Byte

/-- The digest of stage 0 in the fuses (R392, R409). -/
opaque stage0Digest : List Byte

/-- Digest and SVN of the stage 1 that manufacture programmed in a bank (R39). -/
opaque factoryDigest : Nat → List Byte
opaque factorySvn : Nat → Nat

/-- The unique device secret in the fuses (R392). -/
opaque deviceSecret : List Byte

/-- The key derivation of R408, whose function the manual does not name. Applied to a key and a context. -/
opaque kdf : List Byte → List Byte → List Byte

/-- The key of the retained store's MAC (R404). Applied to the device's secret. -/
opaque sleepKey : List Byte → List Byte

/-- The number from which a P-384 private key is made (R408). Applied to a compound device identifier. -/
opaque keySeed : List Byte → Nat

/-- The part of an alias certificate that the DeviceID key signs (R408): the manual gives no form of it. Applied to the alias public key. -/
opaque certBody : List Byte → List Byte

/-- What the signature of a measurement response covers (R410), the requester's messages with it. Applied to a draw and to the measurement blocks. -/
opaque transcript : Nat → List Byte → List Byte

/-- A byte of a line that the memory protection engine encrypted under a key of before a chip reset (R412). Applied to a draw and an address. -/
opaque cipherByte : Nat → Nat → Nat

/-- Clock quality (class, accuracy and variance) that the factory image's time-aware system announces (R71): the manual gives its two priorities and its identity. -/
opaque clockQuality : Nat

/-- The increment that the factory servo writes when it slews the time counter (R71). Applied to a draw. -/
opaque servoIncrement : Nat → Nat

/-- A reading of platform monitoring (R413): temperature by region, power, voltages and currents of the rails. Applied to a draw and its number. -/
opaque sensor : Nat → Nat → Nat

/-- CLASS of the log entry of a latent fault, which belongs to none of the four classes (R421, R422, R437). Applied to a draw. -/
opaque latentClass : Nat → Nat

/-- Bytes of a mirror commit (R448, R463): the manual gives no encoding of its content. Applied to a draw. -/
opaque commitBytes : Nat → Nat

/-- The region whose recirculation queue takes a packet that another cascade member deepens (R461): the manual names the member only. Applied to a draw. -/
opaque ringRegion : Nat → Nat

/-- Mechanism code of the log entry of a failed PEER_ACTIVE_N (R453), for which the table of R422 has none. Applied to a draw. -/
opaque pinFault : Nat → Nat

/-- TINFO of an interrupt (R324, R326): the manual's table gives it for traps only. Applied to a draw. -/
opaque interruptInfo : Nat → BitVec 64

/-- First VF Offset of a PF (R165): the device sets it, and the manual gives no value. -/
opaque firstVfOffset : Nat → Nat

/-- A DWORD of the header that AER logs (R171): the manual names no header fields. Applied to a draw and a position. -/
opaque tlpHeader : Nat → Nat → Nat

end Sys2Proof.Config
end

