-- ==== Sys2Proof/Machine/RegNames.lean ====
section
/-! DEFINITION. The names of every register of the manual's register tables, one constructor each, and the key that names one 32-bit word of the register file.
The names are the manual's own (chapters 01 to 18); MSIX_TBL and MSIX_PBA are the MSI-X structures of R173 and R186. -/

namespace Sys2Proof.Machine

/-- Every register of the manual, by its own name. -/
inductive Reg where
  | CHIP_CONFLICT_STAT
  | CHIP_CONFLICT_CNT
  | CHIP_CONFLICT_LOG
  | SPAN_CFG
  | SPAN_STATUS
  | SPAN_SEQ
  | SPAN_REC
  | MAC_LANE_MAP
  | MAC_LANE_STAT
  | MAC_TC_INC
  | MAC_TC_CTL
  | MAC_TC_ADJ
  | MAC_TC_TIME
  | MAC_PORT_CFG
  | MAC_PORT_STAT
  | MAC_ING_CFG
  | MAC_DSCP_MAP
  | MAC_PFC_CFG
  | MAC_PAUSE_QUANTA
  | MAC_WD_CFG
  | MAC_WD_STAT
  | MAC_PAUSE_HWM
  | MAC_PAUSE_LWM
  | MAC_GCL_CTL
  | MAC_GCL_CYCLE
  | MAC_GCL_BASE_SEC
  | MAC_GCL_BASE_NS
  | MAC_KERF
  | MAC_QMAXF
  | MAC_MOD_CMD
  | MAC_MOD_STAT
  | MAC_MOD_DATA
  | MAC_CNT
  | MAC_GCL
  | CLS_PSTATE
  | CLS_PTRANS
  | CLS_ARB_WT
  | CLS_PARSE_CTL
  | CLS_MAL_ACT
  | CLS_EXC_POOL
  | CLS_EXC_HOST
  | CLS_START
  | CLS_RSS_KEY
  | CLS_MIRROR
  | CLS_TCMD
  | CLS_TKEY
  | CLS_TACT
  | CLS_TDATA
  | CLS_TBYTES
  | CLS_TMPL_HDR
  | CLS_TBL
  | CLS_KEX
  | CLS_CNT
  | CLS_MAL_CNT
  | FWD_TUQ_BASE
  | FWD_TUQ_CTL
  | FWD_TUQ_PI
  | FWD_TUQ_CI
  | FWD_TRIE_STAT
  | FWD_LEARN_CFG
  | FWD_BRT
  | FWD_CNT
  | FWD_BD
  | FWD_AGE
  | SCH_BUF_STAT
  | SCH_LAT_CFG
  | SCH_STAT
  | SCH_IN_LIMIT
  | SCH_IN_OCC
  | SCH_CLASS
  | SCH_CNT
  | SCH_SHAPE
  | SCH_TNODE
  | SCH_TMAP
  | SCH_QUEUE
  | SCH_QDEPTH
  | SCH_Q_CNT
  | SCH_POL
  | HIF_PORT_CFG
  | HIF_LINK_STAT
  | HIF_STAT
  | HIF_CNT
  | HIF_PF_CFG
  | HIF_FUNC_RES
  | HIF_ITT
  | HIF_OTT
  | QCP_RING
  | QCP_CTL
  | QCP_SCHED
  | QCP_CQ_ARM
  | QCP_STAT
  | QCP_IDX
  | QCP_CNT
  | EQC_RING
  | EQC_CTL
  | EQC_MASK
  | EQC_STAT
  | EQC_LOST
  | EQC_DB_BAD
  | QUE_NO_QP
  | CHN_CTL
  | CHN_STAT
  | CHN_HEAD
  | CHN_STOP_AT
  | RMA_CTX_CFG
  | RMA_CFG
  | RMA_CC
  | RMA_FUNC
  | RMA_CNT
  | RMW_CMD
  | RMW_DATA
  | STO_STAT
  | STO_FUNC
  | STO_PATH
  | STO_NS
  | STO_CNT
  | CBF_CAP
  | CBF_CTL
  | CBF_ISSUE
  | CBF_BUSY
  | CBF_DONE
  | CBF_PWR
  | CBF_STAT
  | CBF_CNT
  | CBF_SLOT
  | CRY_CFG
  | CRY_MSEC_CFG
  | CRY_SACMD
  | CRY_SADATA
  | CRY_CNT
  | CVU_ASSIGN
  | CVU_CFG
  | CVU_CTL
  | CVU_ALIVE
  | CVU_ALIVE_CTR
  | CVU_POLY
  | CVU_INIT
  | CVU_XOROUT
  | CVU_RXCRC
  | CVU_RESULT
  | CVU_STAT
  | CVU_FEED
  | CVU_CNT
  | PCB_CTL
  | PCB_WIN
  | PCB_CORE
  | PCB_POOLMAP
  | PCB_POOLCFG
  | PCB_CNT
  | SCC_CORE
  | SCC_MSG
  | CRU_CTL
  | CRU_WORK
  | CRU_STAT
  | CRU_THRESH
  | CRU_FREEZE
  | CRU_HOME
  | CRU_PCMD
  | CRU_LOG_BASE
  | CRU_LOG_CTL
  | CRU_LOG_IDX
  | CRU_CNT
  | CRU_TENANT
  | CRU_TUSE
  | CRU_TBLCLS
  | CRU_TASK
  | CRU_RGN
  | CRU_POOLGRP
  | CRU_SWAP
  | CRU_FBMAP
  | BOOT_STAT
  | BOOT_CTL
  | BOOT_EPOCH
  | BOOT_REL
  | SB_CFG
  | LDR_CMD
  | LDR_SRC
  | LDR_DST
  | IMP_CFG
  | IMP_RANGE
  | BOOT_CNT
  | ERR_CTL
  | ERR_STAT
  | ERR_CNT
  | ERR_LOG
  | SPARE_STAT
  | WEAR_THR
  | ST_STAT
  | ST_REPORT
  | DET_STAT
  | LK_STAT
  | LK_CFG
  | ERR_RGN
  | PAIR_CFG
  | PAIR_CTL
  | PAIR_STAT
  | PAIR_SEQ
  | PAIR_PEER
  | PAIR_ANN
  | FLM_STAT
  | PAIR_CNT
  | CAS_STAT
  | TLY_BASE
  | MSIX_TBL
  | MSIX_PBA
  deriving DecidableEq, Repr

/-- One 32-bit word of a register: the register, its instance `n` (lane, region, function, function and queue, or check-value unit; 0 for chip registers),
its index `i` (two indices are flattened, row by row, as the register's layout gives) and the word `w` within the element. -/
structure RegKey where
  reg : Reg
  n : Nat
  i : Nat
  w : Nat
  deriving DecidableEq, Repr

/-- A field of a register: the register, the word that holds it and its highest and lowest bit. -/
structure Fld where
  reg : Reg
  w : Nat
  hi : Nat
  lo : Nat
  deriving DecidableEq, Repr

/-- Who may write a register (each class is one of the manual's writer rules). -/
inductive WriterClass where
  /-- No writer: the device alone (every write is discarded under R23). -/
  | device
  /-- Keystone, sideband, service-core firmware and PF 0 of either host (R77, R108, R135, R160, R389). -/
  | mgmtPf0
  /-- Keystone, sideband and PF 0 of either host, and no firmware (SPAN_CFG and SPAN_STATUS, chapter 01). -/
  | spanW
  /-- Keystone, sideband and service-core firmware (R24, R199, R251, R271, R299, R359, R389, R463). -/
  | mgmt
  /-- Keystone and service-core firmware (R135, R415, R487). -/
  | ksc
  /-- Keystone and sideband (R415, R441, R463). -/
  | ksb
  /-- Keystone only (R415, R441). -/
  | keystone
  /-- Translation windows: as `mgmt`, and PF 0 of a port for entries of a function on that port (R199). -/
  | window
  /-- A function's own pages: Keystone, the function through its host port, and service-core firmware (R225, R251, R271). -/
  | function
  /-- The MSI-X table: Keystone and the function through its host port (R186). -/
  | msix
  /-- A check-value unit's window: Keystone and the unit's owner (R299). -/
  | cvuOwner
  /-- Chain engine registers: Keystone and any firmware (R225). -/
  | chain
  /-- SCC_CORE: Keystone only, except SFAULT, which its owning firmware may also clear (R359). -/
  | sccCore
  deriving DecidableEq, Repr

/-- Where a register's block lies (R482, R485, R486): a chip slot, a region slot, a MAC lane set, a function page, a queue pair page,
an event queue page or a check-value unit window. -/
inductive BlockKind where
  | chip | rgn | lane | fn | qp | eq | cvu
  deriving DecidableEq, Repr

/-- The place and shape of a register: block kind, slot, offset, stride and count of the outer index, count and stride of the inner index, words per element. -/
structure RegLayout where
  kind : BlockKind
  slot : Nat
  off : Nat
  s1 : Nat
  c1 : Nat
  j : Nat
  s2 : Nat
  words : Nat
  deriving DecidableEq, Repr

/-- The access masks of one register word (R4): the bits of each access code that a write can act on. Bits in no mask are RO, RC or reserved. -/
structure Access where
  rw : BitVec 32 := 0
  rws : BitVec 32 := 0
  rwl : BitVec 32 := 0
  w1c : BitVec 32 := 0
  w1s : BitVec 32 := 0
  wo : BitVec 32 := 0
  deriving DecidableEq, Repr

end Sys2Proof.Machine
end

