-- ==== Sys2Proof/Machine/Fields.lean ====
section
/-! DEFINITION. The fields of the manual's register tables, one constant each: the register, the word, the highest and the lowest bit. -/

namespace Sys2Proof.Machine.F

def CHIP_CONFLICT_STAT_OVF : Fld := ⟨.CHIP_CONFLICT_STAT, 0, 31, 31⟩
def CHIP_CONFLICT_STAT_NEXT : Fld := ⟨.CHIP_CONFLICT_STAT, 0, 4, 0⟩
def CHIP_CONFLICT_LOG_STAMP_LO : Fld := ⟨.CHIP_CONFLICT_LOG, 0, 31, 0⟩
def CHIP_CONFLICT_LOG_VALID : Fld := ⟨.CHIP_CONFLICT_LOG, 1, 31, 31⟩
def CHIP_CONFLICT_LOG_WINNER : Fld := ⟨.CHIP_CONFLICT_LOG, 1, 30, 28⟩
def CHIP_CONFLICT_LOG_LOSER : Fld := ⟨.CHIP_CONFLICT_LOG, 1, 27, 25⟩
def CHIP_CONFLICT_LOG_SOURCE : Fld := ⟨.CHIP_CONFLICT_LOG, 1, 24, 16⟩
def CHIP_CONFLICT_LOG_STAMP_HI : Fld := ⟨.CHIP_CONFLICT_LOG, 1, 15, 0⟩
def CHIP_CONFLICT_LOG_ADDR_LO : Fld := ⟨.CHIP_CONFLICT_LOG, 2, 31, 0⟩
def CHIP_CONFLICT_LOG_ADDR_HI : Fld := ⟨.CHIP_CONFLICT_LOG, 3, 15, 0⟩
def SPAN_CFG_ALIGN : Fld := ⟨.SPAN_CFG, 0, 10, 10⟩
def SPAN_CFG_LEN_US : Fld := ⟨.SPAN_CFG, 0, 9, 0⟩
def SPAN_STATUS_SYNC : Fld := ⟨.SPAN_STATUS, 0, 31, 31⟩
def SPAN_STATUS_PENDING : Fld := ⟨.SPAN_STATUS, 0, 30, 30⟩
def SPAN_STATUS_BADCFG : Fld := ⟨.SPAN_STATUS, 0, 29, 29⟩
def SPAN_STATUS_SLOT : Fld := ⟨.SPAN_STATUS, 0, 3, 0⟩
def SPAN_SEQ_SEQ : Fld := ⟨.SPAN_SEQ, 0, 31, 0⟩
def SPAN_REC_TRANS : Fld := ⟨.SPAN_REC, 0, 31, 31⟩
def SPAN_REC_ALIGNED : Fld := ⟨.SPAN_REC, 0, 30, 30⟩
def SPAN_REC_CYCLES : Fld := ⟨.SPAN_REC, 0, 21, 0⟩
def MAC_LANE_MAP_WIDTH : Fld := ⟨.MAC_LANE_MAP, 0, 31, 0⟩
def MAC_LANE_STAT_BADMAP : Fld := ⟨.MAC_LANE_STAT, 0, 31, 31⟩
def MAC_TC_INC_FRAC : Fld := ⟨.MAC_TC_INC, 0, 31, 0⟩
def MAC_TC_CTL_SYNC : Fld := ⟨.MAC_TC_CTL, 0, 31, 31⟩
def MAC_TC_CTL_STEPPED : Fld := ⟨.MAC_TC_CTL, 0, 30, 30⟩
def MAC_TC_CTL_PPS_OUT_EN : Fld := ⟨.MAC_TC_CTL, 0, 29, 29⟩
def MAC_TC_CTL_PPS_IN_EN : Fld := ⟨.MAC_TC_CTL, 0, 28, 28⟩
def MAC_TC_ADJ_OFS_LO : Fld := ⟨.MAC_TC_ADJ, 0, 31, 0⟩
def MAC_TC_ADJ_OFS_HI : Fld := ⟨.MAC_TC_ADJ, 1, 31, 0⟩
def MAC_TC_TIME_NS : Fld := ⟨.MAC_TC_TIME, 0, 31, 0⟩
def MAC_TC_TIME_SEC_LO : Fld := ⟨.MAC_TC_TIME, 1, 31, 0⟩
def MAC_TC_TIME_SEC_HI : Fld := ⟨.MAC_TC_TIME, 2, 15, 0⟩
def MAC_PORT_CFG_EN : Fld := ⟨.MAC_PORT_CFG, 0, 31, 31⟩
def MAC_PORT_CFG_AN_EN : Fld := ⟨.MAC_PORT_CFG, 0, 30, 30⟩
def MAC_PORT_CFG_FEC : Fld := ⟨.MAC_PORT_CFG, 0, 29, 28⟩
def MAC_PORT_CFG_LANE_RATE : Fld := ⟨.MAC_PORT_CFG, 0, 27, 24⟩
def MAC_PORT_CFG_MAX_LEN : Fld := ⟨.MAC_PORT_CFG, 0, 13, 0⟩
def MAC_PORT_STAT_UP : Fld := ⟨.MAC_PORT_STAT, 0, 31, 31⟩
def MAC_PORT_STAT_STATE : Fld := ⟨.MAC_PORT_STAT, 0, 30, 28⟩
def MAC_PORT_STAT_LANE_RATE : Fld := ⟨.MAC_PORT_STAT, 0, 27, 24⟩
def MAC_PORT_STAT_FEC : Fld := ⟨.MAC_PORT_STAT, 0, 23, 22⟩
def MAC_PORT_STAT_CFGERR : Fld := ⟨.MAC_PORT_STAT, 0, 21, 21⟩
def MAC_PORT_STAT_MEMBER : Fld := ⟨.MAC_PORT_STAT, 0, 20, 20⟩
def MAC_ING_CFG_PMODE : Fld := ⟨.MAC_ING_CFG, 0, 31, 30⟩
def MAC_ING_CFG_DEFP : Fld := ⟨.MAC_ING_CFG, 0, 29, 27⟩
def MAC_ING_CFG_DEF_TENANT : Fld := ⟨.MAC_ING_CFG, 0, 24, 16⟩
def MAC_ING_CFG_DEF_BD : Fld := ⟨.MAC_ING_CFG, 0, 11, 0⟩
def MAC_DSCP_MAP_PRIO : Fld := ⟨.MAC_DSCP_MAP, 0, 23, 0⟩
def MAC_PFC_CFG_MODE : Fld := ⟨.MAC_PFC_CFG, 0, 31, 30⟩
def MAC_PFC_CFG_TX_EN : Fld := ⟨.MAC_PFC_CFG, 0, 23, 16⟩
def MAC_PFC_CFG_RX_EN : Fld := ⟨.MAC_PFC_CFG, 0, 15, 8⟩
def MAC_PAUSE_QUANTA_QUANTA : Fld := ⟨.MAC_PAUSE_QUANTA, 0, 15, 0⟩
def MAC_WD_CFG_EN : Fld := ⟨.MAC_WD_CFG, 0, 31, 31⟩
def MAC_WD_CFG_TREC_MS : Fld := ⟨.MAC_WD_CFG, 0, 29, 16⟩
def MAC_WD_CFG_TWD_MS : Fld := ⟨.MAC_WD_CFG, 0, 13, 0⟩
def MAC_WD_STAT_STORM : Fld := ⟨.MAC_WD_STAT, 0, 15, 8⟩
def MAC_WD_STAT_PAUSED : Fld := ⟨.MAC_WD_STAT, 0, 7, 0⟩
def MAC_PAUSE_HWM_CELLS : Fld := ⟨.MAC_PAUSE_HWM, 0, 17, 0⟩
def MAC_PAUSE_LWM_CELLS : Fld := ⟨.MAC_PAUSE_LWM, 0, 17, 0⟩
def MAC_GCL_CTL_COMMIT : Fld := ⟨.MAC_GCL_CTL, 0, 31, 31⟩
def MAC_GCL_CTL_ENABLE : Fld := ⟨.MAC_GCL_CTL, 0, 30, 30⟩
def MAC_GCL_CTL_PENDING : Fld := ⟨.MAC_GCL_CTL, 0, 29, 29⟩
def MAC_GCL_CTL_BADLIST : Fld := ⟨.MAC_GCL_CTL, 0, 28, 28⟩
def MAC_GCL_CTL_LEN : Fld := ⟨.MAC_GCL_CTL, 0, 10, 0⟩
def MAC_GCL_CYCLE_NS : Fld := ⟨.MAC_GCL_CYCLE, 0, 29, 0⟩
def MAC_GCL_BASE_SEC_SEC : Fld := ⟨.MAC_GCL_BASE_SEC, 0, 31, 0⟩
def MAC_GCL_BASE_NS_NS : Fld := ⟨.MAC_GCL_BASE_NS, 0, 29, 0⟩
def MAC_KERF_AUTO : Fld := ⟨.MAC_KERF, 0, 31, 31⟩
def MAC_KERF_NS : Fld := ⟨.MAC_KERF, 0, 19, 0⟩
def MAC_QMAXF_MAXF : Fld := ⟨.MAC_QMAXF, 0, 13, 0⟩
def MAC_MOD_CMD_GO : Fld := ⟨.MAC_MOD_CMD, 0, 31, 31⟩
def MAC_MOD_CMD_READ : Fld := ⟨.MAC_MOD_CMD, 0, 30, 30⟩
def MAC_MOD_CMD_FAST : Fld := ⟨.MAC_MOD_CMD, 0, 29, 29⟩
def MAC_MOD_CMD_DEV : Fld := ⟨.MAC_MOD_CMD, 0, 22, 16⟩
def MAC_MOD_CMD_OFFSET : Fld := ⟨.MAC_MOD_CMD, 0, 15, 8⟩
def MAC_MOD_CMD_LEN : Fld := ⟨.MAC_MOD_CMD, 0, 3, 0⟩
def MAC_MOD_STAT_BUSY : Fld := ⟨.MAC_MOD_STAT, 0, 31, 31⟩
def MAC_MOD_STAT_DONE : Fld := ⟨.MAC_MOD_STAT, 0, 30, 30⟩
def MAC_MOD_STAT_NACK : Fld := ⟨.MAC_MOD_STAT, 0, 29, 29⟩
def MAC_MOD_STAT_STUCK : Fld := ⟨.MAC_MOD_STAT, 0, 28, 28⟩
def MAC_MOD_STAT_UNAVAIL : Fld := ⟨.MAC_MOD_STAT, 0, 27, 27⟩
def MAC_MOD_STAT_TIMEOUT : Fld := ⟨.MAC_MOD_STAT, 0, 26, 26⟩
def MAC_MOD_DATA_DATA : Fld := ⟨.MAC_MOD_DATA, 0, 31, 0⟩
def MAC_GCL_INTERVAL : Fld := ⟨.MAC_GCL, 0, 29, 0⟩
def MAC_GCL_GATES : Fld := ⟨.MAC_GCL, 1, 7, 0⟩
def CLS_PSTATE_LAYER_ID : Fld := ⟨.CLS_PSTATE, 0, 31, 24⟩
def CLS_PSTATE_LEN_FIXED : Fld := ⟨.CLS_PSTATE, 0, 23, 16⟩
def CLS_PSTATE_LENF_BYTE : Fld := ⟨.CLS_PSTATE, 0, 15, 8⟩
def CLS_PSTATE_LENF_LSB : Fld := ⟨.CLS_PSTATE, 0, 7, 5⟩
def CLS_PSTATE_LENF_BITS : Fld := ⟨.CLS_PSTATE, 0, 4, 1⟩
def CLS_PSTATE_SEL_BYTE : Fld := ⟨.CLS_PSTATE, 1, 31, 24⟩
def CLS_PSTATE_SEL_BITS : Fld := ⟨.CLS_PSTATE, 1, 23, 18⟩
def CLS_PSTATE_LEN_SHIFT : Fld := ⟨.CLS_PSTATE, 1, 17, 16⟩
def CLS_PSTATE_CHECKS : Fld := ⟨.CLS_PSTATE, 1, 15, 4⟩
def CLS_PSTATE_FRAG : Fld := ⟨.CLS_PSTATE, 1, 3, 2⟩
def CLS_PSTATE_TRANS_BASE : Fld := ⟨.CLS_PSTATE, 2, 31, 22⟩
def CLS_PSTATE_TRANS_CNT : Fld := ⟨.CLS_PSTATE, 2, 21, 15⟩
def CLS_PSTATE_DEFAULT_NEXT : Fld := ⟨.CLS_PSTATE, 2, 7, 0⟩
def CLS_PTRANS_VALUE : Fld := ⟨.CLS_PTRANS, 0, 31, 0⟩
def CLS_PTRANS_MASK : Fld := ⟨.CLS_PTRANS, 1, 31, 0⟩
def CLS_PTRANS_NEXT : Fld := ⟨.CLS_PTRANS, 2, 31, 24⟩
def CLS_ARB_WT_RECIRC : Fld := ⟨.CLS_ARB_WT, 0, 11, 8⟩
def CLS_ARB_WT_HOST : Fld := ⟨.CLS_ARB_WT, 0, 7, 4⟩
def CLS_ARB_WT_CORE : Fld := ⟨.CLS_ARB_WT, 0, 3, 0⟩
def CLS_PARSE_CTL_COMMIT : Fld := ⟨.CLS_PARSE_CTL, 0, 31, 31⟩
def CLS_PARSE_CTL_ACTIVE : Fld := ⟨.CLS_PARSE_CTL, 0, 30, 30⟩
def CLS_PARSE_CTL_WRACT : Fld := ⟨.CLS_PARSE_CTL, 0, 29, 29⟩
def CLS_MAL_ACT_ACT : Fld := ⟨.CLS_MAL_ACT, 0, 23, 0⟩
def CLS_EXC_POOL_POOL : Fld := ⟨.CLS_EXC_POOL, 0, 5, 0⟩
def CLS_EXC_HOST_FUNC : Fld := ⟨.CLS_EXC_HOST, 0, 24, 16⟩
def CLS_EXC_HOST_QUEUE : Fld := ⟨.CLS_EXC_HOST, 0, 7, 0⟩
def CLS_START_FIRST_TBL : Fld := ⟨.CLS_START, 0, 15, 8⟩
def CLS_START_STATE : Fld := ⟨.CLS_START, 0, 7, 0⟩
def CLS_RSS_KEY_KEY : Fld := ⟨.CLS_RSS_KEY, 0, 31, 0⟩
def CLS_MIRROR_EN : Fld := ⟨.CLS_MIRROR, 0, 31, 31⟩
def CLS_MIRROR_HOST : Fld := ⟨.CLS_MIRROR, 0, 30, 30⟩
def CLS_MIRROR_FUNC : Fld := ⟨.CLS_MIRROR, 0, 29, 21⟩
def CLS_MIRROR_PORT : Fld := ⟨.CLS_MIRROR, 0, 20, 17⟩
def CLS_MIRROR_CLASS : Fld := ⟨.CLS_MIRROR, 0, 16, 14⟩
def CLS_MIRROR_TRUNC : Fld := ⟨.CLS_MIRROR, 0, 13, 0⟩
def CLS_TCMD_GO : Fld := ⟨.CLS_TCMD, 0, 31, 31⟩
def CLS_TCMD_BUSY : Fld := ⟨.CLS_TCMD, 0, 30, 30⟩
def CLS_TCMD_OP : Fld := ⟨.CLS_TCMD, 0, 29, 27⟩
def CLS_TCMD_STATUS : Fld := ⟨.CLS_TCMD, 0, 26, 24⟩
def CLS_TCMD_TBL : Fld := ⟨.CLS_TCMD, 0, 23, 18⟩
def CLS_TCMD_INDEX : Fld := ⟨.CLS_TCMD, 0, 17, 0⟩
def CLS_TKEY_DATA : Fld := ⟨.CLS_TKEY, 0, 31, 0⟩
def CLS_TACT_ACTION : Fld := ⟨.CLS_TACT, 0, 7, 0⟩
def CLS_TDATA_LO : Fld := ⟨.CLS_TDATA, 0, 31, 0⟩
def CLS_TDATA_HI : Fld := ⟨.CLS_TDATA, 1, 31, 0⟩
def CLS_TMPL_HDR_LEN : Fld := ⟨.CLS_TMPL_HDR, 0, 7, 0⟩
def CLS_TMPL_HDR_FIX1 : Fld := ⟨.CLS_TMPL_HDR, 1, 31, 16⟩
def CLS_TMPL_HDR_FIX0 : Fld := ⟨.CLS_TMPL_HDR, 1, 15, 0⟩
def CLS_TMPL_HDR_FIX3 : Fld := ⟨.CLS_TMPL_HDR, 2, 31, 16⟩
def CLS_TMPL_HDR_FIX2 : Fld := ⟨.CLS_TMPL_HDR, 2, 15, 0⟩
def CLS_TBL_EN : Fld := ⟨.CLS_TBL, 0, 31, 31⟩
def CLS_TBL_KIND : Fld := ⟨.CLS_TBL, 0, 30, 29⟩
def CLS_TBL_REQ_FULL : Fld := ⟨.CLS_TBL, 0, 28, 28⟩
def CLS_TBL_STAGE : Fld := ⟨.CLS_TBL, 0, 27, 24⟩
def CLS_TBL_KEY_WORDS : Fld := ⟨.CLS_TBL, 0, 20, 16⟩
def CLS_TBL_SEED : Fld := ⟨.CLS_TBL, 1, 31, 0⟩
def CLS_TBL_NB_K : Fld := ⟨.CLS_TBL, 2, 14, 0⟩
def CLS_TBL_MISS : Fld := ⟨.CLS_TBL, 3, 7, 0⟩
def CLS_TBL_BADCFG : Fld := ⟨.CLS_TBL, 4, 31, 31⟩
def CLS_TBL_HELDCFG : Fld := ⟨.CLS_TBL, 4, 30, 30⟩
def CLS_TBL_STASH : Fld := ⟨.CLS_TBL, 4, 5, 0⟩
def CLS_TBL_ENTRIES : Fld := ⟨.CLS_TBL, 5, 26, 0⟩
def CLS_KEX_VALID : Fld := ⟨.CLS_KEX, 0, 31, 31⟩
def CLS_KEX_META : Fld := ⟨.CLS_KEX, 0, 30, 30⟩
def CLS_KEX_OCC : Fld := ⟨.CLS_KEX, 0, 29, 28⟩
def CLS_KEX_LAYER_ID : Fld := ⟨.CLS_KEX, 0, 27, 20⟩
def CLS_KEX_BYTE : Fld := ⟨.CLS_KEX, 0, 19, 12⟩
def CLS_KEX_BIT : Fld := ⟨.CLS_KEX, 0, 11, 9⟩
def CLS_KEX_WIDTH : Fld := ⟨.CLS_KEX, 0, 6, 0⟩
def FWD_TUQ_BASE_ADDR_LO : Fld := ⟨.FWD_TUQ_BASE, 0, 31, 5⟩
def FWD_TUQ_BASE_ADDR_HI : Fld := ⟨.FWD_TUQ_BASE, 1, 15, 0⟩
def FWD_TUQ_CTL_EN : Fld := ⟨.FWD_TUQ_CTL, 0, 31, 31⟩
def FWD_TUQ_CTL_BUSY : Fld := ⟨.FWD_TUQ_CTL, 0, 30, 30⟩
def FWD_TUQ_CTL_LOG2_SIZE : Fld := ⟨.FWD_TUQ_CTL, 0, 4, 0⟩
def FWD_TUQ_PI_PI : Fld := ⟨.FWD_TUQ_PI, 0, 15, 0⟩
def FWD_TUQ_CI_CI : Fld := ⟨.FWD_TUQ_CI, 0, 15, 0⟩
def FWD_TRIE_STAT_V4_PFX : Fld := ⟨.FWD_TRIE_STAT, 0, 23, 0⟩
def FWD_TRIE_STAT_V6_PFX : Fld := ⟨.FWD_TRIE_STAT, 1, 23, 0⟩
def FWD_TRIE_STAT_USED_KIB : Fld := ⟨.FWD_TRIE_STAT, 2, 13, 0⟩
def FWD_LEARN_CFG_ACT : Fld := ⟨.FWD_LEARN_CFG, 0, 23, 16⟩
def FWD_LEARN_CFG_FAIL_LIMIT : Fld := ⟨.FWD_LEARN_CFG, 0, 15, 0⟩
def FWD_BRT_EN : Fld := ⟨.FWD_BRT, 0, 31, 31⟩
def FWD_BRT_HOME : Fld := ⟨.FWD_BRT, 0, 9, 8⟩
def FWD_BRT_TBL : Fld := ⟨.FWD_BRT, 0, 5, 0⟩
def FWD_BD_LEARN_EN : Fld := ⟨.FWD_BD, 0, 31, 31⟩
def FWD_BD_FLOOD_HOST : Fld := ⟨.FWD_BD, 0, 30, 30⟩
def FWD_BD_FLOOD_CLASS : Fld := ⟨.FWD_BD, 0, 29, 27⟩
def FWD_BD_FLOOD_PORTS : Fld := ⟨.FWD_BD, 0, 15, 0⟩
def FWD_BD_FLOOD_FUNC : Fld := ⟨.FWD_BD, 1, 24, 16⟩
def FWD_BD_FLOOD_QUEUE : Fld := ⟨.FWD_BD, 1, 7, 0⟩
def FWD_AGE_EN : Fld := ⟨.FWD_AGE, 0, 31, 31⟩
def FWD_AGE_SLOW : Fld := ⟨.FWD_AGE, 0, 30, 30⟩
def FWD_AGE_PERIOD_S : Fld := ⟨.FWD_AGE, 0, 15, 0⟩
def SCH_BUF_STAT_USED : Fld := ⟨.SCH_BUF_STAT, 0, 16, 0⟩
def SCH_LAT_CFG_S : Fld := ⟨.SCH_LAT_CFG, 0, 3, 0⟩
def SCH_STAT_BADCFG : Fld := ⟨.SCH_STAT, 0, 31, 31⟩
def SCH_STAT_BUSYCFG : Fld := ⟨.SCH_STAT, 0, 30, 30⟩
def SCH_IN_LIMIT_CELLS : Fld := ⟨.SCH_IN_LIMIT, 0, 16, 0⟩
def SCH_IN_OCC_CELLS : Fld := ⟨.SCH_IN_OCC, 0, 16, 0⟩
def SCH_CLASS_SP : Fld := ⟨.SCH_CLASS, 0, 31, 31⟩
def SCH_CLASS_WEIGHT : Fld := ⟨.SCH_CLASS, 0, 15, 0⟩
def SCH_SHAPE_CIR : Fld := ⟨.SCH_SHAPE, 0, 20, 0⟩
def SCH_SHAPE_CBS : Fld := ⟨.SCH_SHAPE, 1, 23, 0⟩
def SCH_SHAPE_PIR : Fld := ⟨.SCH_SHAPE, 2, 20, 0⟩
def SCH_SHAPE_PBS : Fld := ⟨.SCH_SHAPE, 3, 23, 0⟩
def SCH_TNODE_EN : Fld := ⟨.SCH_TNODE, 0, 31, 31⟩
def SCH_TNODE_CLASS : Fld := ⟨.SCH_TNODE, 0, 30, 26⟩
def SCH_TNODE_WEIGHT : Fld := ⟨.SCH_TNODE, 0, 15, 0⟩
def SCH_TNODE_QCNT_M1 : Fld := ⟨.SCH_TNODE, 1, 21, 16⟩
def SCH_TNODE_QBASE : Fld := ⟨.SCH_TNODE, 1, 13, 0⟩
def SCH_TMAP_VALID : Fld := ⟨.SCH_TMAP, 0, 31, 31⟩
def SCH_TMAP_NODE : Fld := ⟨.SCH_TMAP, 0, 11, 0⟩
def SCH_QUEUE_WEIGHT : Fld := ⟨.SCH_QUEUE, 0, 31, 16⟩
def SCH_QUEUE_DROP_RED : Fld := ⟨.SCH_QUEUE, 0, 0, 0⟩
def SCH_QUEUE_LIMIT : Fld := ⟨.SCH_QUEUE, 1, 16, 0⟩
def SCH_QUEUE_YLIMIT : Fld := ⟨.SCH_QUEUE, 2, 16, 0⟩
def SCH_QDEPTH_BYTES : Fld := ⟨.SCH_QDEPTH, 0, 31, 0⟩
def SCH_POL_MODE : Fld := ⟨.SCH_POL, 0, 31, 30⟩
def SCH_POL_AWARE : Fld := ⟨.SCH_POL, 0, 29, 29⟩
def SCH_POL_CIR : Fld := ⟨.SCH_POL, 0, 20, 0⟩
def SCH_POL_CBS : Fld := ⟨.SCH_POL, 1, 23, 0⟩
def SCH_POL_PIR : Fld := ⟨.SCH_POL, 2, 20, 0⟩
def SCH_POL_EBS_PBS : Fld := ⟨.SCH_POL, 3, 23, 0⟩
def HIF_PORT_CFG_EN : Fld := ⟨.HIF_PORT_CFG, 0, 31, 31⟩
def HIF_PORT_CFG_BIFURC : Fld := ⟨.HIF_PORT_CFG, 0, 30, 29⟩
def HIF_PORT_CFG_MAX_GEN : Fld := ⟨.HIF_PORT_CFG, 0, 28, 26⟩
def HIF_LINK_STAT_UP : Fld := ⟨.HIF_LINK_STAT, 0, 31, 31⟩
def HIF_LINK_STAT_GEN : Fld := ⟨.HIF_LINK_STAT, 0, 30, 28⟩
def HIF_LINK_STAT_WIDTH : Fld := ⟨.HIF_LINK_STAT, 0, 27, 23⟩
def HIF_LINK_STAT_FLIT : Fld := ⟨.HIF_LINK_STAT, 0, 22, 22⟩
def HIF_LINK_STAT_LTSSM : Fld := ⟨.HIF_LINK_STAT, 0, 21, 18⟩
def HIF_STAT_BADCFG : Fld := ⟨.HIF_STAT, 0, 31, 31⟩
def HIF_STAT_ITT_OVLP : Fld := ⟨.HIF_STAT, 0, 30, 30⟩
def HIF_PF_CFG_EN : Fld := ⟨.HIF_PF_CFG, 0, 31, 31⟩
def HIF_PF_CFG_PORT : Fld := ⟨.HIF_PF_CFG, 0, 30, 30⟩
def HIF_PF_CFG_LINK : Fld := ⟨.HIF_PF_CFG, 0, 29, 28⟩
def HIF_PF_CFG_TOTALVFS : Fld := ⟨.HIF_PF_CFG, 0, 24, 16⟩
def HIF_PF_CFG_VF_BASE : Fld := ⟨.HIF_PF_CFG, 0, 8, 0⟩
def HIF_PF_CFG_BAR0_LOG2 : Fld := ⟨.HIF_PF_CFG, 1, 31, 27⟩
def HIF_PF_CFG_BAR4_LOG2 : Fld := ⟨.HIF_PF_CFG, 1, 26, 21⟩
def HIF_PF_CFG_VF_BAR0_LOG2 : Fld := ⟨.HIF_PF_CFG, 1, 20, 16⟩
def HIF_PF_CFG_VF_BAR4_LOG2 : Fld := ⟨.HIF_PF_CFG, 1, 15, 10⟩
def HIF_PF_CFG_CLASS : Fld := ⟨.HIF_PF_CFG, 2, 31, 8⟩
def HIF_FUNC_RES_PENDING : Fld := ⟨.HIF_FUNC_RES, 0, 31, 31⟩
def HIF_FUNC_RES_TENANT : Fld := ⟨.HIF_FUNC_RES, 0, 24, 16⟩
def HIF_FUNC_RES_QP_BASE : Fld := ⟨.HIF_FUNC_RES, 0, 15, 0⟩
def HIF_FUNC_RES_QP_CNT : Fld := ⟨.HIF_FUNC_RES, 1, 31, 23⟩
def HIF_FUNC_RES_EQ_CNT : Fld := ⟨.HIF_FUNC_RES, 1, 20, 16⟩
def HIF_FUNC_RES_VEC_CNT : Fld := ⟨.HIF_FUNC_RES, 2, 31, 20⟩
def HIF_FUNC_RES_VEC_BASE : Fld := ⟨.HIF_FUNC_RES, 2, 14, 0⟩
def HIF_ITT_WBASE : Fld := ⟨.HIF_ITT, 0, 31, 8⟩
def HIF_ITT_BAR : Fld := ⟨.HIF_ITT, 0, 7, 6⟩
def HIF_ITT_LOG2 : Fld := ⟨.HIF_ITT, 0, 4, 0⟩
def HIF_ITT_IBASE_LO : Fld := ⟨.HIF_ITT, 1, 31, 0⟩
def HIF_ITT_VALID : Fld := ⟨.HIF_ITT, 2, 31, 31⟩
def HIF_ITT_RD : Fld := ⟨.HIF_ITT, 2, 30, 30⟩
def HIF_ITT_WR : Fld := ⟨.HIF_ITT, 2, 29, 29⟩
def HIF_ITT_ORDER : Fld := ⟨.HIF_ITT, 2, 28, 28⟩
def HIF_ITT_POISON_REJ : Fld := ⟨.HIF_ITT, 2, 27, 27⟩
def HIF_ITT_IBASE_HI : Fld := ⟨.HIF_ITT, 2, 15, 0⟩
def HIF_ITT_FUNC : Fld := ⟨.HIF_ITT, 3, 8, 0⟩
def HIF_OTT_VALID : Fld := ⟨.HIF_OTT, 0, 31, 31⟩
def HIF_OTT_AT : Fld := ⟨.HIF_OTT, 0, 30, 30⟩
def HIF_OTT_PV : Fld := ⟨.HIF_OTT, 0, 29, 29⟩
def HIF_OTT_PMR : Fld := ⟨.HIF_OTT, 0, 28, 28⟩
def HIF_OTT_NS : Fld := ⟨.HIF_OTT, 0, 27, 27⟩
def HIF_OTT_RLX : Fld := ⟨.HIF_OTT, 0, 26, 26⟩
def HIF_OTT_LOG2 : Fld := ⟨.HIF_OTT, 0, 25, 21⟩
def HIF_OTT_PASID : Fld := ⟨.HIF_OTT, 1, 19, 0⟩
def HIF_OTT_OBASE_LO : Fld := ⟨.HIF_OTT, 2, 31, 12⟩
def HIF_OTT_OBASE_HI : Fld := ⟨.HIF_OTT, 3, 1, 0⟩
def HIF_OTT_HADDR_LO : Fld := ⟨.HIF_OTT, 4, 31, 12⟩
def HIF_OTT_HADDR_HI : Fld := ⟨.HIF_OTT, 5, 31, 0⟩
def HIF_OTT_FUNC : Fld := ⟨.HIF_OTT, 6, 8, 0⟩
def QCP_RING_ADDR_LO : Fld := ⟨.QCP_RING, 0, 31, 12⟩
def QCP_RING_ADDR_HI : Fld := ⟨.QCP_RING, 1, 31, 0⟩
def QCP_RING_LOG2 : Fld := ⟨.QCP_RING, 2, 3, 0⟩
def QCP_CTL_EN : Fld := ⟨.QCP_CTL, 0, 31, 31⟩
def QCP_CTL_PV : Fld := ⟨.QCP_CTL, 0, 30, 30⟩
def QCP_CTL_PASID : Fld := ⟨.QCP_CTL, 0, 19, 0⟩
def QCP_SCHED_WEIGHT : Fld := ⟨.QCP_SCHED, 0, 15, 8⟩
def QCP_SCHED_BURST : Fld := ⟨.QCP_SCHED, 0, 6, 0⟩
def QCP_CQ_ARM_ARM : Fld := ⟨.QCP_CQ_ARM, 0, 31, 31⟩
def QCP_CQ_ARM_VEC : Fld := ⟨.QCP_CQ_ARM, 0, 26, 16⟩
def QCP_CQ_ARM_CI : Fld := ⟨.QCP_CQ_ARM, 0, 15, 0⟩
def QCP_STAT_STOPPED : Fld := ⟨.QCP_STAT, 0, 31, 31⟩
def QCP_STAT_CQ_PI : Fld := ⟨.QCP_STAT, 0, 15, 0⟩
def QCP_IDX_RQ_CI : Fld := ⟨.QCP_IDX, 0, 31, 16⟩
def QCP_IDX_SQ_CI : Fld := ⟨.QCP_IDX, 0, 15, 0⟩
def EQC_RING_ADDR_LO : Fld := ⟨.EQC_RING, 0, 31, 12⟩
def EQC_RING_ADDR_HI : Fld := ⟨.EQC_RING, 1, 31, 0⟩
def EQC_RING_LOG2 : Fld := ⟨.EQC_RING, 2, 3, 0⟩
def EQC_CTL_EN : Fld := ⟨.EQC_CTL, 0, 31, 31⟩
def EQC_CTL_VEC : Fld := ⟨.EQC_CTL, 0, 10, 0⟩
def EQC_MASK_CODES : Fld := ⟨.EQC_MASK, 0, 17, 1⟩
def EQC_STAT_CI : Fld := ⟨.EQC_STAT, 0, 31, 16⟩
def EQC_STAT_PI : Fld := ⟨.EQC_STAT, 0, 15, 0⟩
def CHN_CTL_START : Fld := ⟨.CHN_CTL, 0, 31, 31⟩
def CHN_CTL_RESUME : Fld := ⟨.CHN_CTL, 0, 30, 30⟩
def CHN_CTL_HALT : Fld := ⟨.CHN_CTL, 0, 29, 29⟩
def CHN_STAT_STATE : Fld := ⟨.CHN_STAT, 0, 31, 30⟩
def CHN_STAT_BADADDR : Fld := ⟨.CHN_STAT, 0, 29, 29⟩
def CHN_HEAD_ADDR_LO : Fld := ⟨.CHN_HEAD, 0, 31, 6⟩
def CHN_HEAD_ADDR_HI : Fld := ⟨.CHN_HEAD, 1, 15, 0⟩
def CHN_STOP_AT_ADDR_LO : Fld := ⟨.CHN_STOP_AT, 0, 31, 6⟩
def CHN_STOP_AT_ADDR_HI : Fld := ⟨.CHN_STOP_AT, 1, 15, 0⟩
def RMA_CTX_CFG_BASE_LO : Fld := ⟨.RMA_CTX_CFG, 0, 31, 12⟩
def RMA_CTX_CFG_BASE_HI : Fld := ⟨.RMA_CTX_CFG, 1, 15, 0⟩
def RMA_CTX_CFG_QP_MAX : Fld := ⟨.RMA_CTX_CFG, 2, 24, 0⟩
def RMA_CTX_CFG_KEY_MAX : Fld := ⟨.RMA_CTX_CFG, 3, 24, 0⟩
def RMA_CFG_MIN_RNR : Fld := ⟨.RMA_CFG, 0, 12, 8⟩
def RMA_CC_EN : Fld := ⟨.RMA_CC, 0, 31, 31⟩
def RMA_CC_RATE_MIN : Fld := ⟨.RMA_CC, 0, 19, 0⟩
def RMA_CC_CNP_US : Fld := ⟨.RMA_CC, 1, 31, 20⟩
def RMA_CC_RATE_AI : Fld := ⟨.RMA_CC, 1, 19, 0⟩
def RMA_FUNC_QPN_BASE : Fld := ⟨.RMA_FUNC, 0, 23, 0⟩
def RMA_FUNC_QPN_CNT : Fld := ⟨.RMA_FUNC, 1, 24, 0⟩
def RMA_FUNC_KEY_BASE : Fld := ⟨.RMA_FUNC, 2, 23, 0⟩
def RMA_FUNC_KEY_CNT : Fld := ⟨.RMA_FUNC, 3, 24, 0⟩
def RMW_CMD_GO : Fld := ⟨.RMW_CMD, 0, 31, 31⟩
def RMW_CMD_BUSY : Fld := ⟨.RMW_CMD, 0, 30, 30⟩
def RMW_CMD_OP : Fld := ⟨.RMW_CMD, 0, 29, 27⟩
def RMW_CMD_STATUS : Fld := ⟨.RMW_CMD, 0, 26, 24⟩
def RMW_CMD_ID : Fld := ⟨.RMW_CMD, 0, 23, 0⟩
def RMW_DATA_DATA : Fld := ⟨.RMW_DATA, 0, 31, 0⟩
def STO_STAT_BADCFG : Fld := ⟨.STO_STAT, 0, 31, 31⟩
def STO_FUNC_NVME_EN : Fld := ⟨.STO_FUNC, 0, 31, 31⟩
def STO_FUNC_CBF_EN : Fld := ⟨.STO_FUNC, 0, 30, 30⟩
def STO_FUNC_IOQ_MAX : Fld := ⟨.STO_FUNC, 0, 22, 12⟩
def STO_FUNC_CBF_NS : Fld := ⟨.STO_FUNC, 0, 11, 0⟩
def STO_PATH_VALID : Fld := ⟨.STO_PATH, 0, 31, 31⟩
def STO_PATH_KIND : Fld := ⟨.STO_PATH, 0, 30, 30⟩
def STO_PATH_DOWN : Fld := ⟨.STO_PATH, 0, 29, 29⟩
def STO_PATH_HANDLE : Fld := ⟨.STO_PATH, 0, 23, 0⟩
def STO_NS_VALID : Fld := ⟨.STO_NS, 0, 31, 31⟩
def STO_NS_KIND : Fld := ⟨.STO_NS, 0, 30, 29⟩
def STO_NS_BS4K : Fld := ⟨.STO_NS, 0, 28, 28⟩
def STO_NS_FUNC : Fld := ⟨.STO_NS, 0, 24, 16⟩
def STO_NS_NSID : Fld := ⟨.STO_NS, 0, 7, 0⟩
def STO_NS_SIZE_LO : Fld := ⟨.STO_NS, 1, 31, 0⟩
def STO_NS_SIZE_HI : Fld := ⟨.STO_NS, 2, 15, 0⟩
def STO_NS_PATH1 : Fld := ⟨.STO_NS, 3, 31, 24⟩
def STO_NS_PATH0 : Fld := ⟨.STO_NS, 3, 23, 16⟩
def STO_NS_TARGET_LO : Fld := ⟨.STO_NS, 4, 31, 0⟩
def STO_NS_TARGET_HI : Fld := ⟨.STO_NS, 5, 15, 0⟩
def CBF_CAP_BLOCKS_LO : Fld := ⟨.CBF_CAP, 0, 31, 0⟩
def CBF_CAP_BS4K : Fld := ⟨.CBF_CAP, 1, 31, 31⟩
def CBF_CAP_BLOCKS_HI : Fld := ⟨.CBF_CAP, 1, 15, 0⟩
def CBF_CTL_EN : Fld := ⟨.CBF_CTL, 0, 31, 31⟩
def CBF_CTL_VEC : Fld := ⟨.CBF_CTL, 0, 10, 0⟩
def CBF_ISSUE_TAGS : Fld := ⟨.CBF_ISSUE, 0, 31, 0⟩
def CBF_BUSY_TAGS : Fld := ⟨.CBF_BUSY, 0, 31, 0⟩
def CBF_DONE_TAGS : Fld := ⟨.CBF_DONE, 0, 31, 0⟩
def CBF_PWR_IDLE_REQ : Fld := ⟨.CBF_PWR, 0, 31, 31⟩
def CBF_PWR_IDLE_ACK : Fld := ⟨.CBF_PWR, 0, 30, 30⟩
def CBF_PWR_ENTERING : Fld := ⟨.CBF_PWR, 0, 29, 29⟩
def CBF_STAT_TAGBUSY : Fld := ⟨.CBF_STAT, 0, 31, 31⟩
def CBF_STAT_NOPATH : Fld := ⟨.CBF_STAT, 0, 30, 30⟩
def CBF_STAT_READY : Fld := ⟨.CBF_STAT, 0, 29, 29⟩
def CBF_SLOT_FLAGS : Fld := ⟨.CBF_SLOT, 0, 15, 8⟩
def CBF_SLOT_OPCODE : Fld := ⟨.CBF_SLOT, 0, 7, 0⟩
def CBF_SLOT_BLOCKS : Fld := ⟨.CBF_SLOT, 1, 31, 0⟩
def CBF_SLOT_LBA_LO : Fld := ⟨.CBF_SLOT, 2, 31, 0⟩
def CBF_SLOT_LBA_HI : Fld := ⟨.CBF_SLOT, 3, 31, 0⟩
def CBF_SLOT_ADDR_LO : Fld := ⟨.CBF_SLOT, 4, 31, 0⟩
def CBF_SLOT_ADDR_HI : Fld := ⟨.CBF_SLOT, 5, 31, 0⟩
def CBF_SLOT_USER : Fld := ⟨.CBF_SLOT, 6, 31, 0⟩
def CBF_SLOT_SSYND : Fld := ⟨.CBF_SLOT, 8, 15, 8⟩
def CBF_SLOT_STATUS : Fld := ⟨.CBF_SLOT, 8, 7, 0⟩
def CBF_SLOT_BYTES : Fld := ⟨.CBF_SLOT, 9, 31, 0⟩
def CRY_CFG_PN_GAP_LOG2 : Fld := ⟨.CRY_CFG, 0, 5, 0⟩
def CRY_MSEC_CFG_EN : Fld := ⟨.CRY_MSEC_CFG, 0, 31, 31⟩
def CRY_MSEC_CFG_PROTECT_ALL : Fld := ⟨.CRY_MSEC_CFG, 0, 30, 30⟩
def CRY_MSEC_CFG_CONF : Fld := ⟨.CRY_MSEC_CFG, 0, 29, 29⟩
def CRY_MSEC_CFG_INCLUDE_SCI : Fld := ⟨.CRY_MSEC_CFG, 0, 28, 28⟩
def CRY_MSEC_CFG_VALIDATE : Fld := ⟨.CRY_MSEC_CFG, 0, 27, 26⟩
def CRY_MSEC_CFG_REPLAY : Fld := ⟨.CRY_MSEC_CFG, 0, 25, 25⟩
def CRY_MSEC_CFG_TX_AN : Fld := ⟨.CRY_MSEC_CFG, 0, 1, 0⟩
def CRY_SACMD_GO : Fld := ⟨.CRY_SACMD, 0, 31, 31⟩
def CRY_SACMD_BUSY : Fld := ⟨.CRY_SACMD, 0, 30, 30⟩
def CRY_SACMD_OP : Fld := ⟨.CRY_SACMD, 0, 29, 27⟩
def CRY_SACMD_STATUS : Fld := ⟨.CRY_SACMD, 0, 26, 24⟩
def CRY_SACMD_ID : Fld := ⟨.CRY_SACMD, 0, 23, 0⟩
def CRY_SADATA_DATA : Fld := ⟨.CRY_SADATA, 0, 31, 0⟩
def CVU_ASSIGN_OWNER : Fld := ⟨.CVU_ASSIGN, 0, 31, 30⟩
def CVU_ASSIGN_EVFUNC : Fld := ⟨.CVU_ASSIGN, 0, 26, 18⟩
def CVU_ASSIGN_ID : Fld := ⟨.CVU_ASSIGN, 0, 8, 0⟩
def CVU_CFG_EN : Fld := ⟨.CVU_CFG, 0, 31, 31⟩
def CVU_CFG_REFIN : Fld := ⟨.CVU_CFG, 0, 30, 30⟩
def CVU_CFG_REFOUT : Fld := ⟨.CVU_CFG, 0, 29, 29⟩
def CVU_CFG_ALIVE_EN : Fld := ⟨.CVU_CFG, 0, 28, 28⟩
def CVU_CFG_MODE : Fld := ⟨.CVU_CFG, 0, 27, 27⟩
def CVU_CFG_AW : Fld := ⟨.CVU_CFG, 0, 21, 17⟩
def CVU_CFG_FAULT_LIMIT : Fld := ⟨.CVU_CFG, 0, 15, 8⟩
def CVU_CFG_WIDTH : Fld := ⟨.CVU_CFG, 0, 6, 0⟩
def CVU_CTL_RESET : Fld := ⟨.CVU_CTL, 0, 31, 31⟩
def CVU_CTL_MSG : Fld := ⟨.CVU_CTL, 0, 30, 30⟩
def CVU_CTL_SEAL : Fld := ⟨.CVU_CTL, 0, 29, 29⟩
def CVU_CTL_CHECK : Fld := ⟨.CVU_CTL, 0, 28, 28⟩
def CVU_ALIVE_DID : Fld := ⟨.CVU_ALIVE, 0, 31, 16⟩
def CVU_ALIVE_WINDOW : Fld := ⟨.CVU_ALIVE, 0, 15, 0⟩
def CVU_ALIVE_CTR_SEEN : Fld := ⟨.CVU_ALIVE_CTR, 0, 31, 31⟩
def CVU_ALIVE_CTR_COUNTER : Fld := ⟨.CVU_ALIVE_CTR, 0, 15, 0⟩
def CVU_POLY_LO : Fld := ⟨.CVU_POLY, 0, 31, 0⟩
def CVU_POLY_HI : Fld := ⟨.CVU_POLY, 1, 31, 0⟩
def CVU_INIT_LO : Fld := ⟨.CVU_INIT, 0, 31, 0⟩
def CVU_INIT_HI : Fld := ⟨.CVU_INIT, 1, 31, 0⟩
def CVU_XOROUT_LO : Fld := ⟨.CVU_XOROUT, 0, 31, 0⟩
def CVU_XOROUT_HI : Fld := ⟨.CVU_XOROUT, 1, 31, 0⟩
def CVU_RXCRC_LO : Fld := ⟨.CVU_RXCRC, 0, 31, 0⟩
def CVU_RXCRC_HI : Fld := ⟨.CVU_RXCRC, 1, 31, 0⟩
def CVU_RESULT_LO : Fld := ⟨.CVU_RESULT, 0, 31, 0⟩
def CVU_RESULT_HI : Fld := ⟨.CVU_RESULT, 1, 31, 0⟩
def CVU_STAT_AFAULT : Fld := ⟨.CVU_STAT, 0, 31, 31⟩
def CVU_STAT_OUTCOME : Fld := ⟨.CVU_STAT, 0, 30, 28⟩
def CVU_STAT_CONSEC : Fld := ⟨.CVU_STAT, 0, 27, 20⟩
def CVU_FEED_DATA : Fld := ⟨.CVU_FEED, 0, 31, 0⟩
def PCB_CTL_OWN_EN : Fld := ⟨.PCB_CTL, 0, 31, 31⟩
def PCB_CTL_OWNER_T : Fld := ⟨.PCB_CTL, 0, 30, 30⟩
def PCB_CTL_OWNER : Fld := ⟨.PCB_CTL, 0, 29, 24⟩
def PCB_CTL_ACK_US : Fld := ⟨.PCB_CTL, 0, 15, 0⟩
def PCB_WIN_BASE_LO : Fld := ⟨.PCB_WIN, 0, 31, 12⟩
def PCB_WIN_BASE_HI : Fld := ⟨.PCB_WIN, 1, 15, 0⟩
def PCB_WIN_VALID : Fld := ⟨.PCB_WIN, 2, 31, 31⟩
def PCB_WIN_RD : Fld := ⟨.PCB_WIN, 2, 30, 30⟩
def PCB_WIN_WR : Fld := ⟨.PCB_WIN, 2, 29, 29⟩
def PCB_WIN_LOG2 : Fld := ⟨.PCB_WIN, 2, 5, 0⟩
def PCB_CORE_RUN : Fld := ⟨.PCB_CORE, 0, 31, 31⟩
def PCB_CORE_SFAULT : Fld := ⟨.PCB_CORE, 0, 30, 30⟩
def PCB_CORE_STATE : Fld := ⟨.PCB_CORE, 0, 29, 28⟩
def PCB_CORE_ENTRY : Fld := ⟨.PCB_CORE, 0, 15, 0⟩
def PCB_CORE_SCAUSE : Fld := ⟨.PCB_CORE, 1, 7, 0⟩
def PCB_CORE_SPC : Fld := ⟨.PCB_CORE, 2, 15, 0⟩
def PCB_CORE_STINFO_LO : Fld := ⟨.PCB_CORE, 4, 31, 0⟩
def PCB_CORE_STINFO_HI : Fld := ⟨.PCB_CORE, 5, 31, 0⟩
def PCB_POOLMAP_MEMBER : Fld := ⟨.PCB_POOLMAP, 0, 31, 31⟩
def PCB_POOLMAP_POOL : Fld := ⟨.PCB_POOLMAP, 0, 5, 0⟩
def PCB_POOLCFG_QUEUED : Fld := ⟨.PCB_POOLCFG, 0, 29, 16⟩
def PCB_POOLCFG_QMAX : Fld := ⟨.PCB_POOLCFG, 0, 13, 0⟩
def SCC_CORE_RUN : Fld := ⟨.SCC_CORE, 0, 31, 31⟩
def SCC_CORE_STATE : Fld := ⟨.SCC_CORE, 0, 30, 29⟩
def SCC_CORE_SFAULT : Fld := ⟨.SCC_CORE, 0, 28, 28⟩
def SCC_CORE_ENTRY_LO : Fld := ⟨.SCC_CORE, 1, 31, 12⟩
def SCC_CORE_ENTRY_HI : Fld := ⟨.SCC_CORE, 2, 15, 0⟩
def SCC_MSG_MSG : Fld := ⟨.SCC_MSG, 0, 1, 0⟩
def CRU_CTL_EN : Fld := ⟨.CRU_CTL, 0, 31, 31⟩
def CRU_CTL_MOVE_MAX : Fld := ⟨.CRU_CTL, 0, 23, 16⟩
def CRU_CTL_DECAY : Fld := ⟨.CRU_CTL, 0, 3, 0⟩
def CRU_WORK_FB_MAX : Fld := ⟨.CRU_WORK, 0, 31, 24⟩
def CRU_WORK_IMB_PCT : Fld := ⟨.CRU_WORK, 0, 23, 16⟩
def CRU_WORK_HOLD_NS : Fld := ⟨.CRU_WORK, 0, 12, 0⟩
def CRU_STAT_PLANNING : Fld := ⟨.CRU_STAT, 0, 31, 31⟩
def CRU_STAT_LOG_OVF : Fld := ⟨.CRU_STAT, 0, 30, 30⟩
def CRU_STAT_EVAC : Fld := ⟨.CRU_STAT, 0, 12, 8⟩
def CRU_STAT_MOVING : Fld := ⟨.CRU_STAT, 0, 7, 0⟩
def CRU_THRESH_HOT_MIN : Fld := ⟨.CRU_THRESH, 0, 31, 0⟩
def CRU_THRESH_COLD_MAX : Fld := ⟨.CRU_THRESH, 1, 31, 0⟩
def CRU_THRESH_HYST : Fld := ⟨.CRU_THRESH, 2, 31, 0⟩
def CRU_FREEZE_CLASSES : Fld := ⟨.CRU_FREEZE, 0, 7, 0⟩
def CRU_HOME_BASE_LO : Fld := ⟨.CRU_HOME, 0, 31, 12⟩
def CRU_HOME_BASE_HI : Fld := ⟨.CRU_HOME, 1, 15, 0⟩
def CRU_HOME_SIZE_MIB : Fld := ⟨.CRU_HOME, 2, 19, 0⟩
def CRU_PCMD_GO : Fld := ⟨.CRU_PCMD, 0, 31, 31⟩
def CRU_PCMD_BUSY : Fld := ⟨.CRU_PCMD, 0, 30, 30⟩
def CRU_PCMD_OP : Fld := ⟨.CRU_PCMD, 0, 29, 27⟩
def CRU_PCMD_STATUS : Fld := ⟨.CRU_PCMD, 0, 26, 24⟩
def CRU_PCMD_TIER : Fld := ⟨.CRU_PCMD, 0, 10, 9⟩
def CRU_PCMD_ARG : Fld := ⟨.CRU_PCMD, 0, 8, 0⟩
def CRU_PCMD_ID_LO : Fld := ⟨.CRU_PCMD, 1, 31, 0⟩
def CRU_PCMD_ID_HI : Fld := ⟨.CRU_PCMD, 2, 31, 0⟩
def CRU_PCMD_WHERE : Fld := ⟨.CRU_PCMD, 3, 7, 0⟩
def CRU_PCMD_HEAT : Fld := ⟨.CRU_PCMD, 4, 31, 0⟩
def CRU_LOG_BASE_BASE_LO : Fld := ⟨.CRU_LOG_BASE, 0, 31, 5⟩
def CRU_LOG_BASE_BASE_HI : Fld := ⟨.CRU_LOG_BASE, 1, 15, 0⟩
def CRU_LOG_CTL_EN : Fld := ⟨.CRU_LOG_CTL, 0, 31, 31⟩
def CRU_LOG_CTL_LOG2 : Fld := ⟨.CRU_LOG_CTL, 0, 4, 0⟩
def CRU_LOG_IDX_CI : Fld := ⟨.CRU_LOG_IDX, 0, 31, 16⟩
def CRU_LOG_IDX_PI : Fld := ⟨.CRU_LOG_IDX, 0, 15, 0⟩
def CRU_TENANT_FRZ : Fld := ⟨.CRU_TENANT, 0, 31, 31⟩
def CRU_TENANT_CLASS : Fld := ⟨.CRU_TENANT, 0, 30, 28⟩
def CRU_TENANT_N_KIB : Fld := ⟨.CRU_TENANT, 0, 23, 0⟩
def CRU_TENANT_F_KIB : Fld := ⟨.CRU_TENANT, 1, 23, 0⟩
def CRU_TUSE_N_KIB : Fld := ⟨.CRU_TUSE, 0, 23, 0⟩
def CRU_TUSE_F_KIB : Fld := ⟨.CRU_TUSE, 1, 23, 0⟩
def CRU_TBLCLS_PINV : Fld := ⟨.CRU_TBLCLS, 0, 31, 31⟩
def CRU_TBLCLS_PTIER : Fld := ⟨.CRU_TBLCLS, 0, 30, 29⟩
def CRU_TBLCLS_PREG : Fld := ⟨.CRU_TBLCLS, 0, 28, 27⟩
def CRU_TBLCLS_HINTV : Fld := ⟨.CRU_TBLCLS, 0, 26, 26⟩
def CRU_TBLCLS_HREG : Fld := ⟨.CRU_TBLCLS, 0, 25, 24⟩
def CRU_TBLCLS_CLASS : Fld := ⟨.CRU_TBLCLS, 0, 23, 21⟩
def CRU_TBLCLS_TENANT : Fld := ⟨.CRU_TBLCLS, 0, 8, 0⟩
def CRU_TASK_VALID : Fld := ⟨.CRU_TASK, 0, 31, 31⟩
def CRU_TASK_PINV : Fld := ⟨.CRU_TASK, 0, 30, 30⟩
def CRU_TASK_SC : Fld := ⟨.CRU_TASK, 0, 29, 24⟩
def CRU_TASK_REGIONS : Fld := ⟨.CRU_TASK, 0, 23, 20⟩
def CRU_TASK_CLASS : Fld := ⟨.CRU_TASK, 0, 19, 17⟩
def CRU_TASK_LOAD : Fld := ⟨.CRU_TASK, 1, 31, 0⟩
def CRU_RGN_FREE_MIN_KIB : Fld := ⟨.CRU_RGN, 0, 31, 16⟩
def CRU_RGN_PLACE_KIB : Fld := ⟨.CRU_RGN, 0, 15, 0⟩
def CRU_POOLGRP_GROUP : Fld := ⟨.CRU_POOLGRP, 0, 2, 0⟩
def CRU_SWAP_GO : Fld := ⟨.CRU_SWAP, 0, 31, 31⟩
def CRU_SWAP_ACTIVE : Fld := ⟨.CRU_SWAP, 0, 30, 30⟩
def CRU_SWAP_PENDING : Fld := ⟨.CRU_SWAP, 0, 29, 29⟩
def CRU_SWAP_KIND : Fld := ⟨.CRU_SWAP, 0, 28, 28⟩
def CRU_SWAP_NEW : Fld := ⟨.CRU_SWAP, 0, 15, 8⟩
def CRU_SWAP_OLD : Fld := ⟨.CRU_SWAP, 0, 7, 0⟩
def CRU_FBMAP_PENDING : Fld := ⟨.CRU_FBMAP, 0, 31, 31⟩
def CRU_FBMAP_CLASS : Fld := ⟨.CRU_FBMAP, 0, 30, 28⟩
def CRU_FBMAP_PINV : Fld := ⟨.CRU_FBMAP, 0, 27, 27⟩
def CRU_FBMAP_POOL : Fld := ⟨.CRU_FBMAP, 0, 5, 0⟩
def BOOT_STAT_PHASE : Fld := ⟨.BOOT_STAT, 0, 31, 30⟩
def BOOT_STAT_BANK : Fld := ⟨.BOOT_STAT, 0, 29, 29⟩
def BOOT_STAT_PREFMISS : Fld := ⟨.BOOT_STAT, 0, 28, 28⟩
def BOOT_STAT_FAST : Fld := ⟨.BOOT_STAT, 0, 27, 27⟩
def BOOT_STAT_CFG_EMPTY : Fld := ⟨.BOOT_STAT, 0, 26, 26⟩
def BOOT_STAT_WAKE : Fld := ⟨.BOOT_STAT, 0, 25, 25⟩
def BOOT_STAT_LAST_FAIL : Fld := ⟨.BOOT_STAT, 0, 19, 16⟩
def BOOT_STAT_ATTEMPTS : Fld := ⟨.BOOT_STAT, 0, 15, 0⟩
def BOOT_CTL_PREF : Fld := ⟨.BOOT_CTL, 0, 31, 31⟩
def BOOT_CTL_SLEEP_EN : Fld := ⟨.BOOT_CTL, 0, 30, 30⟩
def BOOT_EPOCH_LO : Fld := ⟨.BOOT_EPOCH, 0, 31, 0⟩
def BOOT_EPOCH_HI : Fld := ⟨.BOOT_EPOCH, 1, 31, 0⟩
def BOOT_REL_US : Fld := ⟨.BOOT_REL, 0, 31, 0⟩
def SB_CFG_VDM_REG : Fld := ⟨.SB_CFG, 0, 31, 31⟩
def SB_CFG_REQ_SESSION : Fld := ⟨.SB_CFG, 0, 30, 30⟩
def SB_CFG_I3C_EN : Fld := ⟨.SB_CFG, 0, 29, 29⟩
def SB_CFG_ADDR : Fld := ⟨.SB_CFG, 0, 6, 0⟩
def LDR_CMD_GO : Fld := ⟨.LDR_CMD, 0, 31, 31⟩
def LDR_CMD_BUSY : Fld := ⟨.LDR_CMD, 0, 30, 30⟩
def LDR_CMD_OP : Fld := ⟨.LDR_CMD, 0, 29, 27⟩
def LDR_CMD_STATUS : Fld := ⟨.LDR_CMD, 0, 26, 23⟩
def LDR_CMD_COMMIT : Fld := ⟨.LDR_CMD, 0, 22, 22⟩
def LDR_CMD_REGION : Fld := ⟨.LDR_CMD, 0, 21, 20⟩
def LDR_CMD_BLOCK : Fld := ⟨.LDR_CMD, 0, 19, 18⟩
def LDR_CMD_SLOT : Fld := ⟨.LDR_CMD, 0, 7, 0⟩
def LDR_SRC_ADDR_LO : Fld := ⟨.LDR_SRC, 0, 31, 12⟩
def LDR_SRC_ADDR_HI : Fld := ⟨.LDR_SRC, 1, 15, 0⟩
def LDR_DST_ADDR_LO : Fld := ⟨.LDR_DST, 0, 31, 12⟩
def LDR_DST_ADDR_HI : Fld := ⟨.LDR_DST, 1, 15, 0⟩
def IMP_CFG_BASE_LO : Fld := ⟨.IMP_CFG, 0, 31, 20⟩
def IMP_CFG_LOCK : Fld := ⟨.IMP_CFG, 0, 0, 0⟩
def IMP_CFG_BASE_HI : Fld := ⟨.IMP_CFG, 1, 15, 0⟩
def IMP_CFG_SIZE_GIB : Fld := ⟨.IMP_CFG, 2, 16, 0⟩
def IMP_RANGE_VALID : Fld := ⟨.IMP_RANGE, 0, 31, 31⟩
def IMP_RANGE_BASE_LO : Fld := ⟨.IMP_RANGE, 0, 30, 21⟩
def IMP_RANGE_BASE_HI : Fld := ⟨.IMP_RANGE, 1, 16, 0⟩
def IMP_RANGE_SIZE_2M : Fld := ⟨.IMP_RANGE, 2, 19, 0⟩
def ERR_CTL_REBOOT_MS : Fld := ⟨.ERR_CTL, 0, 31, 16⟩
def ERR_CTL_RGN_FO : Fld := ⟨.ERR_CTL, 0, 15, 15⟩
def ERR_CTL_EXT_EN : Fld := ⟨.ERR_CTL, 0, 14, 14⟩
def ERR_CTL_EXT_SC : Fld := ⟨.ERR_CTL, 0, 13, 8⟩
def ERR_CTL_EXT_T : Fld := ⟨.ERR_CTL, 0, 7, 7⟩
def ERR_CTL_CORR_LIMIT : Fld := ⟨.ERR_CTL, 0, 6, 0⟩
def ERR_STAT_SAFE : Fld := ⟨.ERR_STAT, 0, 31, 31⟩
def ERR_STAT_LATENT : Fld := ⟨.ERR_STAT, 0, 30, 30⟩
def ERR_STAT_FENCED : Fld := ⟨.ERR_STAT, 0, 29, 26⟩
def ERR_STAT_RESET : Fld := ⟨.ERR_STAT, 0, 25, 25⟩
def ERR_STAT_OVF : Fld := ⟨.ERR_STAT, 0, 6, 6⟩
def ERR_STAT_NEXT : Fld := ⟨.ERR_STAT, 0, 5, 0⟩
def ERR_LOG_STAMP_LO : Fld := ⟨.ERR_LOG, 0, 31, 0⟩
def ERR_LOG_VALID : Fld := ⟨.ERR_LOG, 1, 31, 31⟩
def ERR_LOG_CLASS : Fld := ⟨.ERR_LOG, 1, 30, 29⟩
def ERR_LOG_MECH : Fld := ⟨.ERR_LOG, 1, 28, 25⟩
def ERR_LOG_KIND : Fld := ⟨.ERR_LOG, 1, 24, 21⟩
def ERR_LOG_STAMP_HI : Fld := ⟨.ERR_LOG, 1, 15, 0⟩
def ERR_LOG_ACTION : Fld := ⟨.ERR_LOG, 2, 31, 24⟩
def ERR_LOG_CELL : Fld := ⟨.ERR_LOG, 2, 23, 0⟩
def ERR_LOG_DETAIL : Fld := ⟨.ERR_LOG, 3, 31, 0⟩
def SPARE_STAT_INITIAL : Fld := ⟨.SPARE_STAT, 0, 31, 24⟩
def SPARE_STAT_LEFT : Fld := ⟨.SPARE_STAT, 0, 23, 16⟩
def SPARE_STAT_RETIRED : Fld := ⟨.SPARE_STAT, 0, 15, 0⟩
def WEAR_THR_THRESH : Fld := ⟨.WEAR_THR, 0, 15, 0⟩
def ST_STAT_FRAME : Fld := ⟨.ST_STAT, 0, 31, 16⟩
def ST_STAT_ROUND : Fld := ⟨.ST_STAT, 0, 4, 0⟩
def ST_REPORT_TESTED : Fld := ⟨.ST_REPORT, 0, 15, 0⟩
def ST_REPORT_FAILED : Fld := ⟨.ST_REPORT, 1, 31, 16⟩
def ST_REPORT_OLDEST_MS : Fld := ⟨.ST_REPORT, 1, 15, 0⟩
def DET_STAT_PASS : Fld := ⟨.DET_STAT, 0, 12, 1⟩
def LK_STAT_TOOK : Fld := ⟨.LK_STAT, 0, 31, 31⟩
def LK_STAT_CAUSE : Fld := ⟨.LK_STAT, 0, 30, 29⟩
def LK_STAT_COUNT : Fld := ⟨.LK_STAT, 0, 15, 0⟩
def LK_CFG_LOCK : Fld := ⟨.LK_CFG, 0, 31, 31⟩
def LK_CFG_WD_US : Fld := ⟨.LK_CFG, 0, 12, 0⟩
def ERR_RGN_FENCED : Fld := ⟨.ERR_RGN, 0, 31, 31⟩
def ERR_RGN_RESTORE : Fld := ⟨.ERR_RGN, 0, 30, 30⟩
def PAIR_CFG_PRIO : Fld := ⟨.PAIR_CFG, 0, 31, 24⟩
def PAIR_CFG_BULK : Fld := ⟨.PAIR_CFG, 0, 23, 20⟩
def PAIR_CFG_ELECT_US : Fld := ⟨.PAIR_CFG, 0, 13, 0⟩
def PAIR_CTL_PROMOTE : Fld := ⟨.PAIR_CTL, 0, 31, 31⟩
def PAIR_CTL_SWITCH : Fld := ⟨.PAIR_CTL, 0, 30, 30⟩
def PAIR_STAT_STATE : Fld := ⟨.PAIR_STAT, 0, 31, 29⟩
def PAIR_STAT_ROLE : Fld := ⟨.PAIR_STAT, 0, 28, 27⟩
def PAIR_STAT_PROTECTED : Fld := ⟨.PAIR_STAT, 0, 26, 26⟩
def PAIR_STAT_PEER_PIN : Fld := ⟨.PAIR_STAT, 0, 25, 25⟩
def PAIR_STAT_HB : Fld := ⟨.PAIR_STAT, 0, 24, 24⟩
def PAIR_STAT_SYNC_PCT : Fld := ⟨.PAIR_STAT, 0, 15, 8⟩
def PAIR_SEQ_SEQ : Fld := ⟨.PAIR_SEQ, 0, 31, 0⟩
def PAIR_PEER_LO : Fld := ⟨.PAIR_PEER, 0, 31, 0⟩
def PAIR_PEER_HI : Fld := ⟨.PAIR_PEER, 1, 31, 0⟩
def PAIR_ANN_VALID : Fld := ⟨.PAIR_ANN, 0, 31, 31⟩
def PAIR_ANN_PORT : Fld := ⟨.PAIR_ANN, 0, 19, 16⟩
def PAIR_ANN_TEMPLATE : Fld := ⟨.PAIR_ANN, 0, 11, 0⟩
def FLM_STAT_UP : Fld := ⟨.FLM_STAT, 0, 31, 31⟩
def FLM_STAT_WIDTH : Fld := ⟨.FLM_STAT, 0, 30, 28⟩
def FLM_STAT_SPARE_IN : Fld := ⟨.FLM_STAT, 0, 27, 27⟩
def CAS_STAT_HEADLESS : Fld := ⟨.CAS_STAT, 0, 31, 31⟩
def CAS_STAT_DUPID : Fld := ⟨.CAS_STAT, 0, 30, 30⟩
def CAS_STAT_RING_BROKEN : Fld := ⟨.CAS_STAT, 0, 29, 29⟩
def CAS_STAT_LIVE : Fld := ⟨.CAS_STAT, 0, 15, 8⟩
def CAS_STAT_KNOWN : Fld := ⟨.CAS_STAT, 0, 7, 0⟩
def TLY_BASE_BASE_LO : Fld := ⟨.TLY_BASE, 0, 31, 27⟩
def TLY_BASE_EN : Fld := ⟨.TLY_BASE, 0, 0, 0⟩
def TLY_BASE_BASE_HI : Fld := ⟨.TLY_BASE, 1, 15, 0⟩
def MSIX_TBL_ADDR_LO : Fld := ⟨.MSIX_TBL, 0, 31, 0⟩
def MSIX_TBL_ADDR_HI : Fld := ⟨.MSIX_TBL, 1, 31, 0⟩
def MSIX_TBL_DATA : Fld := ⟨.MSIX_TBL, 2, 31, 0⟩
def MSIX_TBL_MASK : Fld := ⟨.MSIX_TBL, 3, 0, 0⟩
def MSIX_PBA_LO : Fld := ⟨.MSIX_PBA, 0, 31, 0⟩
def MSIX_PBA_HI : Fld := ⟨.MSIX_PBA, 1, 31, 0⟩

end Sys2Proof.Machine.F
end

