-- ==== Sys2Proof/Machine/Registers.lean ====
section
/-! DEFINITION. The manual's register tables as data: where each register lies (R482 to R488), which bits a write acts on (R4), what each word holds after a cold reset (R8)
and which writers each register admits (R23 and the writer rule of each chapter). -/

namespace Sys2Proof.Machine

/-- Registers in the manual's order, part 0. -/
def Reg.part0 : List Reg :=
  [.CHIP_CONFLICT_STAT, .CHIP_CONFLICT_CNT, .CHIP_CONFLICT_LOG, .SPAN_CFG, .SPAN_STATUS, .SPAN_SEQ, .SPAN_REC, .MAC_LANE_MAP, .MAC_LANE_STAT, .MAC_TC_INC,
   .MAC_TC_CTL, .MAC_TC_ADJ, .MAC_TC_TIME, .MAC_PORT_CFG, .MAC_PORT_STAT, .MAC_ING_CFG, .MAC_DSCP_MAP, .MAC_PFC_CFG, .MAC_PAUSE_QUANTA, .MAC_WD_CFG,
   .MAC_WD_STAT, .MAC_PAUSE_HWM, .MAC_PAUSE_LWM, .MAC_GCL_CTL, .MAC_GCL_CYCLE, .MAC_GCL_BASE_SEC, .MAC_GCL_BASE_NS, .MAC_KERF, .MAC_QMAXF, .MAC_MOD_CMD]

/-- Registers in the manual's order, part 1. -/
def Reg.part1 : List Reg :=
  [.MAC_MOD_STAT, .MAC_MOD_DATA, .MAC_CNT, .MAC_GCL, .CLS_PSTATE, .CLS_PTRANS, .CLS_ARB_WT, .CLS_PARSE_CTL, .CLS_MAL_ACT, .CLS_EXC_POOL,
   .CLS_EXC_HOST, .CLS_START, .CLS_RSS_KEY, .CLS_MIRROR, .CLS_TCMD, .CLS_TKEY, .CLS_TACT, .CLS_TDATA, .CLS_TBYTES, .CLS_TMPL_HDR,
   .CLS_TBL, .CLS_KEX, .CLS_CNT, .CLS_MAL_CNT, .FWD_TUQ_BASE, .FWD_TUQ_CTL, .FWD_TUQ_PI, .FWD_TUQ_CI, .FWD_TRIE_STAT, .FWD_LEARN_CFG]

/-- Registers in the manual's order, part 2. -/
def Reg.part2 : List Reg :=
  [.FWD_BRT, .FWD_CNT, .FWD_BD, .FWD_AGE, .SCH_BUF_STAT, .SCH_LAT_CFG, .SCH_STAT, .SCH_IN_LIMIT, .SCH_IN_OCC, .SCH_CLASS,
   .SCH_CNT, .SCH_SHAPE, .SCH_TNODE, .SCH_TMAP, .SCH_QUEUE, .SCH_QDEPTH, .SCH_Q_CNT, .SCH_POL, .HIF_PORT_CFG, .HIF_LINK_STAT,
   .HIF_STAT, .HIF_CNT, .HIF_PF_CFG, .HIF_FUNC_RES, .HIF_ITT, .HIF_OTT, .QCP_RING, .QCP_CTL, .QCP_SCHED, .QCP_CQ_ARM]

/-- Registers in the manual's order, part 3. -/
def Reg.part3 : List Reg :=
  [.QCP_STAT, .QCP_IDX, .QCP_CNT, .EQC_RING, .EQC_CTL, .EQC_MASK, .EQC_STAT, .EQC_LOST, .EQC_DB_BAD, .QUE_NO_QP,
   .CHN_CTL, .CHN_STAT, .CHN_HEAD, .CHN_STOP_AT, .RMA_CTX_CFG, .RMA_CFG, .RMA_CC, .RMA_FUNC, .RMA_CNT, .RMW_CMD,
   .RMW_DATA, .STO_STAT, .STO_FUNC, .STO_PATH, .STO_NS, .STO_CNT, .CBF_CAP, .CBF_CTL, .CBF_ISSUE, .CBF_BUSY]

/-- Registers in the manual's order, part 4. -/
def Reg.part4 : List Reg :=
  [.CBF_DONE, .CBF_PWR, .CBF_STAT, .CBF_CNT, .CBF_SLOT, .CRY_CFG, .CRY_MSEC_CFG, .CRY_SACMD, .CRY_SADATA, .CRY_CNT,
   .CVU_ASSIGN, .CVU_CFG, .CVU_CTL, .CVU_ALIVE, .CVU_ALIVE_CTR, .CVU_POLY, .CVU_INIT, .CVU_XOROUT, .CVU_RXCRC, .CVU_RESULT,
   .CVU_STAT, .CVU_FEED, .CVU_CNT, .PCB_CTL, .PCB_WIN, .PCB_CORE, .PCB_POOLMAP, .PCB_POOLCFG, .PCB_CNT, .SCC_CORE]

/-- Registers in the manual's order, part 5. -/
def Reg.part5 : List Reg :=
  [.SCC_MSG, .CRU_CTL, .CRU_WORK, .CRU_STAT, .CRU_THRESH, .CRU_FREEZE, .CRU_HOME, .CRU_PCMD, .CRU_LOG_BASE, .CRU_LOG_CTL,
   .CRU_LOG_IDX, .CRU_CNT, .CRU_TENANT, .CRU_TUSE, .CRU_TBLCLS, .CRU_TASK, .CRU_RGN, .CRU_POOLGRP, .CRU_SWAP, .CRU_FBMAP,
   .BOOT_STAT, .BOOT_CTL, .BOOT_EPOCH, .BOOT_REL, .SB_CFG, .LDR_CMD, .LDR_SRC, .LDR_DST, .IMP_CFG, .IMP_RANGE]

/-- Registers in the manual's order, part 6. -/
def Reg.part6 : List Reg :=
  [.BOOT_CNT, .ERR_CTL, .ERR_STAT, .ERR_CNT, .ERR_LOG, .SPARE_STAT, .WEAR_THR, .ST_STAT, .ST_REPORT, .DET_STAT,
   .LK_STAT, .LK_CFG, .ERR_RGN, .PAIR_CFG, .PAIR_CTL, .PAIR_STAT, .PAIR_SEQ, .PAIR_PEER, .PAIR_ANN, .FLM_STAT,
   .PAIR_CNT, .CAS_STAT, .TLY_BASE, .MSIX_TBL, .MSIX_PBA]

/-- Every register, in the manual's order. -/
def Reg.all : List Reg :=
  Reg.part0 ++ Reg.part1 ++ Reg.part2 ++ Reg.part3 ++ Reg.part4 ++ Reg.part5 ++ Reg.part6

/-- Spares of kind k at manufacture (R425); kind 9 is as the DRAM reports, taken as 0 here. -/
def spareInitial : Nat → Nat
  | 1 => 16 | 2 => 4 | 3 => 40 | 4 => 4 | 5 => 0 | 6 => 4 | 7 => 4 | 8 => 2 | _ => 0

/-- Reset value of WEAR_THR (chapter 15): 500 for kinds 1, 2, 4, 6 and 7, 30 for kind 3, 15 for kinds 5 and 8. -/
def wearReset : Nat → Nat
  | 1 => 500 | 2 => 500 | 3 => 30 | 4 => 500 | 5 => 15 | 6 => 500 | 7 => 500 | 8 => 15 | _ => 0

/-- Where each register lies and how it is laid out. -/
def Reg.layout : Reg → RegLayout
  | .CHIP_CONFLICT_STAT => ⟨.chip, 0, 0x200, 0x0, 1, 1, 0x0, 1⟩
  | .CHIP_CONFLICT_CNT => ⟨.chip, 0, 0x208, 0x0, 1, 1, 0x0, 2⟩
  | .CHIP_CONFLICT_LOG => ⟨.chip, 0, 0x400, 0x10, 32, 1, 0x0, 4⟩
  | .SPAN_CFG => ⟨.chip, 0, 0x100, 0x0, 1, 1, 0x0, 1⟩
  | .SPAN_STATUS => ⟨.chip, 0, 0x104, 0x0, 1, 1, 0x0, 1⟩
  | .SPAN_SEQ => ⟨.chip, 0, 0x108, 0x0, 1, 1, 0x0, 1⟩
  | .SPAN_REC => ⟨.chip, 0, 0x140, 0x4, 16, 1, 0x0, 1⟩
  | .MAC_LANE_MAP => ⟨.chip, 0, 0x300, 0x0, 1, 1, 0x0, 1⟩
  | .MAC_LANE_STAT => ⟨.chip, 0, 0x304, 0x0, 1, 1, 0x0, 1⟩
  | .MAC_TC_INC => ⟨.chip, 0, 0x600, 0x0, 1, 1, 0x0, 1⟩
  | .MAC_TC_CTL => ⟨.chip, 0, 0x604, 0x0, 1, 1, 0x0, 1⟩
  | .MAC_TC_ADJ => ⟨.chip, 0, 0x610, 0x0, 1, 1, 0x0, 2⟩
  | .MAC_TC_TIME => ⟨.chip, 0, 0x620, 0x10, 2, 1, 0x0, 3⟩
  | .MAC_PORT_CFG => ⟨.lane, 0, 0x0, 0x0, 1, 1, 0x0, 1⟩
  | .MAC_PORT_STAT => ⟨.lane, 0, 0x4, 0x0, 1, 1, 0x0, 1⟩
  | .MAC_ING_CFG => ⟨.lane, 0, 0x8, 0x0, 1, 1, 0x0, 1⟩
  | .MAC_DSCP_MAP => ⟨.lane, 0, 0x60, 0x4, 8, 1, 0x0, 1⟩
  | .MAC_PFC_CFG => ⟨.lane, 0, 0x10, 0x0, 1, 1, 0x0, 1⟩
  | .MAC_PAUSE_QUANTA => ⟨.lane, 0, 0x14, 0x0, 1, 1, 0x0, 1⟩
  | .MAC_WD_CFG => ⟨.lane, 0, 0x18, 0x0, 1, 1, 0x0, 1⟩
  | .MAC_WD_STAT => ⟨.lane, 0, 0x1C, 0x0, 1, 1, 0x0, 1⟩
  | .MAC_PAUSE_HWM => ⟨.lane, 0, 0x20, 0x4, 8, 1, 0x0, 1⟩
  | .MAC_PAUSE_LWM => ⟨.lane, 0, 0x40, 0x4, 8, 1, 0x0, 1⟩
  | .MAC_GCL_CTL => ⟨.lane, 0, 0x100, 0x0, 1, 1, 0x0, 1⟩
  | .MAC_GCL_CYCLE => ⟨.lane, 0, 0x104, 0x0, 1, 1, 0x0, 1⟩
  | .MAC_GCL_BASE_SEC => ⟨.lane, 0, 0x108, 0x0, 1, 1, 0x0, 1⟩
  | .MAC_GCL_BASE_NS => ⟨.lane, 0, 0x10C, 0x0, 1, 1, 0x0, 1⟩
  | .MAC_KERF => ⟨.lane, 0, 0x140, 0x4, 8, 1, 0x0, 1⟩
  | .MAC_QMAXF => ⟨.lane, 0, 0x160, 0x4, 8, 1, 0x0, 1⟩
  | .MAC_MOD_CMD => ⟨.lane, 0, 0x300, 0x0, 1, 1, 0x0, 1⟩
  | .MAC_MOD_STAT => ⟨.lane, 0, 0x304, 0x0, 1, 1, 0x0, 1⟩
  | .MAC_MOD_DATA => ⟨.lane, 0, 0x308, 0x4, 2, 1, 0x0, 1⟩
  | .MAC_CNT => ⟨.lane, 0, 0x1000, 0x8, 54, 1, 0x0, 2⟩
  | .MAC_GCL => ⟨.lane, 0, 0x2000, 0x8, 1024, 1, 0x0, 2⟩
  | .CLS_PSTATE => ⟨.rgn, 1, 0x10000, 0x8000, 2, 254, 0x10, 4⟩
  | .CLS_PTRANS => ⟨.rgn, 1, 0x11000, 0x8000, 2, 1024, 0x10, 4⟩
  | .CLS_ARB_WT => ⟨.rgn, 1, 0x0, 0x0, 1, 1, 0x0, 1⟩
  | .CLS_PARSE_CTL => ⟨.rgn, 1, 0x4, 0x0, 1, 1, 0x0, 1⟩
  | .CLS_MAL_ACT => ⟨.rgn, 1, 0x8, 0x0, 1, 1, 0x0, 1⟩
  | .CLS_EXC_POOL => ⟨.rgn, 1, 0xC, 0x0, 1, 1, 0x0, 1⟩
  | .CLS_EXC_HOST => ⟨.rgn, 1, 0x10, 0x0, 1, 1, 0x0, 1⟩
  | .CLS_START => ⟨.rgn, 1, 0x20, 0x4, 4, 1, 0x0, 1⟩
  | .CLS_RSS_KEY => ⟨.rgn, 1, 0x40, 0x4, 10, 1, 0x0, 1⟩
  | .CLS_MIRROR => ⟨.rgn, 1, 0x80, 0x4, 64, 1, 0x0, 1⟩
  | .CLS_TCMD => ⟨.rgn, 1, 0x200, 0x0, 1, 1, 0x0, 1⟩
  | .CLS_TKEY => ⟨.rgn, 1, 0x210, 0x4, 16, 1, 0x0, 1⟩
  | .CLS_TACT => ⟨.rgn, 1, 0x250, 0x0, 1, 1, 0x0, 1⟩
  | .CLS_TDATA => ⟨.rgn, 1, 0x258, 0x0, 1, 1, 0x0, 2⟩
  | .CLS_TBYTES => ⟨.rgn, 1, 0x260, 0x0, 1, 1, 0x0, 2⟩
  | .CLS_TMPL_HDR => ⟨.rgn, 1, 0x270, 0x0, 1, 1, 0x0, 3⟩
  | .CLS_TBL => ⟨.rgn, 1, 0x400, 0x20, 64, 1, 0x0, 6⟩
  | .CLS_KEX => ⟨.rgn, 1, 0x1000, 0x40, 64, 16, 0x4, 1⟩
  | .CLS_CNT => ⟨.rgn, 1, 0x2000, 0x8, 8, 1, 0x0, 2⟩
  | .CLS_MAL_CNT => ⟨.rgn, 1, 0x2400, 0x60, 7, 12, 0x8, 2⟩
  | .FWD_TUQ_BASE => ⟨.chip, 1, 0x0, 0x0, 1, 1, 0x0, 2⟩
  | .FWD_TUQ_CTL => ⟨.chip, 1, 0x8, 0x0, 1, 1, 0x0, 1⟩
  | .FWD_TUQ_PI => ⟨.chip, 1, 0xC, 0x0, 1, 1, 0x0, 1⟩
  | .FWD_TUQ_CI => ⟨.chip, 1, 0x10, 0x0, 1, 1, 0x0, 1⟩
  | .FWD_TRIE_STAT => ⟨.chip, 1, 0x20, 0x0, 1, 1, 0x0, 3⟩
  | .FWD_LEARN_CFG => ⟨.chip, 1, 0x30, 0x0, 1, 1, 0x0, 1⟩
  | .FWD_BRT => ⟨.chip, 1, 0x40, 0x4, 4, 1, 0x0, 1⟩
  | .FWD_CNT => ⟨.chip, 1, 0x100, 0x8, 8, 1, 0x0, 2⟩
  | .FWD_BD => ⟨.chip, 1, 0x10000, 0x8, 4096, 1, 0x0, 2⟩
  | .FWD_AGE => ⟨.rgn, 2, 0x0, 0x4, 64, 1, 0x0, 1⟩
  | .SCH_BUF_STAT => ⟨.rgn, 3, 0x0, 0x0, 1, 1, 0x0, 1⟩
  | .SCH_LAT_CFG => ⟨.rgn, 3, 0x4, 0x0, 1, 1, 0x0, 1⟩
  | .SCH_STAT => ⟨.rgn, 3, 0x8, 0x0, 1, 1, 0x0, 1⟩
  | .SCH_IN_LIMIT => ⟨.rgn, 3, 0x100, 0x20, 4, 8, 0x4, 1⟩
  | .SCH_IN_OCC => ⟨.rgn, 3, 0x180, 0x20, 4, 8, 0x4, 1⟩
  | .SCH_CLASS => ⟨.rgn, 3, 0x200, 0x4, 32, 1, 0x0, 1⟩
  | .SCH_CNT => ⟨.rgn, 3, 0x300, 0x8, 4, 1, 0x0, 2⟩
  | .SCH_SHAPE => ⟨.rgn, 3, 0x10000, 0x10, 4132, 1, 0x0, 4⟩
  | .SCH_TNODE => ⟨.rgn, 3, 0x40000, 0x8, 4096, 1, 0x0, 2⟩
  | .SCH_TMAP => ⟨.rgn, 3, 0x50000, 0x800, 32, 512, 0x4, 1⟩
  | .SCH_QUEUE => ⟨.rgn, 3, 0x80000, 0x10, 16384, 1, 0x0, 4⟩
  | .SCH_QDEPTH => ⟨.rgn, 3, 0xC0000, 0x4, 16384, 1, 0x0, 1⟩
  | .SCH_Q_CNT => ⟨.rgn, 3, 0x100000, 0x20, 16384, 4, 0x8, 2⟩
  | .SCH_POL => ⟨.rgn, 3, 0x200000, 0x10, 65536, 1, 0x0, 4⟩
  | .HIF_PORT_CFG => ⟨.chip, 2, 0x0, 0x4, 2, 1, 0x0, 1⟩
  | .HIF_LINK_STAT => ⟨.chip, 2, 0x10, 0x10, 2, 4, 0x4, 1⟩
  | .HIF_STAT => ⟨.chip, 2, 0x40, 0x0, 1, 1, 0x0, 1⟩
  | .HIF_CNT => ⟨.chip, 2, 0x100, 0x8, 8, 1, 0x0, 2⟩
  | .HIF_PF_CFG => ⟨.chip, 2, 0x1000, 0x10, 16, 1, 0x0, 4⟩
  | .HIF_FUNC_RES => ⟨.chip, 2, 0x2000, 0x10, 512, 1, 0x0, 4⟩
  | .HIF_ITT => ⟨.chip, 2, 0x10000, 0x10, 16384, 1, 0x0, 4⟩
  | .HIF_OTT => ⟨.chip, 2, 0x80000, 0x20, 16384, 1, 0x0, 8⟩
  | .QCP_RING => ⟨.qp, 0, 0x0, 0x10, 3, 1, 0x0, 4⟩
  | .QCP_CTL => ⟨.qp, 0, 0x40, 0x0, 1, 1, 0x0, 1⟩
  | .QCP_SCHED => ⟨.qp, 0, 0x44, 0x0, 1, 1, 0x0, 1⟩
  | .QCP_CQ_ARM => ⟨.qp, 0, 0x48, 0x0, 1, 1, 0x0, 1⟩
  | .QCP_STAT => ⟨.qp, 0, 0x4C, 0x0, 1, 1, 0x0, 1⟩
  | .QCP_IDX => ⟨.qp, 0, 0x50, 0x0, 1, 1, 0x0, 1⟩
  | .QCP_CNT => ⟨.qp, 0, 0x100, 0x8, 2, 1, 0x0, 2⟩
  | .EQC_RING => ⟨.eq, 0, 0x0, 0x0, 1, 1, 0x0, 4⟩
  | .EQC_CTL => ⟨.eq, 0, 0x10, 0x0, 1, 1, 0x0, 1⟩
  | .EQC_MASK => ⟨.eq, 0, 0x14, 0x0, 1, 1, 0x0, 1⟩
  | .EQC_STAT => ⟨.eq, 0, 0x18, 0x0, 1, 1, 0x0, 1⟩
  | .EQC_LOST => ⟨.eq, 0, 0x100, 0x0, 1, 1, 0x0, 2⟩
  | .EQC_DB_BAD => ⟨.eq, 0, 0x108, 0x0, 1, 1, 0x0, 2⟩
  | .QUE_NO_QP => ⟨.chip, 3, 0x0, 0x0, 1, 1, 0x0, 2⟩
  | .CHN_CTL => ⟨.rgn, 6, 0x0, 0x20, 8, 1, 0x0, 1⟩
  | .CHN_STAT => ⟨.rgn, 6, 0x4, 0x20, 8, 1, 0x0, 1⟩
  | .CHN_HEAD => ⟨.rgn, 6, 0x8, 0x20, 8, 1, 0x0, 2⟩
  | .CHN_STOP_AT => ⟨.rgn, 6, 0x10, 0x20, 8, 1, 0x0, 2⟩
  | .RMA_CTX_CFG => ⟨.chip, 4, 0x0, 0x0, 1, 1, 0x0, 4⟩
  | .RMA_CFG => ⟨.chip, 4, 0x10, 0x0, 1, 1, 0x0, 1⟩
  | .RMA_CC => ⟨.chip, 4, 0x14, 0x0, 1, 1, 0x0, 2⟩
  | .RMA_FUNC => ⟨.chip, 4, 0x1000, 0x10, 512, 1, 0x0, 4⟩
  | .RMA_CNT => ⟨.rgn, 5, 0x0, 0x8, 12, 1, 0x0, 2⟩
  | .RMW_CMD => ⟨.fn, 0, 0x70000, 0x0, 1, 1, 0x0, 1⟩
  | .RMW_DATA => ⟨.fn, 0, 0x70100, 0x4, 32, 1, 0x0, 1⟩
  | .STO_STAT => ⟨.chip, 5, 0x0, 0x0, 1, 1, 0x0, 1⟩
  | .STO_FUNC => ⟨.chip, 5, 0x1000, 0x4, 512, 1, 0x0, 1⟩
  | .STO_PATH => ⟨.chip, 5, 0x2000, 0x4, 255, 1, 0x0, 1⟩
  | .STO_NS => ⟨.chip, 5, 0x10000, 0x20, 4096, 1, 0x0, 8⟩
  | .STO_CNT => ⟨.chip, 5, 0x100, 0x8, 3, 1, 0x0, 2⟩
  | .CBF_CAP => ⟨.fn, 0, 0x64000, 0x0, 1, 1, 0x0, 2⟩
  | .CBF_CTL => ⟨.fn, 0, 0x64010, 0x0, 1, 1, 0x0, 1⟩
  | .CBF_ISSUE => ⟨.fn, 0, 0x64020, 0x0, 1, 1, 0x0, 1⟩
  | .CBF_BUSY => ⟨.fn, 0, 0x64024, 0x0, 1, 1, 0x0, 1⟩
  | .CBF_DONE => ⟨.fn, 0, 0x64028, 0x0, 1, 1, 0x0, 1⟩
  | .CBF_PWR => ⟨.fn, 0, 0x64030, 0x0, 1, 1, 0x0, 1⟩
  | .CBF_STAT => ⟨.fn, 0, 0x64034, 0x0, 1, 1, 0x0, 1⟩
  | .CBF_CNT => ⟨.fn, 0, 0x64100, 0x8, 2, 1, 0x0, 2⟩
  | .CBF_SLOT => ⟨.fn, 0, 0x64800, 0x40, 32, 1, 0x0, 16⟩
  | .CRY_CFG => ⟨.chip, 6, 0x0, 0x0, 1, 1, 0x0, 1⟩
  | .CRY_MSEC_CFG => ⟨.chip, 6, 0x100, 0x4, 16, 1, 0x0, 1⟩
  | .CRY_SACMD => ⟨.chip, 6, 0x1000, 0x0, 1, 1, 0x0, 1⟩
  | .CRY_SADATA => ⟨.chip, 6, 0x1100, 0x4, 20, 1, 0x0, 1⟩
  | .CRY_CNT => ⟨.rgn, 4, 0x0, 0x8, 11, 1, 0x0, 2⟩
  | .CVU_ASSIGN => ⟨.chip, 7, 0x0, 0x4, 64, 1, 0x0, 1⟩
  | .CVU_CFG => ⟨.cvu, 0, 0x0, 0x0, 1, 1, 0x0, 1⟩
  | .CVU_CTL => ⟨.cvu, 0, 0x4, 0x0, 1, 1, 0x0, 1⟩
  | .CVU_ALIVE => ⟨.cvu, 0, 0x8, 0x0, 1, 1, 0x0, 1⟩
  | .CVU_ALIVE_CTR => ⟨.cvu, 0, 0xC, 0x0, 1, 1, 0x0, 1⟩
  | .CVU_POLY => ⟨.cvu, 0, 0x10, 0x0, 1, 1, 0x0, 2⟩
  | .CVU_INIT => ⟨.cvu, 0, 0x18, 0x0, 1, 1, 0x0, 2⟩
  | .CVU_XOROUT => ⟨.cvu, 0, 0x20, 0x0, 1, 1, 0x0, 2⟩
  | .CVU_RXCRC => ⟨.cvu, 0, 0x28, 0x0, 1, 1, 0x0, 2⟩
  | .CVU_RESULT => ⟨.cvu, 0, 0x30, 0x0, 1, 1, 0x0, 2⟩
  | .CVU_STAT => ⟨.cvu, 0, 0x38, 0x0, 1, 1, 0x0, 1⟩
  | .CVU_FEED => ⟨.cvu, 0, 0x40, 0x0, 1, 1, 0x0, 1⟩
  | .CVU_CNT => ⟨.cvu, 0, 0x100, 0x8, 4, 1, 0x0, 2⟩
  | .PCB_CTL => ⟨.rgn, 7, 0x0, 0x4, 4, 1, 0x0, 1⟩
  | .PCB_WIN => ⟨.rgn, 7, 0x100, 0x80, 4, 8, 0x10, 4⟩
  | .PCB_CORE => ⟨.rgn, 7, 0x1000, 0x20, 68, 1, 0x0, 8⟩
  | .PCB_POOLMAP => ⟨.rgn, 7, 0x2000, 0x40, 68, 16, 0x4, 1⟩
  | .PCB_POOLCFG => ⟨.rgn, 7, 0x4000, 0x4, 63, 1, 0x0, 1⟩
  | .PCB_CNT => ⟨.rgn, 7, 0x4200, 0x8, 6, 1, 0x0, 2⟩
  | .SCC_CORE => ⟨.rgn, 7, 0x5000, 0x10, 13, 1, 0x0, 4⟩
  | .SCC_MSG => ⟨.rgn, 7, 0x5100, 0x4, 13, 1, 0x0, 1⟩
  | .CRU_CTL => ⟨.chip, 8, 0x0, 0x0, 1, 1, 0x0, 1⟩
  | .CRU_WORK => ⟨.chip, 8, 0x4, 0x0, 1, 1, 0x0, 1⟩
  | .CRU_STAT => ⟨.chip, 8, 0x8, 0x0, 1, 1, 0x0, 1⟩
  | .CRU_THRESH => ⟨.chip, 8, 0x10, 0x0, 1, 1, 0x0, 3⟩
  | .CRU_FREEZE => ⟨.chip, 8, 0x20, 0x0, 1, 1, 0x0, 1⟩
  | .CRU_HOME => ⟨.chip, 8, 0x30, 0x0, 1, 1, 0x0, 3⟩
  | .CRU_PCMD => ⟨.chip, 8, 0x40, 0x0, 1, 1, 0x0, 6⟩
  | .CRU_LOG_BASE => ⟨.chip, 8, 0x80, 0x0, 1, 1, 0x0, 2⟩
  | .CRU_LOG_CTL => ⟨.chip, 8, 0x88, 0x0, 1, 1, 0x0, 1⟩
  | .CRU_LOG_IDX => ⟨.chip, 8, 0x8C, 0x0, 1, 1, 0x0, 1⟩
  | .CRU_CNT => ⟨.chip, 8, 0x100, 0x8, 9, 1, 0x0, 2⟩
  | .CRU_TENANT => ⟨.chip, 8, 0x1000, 0x8, 512, 1, 0x0, 2⟩
  | .CRU_TUSE => ⟨.chip, 8, 0x2000, 0x8, 512, 1, 0x0, 2⟩
  | .CRU_TBLCLS => ⟨.chip, 8, 0x3000, 0x100, 4, 64, 0x4, 1⟩
  | .CRU_TASK => ⟨.chip, 8, 0x4000, 0x8, 256, 1, 0x0, 2⟩
  | .CRU_RGN => ⟨.rgn, 8, 0x0, 0x0, 1, 1, 0x0, 1⟩
  | .CRU_POOLGRP => ⟨.rgn, 8, 0x100, 0x4, 63, 1, 0x0, 1⟩
  | .CRU_SWAP => ⟨.rgn, 8, 0x200, 0x0, 1, 1, 0x0, 1⟩
  | .CRU_FBMAP => ⟨.rgn, 8, 0x10000, 0x4, 65536, 1, 0x0, 1⟩
  | .BOOT_STAT => ⟨.chip, 9, 0x0, 0x0, 1, 1, 0x0, 1⟩
  | .BOOT_CTL => ⟨.chip, 9, 0x4, 0x0, 1, 1, 0x0, 1⟩
  | .BOOT_EPOCH => ⟨.chip, 9, 0x8, 0x0, 1, 1, 0x0, 2⟩
  | .BOOT_REL => ⟨.chip, 9, 0x10, 0x0, 1, 1, 0x0, 1⟩
  | .SB_CFG => ⟨.chip, 9, 0x20, 0x0, 1, 1, 0x0, 1⟩
  | .LDR_CMD => ⟨.chip, 9, 0x100, 0x0, 1, 1, 0x0, 1⟩
  | .LDR_SRC => ⟨.chip, 9, 0x108, 0x0, 1, 1, 0x0, 2⟩
  | .LDR_DST => ⟨.chip, 9, 0x110, 0x0, 1, 1, 0x0, 2⟩
  | .IMP_CFG => ⟨.chip, 9, 0x200, 0x0, 1, 1, 0x0, 3⟩
  | .IMP_RANGE => ⟨.chip, 9, 0x240, 0x10, 8, 1, 0x0, 3⟩
  | .BOOT_CNT => ⟨.chip, 9, 0x300, 0x8, 4, 1, 0x0, 2⟩
  | .ERR_CTL => ⟨.chip, 10, 0x0, 0x0, 1, 1, 0x0, 1⟩
  | .ERR_STAT => ⟨.chip, 10, 0x4, 0x0, 1, 1, 0x0, 1⟩
  | .ERR_CNT => ⟨.chip, 10, 0x40, 0x8, 9, 1, 0x0, 2⟩
  | .ERR_LOG => ⟨.chip, 10, 0x1000, 0x10, 64, 1, 0x0, 4⟩
  | .SPARE_STAT => ⟨.chip, 10, 0x200, 0x4, 10, 1, 0x0, 1⟩
  | .WEAR_THR => ⟨.chip, 10, 0x240, 0x4, 9, 1, 0x0, 1⟩
  | .ST_STAT => ⟨.chip, 10, 0x300, 0x0, 1, 1, 0x0, 1⟩
  | .ST_REPORT => ⟨.chip, 10, 0x310, 0x8, 10, 1, 0x0, 2⟩
  | .DET_STAT => ⟨.chip, 10, 0x400, 0x0, 1, 1, 0x0, 1⟩
  | .LK_STAT => ⟨.chip, 10, 0x500, 0x0, 1, 1, 0x0, 1⟩
  | .LK_CFG => ⟨.chip, 10, 0x504, 0x0, 1, 1, 0x0, 1⟩
  | .ERR_RGN => ⟨.chip, 10, 0x600, 0x4, 4, 1, 0x0, 1⟩
  | .PAIR_CFG => ⟨.chip, 11, 0x0, 0x0, 1, 1, 0x0, 1⟩
  | .PAIR_CTL => ⟨.chip, 11, 0x4, 0x0, 1, 1, 0x0, 1⟩
  | .PAIR_STAT => ⟨.chip, 11, 0x8, 0x0, 1, 1, 0x0, 1⟩
  | .PAIR_SEQ => ⟨.chip, 11, 0xC, 0x0, 1, 1, 0x0, 1⟩
  | .PAIR_PEER => ⟨.chip, 11, 0x10, 0x0, 1, 1, 0x0, 2⟩
  | .PAIR_ANN => ⟨.chip, 11, 0x100, 0x4, 64, 1, 0x0, 1⟩
  | .FLM_STAT => ⟨.chip, 11, 0x200, 0x4, 2, 1, 0x0, 1⟩
  | .PAIR_CNT => ⟨.chip, 11, 0x300, 0x8, 8, 1, 0x0, 2⟩
  | .CAS_STAT => ⟨.chip, 11, 0x400, 0x0, 1, 1, 0x0, 1⟩
  | .TLY_BASE => ⟨.chip, 0, 0x800, 0x0, 1, 1, 0x0, 2⟩
  | .MSIX_TBL => ⟨.fn, 0, 0x1000, 0x10, 2048, 1, 0x0, 4⟩
  | .MSIX_PBA => ⟨.fn, 0, 0x9000, 0x8, 32, 1, 0x0, 2⟩

/-- Which writers a register admits. -/
def Reg.writers : Reg → WriterClass
  | .CHIP_CONFLICT_STAT => .mgmt
  | .CHIP_CONFLICT_CNT => .device
  | .CHIP_CONFLICT_LOG => .device
  | .SPAN_CFG => .spanW
  | .SPAN_STATUS => .spanW
  | .SPAN_SEQ => .device
  | .SPAN_REC => .device
  | .MAC_LANE_MAP => .mgmtPf0
  | .MAC_LANE_STAT => .mgmtPf0
  | .MAC_TC_INC => .mgmtPf0
  | .MAC_TC_CTL => .mgmtPf0
  | .MAC_TC_ADJ => .mgmtPf0
  | .MAC_TC_TIME => .device
  | .MAC_PORT_CFG => .mgmtPf0
  | .MAC_PORT_STAT => .mgmtPf0
  | .MAC_ING_CFG => .mgmtPf0
  | .MAC_DSCP_MAP => .mgmtPf0
  | .MAC_PFC_CFG => .mgmtPf0
  | .MAC_PAUSE_QUANTA => .mgmtPf0
  | .MAC_WD_CFG => .mgmtPf0
  | .MAC_WD_STAT => .mgmtPf0
  | .MAC_PAUSE_HWM => .mgmtPf0
  | .MAC_PAUSE_LWM => .mgmtPf0
  | .MAC_GCL_CTL => .mgmtPf0
  | .MAC_GCL_CYCLE => .mgmtPf0
  | .MAC_GCL_BASE_SEC => .mgmtPf0
  | .MAC_GCL_BASE_NS => .mgmtPf0
  | .MAC_KERF => .mgmtPf0
  | .MAC_QMAXF => .mgmtPf0
  | .MAC_MOD_CMD => .mgmtPf0
  | .MAC_MOD_STAT => .mgmtPf0
  | .MAC_MOD_DATA => .mgmtPf0
  | .MAC_CNT => .mgmtPf0
  | .MAC_GCL => .mgmtPf0
  | .CLS_PSTATE => .mgmtPf0
  | .CLS_PTRANS => .mgmtPf0
  | .CLS_ARB_WT => .mgmtPf0
  | .CLS_PARSE_CTL => .mgmtPf0
  | .CLS_MAL_ACT => .mgmtPf0
  | .CLS_EXC_POOL => .mgmtPf0
  | .CLS_EXC_HOST => .mgmtPf0
  | .CLS_START => .mgmtPf0
  | .CLS_RSS_KEY => .mgmtPf0
  | .CLS_MIRROR => .mgmtPf0
  | .CLS_TCMD => .mgmtPf0
  | .CLS_TKEY => .mgmtPf0
  | .CLS_TACT => .mgmtPf0
  | .CLS_TDATA => .mgmtPf0
  | .CLS_TBYTES => .mgmtPf0
  | .CLS_TMPL_HDR => .mgmtPf0
  | .CLS_TBL => .mgmtPf0
  | .CLS_KEX => .mgmtPf0
  | .CLS_CNT => .mgmtPf0
  | .CLS_MAL_CNT => .mgmtPf0
  | .FWD_TUQ_BASE => .ksc
  | .FWD_TUQ_CTL => .ksc
  | .FWD_TUQ_PI => .ksc
  | .FWD_TUQ_CI => .device
  | .FWD_TRIE_STAT => .device
  | .FWD_LEARN_CFG => .mgmtPf0
  | .FWD_BRT => .mgmtPf0
  | .FWD_CNT => .device
  | .FWD_BD => .mgmtPf0
  | .FWD_AGE => .mgmtPf0
  | .SCH_BUF_STAT => .mgmtPf0
  | .SCH_LAT_CFG => .mgmtPf0
  | .SCH_STAT => .mgmtPf0
  | .SCH_IN_LIMIT => .mgmtPf0
  | .SCH_IN_OCC => .mgmtPf0
  | .SCH_CLASS => .mgmtPf0
  | .SCH_CNT => .mgmtPf0
  | .SCH_SHAPE => .mgmtPf0
  | .SCH_TNODE => .mgmtPf0
  | .SCH_TMAP => .mgmtPf0
  | .SCH_QUEUE => .mgmtPf0
  | .SCH_QDEPTH => .mgmtPf0
  | .SCH_Q_CNT => .mgmtPf0
  | .SCH_POL => .mgmtPf0
  | .HIF_PORT_CFG => .mgmt
  | .HIF_LINK_STAT => .device
  | .HIF_STAT => .mgmt
  | .HIF_CNT => .device
  | .HIF_PF_CFG => .mgmt
  | .HIF_FUNC_RES => .mgmt
  | .HIF_ITT => .window
  | .HIF_OTT => .window
  | .QCP_RING => .function
  | .QCP_CTL => .function
  | .QCP_SCHED => .function
  | .QCP_CQ_ARM => .function
  | .QCP_STAT => .function
  | .QCP_IDX => .function
  | .QCP_CNT => .function
  | .EQC_RING => .function
  | .EQC_CTL => .function
  | .EQC_MASK => .function
  | .EQC_STAT => .function
  | .EQC_LOST => .function
  | .EQC_DB_BAD => .function
  | .QUE_NO_QP => .device
  | .CHN_CTL => .chain
  | .CHN_STAT => .chain
  | .CHN_HEAD => .chain
  | .CHN_STOP_AT => .device
  | .RMA_CTX_CFG => .mgmt
  | .RMA_CFG => .mgmt
  | .RMA_CC => .mgmt
  | .RMA_FUNC => .mgmt
  | .RMA_CNT => .device
  | .RMW_CMD => .function
  | .RMW_DATA => .function
  | .STO_STAT => .mgmt
  | .STO_FUNC => .mgmt
  | .STO_PATH => .mgmt
  | .STO_NS => .mgmt
  | .STO_CNT => .device
  | .CBF_CAP => .function
  | .CBF_CTL => .function
  | .CBF_ISSUE => .function
  | .CBF_BUSY => .function
  | .CBF_DONE => .function
  | .CBF_PWR => .function
  | .CBF_STAT => .function
  | .CBF_CNT => .function
  | .CBF_SLOT => .function
  | .CRY_CFG => .mgmt
  | .CRY_MSEC_CFG => .mgmt
  | .CRY_SACMD => .mgmt
  | .CRY_SADATA => .mgmt
  | .CRY_CNT => .device
  | .CVU_ASSIGN => .mgmt
  | .CVU_CFG => .cvuOwner
  | .CVU_CTL => .cvuOwner
  | .CVU_ALIVE => .cvuOwner
  | .CVU_ALIVE_CTR => .cvuOwner
  | .CVU_POLY => .cvuOwner
  | .CVU_INIT => .cvuOwner
  | .CVU_XOROUT => .cvuOwner
  | .CVU_RXCRC => .cvuOwner
  | .CVU_RESULT => .cvuOwner
  | .CVU_STAT => .cvuOwner
  | .CVU_FEED => .cvuOwner
  | .CVU_CNT => .cvuOwner
  | .PCB_CTL => .mgmt
  | .PCB_WIN => .mgmt
  | .PCB_CORE => .mgmt
  | .PCB_POOLMAP => .mgmt
  | .PCB_POOLCFG => .mgmt
  | .PCB_CNT => .device
  | .SCC_CORE => .sccCore
  | .SCC_MSG => .mgmt
  | .CRU_CTL => .mgmtPf0
  | .CRU_WORK => .mgmtPf0
  | .CRU_STAT => .mgmtPf0
  | .CRU_THRESH => .mgmtPf0
  | .CRU_FREEZE => .mgmt
  | .CRU_HOME => .mgmtPf0
  | .CRU_PCMD => .mgmtPf0
  | .CRU_LOG_BASE => .mgmtPf0
  | .CRU_LOG_CTL => .mgmtPf0
  | .CRU_LOG_IDX => .mgmtPf0
  | .CRU_CNT => .mgmtPf0
  | .CRU_TENANT => .mgmtPf0
  | .CRU_TUSE => .mgmtPf0
  | .CRU_TBLCLS => .mgmtPf0
  | .CRU_TASK => .mgmtPf0
  | .CRU_RGN => .mgmtPf0
  | .CRU_POOLGRP => .mgmtPf0
  | .CRU_SWAP => .mgmtPf0
  | .CRU_FBMAP => .mgmtPf0
  | .BOOT_STAT => .device
  | .BOOT_CTL => .ksb
  | .BOOT_EPOCH => .device
  | .BOOT_REL => .device
  | .SB_CFG => .ksb
  | .LDR_CMD => .ksc
  | .LDR_SRC => .ksc
  | .LDR_DST => .ksc
  | .IMP_CFG => .keystone
  | .IMP_RANGE => .keystone
  | .BOOT_CNT => .device
  | .ERR_CTL => .ksb
  | .ERR_STAT => .ksb
  | .ERR_CNT => .device
  | .ERR_LOG => .device
  | .SPARE_STAT => .device
  | .WEAR_THR => .device
  | .ST_STAT => .device
  | .ST_REPORT => .device
  | .DET_STAT => .device
  | .LK_STAT => .ksb
  | .LK_CFG => .keystone
  | .ERR_RGN => .ksb
  | .PAIR_CFG => .mgmt
  | .PAIR_CTL => .ksb
  | .PAIR_STAT => .device
  | .PAIR_SEQ => .device
  | .PAIR_PEER => .device
  | .PAIR_ANN => .mgmt
  | .FLM_STAT => .device
  | .PAIR_CNT => .device
  | .CAS_STAT => .device
  | .TLY_BASE => .ksc
  | .MSIX_TBL => .msix
  | .MSIX_PBA => .device

/-- The 64-bit counters: every register of one 64-bit field (R6). CLS_TBYTES is RO, all others are read-clear. -/
def Reg.isCounter : Reg → Bool
  | .CHIP_CONFLICT_STAT => false
  | .CHIP_CONFLICT_CNT => true
  | .CHIP_CONFLICT_LOG => false
  | .SPAN_CFG => false
  | .SPAN_STATUS => false
  | .SPAN_SEQ => false
  | .SPAN_REC => false
  | .MAC_LANE_MAP => false
  | .MAC_LANE_STAT => false
  | .MAC_TC_INC => false
  | .MAC_TC_CTL => false
  | .MAC_TC_ADJ => false
  | .MAC_TC_TIME => false
  | .MAC_PORT_CFG => false
  | .MAC_PORT_STAT => false
  | .MAC_ING_CFG => false
  | .MAC_DSCP_MAP => false
  | .MAC_PFC_CFG => false
  | .MAC_PAUSE_QUANTA => false
  | .MAC_WD_CFG => false
  | .MAC_WD_STAT => false
  | .MAC_PAUSE_HWM => false
  | .MAC_PAUSE_LWM => false
  | .MAC_GCL_CTL => false
  | .MAC_GCL_CYCLE => false
  | .MAC_GCL_BASE_SEC => false
  | .MAC_GCL_BASE_NS => false
  | .MAC_KERF => false
  | .MAC_QMAXF => false
  | .MAC_MOD_CMD => false
  | .MAC_MOD_STAT => false
  | .MAC_MOD_DATA => false
  | .MAC_CNT => true
  | .MAC_GCL => false
  | .CLS_PSTATE => false
  | .CLS_PTRANS => false
  | .CLS_ARB_WT => false
  | .CLS_PARSE_CTL => false
  | .CLS_MAL_ACT => false
  | .CLS_EXC_POOL => false
  | .CLS_EXC_HOST => false
  | .CLS_START => false
  | .CLS_RSS_KEY => false
  | .CLS_MIRROR => false
  | .CLS_TCMD => false
  | .CLS_TKEY => false
  | .CLS_TACT => false
  | .CLS_TDATA => false
  | .CLS_TBYTES => true
  | .CLS_TMPL_HDR => false
  | .CLS_TBL => false
  | .CLS_KEX => false
  | .CLS_CNT => true
  | .CLS_MAL_CNT => true
  | .FWD_TUQ_BASE => false
  | .FWD_TUQ_CTL => false
  | .FWD_TUQ_PI => false
  | .FWD_TUQ_CI => false
  | .FWD_TRIE_STAT => false
  | .FWD_LEARN_CFG => false
  | .FWD_BRT => false
  | .FWD_CNT => true
  | .FWD_BD => false
  | .FWD_AGE => false
  | .SCH_BUF_STAT => false
  | .SCH_LAT_CFG => false
  | .SCH_STAT => false
  | .SCH_IN_LIMIT => false
  | .SCH_IN_OCC => false
  | .SCH_CLASS => false
  | .SCH_CNT => true
  | .SCH_SHAPE => false
  | .SCH_TNODE => false
  | .SCH_TMAP => false
  | .SCH_QUEUE => false
  | .SCH_QDEPTH => false
  | .SCH_Q_CNT => true
  | .SCH_POL => false
  | .HIF_PORT_CFG => false
  | .HIF_LINK_STAT => false
  | .HIF_STAT => false
  | .HIF_CNT => true
  | .HIF_PF_CFG => false
  | .HIF_FUNC_RES => false
  | .HIF_ITT => false
  | .HIF_OTT => false
  | .QCP_RING => false
  | .QCP_CTL => false
  | .QCP_SCHED => false
  | .QCP_CQ_ARM => false
  | .QCP_STAT => false
  | .QCP_IDX => false
  | .QCP_CNT => true
  | .EQC_RING => false
  | .EQC_CTL => false
  | .EQC_MASK => false
  | .EQC_STAT => false
  | .EQC_LOST => true
  | .EQC_DB_BAD => true
  | .QUE_NO_QP => true
  | .CHN_CTL => false
  | .CHN_STAT => false
  | .CHN_HEAD => false
  | .CHN_STOP_AT => false
  | .RMA_CTX_CFG => false
  | .RMA_CFG => false
  | .RMA_CC => false
  | .RMA_FUNC => false
  | .RMA_CNT => true
  | .RMW_CMD => false
  | .RMW_DATA => false
  | .STO_STAT => false
  | .STO_FUNC => false
  | .STO_PATH => false
  | .STO_NS => false
  | .STO_CNT => true
  | .CBF_CAP => false
  | .CBF_CTL => false
  | .CBF_ISSUE => false
  | .CBF_BUSY => false
  | .CBF_DONE => false
  | .CBF_PWR => false
  | .CBF_STAT => false
  | .CBF_CNT => true
  | .CBF_SLOT => false
  | .CRY_CFG => false
  | .CRY_MSEC_CFG => false
  | .CRY_SACMD => false
  | .CRY_SADATA => false
  | .CRY_CNT => true
  | .CVU_ASSIGN => false
  | .CVU_CFG => false
  | .CVU_CTL => false
  | .CVU_ALIVE => false
  | .CVU_ALIVE_CTR => false
  | .CVU_POLY => false
  | .CVU_INIT => false
  | .CVU_XOROUT => false
  | .CVU_RXCRC => false
  | .CVU_RESULT => false
  | .CVU_STAT => false
  | .CVU_FEED => false
  | .CVU_CNT => true
  | .PCB_CTL => false
  | .PCB_WIN => false
  | .PCB_CORE => false
  | .PCB_POOLMAP => false
  | .PCB_POOLCFG => false
  | .PCB_CNT => true
  | .SCC_CORE => false
  | .SCC_MSG => false
  | .CRU_CTL => false
  | .CRU_WORK => false
  | .CRU_STAT => false
  | .CRU_THRESH => false
  | .CRU_FREEZE => false
  | .CRU_HOME => false
  | .CRU_PCMD => false
  | .CRU_LOG_BASE => false
  | .CRU_LOG_CTL => false
  | .CRU_LOG_IDX => false
  | .CRU_CNT => true
  | .CRU_TENANT => false
  | .CRU_TUSE => false
  | .CRU_TBLCLS => false
  | .CRU_TASK => false
  | .CRU_RGN => false
  | .CRU_POOLGRP => false
  | .CRU_SWAP => false
  | .CRU_FBMAP => false
  | .BOOT_STAT => false
  | .BOOT_CTL => false
  | .BOOT_EPOCH => false
  | .BOOT_REL => false
  | .SB_CFG => false
  | .LDR_CMD => false
  | .LDR_SRC => false
  | .LDR_DST => false
  | .IMP_CFG => false
  | .IMP_RANGE => false
  | .BOOT_CNT => true
  | .ERR_CTL => false
  | .ERR_STAT => false
  | .ERR_CNT => true
  | .ERR_LOG => false
  | .SPARE_STAT => false
  | .WEAR_THR => false
  | .ST_STAT => false
  | .ST_REPORT => false
  | .DET_STAT => false
  | .LK_STAT => false
  | .LK_CFG => false
  | .ERR_RGN => false
  | .PAIR_CFG => false
  | .PAIR_CTL => false
  | .PAIR_STAT => false
  | .PAIR_SEQ => false
  | .PAIR_PEER => false
  | .PAIR_ANN => false
  | .FLM_STAT => false
  | .PAIR_CNT => true
  | .CAS_STAT => false
  | .TLY_BASE => false
  | .MSIX_TBL => false
  | .MSIX_PBA => false

/-- The write masks of the words of a register (R4). -/
def Reg.accessWords : Reg → List Access
  | .CHIP_CONFLICT_STAT => [{ w1c := 0x80000000 }]
  | .CHIP_CONFLICT_CNT => []
  | .CHIP_CONFLICT_LOG => []
  | .SPAN_CFG => [{ rw := 0x7FF }]
  | .SPAN_STATUS => [{ w1c := 0x20000000 }]
  | .SPAN_SEQ => []
  | .SPAN_REC => []
  | .MAC_LANE_MAP => [{ rw := 0xFFFFFFFF }]
  | .MAC_LANE_STAT => [{ w1c := 0x80000000 }]
  | .MAC_TC_INC => [{ rw := 0xFFFFFFFF }]
  | .MAC_TC_CTL => [{ rw := 0xB0000000, w1c := 0x40000000 }]
  | .MAC_TC_ADJ => [{ wo := 0xFFFFFFFF }, { wo := 0xFFFFFFFF }]
  | .MAC_TC_TIME => []
  | .MAC_PORT_CFG => [{ rw := 0xFF003FFF }]
  | .MAC_PORT_STAT => []
  | .MAC_ING_CFG => [{ rw := 0xF9FF0FFF }]
  | .MAC_DSCP_MAP => [{ rw := 0xFFFFFF }]
  | .MAC_PFC_CFG => [{ rw := 0xC0FFFF00 }]
  | .MAC_PAUSE_QUANTA => [{ rw := 0xFFFF }]
  | .MAC_WD_CFG => [{ rw := 0xBFFF3FFF }]
  | .MAC_WD_STAT => []
  | .MAC_PAUSE_HWM => [{ rw := 0x3FFFF }]
  | .MAC_PAUSE_LWM => [{ rw := 0x3FFFF }]
  | .MAC_GCL_CTL => [{ rw := 0x400007FF, w1c := 0x10000000, wo := 0x80000000 }]
  | .MAC_GCL_CYCLE => [{ rw := 0x3FFFFFFF }]
  | .MAC_GCL_BASE_SEC => [{ rw := 0xFFFFFFFF }]
  | .MAC_GCL_BASE_NS => [{ rw := 0x3FFFFFFF }]
  | .MAC_KERF => [{ rw := 0x800FFFFF }]
  | .MAC_QMAXF => [{ rw := 0x3FFF }]
  | .MAC_MOD_CMD => [{ rw := 0x607FFF0F, wo := 0x80000000 }]
  | .MAC_MOD_STAT => [{ w1c := 0x40000000 }]
  | .MAC_MOD_DATA => [{ rw := 0xFFFFFFFF }]
  | .MAC_CNT => []
  | .MAC_GCL => [{ rw := 0x3FFFFFFF }, { rw := 0xFF }]
  | .CLS_PSTATE => [{ rw := 0xFFFFFFFE }, { rw := 0xFFFFFFFC }, { rw := 0xFFFF80FF }]
  | .CLS_PTRANS => [{ rw := 0xFFFFFFFF }, { rw := 0xFFFFFFFF }, { rw := 0xFF000000 }]
  | .CLS_ARB_WT => [{ rw := 0xFFF }]
  | .CLS_PARSE_CTL => [{ w1c := 0x20000000, wo := 0x80000000 }]
  | .CLS_MAL_ACT => [{ rw := 0xFFFFFF }]
  | .CLS_EXC_POOL => [{ rw := 0x3F }]
  | .CLS_EXC_HOST => [{ rw := 0x1FF00FF }]
  | .CLS_START => [{ rw := 0xFFFF }]
  | .CLS_RSS_KEY => [{ rw := 0xFFFFFFFF }]
  | .CLS_MIRROR => [{ rw := 0xFFFFFFFF }]
  | .CLS_TCMD => [{ rw := 0x38FFFFFF, wo := 0x80000000 }]
  | .CLS_TKEY => [{ rw := 0xFFFFFFFF }]
  | .CLS_TACT => [{ rw := 0xFF }]
  | .CLS_TDATA => [{ rw := 0xFFFFFFFF }, { rw := 0xFFFFFFFF }]
  | .CLS_TBYTES => []
  | .CLS_TMPL_HDR => [{ rw := 0xFF }, { rw := 0xFFFFFFFF }, { rw := 0xFFFFFFFF }]
  | .CLS_TBL => [{ rw := 0xFF1F0000 }, { rw := 0xFFFFFFFF }, { rw := 0x7FFF }, { rw := 0xFF }, { w1c := 0x40000000 }]
  | .CLS_KEX => [{ rw := 0xFFFFFE7F }]
  | .CLS_CNT => []
  | .CLS_MAL_CNT => []
  | .FWD_TUQ_BASE => [{ rw := 0xFFFFFFE0 }, { rw := 0xFFFF }]
  | .FWD_TUQ_CTL => [{ rw := 0x8000001F }]
  | .FWD_TUQ_PI => [{ rw := 0xFFFF }]
  | .FWD_TUQ_CI => []
  | .FWD_TRIE_STAT => []
  | .FWD_LEARN_CFG => [{ rw := 0xFFFFFF }]
  | .FWD_BRT => [{ rw := 0x8000033F }]
  | .FWD_CNT => []
  | .FWD_BD => [{ rw := 0xF800FFFF }, { rw := 0x1FF00FF }]
  | .FWD_AGE => [{ rw := 0x8000FFFF }]
  | .SCH_BUF_STAT => []
  | .SCH_LAT_CFG => [{ rw := 0xF }]
  | .SCH_STAT => [{ w1c := 0xC0000000 }]
  | .SCH_IN_LIMIT => [{ rw := 0x1FFFF }]
  | .SCH_IN_OCC => []
  | .SCH_CLASS => [{ rw := 0x8000FFFF }]
  | .SCH_CNT => []
  | .SCH_SHAPE => [{ rw := 0x1FFFFF }, { rw := 0xFFFFFF }, { rw := 0x1FFFFF }, { rw := 0xFFFFFF }]
  | .SCH_TNODE => [{ rw := 0xFC00FFFF }, { rw := 0x3F3FFF }]
  | .SCH_TMAP => [{ rw := 0x80000FFF }]
  | .SCH_QUEUE => [{ rw := 0xFFFF0001 }, { rw := 0x1FFFF }, { rw := 0x1FFFF }]
  | .SCH_QDEPTH => []
  | .SCH_Q_CNT => []
  | .SCH_POL => [{ rw := 0xE01FFFFF }, { rw := 0xFFFFFF }, { rw := 0x1FFFFF }, { rw := 0xFFFFFF }]
  | .HIF_PORT_CFG => [{ rws := 0xFC000000 }]
  | .HIF_LINK_STAT => []
  | .HIF_STAT => [{ w1c := 0xC0000000 }]
  | .HIF_CNT => []
  | .HIF_PF_CFG => [{ rws := 0xF1FF01FF }, { rws := 0xFFFFFC00 }, { rws := 0xFFFFFF00 }]
  | .HIF_FUNC_RES => [{ rws := 0x1FFFFFF }, { rws := 0xFF9F0000 }, { rws := 0xFFF07FFF }]
  | .HIF_ITT => [{ rws := 0xFFFFFFDF }, { rws := 0xFFFFFFFF }, { rws := 0xF800FFFF }, { rws := 0x1FF }]
  | .HIF_OTT => [{ rws := 0xFFE00000 }, { rws := 0xFFFFF }, { rws := 0xFFFFF000 }, { rws := 0x3 }, { rws := 0xFFFFF000 }, { rws := 0xFFFFFFFF }, { rws := 0x1FF }]
  | .QCP_RING => [{ rw := 0xFFFFF000 }, { rw := 0xFFFFFFFF }, { rw := 0xF }]
  | .QCP_CTL => [{ rw := 0xC00FFFFF }]
  | .QCP_SCHED => [{ rw := 0xFF7F }]
  | .QCP_CQ_ARM => [{ rw := 0x87FFFFFF }]
  | .QCP_STAT => []
  | .QCP_IDX => []
  | .QCP_CNT => []
  | .EQC_RING => [{ rw := 0xFFFFF000 }, { rw := 0xFFFFFFFF }, { rw := 0xF }]
  | .EQC_CTL => [{ rw := 0x800007FF }]
  | .EQC_MASK => [{ rw := 0x3FFFE }]
  | .EQC_STAT => []
  | .EQC_LOST => []
  | .EQC_DB_BAD => []
  | .QUE_NO_QP => []
  | .CHN_CTL => [{ wo := 0xE0000000 }]
  | .CHN_STAT => [{ w1c := 0x20000000 }]
  | .CHN_HEAD => [{ rw := 0xFFFFFFC0 }, { rw := 0xFFFF }]
  | .CHN_STOP_AT => []
  | .RMA_CTX_CFG => [{ rw := 0xFFFFF000 }, { rw := 0xFFFF }, { rw := 0x1FFFFFF }, { rw := 0x1FFFFFF }]
  | .RMA_CFG => [{ rw := 0x1F00 }]
  | .RMA_CC => [{ rw := 0x800FFFFF }, { rw := 0xFFFFFFFF }]
  | .RMA_FUNC => [{ rws := 0xFFFFFF }, { rws := 0x1FFFFFF }, { rws := 0xFFFFFF }, { rws := 0x1FFFFFF }]
  | .RMA_CNT => []
  | .RMW_CMD => [{ rw := 0x38FFFFFF, wo := 0x80000000 }]
  | .RMW_DATA => [{ rw := 0xFFFFFFFF }]
  | .STO_STAT => [{ w1c := 0x80000000 }]
  | .STO_FUNC => [{ rws := 0xC07FFFFF }]
  | .STO_PATH => [{ rw := 0xE0FFFFFF }]
  | .STO_NS => [{ rw := 0xF1FF00FF }, { rw := 0xFFFFFFFF }, { rw := 0xFFFF }, { rw := 0xFFFF0000 }, { rw := 0xFFFFFFFF }, { rw := 0xFFFF }]
  | .STO_CNT => []
  | .CBF_CAP => []
  | .CBF_CTL => [{ rw := 0x800007FF }]
  | .CBF_ISSUE => [{ w1s := 0xFFFFFFFF }]
  | .CBF_BUSY => []
  | .CBF_DONE => [{ w1c := 0xFFFFFFFF }]
  | .CBF_PWR => [{ rw := 0x80000000 }]
  | .CBF_STAT => [{ w1c := 0x80000000 }]
  | .CBF_CNT => []
  | .CBF_SLOT => [{ rw := 0xFFFF }, { rw := 0xFFFFFFFF }, { rw := 0xFFFFFFFF }, { rw := 0xFFFFFFFF }, { rw := 0xFFFFFFFF }, { rw := 0xFFFFFFFF }, { rw := 0xFFFFFFFF }]
  | .CRY_CFG => [{ rw := 0x3F }]
  | .CRY_MSEC_CFG => [{ rw := 0xFE000003 }]
  | .CRY_SACMD => [{ rw := 0x38FFFFFF, wo := 0x80000000 }]
  | .CRY_SADATA => [{ rw := 0xFFFFFFFF }]
  | .CRY_CNT => []
  | .CVU_ASSIGN => [{ rw := 0xC7FC01FF }]
  | .CVU_CFG => [{ rw := 0xF83EFF7F }]
  | .CVU_CTL => [{ wo := 0xF0000000 }]
  | .CVU_ALIVE => [{ rw := 0xFFFFFFFF }]
  | .CVU_ALIVE_CTR => [{ rw := 0xFFFF }]
  | .CVU_POLY => [{ rw := 0xFFFFFFFF }, { rw := 0xFFFFFFFF }]
  | .CVU_INIT => [{ rw := 0xFFFFFFFF }, { rw := 0xFFFFFFFF }]
  | .CVU_XOROUT => [{ rw := 0xFFFFFFFF }, { rw := 0xFFFFFFFF }]
  | .CVU_RXCRC => [{ rw := 0xFFFFFFFF }, { rw := 0xFFFFFFFF }]
  | .CVU_RESULT => []
  | .CVU_STAT => [{ w1c := 0x80000000 }]
  | .CVU_FEED => [{ wo := 0xFFFFFFFF }]
  | .CVU_CNT => []
  | .PCB_CTL => [{ rw := 0xFF00FFFF }]
  | .PCB_WIN => [{ rw := 0xFFFFF000 }, { rw := 0xFFFF }, { rw := 0xE000003F }]
  | .PCB_CORE => [{ rw := 0x8000FFFF, w1c := 0x40000000 }]
  | .PCB_POOLMAP => [{ rw := 0x8000003F }]
  | .PCB_POOLCFG => [{ rw := 0x3FFF }]
  | .PCB_CNT => []
  | .SCC_CORE => [{ rw := 0x80000000, w1c := 0x10000000 }, { rw := 0xFFFFF000 }, { rw := 0xFFFF }]
  | .SCC_MSG => [{ w1s := 0x3 }]
  | .CRU_CTL => [{ rw := 0x80FF000F }]
  | .CRU_WORK => [{ rw := 0xFFFF1FFF }]
  | .CRU_STAT => [{ w1c := 0x40000000 }]
  | .CRU_THRESH => [{ rw := 0xFFFFFFFF }, { rw := 0xFFFFFFFF }, { rw := 0xFFFFFFFF }]
  | .CRU_FREEZE => [{ rw := 0xFF }]
  | .CRU_HOME => [{ rw := 0xFFFFF000 }, { rw := 0xFFFF }, { rw := 0xFFFFF }]
  | .CRU_PCMD => [{ rw := 0x380007FF, wo := 0x80000000 }, { rw := 0xFFFFFFFF }, { rw := 0xFFFFFFFF }]
  | .CRU_LOG_BASE => [{ rw := 0xFFFFFFE0 }, { rw := 0xFFFF }]
  | .CRU_LOG_CTL => [{ rw := 0x8000001F }]
  | .CRU_LOG_IDX => [{ rw := 0xFFFF0000 }]
  | .CRU_CNT => []
  | .CRU_TENANT => [{ rw := 0xF0FFFFFF }, { rw := 0xFFFFFF }]
  | .CRU_TUSE => []
  | .CRU_TBLCLS => [{ rw := 0xFFE001FF }]
  | .CRU_TASK => [{ rw := 0xFFFE0000 }, { rw := 0xFFFFFFFF }]
  | .CRU_RGN => [{ rw := 0xFFFFFFFF }]
  | .CRU_POOLGRP => [{ rw := 0x7 }]
  | .CRU_SWAP => [{ rw := 0x1000FFFF, wo := 0x80000000 }]
  | .CRU_FBMAP => [{ rw := 0x7800003F }]
  | .BOOT_STAT => []
  | .BOOT_CTL => [{ rw := 0xC0000000 }]
  | .BOOT_EPOCH => []
  | .BOOT_REL => []
  | .SB_CFG => [{ rws := 0xE000007F }]
  | .LDR_CMD => [{ rw := 0x387C00FF, wo := 0x80000000 }]
  | .LDR_SRC => [{ rw := 0xFFFFF000 }, { rw := 0xFFFF }]
  | .LDR_DST => [{ rw := 0xFFFFF000 }, { rw := 0xFFFF }]
  | .IMP_CFG => [{ rwl := 0xFFF00000, w1s := 0x1 }, { rwl := 0xFFFF }, { rwl := 0x1FFFF }]
  | .IMP_RANGE => [{ rwl := 0xFFE00000 }, { rwl := 0x1FFFF }, { rwl := 0xFFFFF }]
  | .BOOT_CNT => []
  | .ERR_CTL => [{ rw := 0xFFFFFFFF }]
  | .ERR_STAT => [{ w1c := 0x40, wo := 0x2000000 }]
  | .ERR_CNT => []
  | .ERR_LOG => []
  | .SPARE_STAT => []
  | .WEAR_THR => []
  | .ST_STAT => []
  | .ST_REPORT => []
  | .DET_STAT => []
  | .LK_STAT => [{ w1c := 0x80000000 }]
  | .LK_CFG => [{ rwl := 0x1FFF, w1s := 0x80000000 }]
  | .ERR_RGN => [{ wo := 0x40000000 }]
  | .PAIR_CFG => [{ rw := 0xFFF03FFF }]
  | .PAIR_CTL => [{ wo := 0xC0000000 }]
  | .PAIR_STAT => []
  | .PAIR_SEQ => []
  | .PAIR_PEER => []
  | .PAIR_ANN => [{ rw := 0x800F0FFF }]
  | .FLM_STAT => []
  | .PAIR_CNT => []
  | .CAS_STAT => []
  | .TLY_BASE => [{ rw := 0xF8000001 }, { rw := 0xFFFF }]
  | .MSIX_TBL => [{ rw := 0xFFFFFFFF }, { rw := 0xFFFFFFFF }, { rw := 0xFFFFFFFF }, { rw := 0x1 }]
  | .MSIX_PBA => []

/-- The write masks of a register word (R4). -/
def Reg.access (r : Reg) (w : Nat) : Access := r.accessWords.getD w {}

/-- The values of the words of instance `i` of a register after a cold reset (R8), as numbers; every word not listed resets to 0. -/
def Reg.resetWords (r : Reg) (i : Nat) : List Nat :=
  match r with
  | .CHIP_CONFLICT_STAT => []
  | .CHIP_CONFLICT_CNT => []
  | .CHIP_CONFLICT_LOG => []
  | .SPAN_CFG => [0x432]
  | .SPAN_STATUS => [0xF]
  | .SPAN_SEQ => [0xFFFFFFFF]
  | .SPAN_REC => []
  | .MAC_LANE_MAP => []
  | .MAC_LANE_STAT => []
  | .MAC_TC_INC => [0x9B26C9B2]
  | .MAC_TC_CTL => []
  | .MAC_TC_ADJ => []
  | .MAC_TC_TIME => []
  | .MAC_PORT_CFG => [0xC00005F2]
  | .MAC_PORT_STAT => []
  | .MAC_ING_CFG => []
  | .MAC_DSCP_MAP => [(i * 0x249249)]
  | .MAC_PFC_CFG => [0xFF00]
  | .MAC_PAUSE_QUANTA => [0xFFFF]
  | .MAC_WD_CFG => [0x80C800C8]
  | .MAC_WD_STAT => []
  | .MAC_PAUSE_HWM => [0x400]
  | .MAC_PAUSE_LWM => [0x300]
  | .MAC_GCL_CTL => [0x1]
  | .MAC_GCL_CYCLE => [0xF4240]
  | .MAC_GCL_BASE_SEC => []
  | .MAC_GCL_BASE_NS => []
  | .MAC_KERF => [0x80000000]
  | .MAC_QMAXF => []
  | .MAC_MOD_CMD => [0x40500001]
  | .MAC_MOD_STAT => []
  | .MAC_MOD_DATA => []
  | .MAC_CNT => []
  | .MAC_GCL => [0, 0xFF]
  | .CLS_PSTATE => [0, 0, 0xFF]
  | .CLS_PTRANS => [0, 0, 0xFF000000]
  | .CLS_ARB_WT => [0x211]
  | .CLS_PARSE_CTL => []
  | .CLS_MAL_ACT => [0xFFFFFF]
  | .CLS_EXC_POOL => []
  | .CLS_EXC_HOST => []
  | .CLS_START => []
  | .CLS_RSS_KEY => []
  | .CLS_MIRROR => []
  | .CLS_TCMD => []
  | .CLS_TKEY => []
  | .CLS_TACT => []
  | .CLS_TDATA => []
  | .CLS_TBYTES => []
  | .CLS_TMPL_HDR => []
  | .CLS_TBL => [0x10000, 0, 0x1]
  | .CLS_KEX => []
  | .CLS_CNT => []
  | .CLS_MAL_CNT => []
  | .FWD_TUQ_BASE => []
  | .FWD_TUQ_CTL => [0xA]
  | .FWD_TUQ_PI => []
  | .FWD_TUQ_CI => []
  | .FWD_TRIE_STAT => []
  | .FWD_LEARN_CFG => [0xFE0040]
  | .FWD_BRT => []
  | .FWD_CNT => []
  | .FWD_BD => []
  | .FWD_AGE => [0x64]
  | .SCH_BUF_STAT => []
  | .SCH_LAT_CFG => [0xA]
  | .SCH_STAT => []
  | .SCH_IN_LIMIT => [0x600]
  | .SCH_IN_OCC => []
  | .SCH_CLASS => [0x1]
  | .SCH_CNT => []
  | .SCH_SHAPE => []
  | .SCH_TNODE => [0x1 + (if i < 32 then 1 else 0) * 2147483648 + (if i < 32 then i else 0) * 67108864, (if i < 32 then i else 0)]
  | .SCH_TMAP => [0x80000000 + (i / 512)]
  | .SCH_QUEUE => [0x10000, 0x2000, 0x1000]
  | .SCH_QDEPTH => []
  | .SCH_Q_CNT => []
  | .SCH_POL => []
  | .HIF_PORT_CFG => [0x1C000000 + (if i = 0 then 1 else 0) * 2147483648]
  | .HIF_LINK_STAT => []
  | .HIF_STAT => []
  | .HIF_CNT => []
  | .HIF_PF_CFG => [0x10 + (if i = 0 then 1 else 0) * 2147483648, 0xA8150000, 0x2000000]
  | .HIF_FUNC_RES => [i * 65536, (if i = 0 then 8 else 0) * 8388608 + (if i = 0 then 1 else 0) * 65536, (if i = 0 then 16 else 0) * 1048576]
  | .HIF_ITT => [0xC]
  | .HIF_OTT => [0x1800000]
  | .QCP_RING => [0, 0, 0x6]
  | .QCP_CTL => []
  | .QCP_SCHED => [0x101]
  | .QCP_CQ_ARM => []
  | .QCP_STAT => [0x80000000]
  | .QCP_IDX => []
  | .QCP_CNT => []
  | .EQC_RING => [0, 0, 0x6]
  | .EQC_CTL => []
  | .EQC_MASK => [0x3FFFE]
  | .EQC_STAT => []
  | .EQC_LOST => []
  | .EQC_DB_BAD => []
  | .QUE_NO_QP => []
  | .CHN_CTL => []
  | .CHN_STAT => []
  | .CHN_HEAD => []
  | .CHN_STOP_AT => []
  | .RMA_CTX_CFG => []
  | .RMA_CFG => [0x100]
  | .RMA_CC => [0x80000064, 0x32003E8]
  | .RMA_FUNC => []
  | .RMA_CNT => []
  | .RMW_CMD => []
  | .RMW_DATA => []
  | .STO_STAT => []
  | .STO_FUNC => []
  | .STO_PATH => []
  | .STO_NS => [0x1, 0, 0, 0xFFFF0000]
  | .STO_CNT => []
  | .CBF_CAP => []
  | .CBF_CTL => []
  | .CBF_ISSUE => []
  | .CBF_BUSY => []
  | .CBF_DONE => []
  | .CBF_PWR => []
  | .CBF_STAT => []
  | .CBF_CNT => []
  | .CBF_SLOT => []
  | .CRY_CFG => [0x18]
  | .CRY_MSEC_CFG => [0x3A000000]
  | .CRY_SACMD => []
  | .CRY_SADATA => []
  | .CRY_CNT => []
  | .CVU_ASSIGN => []
  | .CVU_CFG => [0x80310]
  | .CVU_CTL => []
  | .CVU_ALIVE => [0x1]
  | .CVU_ALIVE_CTR => []
  | .CVU_POLY => []
  | .CVU_INIT => []
  | .CVU_XOROUT => []
  | .CVU_RXCRC => []
  | .CVU_RESULT => []
  | .CVU_STAT => []
  | .CVU_FEED => []
  | .CVU_CNT => []
  | .PCB_CTL => [0x3E8]
  | .PCB_WIN => [0, 0, 0xC]
  | .PCB_CORE => []
  | .PCB_POOLMAP => []
  | .PCB_POOLCFG => [0x200]
  | .PCB_CNT => []
  | .SCC_CORE => []
  | .SCC_MSG => []
  | .CRU_CTL => [0x80400003]
  | .CRU_WORK => [0x10191388]
  | .CRU_STAT => []
  | .CRU_THRESH => [0x40, 0x8, 0x10]
  | .CRU_FREEZE => []
  | .CRU_HOME => []
  | .CRU_PCMD => []
  | .CRU_LOG_BASE => []
  | .CRU_LOG_CTL => [0xA]
  | .CRU_LOG_IDX => []
  | .CRU_CNT => []
  | .CRU_TENANT => [0xFFFFFF, 0xFFFFFF]
  | .CRU_TUSE => []
  | .CRU_TBLCLS => []
  | .CRU_TASK => [0xF00000]
  | .CRU_RGN => [0x2004800]
  | .CRU_POOLGRP => []
  | .CRU_SWAP => []
  | .CRU_FBMAP => []
  | .BOOT_STAT => []
  | .BOOT_CTL => [0x40000000]
  | .BOOT_EPOCH => []
  | .BOOT_REL => []
  | .SB_CFG => [0x20000064]
  | .LDR_CMD => []
  | .LDR_SRC => []
  | .LDR_DST => []
  | .IMP_CFG => []
  | .IMP_RANGE => []
  | .BOOT_CNT => []
  | .ERR_CTL => [0xA8010]
  | .ERR_STAT => []
  | .ERR_CNT => []
  | .ERR_LOG => []
  | .SPARE_STAT => [(spareInitial i) * 16777216 + (spareInitial i) * 65536]
  | .WEAR_THR => [(wearReset i)]
  | .ST_STAT => []
  | .ST_REPORT => []
  | .DET_STAT => []
  | .LK_STAT => []
  | .LK_CFG => [0x7D0]
  | .ERR_RGN => []
  | .PAIR_CFG => [0x804000C8]
  | .PAIR_CTL => []
  | .PAIR_STAT => []
  | .PAIR_SEQ => [0xFFFFFFFF]
  | .PAIR_PEER => []
  | .PAIR_ANN => []
  | .FLM_STAT => []
  | .PAIR_CNT => []
  | .CAS_STAT => []
  | .TLY_BASE => []
  | .MSIX_TBL => [0, 0, 0, 0x1]
  | .MSIX_PBA => []

/-- The word a register key reads as after a cold reset (R8). -/
def RegKey.resetWord (k : RegKey) : BitVec 32 := BitVec.ofNat 32 ((k.reg.resetWords k.i).getD k.w 0)

end Sys2Proof.Machine
end

