-- ==== Sys2Proof/Machine/Sparse.lean ====
section
/-! DEFINITION. Sparse tables as plain data: a list of key and value pairs in one canonical form (keys strictly rising, no entry equal to the default),
where a key that is not listed holds the default value of that key. Registers, memory and every device table are kept this way, so that equal tables are equal lists. -/

namespace Sys2Proof.Machine

variable {κ α : Type}

/-- The value of a key: its listed value, or the default of that key. -/
def Sparse.get [DecidableEq κ] (d : κ → α) : List (κ × α) → κ → α
  | [], k => d k
  | (k', v) :: t, k => if k = k' then v else Sparse.get d t k

/-- The table without any entry of a key. -/
def Sparse.erase [DecidableEq κ] : List (κ × α) → κ → List (κ × α)
  | [], _ => []
  | (k', v) :: t, k => if k = k' then Sparse.erase t k else (k', v) :: Sparse.erase t k

/-- An entry placed before the first key that is above it. -/
def Sparse.insert (lt : κ → κ → Bool) : List (κ × α) → κ → α → List (κ × α)
  | [], k, v => [(k, v)]
  | (k', v') :: t, k, v => if lt k k' then (k, v) :: (k', v') :: t else (k', v') :: Sparse.insert lt t k v

/-- The table with a key set to a value; a value equal to the key's default is not listed. -/
def Sparse.put [DecidableEq κ] [DecidableEq α] (lt : κ → κ → Bool) (d : κ → α) (m : List (κ × α)) (k : κ) (v : α) :
    List (κ × α) :=
  if v = d k then Sparse.erase m k else Sparse.insert lt (Sparse.erase m k) k v

/-- The keys rise strictly. -/
def Sparse.sorted (lt : κ → κ → Bool) : List (κ × α) → Bool
  | [] => true
  | [_] => true
  | (k, _) :: (k', v') :: t => lt k k' && Sparse.sorted lt ((k', v') :: t)

/-- The canonical form: keys strictly rising and no entry equal to its default. -/
def Sparse.wf [DecidableEq α] (lt : κ → κ → Bool) (d : κ → α) (m : List (κ × α)) : Bool :=
  Sparse.sorted lt m && m.all fun e => !decide (e.2 = d e.1)

/-- A table keyed by numbers. -/
abbrev NMap (α : Type) := List (Nat × α)

/-- Read of a number-keyed table whose default is the same for every key. -/
def NMap.at (m : NMap α) (dflt : α) (k : Nat) : α := Sparse.get (fun _ => dflt) m k

/-- Write of a number-keyed table whose default is the same for every key. -/
def NMap.set [DecidableEq α] (m : NMap α) (dflt : α) (k : Nat) (v : α) : NMap α :=
  Sparse.put (fun a b => decide (a < b)) (fun _ => dflt) m k v

/-- A number-keyed table with one key's value changed. -/
def NMap.upd [DecidableEq α] (m : NMap α) (dflt : α) (k : Nat) (f : α → α) : NMap α :=
  m.set dflt k (f (m.at dflt k))

end Sys2Proof.Machine
end

