-- ==== Sys2Proof/Machine/State.lean ====
section
/-! DEFINITION. The state of the block as plain data: every register, queue, buffer, engine, mode and pin that the manual gives the device, and the queue of the commands that are waiting. -/

namespace Sys2Proof.Machine

open Sys2Proof

/-- Reasons a step stops: none. The manual gives every command an effect in every state; an access that reaches nothing ends with a status or a trap (R483). -/
inductive Fault where
  deriving DecidableEq, Repr

/-- Reasons a command has no meaning. -/
inductive Refusal where
  /-- A command whose arm is still rejected by name. Raised by Dispatch alone. Safe. -/
  | notModelled (mnemonic : String)
  deriving DecidableEq, Repr

/-- One change of memory by the command in progress: a byte written, or a range returned to what unwritten memory reads as. -/
inductive MemOp where
  | byte (addr : Nat) (b : Byte)
  | clear (lo hi : Nat)
  deriving DecidableEq, Repr

/-- An event raised by the device and not yet written to the event queues (R218, R219): its code, the owning function of a function event, its arguments and its time. -/
structure Event where
  code : Nat
  fn : Option Nat := none
  arg0 : Nat := 0
  arg1 : Nat := 0
  ns : Nat := 0
  sec : Nat := 0
  deriving DecidableEq, Repr

/-- What a request TLP of the device carries beside its address and data (R165, R180, R181, R183): Routing ID of its requester, relative to that of its link's ARI function 0, PASID if one is attached, Privileged Mode Requested, No Snoop, Relaxed Ordering, and an address type of translated. -/
structure TlpAttr where
  requester : Nat := 0
  pasid : Option Nat := none
  pmr : Bool := false
  ns : Bool := false
  rlx : Bool := false
  translated : Bool := false
  deriving DecidableEq, Repr

/-- What the device sends out or answers, in order. -/
inductive Output where
  /-- The value returned to a register read. -/
  | regValue (w : Writer) (addr value : Nat)
  /-- A status returned on an access path that carries one: `PREEMPTED` (R19) or `ACCESS` (R23), as codes of R216. -/
  | regStatus (w : Writer) (addr status : Nat)
  /-- A frame sent on an Ethernet port, FCS included. -/
  | frame (port : Nat) (bytes : List Byte)
  /-- A pin driven to a level. -/
  | pin (name : String) (level : Bool)
  /-- A module bus transaction started (R74): bus, target address, offset, read, bytes written, length. -/
  | moduleBus (bus dev off : Nat) (read : Bool) (data : List Byte) (len : Nat)
  /-- A packet sent to another cascade member on a Flume port, with its 64 bytes of metadata (R461): Flume port, member, port and class there. -/
  | ringPacket (fl member port cls : Nat) (md bytes : List Byte)
  /-- An NVMe command capsule handed to the firmware of a TCP backing path: path, command number, submission entry, data written. -/
  | capsule (path id : Nat) (sqe data : List Byte)
  /-- A read of host memory issued for a function: tag, address, length, and what its TLP carries beside them. -/
  | hostRead (f tag addr len : Nat) (tlp : TlpAttr)
  /-- A write of host memory for a function, EP set on marked data. -/
  | hostWrite (f addr : Nat) (tlp : TlpAttr) (ep : Bool) (data : List Byte)
  /-- An ATS Translation Request of a function for a page, with its tag (R183). -/
  | translationRequest (f tag page : Nat) (pasid : Option Nat)
  /-- An MSI-X or MSI message of a function, or a new level of its INTA. -/
  | message (f addr data : Nat)
  | intx (f : Nat) (level : Bool)
  /-- Answers to host requests: a configuration request (0 success, 1 Unsupported Request, 2 Request Retry Status, with the value read), and a memory read (0 data, 1 Unsupported Request, 4 Completer Abort). -/
  | cfgReply (f status value : Nat)
  | readReply (f status : Nat) (ep : Bool) (data : List Byte)
  /-- An ATS invalidation has completed; a page request is sent. -/
  | invalDone (f id : Nat)
  | pageRequest (f page pasid : Nat)
  /-- An error message to a host (R194): of a function, with its class (0 correctable, 1 non-fatal, 2 fatal); or ERR_FATAL on a link, by 4 × host port + link. -/
  | hostError (f cls : Nat)
  | linkFatal (l : Nat)
  /-- An answer of PLDM: 0 success or 1 an error, and its readings. -/
  | pldm (status : Nat) (data : List Nat)
  /-- Measurement blocks by index, the key that signs them (0 DeviceID, 1 alias), and the signature. -/
  | measurements (signer : Nat) (blocks : List (Nat × List Byte)) (signature : List Byte)
  /-- A message on a Flume port: kind (1 heartbeat, 3 the acknowledgement of an intent record, 5 that of a commit) and its numbers. -/
  | flume (fl kind : Nat) (fields : List Nat)
  /-- A mirror commit (R448): Flume port, SEQ, number of the first intent record that it does not cover, and its items. -/
  | commit (fl seq covers : Nat) (items : List CommitItem)
  /-- A bulk copy (R459), and the replication of a cascade, of a change or in full (R460, R462). -/
  | bulkCopy (fl : Nat) (items : List CommitItem)
  | replicate (fl : Nat) (full : Bool) (items : List CommitItem)
  /-- An intent record sent to the peer, by its number (R450). -/
  | intent (number : Nat) (action : Intent)
  /-- What the test access port shifts out, or drives on the pins. -/
  | tdo (value : Nat)
  | pins (levels : List Bool)
  deriving DecidableEq, Repr

/-- Clocks and time: CLK_PIPE cycles since the release of cold reset (R24), and the time counter in units of 2^-32 ns (R69). -/
structure Clk where
  now : Nat := 0
  tc : Nat := 0
  deriving DecidableEq, Repr

/-- Where a span boundary falls (R29): a CLK_PIPE cycle, or a PTP time in ns. -/
inductive Bound where
  | cycle (c : Nat)
  | ptp (ns : Nat)
  deriving DecidableEq, Repr

/-- The span in progress (R28 to R31): its first cycle, the boundary due at its end, the anchor of the free-running grid, whether it is transitional,
and whether a new `SPAN_CFG` value waits for that boundary (1) or governs the transitional span in progress (2). -/
structure Span where
  start : Nat := 0
  due : Bound := .cycle 82500
  anchor : Nat := 0
  trans : Bool := false
  cfgWait : Nat := 0
  deriving DecidableEq, Repr

/-- A policer before the write of a cycle (R153): the cycle, the four words, and the buckets as `Dev.pols` holds them. -/
structure PolWas where
  cycle : Nat
  words : List Word
  bucket : Nat × Nat × Nat
  deriving DecidableEq, Repr

/-- The time-aware system of the factory image (R71): the best announce message received, with its port, and the sync intervals in a row within 100 ns. -/
structure TimeAware where
  best : Option (Nat × SyncVector) := none
  run : Nat := 0
  deriving DecidableEq, Repr

/-- A sideband register write accepted and not yet committed (R18): its register word, value, acceptance cycle and the writes that met it. -/
structure SbWrite where
  addr : Nat
  value : Word
  accepted : Nat
  /-- A read-clear access of a counter (R18, R21). -/
  clear : Bool := false
  /-- A Keystone write has already won in the message time. -/
  beaten : Bool := false
  /-- Entries of the conflict log made in the message time for writes that met the message. -/
  logged : List Nat := []
  deriving DecidableEq, Repr

/-- Pause state of one priority of a port (R51 to R61). -/
structure Pause where
  /-- XOFF asserted, since when, and the next refresh of its grid. -/
  xoff : Bool := false
  xoffFrom : Nat := 0
  refreshAt : Nat := 0
  /-- A pause waiting for the next frame boundary: XOFF or refresh (true), XON (false). -/
  due : Option Bool := none
  /-- Received-pause hold: the cycle it ends, and the cycle from which its time is still to be tallied. -/
  hold : Option Nat := none
  holdFrom : Nat := 0
  /-- Stretch of continuous pause, start of its timing by the watchdog, and start of the gap in progress. -/
  stretch : Bool := false
  timed : Option Nat := none
  gap : Option Nat := none
  /-- Storm state and the later of its entry and the last non-zero pause received after it. -/
  storm : Bool := false
  stormRef : Nat := 0
  deriving DecidableEq, Repr

/-- A gate control list as captured or operational (R62 to R65): entries of interval and gate states, cycle time, and the PTP instant (ns) of its start. -/
structure GateList where
  entries : List (Nat × Nat) := []
  cycle : Nat := 0
  start : Nat := 0
  /-- The base time that COMMIT captured. -/
  base : Nat := 0
  deriving DecidableEq, Repr

/-- State of one port, or of the lane at its lowest position. -/
structure PortSt where
  /-- TRAIN (held) or FORCED (held) of R46. -/
  held : Bool := false
  /-- Remote fault is received. -/
  remoteFault : Bool := false
  /-- Start of the FORCED trial in progress. -/
  trialFrom : Nat := 0
  /-- Control frames already built in an old flow-control mode and waiting for a frame boundary (R50, R54). -/
  control : List (List Byte) := []
  /-- Cycle until which the frame or control frame on the wire lasts. -/
  wireBusy : Nat := 0
  /-- The frame on the wire: its packet, its bytes with FCS, and the queue it left. -/
  txPkt : Option Nat := none
  txBytes : List Byte := []
  txQueue : Nat := 0
  /-- Gates (R62 to R65): operational list, index of the entry in effect, PTP instant of the next change and of the next cycle start, states in effect; list waiting for its ConfigChangeTime. -/
  gateOper : Option GateList := none
  gateIdx : Nat := 0
  gateNext : Nat := 0
  gateCycle : Nat := 0
  gates : Nat := 255
  gatePend : Option GateList := none
  deriving DecidableEq, Repr

/-- What a module bus is doing (R74, R75). -/
inductive ModPhase where
  | idle
  /-- A command in progress since a cycle. -/
  | command
  /-- First run of recovery pulses; recovery wait after it. -/
  | recover (t0 : Nat)
  | wait (t0 : Nat)
  deriving DecidableEq, Repr

/-- State of one module bus: what it does, and whether recovery has been run since the last reset. -/
structure ModBus where
  phase : ModPhase := .idle
  recovered : Bool := false
  queued : Bool := false
  deriving DecidableEq, Repr

/-- State of a region's input arbiter (R78): source whose turn it is, slots it has had in this turn, first cycle of the next slot. -/
structure Arb where
  turn : Nat := 1
  used : Nat := 0
  next : Nat := 0
  deriving DecidableEq, Repr

/-- Where a packet is. -/
inductive Place where
  /-- Being received on a port. -/
  | rx
  /-- Waiting for a pipeline slot of its region: source 0 port ingress, 1 recirculation, 2 host, 3 core (R78). -/
  | input (src : Nat)
  /-- In the pipeline, the parser not yet run. -/
  | parser
  /-- In the pipeline, stage `k` next; 12: at the exit of stage 11. -/
  | stage (k : Nat)
  /-- Parked for a deferred lookup (R100). -/
  | parked
  /-- In an egress queue of its scheduling region (R138). -/
  | queue (r q : Nat)
  /-- On the wire of a port. -/
  | wire (port : Nat)
  /-- Waiting for delivery to a host queue (R207): function and receive queue. -/
  | host (f q : Nat)
  /-- Waiting for a thread pool of its region (R347). -/
  | pool (p : Nat)
  /-- Waiting in c0 of a context or held by it as current packet: core number and context (R347, R319). -/
  | core (pc ctx : Nat)
  /-- Held for a flow-bucket or QP move (R375, R377). -/
  | held
  /-- Being sent to another cascade member (R461). -/
  | flume
  deriving DecidableEq, Repr

/-- One entry of an exact-match or direct-index table (R91): key, whether it sits under h2, HIT, action program, action data, record index, and the sweeper's clear count (R129). -/
structure Way where
  key : List Byte := []
  alt : Bool := false
  hit : Bool := false
  action : Nat := 0
  adata : Nat := 0
  record : Nat := 0
  age : Nat := 0
  /-- One more than the cycle of its last lookup or learn hit (R131). -/
  hitAt : Nat := 0
  deriving DecidableEq, Repr

/-- A packet: its bytes from destination address up to the FCS, the 64 bytes of metadata of R81 by field, its layer stack, the requests its action programs have made, and where it is. -/
structure Pkt where
  bytes : List Byte := []
  region : Nat := 0
  place : Place := .rx
  /-- Owner of its cells (R48, R141). -/
  buf : Nat := 0
  /-- System metadata (R81). -/
  pass : Nat := 0
  deep : Bool := false
  frag : Bool := false
  malformed : Bool := false
  partialKey : Bool := false
  colour : Nat := 0
  nextTbl : Nat := 255
  disp : Nat := 0
  resume : Nat := 0
  malclass : Nat := 255
  flowHash : Nat := 0
  source : Nat := 0
  prio : Nat := 0
  bd : Nat := 0
  tenant : Nat := 0
  dispArg : Nat := 0
  user : List Byte := List.replicate 48 0
  /-- Layer stack: LAYER_ID and byte offset (chapter 03). -/
  layers : List (Nat × Nat) := []
  /-- End of the last recorded layer. -/
  layersEnd : Nat := 0
  /-- Sending function of a host-originated packet (R123). -/
  fn : Option Nat := none
  /-- Arguments of the disposition that DISP_ARG does not hold: egress class, queue base, queue count, RSS, flow bucket asked for. -/
  cls : Nat := 0
  qbase : Nat := 0
  qcount : Nat := 1
  rss : Bool := false
  byFlow : Bool := false
  /-- Templates to prepend, layers to remove, mirrors asked for, security association bound, bridge domain of the flood mark. -/
  encaps : List Nat := []
  decap : Nat := 0
  mirrors : List Nat := []
  sa : Option Nat := none
  /-- The packet as it was before the headers changed at the end of the pass, which its RSS hash covers (R94). -/
  rssBytes : List Byte := []
  floodBd : Nat := 0
  /-- Resumed after a deferral: the parser and the stages before RESUME are skipped (R100). -/
  resumed : Bool := false
  /-- The copy of the candidate buckets, their records and the stash held for it, and the key of its lookup (R100). -/
  held : Option (List Way) := none
  pkey : List Byte := []
  /-- Runs NEW of a program swap (R384): the version fixed at its first pass. -/
  newProg : Bool := false
  /-- Cycle in which it joined its present queue, and of its pass slot. -/
  since : Nat := 0
  slot : Nat := 0
  /-- Receive timestamp in ns (R70). -/
  rxNs : Nat := 0
  /-- Egress port and class of a queued frame. -/
  outPort : Nat := 0
  /-- Tenant node through which it was queued (R138). -/
  tnode : Nat := 0
  /-- The job that waits for the timestamp of its transmission (R205). -/
  tsJob : Option Nat := none
  /-- The transport QP that sent it (R229, R242). -/
  qpn : Option Nat := none
  /-- Its bytes that came from marked flits (R190, R192), as ranges: distance of the first byte from the end of the frame, and length. A frame with any is sent with its FCS inverted. -/
  marks : List (Nat × Nat) := []
  /-- Handed on by PKTFWD (R319): its next parse starts as that of a core's packet. -/
  fromCore : Bool := false
  /-- It had its slot from the recirculation queue (R82), the parse bank in use at its slot (R87), and the POLICE operations made on it (R153). -/
  recirc : Bool := false
  bank : Nat := 0
  policed : Nat := 0
  deriving DecidableEq, Repr

/-- Buffer cells held by a frame and its copies (R48, R141): arrival port and priority of a port frame, region whose buffer holds them, cells, packets that share them. -/
structure Buf where
  port : Option Nat := none
  prio : Nat := 0
  region : Nat := 0
  cells : Nat := 0
  refs : Nat := 0
  deriving DecidableEq, Repr

/-- Reception in progress on a port: the packet being built, bytes with FCS as far as received, and whether the frame has already been discarded. -/
structure Rx where
  pkt : Nat
  bytes : List Byte := []
  dead : Bool := false
  deriving DecidableEq, Repr

/-- A move of a parcel in progress (R372): destination (a region's SRAM, or the home slot), what it has reached, when it began, its reason and the planning span. -/
structure Move where
  dest : Option Nat := none
  /-- 0 planned, 1 copying, 2 switched and draining. -/
  step : Nat := 0
  t0 : Nat := 0
  tSwitch : Nat := 0
  src : Option Nat := none
  reason : Nat := 0
  span : Nat := 0
  /-- The region whose plan it belongs to. -/
  rgn : Nat := 0
  deriving DecidableEq, Repr

/-- A Cruiser parcel (R361 to R368): the SRAM region that holds it (none: its home slot), home region, bytes, tenant, pin (SRAM region or home slot), hint, majority region, heat, accesses of the span by region, move in progress, and a PIN or hint that waits for it. -/
structure Parcel where
  sram : Option Nat := none
  home : Nat := 0
  bytes : Nat := 64
  tenant : Nat := 0
  pin : Option (Option Nat) := none
  hint : Option Nat := none
  majority : Nat := 0
  heat : Nat := 0
  count : List (Nat × Nat) := []
  /-- Accesses of the last completed span. -/
  last : Nat := 0
  move : Option Move := none
  deriving DecidableEq, Repr

/-- The bucket parcels of a table, created together (R91, R366): their place and number. -/
structure TblPlace where
  sram : Option Nat := none
  nb : Nat := 0
  tenant : Nat := 0
  deriving DecidableEq, Repr

/-- The contents of a table: ways by 4 × bucket + way, stash by position. -/
structure Tbl where
  ways : NMap (Option Way) := []
  stash : NMap (Option Way) := []
  deriving DecidableEq, Repr

/-- A table in the cycle of operations on it (R22, R96, R98, R131): one more than the cycle, the table before the first of them, the requests of the cycle (rank, INSERT or DELETE, key, action and data), and the entries that visits of the sweeper removed: key, and the table before and after. -/
structure TblWas where
  cycle : Nat := 0
  tbl : Tbl := {}
  reqs : List (Nat × Bool × List Byte × Nat × Nat) := []
  aged : List (List Byte × Tbl × Tbl) := []
  deriving DecidableEq, Repr

/-- A fetch for deferred lookups (R100, R101, R374): its region, table and buckets, whether they have arrived, the packets that wait for it, and those that have yet to repeat their lookup. -/
structure Fetch where
  region : Nat := 0
  home : Nat := 0
  table : Nat := 0
  buckets : List Nat := []
  arrived : Bool := false
  issued : Nat := 0
  waiting : List Nat := []
  members : List Nat := []
  deriving DecidableEq, Repr

/-- An encapsulation template (R105). -/
structure Tmpl where
  bytes : List Byte := []
  len : Nat := 0
  fixes : List Nat := []
  deriving DecidableEq, Repr

/-- A sweep round of a table (R129): its start, length in cycles and next position. -/
structure Sweep where
  start : Nat := 0
  len : Nat := 0
  pos : Nat := 0
  deriving DecidableEq, Repr

/-- A learn request or queued learn insert (R123, R124): table, key, bridge port, region, and whether it moves a station (with the action it keeps). -/
structure Learn where
  home : Nat := 0
  table : Nat := 0
  key : List Byte := []
  bport : Nat := 0
  action : Option Nat := none
  deriving DecidableEq, Repr

/-- A prefix of the trie (R111, R117): family, VRF, length and address bits. -/
structure Prefix where
  v6 : Bool
  vrf : Nat
  len : Nat
  bits : Nat
  deriving DecidableEq, Repr

/-- What a node slot holds (R112): a child pointer, or a leaf with a next hop or "no route". -/
inductive TrieSlot where
  | child (node : Nat)
  | leaf (nh : Option Nat)
  deriving DecidableEq, Repr

/-- A node of the trie (R112, R113): the trie memory that holds it, the address bits below its stride and the width of the stride, and its runs of equal adjacent slots, each by its first slot. -/
structure TrieNode where
  mem : Nat := 0
  below : Nat := 0
  stride : Nat := 0
  runs : List (Nat × TrieSlot) := []
  deriving DecidableEq, Repr

/-- Trie contents and next hops (R112 to R115), committed or prepared: the prefixes, the VRF root table (2 × VRF, plus 1 for IPv6) of pointers, the nodes, and the next hops. -/
structure Trie where
  routes : List (Prefix × Nat) := []
  roots : NMap (Option Nat) := []
  nodes : NMap TrieNode := []
  nhs : NMap (Nat × Nat) := []
  deriving DecidableEq, Repr

/-- The board and the part as the pins and the fuses give them: base MAC address (R71), installed DRAM in MiB (R482), the strap CASC_ID as sampled (R442), the serial number (R171), repair rows of a DRAM device by 8 × channel + rank (R425), and the strap ROLE as sampled (R442). -/
structure Board where
  role : Nat := 0
  baseMac : Nat := 0
  dramMiB : Nat := 1048576
  cascId : Nat := 0
  serial : Nat := 0
  repairRows : Nat := 0
  deriving DecidableEq, Repr

/-- A security association (R273, R275, R285): its image of CRY_SADATA by field, and the replay window of an ESP receiver as the values accepted below the highest (bit i: highest − i). -/
structure Sa where
  kind : Nat := 0
  aes256 : Bool := false
  wide : Bool := false
  softHit : Bool := false
  exhausted : Bool := false
  fn : Nat := 0
  spi : Nat := 0
  next : Nat := 0
  soft : Nat := 0
  salt : List Byte := []
  window : Nat := 0
  key : List Byte := []
  sci : Nat := 0
  seen : Nat := 0
  deriving DecidableEq, Repr

/-- Scheduler state of a node or queue (R144 to R150): V, kept modulo 2^32; the head frame, its tag and F_prev as distances after the parent's V, which is all that serial-number arithmetic compares and R147 lifts to V; the parent; and the committed and peak bucket in units of 2^-40 bytes with the cycle up to which they have filled. -/
structure SchNode where
  v : Nat := 0
  head : Option Nat := none
  tag : Nat := 0
  fprev : Nat := 0
  parent : Nat := 0
  c : Int := 0
  p : Int := 0
  t : Nat := 0
  deriving DecidableEq, Repr

/-- Placement of a PF in effect (R162, R166, R490). -/
structure PfPlace where
  present : Bool := false
  port : Nat := 0
  link : Nat := 0
  totalVfs : Nat := 0
  vfBase : Nat := 0
  deriving DecidableEq, Repr

/-- Resources of a function in effect (R167, R168, R251, R271): tenant, queue pairs, event queues, vectors, QP and key ranges, and storage interfaces. -/
structure Res where
  tenant : Nat := 0
  qpBase : Nat := 0
  qpCnt : Nat := 0
  eqCnt : Nat := 0
  vecCnt : Nat := 0
  vecBase : Nat := 0
  qpnBase : Nat := 0
  qpnCnt : Nat := 0
  keyBase : Nat := 0
  keyCnt : Nat := 0
  nvme : Bool := false
  cbf : Bool := false
  ioqMax : Nat := 0
  cbfNs : Nat := 0
  deriving DecidableEq, Repr

/-- A function (R169, R174, R195): enabled, its table built, in reset since a cycle, the level of its INTA, its discovery table, its resources while other values are pending, and its configuration fields that are not zero. -/
structure Fn where
  enabled : Bool := false
  built : Bool := false
  inReset : Option Nat := none
  intx : Bool := false
  disc : List Byte := []
  held : Option Res := none
  cfg : NMap Nat := []
  deriving DecidableEq, Repr

/-- Where a job is (R205, R213): its descriptor read, its data asked for, its data in the device, finished. -/
inductive JobAt where
  | fetched
  | reading
  | ready
  /-- Its frames are in the pipeline and one of them is to be timestamped. -/
  | sent
  /-- Its request packets have been sent and are not all acknowledged or answered (R235). -/
  | waiting
  | done
  deriving DecidableEq, Repr

/-- A job of a queue pair (R203, R212): its queue, ring index and descriptor, its data, and what its completion carries. -/
structure Job where
  fn : Nat := 0
  qp : Nat := 0
  rq : Bool := false
  index : Nat := 0
  desc : List Byte := []
  state : JobAt := .fetched
  /-- Its data as far as it has come, the offset up to which it has been asked for, the bytes that have come, and the 32-byte flits of it that are marked. -/
  data : List Byte := []
  want : Nat := 0
  got : Nat := 0
  marks : List Nat := []
  status : Nat := 0
  bytes : Nat := 0
  hash : Nat := 0
  src : Nat := 0
  flags : Nat := 0
  malclass : Nat := 255
  /-- Its transmit or receive timestamp in ns, when it carries one. -/
  ns : Option Nat := none
  /-- The record sequence number that a seal has taken (R284), or the MSN of a remote-memory message. -/
  seq : Nat := 0
  /-- Bytes 12 to 31 of its entry on a channel, once it has ended there (R238). -/
  detail : List Byte := []
  deriving DecidableEq, Repr

/-- A queue pair's state beyond its registers: accepted producer indices (R209), a stop in progress (R220), and jobs of the replay set that have yet to get their entries (R455). -/
structure Qp where
  sqPi : Nat := 0
  rqPi : Nat := 0
  stopping : Bool := false
  replaySq : Nat := 0
  replayRq : Nat := 0
  deriving DecidableEq, Repr

/-- The round of a port's queue engine (R211): round number and the chip QP number served last in it, if any. -/
structure Turn where
  round : Nat := 1
  last : Option Nat := none
  deriving DecidableEq, Repr

/-- What waits for a read of host memory: a job, for the bytes from an offset of its data on; a chain engine; a thread; a request that a transport QP answers (with its number), for the bytes from an offset on; a translation, of a page under a PASID (plus one; 0 without). -/
inductive ReadFor where
  | job (j off : Nat)
  | chain (n : Nat)
  | thread (th : Thread)
  | loader
  | answer (q number off : Nat)
  | page (page pasid : Nat)
  deriving DecidableEq, Repr

/-- A write of a host that has arrived and that later ones may pass (R179): its function, internal address, data and EP. -/
structure HeldWrite where
  fn : Fin 512
  addr : Nat
  data : List Byte
  ep : Bool
  deriving DecidableEq, Repr

/-- An outstanding non-posted request to a host (R185): its function, length, cycle of issue, and what waits for it. -/
structure HostRead where
  fn : Nat := 0
  len : Nat := 0
  at_ : Nat := 0
  who : ReadFor := .job 0 0
  deriving DecidableEq, Repr

/-- What a host answered to a Translation Request (R183): access with the page that the address stands for and the permissions, access by the untranslated address alone, or none. -/
inductive XlateTo where
  | to_ (page : Nat) (rd wr : Bool)
  | raw
  | denied
  deriving DecidableEq, Repr

/-- An entry of the address translation cache (R183): function, page, PASID plus one (0 without), and what they stand for. -/
structure AtcEntry where
  fn : Nat
  page : Nat
  pasid : Nat
  to_ : XlateTo
  deriving DecidableEq, Repr

/-- A chain engine (R222): the entry it is at, the entry as read, its LINK, and a HALT that waits for the entry to finish. -/
structure Chain where
  cur : Nat := 0
  entry : List Byte := []
  halting : Bool := false
  /-- The public-key operation of the entry has written its result. -/
  finished : Bool := false
  /-- Its source in a host window has been asked for. -/
  asked : Bool := false
  /-- Who gave the last START or RESUME that it took: its accesses of registers are that writer's. -/
  starter : Writer := .keystone
  deriving DecidableEq, Repr

/-- A public-key operation in progress (R291): its chain engine, the cycle in which it ends, its result and outcome, and whether its operands were marked. -/
structure PkRun where
  engine : Nat := 4
  due : Nat := 0
  out : List Byte := []
  pkstat : Nat := 0
  mark : Bool := false
  deriving DecidableEq, Repr

/-- How a storage command ended (R261, R266): `medium` with the status that the target reported. -/
inductive StoEnd where
  | ok
  | lengthBad
  | lbaRange
  | badOpcode
  | pathLost
  | medium (status : Nat)
  | srcPoison
  | hostAccess
  | readPoison
  | replay
  deriving DecidableEq, Repr

/-- Where a storage command came from: a tag of a compact block function, its own FLUSH for the idle handshake (with the number of writes that it covers), a submission queue entry, or a shutdown's FLUSH. -/
inductive StoOrigin where
  | cbf (tag : Nat)
  | cbfFlush (covers : Nat)
  | nvme (sq cid : Nat)
  | nvmeFlush
  deriving DecidableEq, Repr

/-- A storage command in progress: function, namespace, operation (1 read, 2 write, 3 flush, 4 write zeroes, 5 deallocate), blocks, FUA, the pieces of its host buffer, the path it was issued on, cycle of issue, and its outcome once it has one. -/
structure StoCmd where
  fn : Nat := 0
  ns : Nat := 0
  op : Nat := 1
  lba : Nat := 0
  blocks : Nat := 0
  fua : Bool := false
  pieces : List (Nat × Nat) := []
  path : Option Nat := none
  at_ : Nat := 0
  origin : StoOrigin := .nvmeFlush
  outcome : Option StoEnd := none
  deriving DecidableEq, Repr

/-- A submission or completion queue of an NVMe controller: base, entries, head, tail; for a submission queue its completion queue, for a completion queue its phase, vector and interrupt enable; entries at the head that belong to the replay set of a promotion (R455). -/
structure NvmeQ where
  base : Nat := 0
  size : Nat := 0
  head : Nat := 0
  tail : Nat := 0
  cq : Nat := 0
  phase : Bool := true
  iv : Nat := 0
  ien : Bool := false
  replay : Nat := 0
  deriving DecidableEq, Repr

/-- An NVMe controller (R257 to R262): the registers INTMS, CC, AQA, ASQ and ACQ, ready and fatal status, the shutdown's progress (0 none, 1 commands draining, 2 paths flushing, 3 complete), its queues by identifier, features by identifier, identifiers of Asynchronous Event Requests that wait, notices not yet reported, and changed namespaces not yet read. -/
structure Nvme where
  intms : Nat := 0
  cc : Nat := 0
  aqa : Nat := 0
  asq : Nat := 0
  acq : Nat := 0
  rdy : Bool := false
  cfs : Bool := false
  shut : Nat := 0
  sqs : NMap (Option NvmeQ) := []
  cqs : NMap (Option NvmeQ) := []
  feats : NMap Nat := []
  aers : List Nat := []
  notices : List Nat := []
  changed : List Nat := []
  deriving DecidableEq, Repr

/-- A compact block function beyond its registers (R263, R264, R269): copies of the slots of BUSY tags, tags issued and not yet started, oldest first, writes with FUA = 0 that have completed and those of them that a FLUSH has covered, and outcomes that wait for CBF_COMMAND_END. -/
structure Cbf where
  slots : NMap (List Byte) := []
  order : List Nat := []
  issuedAt : NMap Nat := []
  writes : Nat := 0
  flushed : Nat := 0
  /-- Tag, operation, outcome, and bytes moved. -/
  ended : List (Nat × Nat × StoEnd × Nat) := []
  /-- Writes completed when a FLUSH tag was issued. -/
  flushCovers : NMap Nat := []
  deriving DecidableEq, Repr

/-- A check-value unit beyond its registers (R295 to R298): its register, the settings sampled at the last load (configuration word, polynomial, final XOR), the received counter, LAST, a result latched by SEAL, and a fault already reported. -/
structure Cvu where
  reg : Nat := 0
  cfg : Nat := 16
  poly : Nat := 0
  xorout : Nat := 0
  rx : Nat := 0
  last : Nat := 0
  latched : Bool := false
  faulted : Bool := false
  deriving DecidableEq, Repr

/-- A packet not yet acknowledged (R239, R243): its PSN, its transport header and payload from the BTH on, its job (none of a READ response or a storage capsule), whether it ends its message, the number of response packets of a READ, the part of the job's data that it carries, whether that is marked, and whether it has been sent. -/
structure RmPkt where
  psn : Nat := 0
  msn : Nat := 0
  bytes : List Byte := []
  job : Option Nat := none
  last : Bool := false
  responses : Nat := 1
  off : Nat := 0
  size : Nat := 0
  poison : Bool := false
  sent : Bool := false
  deriving DecidableEq, Repr

/-- One path of a transport QP (R239, R243), path 0 of a QP that is not multipath: next PSN to send, next PSN expected, packets not yet acknowledged, retries and RNR retries left, when the ACK timer runs out, the end of an RNR wait, a go-back-N that waits for marked source data to be read again (R241), a sequence NAK already sent, and the resynchronisation of R456: a probe outstanding, the responder's phase (0 none, 1 after promotion, 2 its NAK sent) and the highest PSN seen since promotion. -/
structure RmPath where
  live : Bool := false
  next : Nat := 0
  expect : Nat := 0
  unacked : List RmPkt := []
  retries : Nat := 0
  rnrLeft : Nat := 0
  timer : Option Nat := none
  rnrUntil : Option Nat := none
  again : Bool := false
  nakSent : Bool := false
  probe : Bool := false
  resync : Nat := 0
  highest : Nat := 0
  deriving DecidableEq, Repr

/-- A READ, atomic or FLUSH that the responder has accepted and not yet answered (R236, R245): whether by multipath, its path and PSN, its MSN, its kind and, of an atomic, which, the request packet, the key context that it was checked against, the number of its reads of host memory (0 before they begin), and their data as far as it has come, as in `Job`. -/
structure RmAns where
  mp : Bool := false
  path : Nat := 0
  psn : Nat := 0
  msn : Nat := 0
  kind : Nat := 0
  sub : Nat := 0
  ib : List Byte := []
  image : List Byte := []
  number : Nat := 0
  data : List Byte := []
  want : Nat := 0
  got : Nat := 0
  marks : List Nat := []
  deriving DecidableEq, Repr

/-- A message being received (R237, R245): its MSN, kind, where it starts and ends once its first and last packet are known, the places of the packets that have arrived, its bytes, the receive job bound to it or the READ job it answers, its immediate, next address and key of a WRITE, and a request that waits for the messages before it. -/
structure Tracker where
  msn : Nat := 0
  mop : Nat := 0
  base : Option Nat := none
  stop : Option Nat := none
  got : List Nat := []
  bytes : Nat := 0
  job : Option Nat := none
  imm : Option Nat := none
  va : Nat := 0
  key : Nat := 0
  request : Option RmAns := none
  /-- Its request has begun to be performed. -/
  begun : Bool := false
  deriving DecidableEq, Repr

/-- What a responder owes, in order (R239): an acknowledgement or a NAK, the outcome of a failed check of R232, or the answer to a request. -/
inductive RmOwed where
  | ack (psn syndrome : Nat)
  | refuse (path psn check key va len : Nat)
  | request (a : RmAns)
  deriving DecidableEq, Repr

/-- A packet of a transport engine that waits for room in its region's buffer (R142): QP, path, bytes from the BTH on, mark. -/
structure RmOut where
  q : Nat
  path : Nat
  bytes : List Byte
  poison : Bool
  deriving DecidableEq, Repr

/-- A transport QP context (R227, R231, R239, R242, R250): its function, its image, and the device's private state: paths, send and release MSN, RSN sent and bound, the message in progress, results of the last atomics by PSN, what the responder owes, send rate in Mb/s (0: the egress port's) and the port by which its packets leave, the last CNP sent and whether one came in this span, and the start of a local page stall with its job. -/
structure QpCtx where
  fn : Nat := 0
  img : List Byte := []
  paths : List RmPath := []
  msn : Nat := 0
  rmsn : Nat := 0
  rsn : Nat := 0
  rbound : Nat := 0
  trackers : List Tracker := []
  atomics : List (Nat × Nat) := []
  answers : List RmOwed := []
  /-- Command capsules of the storage engine that have yet to be sent (R253). -/
  capsules : List (List Byte) := []
  rate : Nat := 0
  port : Option Nat := none
  cnpAt : Option Nat := none
  cnpSeen : Bool := false
  stall : Option (Nat × Nat) := none
  rr : Nat := 0
  /-- The context parcel carries a poison mark (R240, R424). -/
  bad : Bool := false
  /-- Receive jobs bound to the RSNs of a multipath QP (R245). -/
  binds : List (Nat × Nat) := []
  deriving DecidableEq, Repr

/-- A context of a packet core (R302, R337, R339, R322): state (0 FREE, 1 RUN, 2 DONE, 3 HALTED), parent, general registers, program counter, instructions completed, seconds latched for TIME_SEC, QUIT value, current packet, packet waiting in c0 with its pool and the CLK_PKT cycle in which it was placed, results readable on c3, results of table operations that have not arrived, the word of the instruction that it is blocked in, stores outstanding (address, bytes, value), and the first CLK_PKT cycle in which it may issue. -/
structure Ctx where
  st : Nat := 0
  parent : Option Nat := none
  regs : List DWord := List.replicate 32 0
  pc : Nat := 0
  retired : Nat := 0
  secs : Nat := 0
  value : DWord := 0
  current : Option Nat := none
  inbox : Option (Nat × Nat × Nat) := none
  results : List DWord := []
  ops : List (DWord × DWord) := []
  blocked : Option Nat := none
  stores : List (Nat × Nat × Nat) := []
  next : Nat := 0
  deriving DecidableEq, Repr

/-- A packet core beyond its contexts (R343, R349, R350, R383): words readable on c2 of its supervisor, fault messages that wait for room there, channel bindings (32 × context + channel, FIFO, write end), result of the last CHBIND, whether it has left dispatch, and the FIFOs whose read end it held when it stopped. -/
structure PktCore where
  c2 : List DWord := []
  faults : List (DWord × DWord) := []
  binds : List (Nat × Nat × Bool) := []
  bindResult : Nat := 0
  away : Bool := false
  dead : List Nat := []
  deriving DecidableEq, Repr

/-- A thread of a service core, or the Keystone's (R302, R324, R326, R327, R353): general registers, program counter, instructions completed, seconds latched, the trap CSRs, IRQPEND without EXT, EXT raised by the error log, whether it waits in WFE, the word of an access that it waits in, and whether a trap within a trap has stopped it. -/
structure Thr where
  regs : List DWord := List.replicate 32 0
  pc : Nat := 0
  retired : Nat := 0
  secs : Nat := 0
  tstate : Nat := 1
  tcode : Nat := 0
  tpc : Nat := 0
  tinfo : Nat := 0
  tentry : Nat := 0
  irqEn : Nat := 0
  irqPend : Nat := 0
  ext : Bool := false
  tsave : Nat := 0
  ptbase : Nat := 0
  tickcmp : Nat := 0
  wfe : Bool := false
  blocked : Option Nat := none
  stopped : Bool := false
  deriving DecidableEq, Repr

/-- A cached translation of a service core (R331): address-space identifier, first virtual address, log2 of the page size, and the table entry with its address. -/
structure Xlat where
  asid : Nat
  va : Nat
  size : Nat
  pte : Nat
  at_ : Nat
  deriving DecidableEq, Repr

/-- A directory entry of R356 (0 I, 1 S, 2 E, 3 M): owner, sharers, and the cycle in which it was entered. -/
structure Line where
  st : Nat := 0
  owner : Nat := 0
  sharers : List Nat := []
  since : Nat := 0
  deriving DecidableEq, Repr

/-- A flow bucket or QP on the move (R375, R377): old and new pool or region, its start, its reason, the planning span, whether an abandoned move is retried, and whether it waits for that. -/
structure WorkMove where
  id : Nat := 0
  src : Nat := 0
  dst : Nat := 0
  t0 : Nat := 0
  reason : Nat := 0
  span : Nat := 0
  retry : Bool := false
  idle : Bool := false
  deriving DecidableEq, Repr

/-- A planned move that has not started (R370): parcel, destination, reason, planning span. -/
structure PlanItem where
  id : Nat := 0
  dest : Option Nat := none
  reason : Nat := 0
  span : Nat := 0
  deriving DecidableEq, Repr

/-- Boot and flash beyond the registers (R390 to R410): cycle of PWRGD and its level; VRET present; WAKE_IN and SLEEP_REQ; an attempt in progress; start of a 100 ms wait; banks that no longer hold the image of manufacture; owner key slots 1 to 3 as provisioned and slots revoked; minimum SVN; write epoch; a PLDM update in progress and the bank it has written; start of deep-sleep entry, and its record written; the 48-byte install chain; SPDM secure session; DRAM trained; a loader command in progress (its LDR_CMD and LDR_DST), the copy of its image, and an error found in copying it; digest and SVN of stage 1 and digest of the configuration store at the last release, and CDI0, CDI1, the alias key and its certificate, which the release derived (R408); installed code of packet-core blocks (block, first and end offset) and of service cores (address, bytes). -/
structure Boot where
  t0 : Nat := 0
  pwrgd : Bool := true
  vret : Bool := true
  wakeIn : Bool := false
  sleepReq : Bool := false
  attempt : Bool := false
  waitFrom : Option Nat := none
  programmed : List Nat := []
  slots : NMap (List Byte) := []
  revoked : List Nat := []
  minSvn : Nat := 0
  epoch : Nat := 0
  updating : Bool := false
  updated : Option Nat := none
  asleep : Option Nat := none
  sleepDone : Bool := false
  chain : List Byte := []
  session : Bool := false
  dram : Bool := false
  ldr : Option (Nat × Nat) := none
  ldrImage : List Byte := []
  ldrErr : Nat := 0
  stage1 : List Byte := []
  svn : Nat := 0
  config : List Byte := []
  cdi0 : List Byte := []
  cdi1 : List Byte := []
  aliasKey : Nat := 0
  aliasCert : List Byte := []
  pcCode : List (Nat × Nat × Nat) := []
  scCode : List (Nat × Nat) := []
  deriving DecidableEq, Repr

/-- A cell under self-test (R432): kind, number, start of its BIST, and whether its work lies on a spare. -/
structure CellTest where
  kind : Nat
  cell : Nat
  t0 : Nat := 0
  onSpare : Bool := false
  deriving DecidableEq, Repr

/-- Cells, spares and safety beyond the registers (R416 to R439): cells fenced or retired (65,536 × kind + number); scopes whose spare is in use (65,536 × kind + scope); substitutions in progress (kind, cell, cycle of detection); corrections of the span by cell; cycle in which the safe state began; region restores in progress since a cycle; self-tests in progress; packet cores whose test is to be repeated; position in each region's rotation; start of the next self-test round; last test by cell; cells tested in the cycle in progress by kind; levels of FAULT_N and ACTIVE_N (true: asserted); Keystone held by the Lookout; its last heartbeat; DRAM repair rows used by device; rounds started; a latent fault other than a failing proof; cells too long without a test, each noted once (R434); cells whose test was aborted, to be repeated in the frame after (kind, cell, frame of the abort); actions superseded by a higher handler (index of its log entry, kind, cell: R14). -/
structure Safety where
  gone : List Nat := []
  spareUsed : List Nat := []
  subs : List (Nat × Nat × Nat) := []
  corr : NMap Nat := []
  safeAt : Option Nat := none
  restores : NMap (Option Nat) := []
  tests : List CellTest := []
  deferred : List Nat := []
  rotation : NMap Nat := []
  round : Nat := 0
  lastTest : NMap Nat := []
  tested : NMap Nat := []
  fault : Bool := true
  active : Bool := false
  keystoneHeld : Bool := false
  lkBeat : Nat := 0
  repaired : List Nat := []
  rounds : Nat := 0
  kept : Bool := false
  stale : List Nat := []
  retest : List (Nat × Nat × Nat) := []
  superseded : List (Nat × Nat × Nat) := []
  deriving DecidableEq, Repr

/-- The pair or cascade as a device sees it (R443 to R462): peer state and CLAIM as its heartbeats show them, whether one has come in this election, and its concession; own concession; start of the election timer; cycle in which ACTIVE_N was asserted under the pin rule; last Keystone refresh; squelch; last heartbeat by Flume port, and ports on which three have been missed; intent records by number (none or the cycle of sending), next record number, records received and the number expected next, if one is; commits captured and not acknowledged (sequence, cycle, boundaries passed since); the bulk copy has been received, and a commit applied since; PEER_ACTIVE_N seen in this election; a switchover asked for; a bulk copy begun for the peer; last heartbeat of the cascade members; the items last captured of what commits carry the changes of, and of counts and indices; a full copy of the replicated state is due. -/
structure Pair where
  peerState : Nat := 0
  peerPrio : Nat := 0
  peerSerial : Nat := 0
  peerConceded : Bool := false
  peerSeen : Bool := false
  conceded : Bool := false
  electFrom : Option Nat := none
  pinRule : Option Nat := none
  refresh : Nat := 0
  squelched : Bool := false
  beat : NMap Nat := []
  missed : NMap Bool := []
  intents : List (Nat × Option Nat × Intent) := []
  nextIntent : Nat := 0
  received : List (Nat × Intent) := []
  recvNext : Option Nat := none
  commits : List (Nat × Nat × Nat) := []
  copied : Bool := false
  applied : Bool := false
  pinSeen : Bool := false
  switching : Bool := false
  copying : Bool := false
  memberBeat : NMap Nat := []
  sent : List CommitItem := []
  counted : List CommitItem := []
  fullDue : Bool := false
  deriving DecidableEq, Repr

/-- The test access port (R476): instruction in effect (0 BYPASS, 1 IDCODE, 2 SAMPLE/PRELOAD, 3 EXTEST, 4 CLAMP, 5 HIGHZ) and the boundary register. -/
structure Tap where
  instr : Nat := 1
  boundary : List Bool := []
  deriving DecidableEq, Repr

/-- The device: everything but the queue of waiting commands. -/
structure Dev where
  clk : Clk := {}
  /-- Registers whose words differ from their value after a cold reset. -/
  csr : List (RegKey × Word) := []
  /-- Accumulating counters that are not zero (R36). -/
  cnt : List (RegKey × Nat) := []
  /-- Live tallies that are not zero, by their offset in a tally bank slot (R35, R488). -/
  tly : NMap Nat := []
  /-- Memory (R482) in canonical form, and the changes of the command in progress, newest first. -/
  mem : List Host.Cell := []
  stores : List MemOp := []
  /-- What the device has sent, oldest first, and the events waiting to be written. -/
  out : List Output := []
  raised : List Event := []
  board : Board := {}
  span : Span := {}
  /-- OFS_LO held until the step (R69), and the level of PTP_PPS_OUT. -/
  tcOfsLo : Nat := 0
  ppsOut : Bool := false
  timeAware : TimeAware := {}
  sb : Option SbWrite := none
  /-- Boot gating has ended (R46, R396). -/
  released : Bool := false
  ports : NMap PortSt := []
  pause : NMap Pause := []
  mods : NMap ModBus := []
  /-- Packets by identifier, the next identifier, their cells, receptions in progress by port. -/
  pkts : NMap Pkt := []
  nextPkt : Nat := 1
  bufs : NMap Buf := []
  rx : NMap (Option Rx) := []
  /-- Packets in arrival order: waiting for a slot (4 × region + source), in a pipeline (region), in an egress queue (16,384 × region + queue). -/
  inputQ : NMap (List Nat) := []
  pipeQ : NMap (List Nat) := []
  egressQ : NMap (List Nat) := []
  /-- Input arbiters by region (R78). -/
  arbs : NMap Arb := []
  /-- Parcels by identifier (R367), bucket parcels of a table by 64 × region + table, bytes of placement space in use by region, and bytes charged to tenants (2 × tenant for tier N, plus 1 for tier F). -/
  parcels : NMap (Option Parcel) := []
  tblPlaces : NMap (Option TblPlace) := []
  placed : NMap Nat := []
  tuse : NMap Nat := []
  /-- Tables by 64 × region + table, fetches in the order of issue, templates, staged upper halves, flow-count pairs (262,144 × region + pair) and action programs (256 × region + slot, as instruction words). -/
  tbls : NMap Tbl := []
  tblWas : NMap TblWas := []
  fetches : List Fetch := []
  tmpls : NMap Tmpl := []
  staged : NMap (List Byte) := []
  flowCnt : NMap (Nat × Nat) := []
  progs : NMap (List Nat) := []
  /-- Swaps by region (R384, R385): commit cycle of the last one, its KIND, OLD and NEW, and the classes whose buckets have not flipped. Policer buckets (R152) by 65,536 × region + policer: committed and excess or peak content in units of 2^-40 bytes, and the cycle up to which they have filled. -/
  swapAt : NMap Nat := []
  swapCmd : NMap (Nat × Nat × Nat) := []
  swapFrozen : NMap Nat := []
  pols : NMap (Nat × Nat × Nat) := []
  /-- Policers as they stood before a write of theirs (R153), by 65,536 × region + policer. -/
  polWas : NMap (Option PolWas) := []
  /-- Scheduler nodes by 32,768 × region + n: ports, classes and tenant nodes as SCH_SHAPE numbers them, queue q at 4,132 + q. -/
  sched : NMap SchNode := []
  /-- Histogram unit S in effect by region (R156), and sum and number of depth samples by 16,384 × region + queue. -/
  latS : NMap Nat := []
  depthSum : NMap (Nat × Nat) := []
  /-- Transmit timestamps that jobs wait for, by job (R205). -/
  txStamps : NMap Nat := []
  /-- Packets waiting for a thread pool, by 64 × region + pool, for a host queue, by 512 × function + queue, and those of a flow bucket held for a move, by 65,536 × region + bucket (R347, R207, R375). -/
  poolQ : NMap (List Nat) := []
  hostQ : NMap (List Nat) := []
  fbHold : NMap (List Nat) := []
  /-- Security associations that are VALID, by identifier (R273). -/
  sas : NMap (Option Sa) := []
  /-- Sweep rounds by 64 × region + table, learn requests by region and queued inserts by home region, LEARN_FAIL_RATE raised in this span. -/
  sweeps : NMap (Option Sweep) := []
  learnReqs : NMap (List Learn) := []
  learnIns : NMap (List Learn) := []
  failRaised : Bool := false
  /-- The trie as committed, as prepared in shadow nodes, and the tries that commits replaced, with the cycles at which their nodes are freed (R119). -/
  trie : Trie := {}
  shadow : Trie := {}
  trieFree : List (Nat × Trie) := []
  /-- Regions whose trie is being rebuilt after a fence (R120, R420). -/
  rebuilding : List Nat := []
  /-- Draws of free values made so far: the model's own field, entry 1. -/
  draws : Nat := 0
  /-- Placement of PFs in effect, host ports whose PERST is asserted, shape of the ports as sampled (bifurcation, highest generation), and functions (R162, R166, R169). -/
  pfs : NMap PfPlace := [(0, { present := true })]
  perst : NMap Bool := []
  hifShape : NMap (Nat × Nat) := []
  fns : NMap Fn := [(0, { enabled := true })]
  /-- Writes of hosts that are not visible yet (R179), in the order of their arrival. -/
  heldWrites : List HeldWrite := []
  /-- Queue pairs by page number 256 × function + i, jobs by number in the order of their start, outstanding reads by tag, turns by host port, and chain engines by 8 × region + engine (R185, R200, R211, R221). -/
  qps : NMap Qp := []
  jobs : NMap Job := []
  nextJob : Nat := 1
  reads : NMap (Option HostRead) := []
  nextTag : Nat := 0
  turns : NMap Turn := []
  chains : NMap Chain := []
  /-- The public-key operation in progress in a region, and the chain engine served last (R291). -/
  pk : NMap (Option PkRun) := []
  pkLast : NMap Nat := []
  /-- Event queues whose next entry carries LOST, and those armed, by 16 × function + queue (R217, R219). -/
  eqLost : NMap Bool := []
  eqArm : NMap Bool := []
  /-- Transport QP contexts by QPN and memory key images by key index, those VALID or in use (R227); pages of ODP keys that have been resolved, to an address or not at all, and those being resolved by key index and page, with the region whose engine asked and the cycle (R248); key index of the KEY_INVAL in progress in a function's window, plus one. -/
  qpctxs : NMap QpCtx := []
  keys : NMap (List Byte) := []
  odpPages : List (Nat × Nat × Option Nat) := []
  odpWaits : List (Nat × Nat × Nat × Nat) := []
  /-- Packets of the transport engines that wait for room in their regions' buffers, oldest first (R142). -/
  rmOut : List RmOut := []
  keyInvals : NMap Nat := []
  /-- Storage commands in progress by number, the next number, namespaces whose loss of every path has been reported (R254), NVMe controllers and compact block functions by function. -/
  stoCmds : NMap StoCmd := []
  nextSto : Nat := 1
  nsLost : NMap Bool := []
  nvmes : NMap Nvme := []
  cbfs : NMap Cbf := []
  /-- Owner and identity of a check-value unit in effect (R294). -/
  cvuOwn : NMap (Nat × Nat) := []
  cvus : NMap Cvu := []
  /-- Flits of memory that carry the poison mark, by address divided by 32 (R190, R191). -/
  marks : NMap Bool := []
  /-- Address translation cache, oldest first (R183), and outstanding page requests: function, page and PASID (R184). -/
  atc : List AtcEntry := []
  pageReqs : List (Nat × Nat × Nat) := []
  /-- Invalidations that wait for reads issued before them: function, number of the invalidation, and the tags (R183). -/
  invals : List (Nat × Nat × List Nat) := []
  /-- Contexts by 16 × core + context, packet cores, channel FIFOs by 256 × block + FIFO (each word with the CLK_PKT cycle of its append), threads by 2 × service core + thread (104: the Keystone), running thread of a service core, cached translations by service core (R302, R343, R353, R331). -/
  ctxs : NMap Ctx := []
  pktCores : NMap PktCore := []
  fifos : NMap (List (DWord × Nat)) := []
  thrs : NMap Thr := []
  scActive : NMap Nat := []
  xlats : NMap (List Xlat) := []
  lines : NMap Line := []
  /-- Dispatch: the member served last by 64 × region + pool; packets delivered in this span by pool and by flow bucket (R348, R369); cycle in which SFAULT of a core was set; next CLK_PKT cycle of a region's dispatcher. -/
  poolLast : NMap (Option Nat) := []
  poolDel : NMap Nat := []
  fbDel : NMap Nat := []
  sfaultAt : NMap Nat := []
  dispNext : NMap Nat := []
  /-- The Cruiser: plans by region, flow-bucket moves and QP moves in progress, pool swaps in progress, commit cycle of programs swapped (R370, R375, R377, R385). -/
  plans : NMap (List PlanItem) := []
  fbMoves : List WorkMove := []
  qpMoves : List WorkMove := []
  boot : Boot := {}
  safety : Safety := {}
  pair : Pair := {}
  tap : Tap := {}
  deriving DecidableEq, Repr

/-- The state of the block: the device and the commands that are waiting, first in, first out. -/
structure State where
  dev : Dev := {}
  pending : List Instr := []
  deriving DecidableEq, Repr

/-- The state right after reset: every field at its value after a cold reset. -/
def State.reset : State := {}

/-- The outcome of a step. -/
abbrev Out := Host.Outcome State Fault Refusal

end Sys2Proof.Machine
end

