-- ==== Sys2Proof/Machine/Ops.lean ====
section
/-! DEFINITION. The named operations that every meaning is built from: registers and their fields, counters and tallies, memory, time, events, the address map and the arbitration of contradictory orders. -/

namespace Sys2Proof.Machine

open Sys2Proof

/-! ### Registers -/

/-- The order of register keys in the canonical form. -/
def RegKey.lt (a b : RegKey) : Bool :=
  if a.reg.ctorIdx = b.reg.ctorIdx then
    if a.n = b.n then if a.i = b.i then decide (a.w < b.w) else decide (a.i < b.i)
    else decide (a.n < b.n)
  else decide (a.reg.ctorIdx < b.reg.ctorIdx)

/-- The stored word of a register. -/
def Dev.word (d : Dev) (k : RegKey) : Word := Sparse.get RegKey.resetWord d.csr k

/-- The device with a register word set. -/
def Dev.setWord (d : Dev) (k : RegKey) (v : Word) : Dev :=
  { d with csr := Sparse.put RegKey.lt RegKey.resetWord d.csr k v }

/-- The number of bits of a field. -/
def Fld.width (f : Fld) : Nat := f.hi + 1 - f.lo

/-- The register key that holds a field, for instance `n` and index `i`. -/
def Fld.key (f : Fld) (n i : Nat) : RegKey := ⟨f.reg, n, i, f.w⟩

/-- A field's value in a register word. -/
def Fld.ofWord (f : Fld) (v : Word) : Nat := bitsOf v.toNat f.hi f.lo

/-- A register word with one field replaced. -/
def Fld.into (f : Fld) (v : Word) (x : Nat) : Word :=
  BitVec.ofNat 32 (v.toNat - bitsOf v.toNat f.hi f.lo * 2 ^ f.lo + x % 2 ^ f.width * 2 ^ f.lo)

/-- A field of instance `n`, index `i`. -/
def Dev.fld (d : Dev) (f : Fld) (n : Nat := 0) (i : Nat := 0) : Nat := f.ofWord (d.word (f.key n i))

/-- A one-bit field as a truth value. -/
def Dev.flag (d : Dev) (f : Fld) (n : Nat := 0) (i : Nat := 0) : Bool := d.fld f n i == 1

/-- The device with a field set. -/
def Dev.setFld (d : Dev) (f : Fld) (n i x : Nat) : Dev := d.setWord (f.key n i) (f.into (d.word (f.key n i)) x)

/-- The device with a chip-level field set. -/
def Dev.setChip (d : Dev) (f : Fld) (x : Nat) : Dev := d.setFld f 0 0 x

/-! ### Counters and tallies (R6, R35 to R37) -/

/-- The order used for counters: as register keys. -/
def Dev.counter (d : Dev) (r : Reg) (n i : Nat) : Nat := Sparse.get (fun _ => 0) d.cnt ⟨r, n, i, 0⟩

/-- A counter set to a value, modulo 2^64. -/
def Dev.setCounter (d : Dev) (r : Reg) (n i v : Nat) : Dev :=
  { d with cnt := Sparse.put RegKey.lt (fun _ => 0) d.cnt ⟨r, n, i, 0⟩ (v % 2 ^ 64) }

/-- A counter raised by `x`. -/
def Dev.bump (d : Dev) (r : Reg) (n i : Nat) (x : Nat := 1) : Dev := d.setCounter r n i (d.counter r n i + x)

/-- A sum tally, named by its offset in a tally bank slot (R488), raised by `x`. -/
def Dev.tally (d : Dev) (off x : Nat) : Dev := { d with tly := d.tly.set 0 off (d.tly.at 0 off + x) }

/-- A maximum tally raised to `x` if `x` is higher. -/
def Dev.tallyMax (d : Dev) (off x : Nat) : Dev := { d with tly := d.tly.set 0 off (max (d.tly.at 0 off) x) }

/-- Offset of region `n`'s section in a tally bank slot (R488). -/
def tlyRgn (n : Nat) : Nat := 0x100000 + 0x140000 * n

/-- Offset of a port's tallies in a tally bank slot (R488). -/
def tlyPort (p : Nat) : Nat := tlyRgn (p / 4) + 0x1000 + 0x100 * (p % 4)

/-- Offset of a queue's tallies in a tally bank slot (R488). -/
def tlyQueue (n q : Nat) : Nat := tlyRgn n + 0x40000 + 0x40 * q

/-- Whether a tally at an offset is a maximum tally or histogram bucket of 32 bits (R37, R488); every other tally is a 64-bit sum. -/
def tlyIs32 (off : Nat) : Bool :=
  if off < 0x100000 then decide (0x60 ≤ off ∧ off < 0x70)
  else
    let o := (off - 0x100000) % 0x140000
    decide (0x90 ≤ o ∧ o < 0xA8) || decide (0x40000 ≤ o)

/-! ### Memory (R482) -/

/-- What a byte of memory that nothing has written reads as: 0, and 0xFF in the flash's configuration store. DESIGN CHOICE, entry 2. -/
def Memory.blank (a : Nat) : Byte := if 0xF10000 ≤ a ∧ a < 0x1000000 then 0xFF else 0

/-- Order of addresses in the canonical form of memory. -/
def Memory.lt (a b : Nat) : Bool := decide (a < b)

/-- The canonical form of memory. -/
def Memory.wf (m : List Host.Cell) : Bool := Sparse.wf Memory.lt Memory.blank m

/-- One change applied to memory in canonical form. -/
def MemOp.apply (m : List Host.Cell) : MemOp → List Host.Cell
  | .byte a b => Sparse.put Memory.lt Memory.blank m a b
  | .clear lo hi => m.filter fun c => !(decide (lo ≤ c.1) && decide (c.1 < hi))

/-- The byte that a list of changes, newest first, leaves at an address, over what memory held. -/
def MemOp.view (m : List Host.Cell) (a : Nat) : List MemOp → Byte
  | [] => Sparse.get Memory.blank m a
  | .byte a' b :: t => if a = a' then b else MemOp.view m a t
  | .clear lo hi :: t => if lo ≤ a ∧ a < hi then Memory.blank a else MemOp.view m a t

/-- One byte of memory, as the command in progress sees it. -/
def Dev.memByte (d : Dev) (a : Nat) : Byte := MemOp.view d.mem a d.stores

/-- `n` bytes of memory from an address. -/
def Dev.memBytes (d : Dev) (a n : Nat) : List Byte := (List.range n).map fun k => d.memByte (a + k)

/-- A little-endian number of `n` bytes in memory (R3). -/
def Dev.memVal (d : Dev) (a n : Nat) : Nat := leVal (d.memBytes a n)

/-- Bytes stored from an address on, the poison marks left alone. -/
def Dev.storeRaw (d : Dev) (a : Nat) : List Byte → Dev
  | [] => d
  | b :: t => Dev.storeRaw { d with stores := .byte a b :: d.stores } (a + 1) t

/-- The flits that a range touches, and those that it covers whole (R191). -/
def flitsOf (a n : Nat) : List Nat := (List.range ((a % 32 + n + 31) / 32)).map (a / 32 + ·)
def wholeFlits (a n : Nat) : List Nat := (flitsOf a n).filter fun f => decide (a ≤ 32 * f ∧ 32 * f + 32 ≤ a + n)

/-- Any byte of a range lies in a marked flit. -/
def Dev.marked (d : Dev) (a n : Nat) : Bool := !d.marks.isEmpty && (flitsOf a n).any fun f => d.marks.at false f

/-- What the directories keep of the lines that a range touches is dropped: every cached copy is invalidated before a write by an agent without a cache (R357). A line is numbered by its address / 64. DESIGN CHOICE, entry 32. -/
def Dev.dropLines (d : Dev) (a n : Nat) : Dev :=
  if d.lines.isEmpty then d
  else { d with lines := d.lines.filter fun e => !decide (0 < n ∧ e.1 / 4 * 64 < a + n ∧ a < e.1 / 4 * 64 + 64) }

/-- Bytes stored from an address on, by an agent without a cache: flits that unmarked data replaces whole lose their mark (R191); marked data marks every flit that it touches (R190). -/
def Dev.storeFree (d : Dev) (a : Nat) (bs : List Byte) (mark : Bool := false) : Dev :=
  let d := (d.storeRaw a bs).dropLines a bs.length
  if mark then { d with marks := (flitsOf a bs.length).foldl (fun m f => m.set false f true) d.marks }
  else if d.marks.isEmpty then d
  else { d with marks := (wholeFlits a bs.length).foldl (fun m f => m.set false f false) d.marks }

/-- A range of memory meets a protected range of the memory protection engine (R412). -/
def Dev.protected (d : Dev) (a n : Nat) : Bool :=
  (List.range 8).any fun k =>
    let b := d.fld F.IMP_RANGE_BASE_HI 0 k * 2 ^ 31 + d.fld F.IMP_RANGE_BASE_LO 0 k * 2 ^ 21
    d.flag F.IMP_RANGE_VALID 0 k && decide (a < b + d.fld F.IMP_RANGE_SIZE_2M 0 k * 2 ^ 21 ∧ b < a + n)

/-- Pieces of a range cut at multiples of `m`: address and length. -/
def piecesAt (m a n : Nat) : List (Nat × Nat) :=
  (List.range ((a % m + n + (m - 1)) / m)).map fun i =>
    let x := if i = 0 then a else a - a % m + m * i
    (x, min (m - x % m) (a + n - x))

/-- A store by any agent but the loader: what falls in a protected range is discarded, and the store counted (R412). -/
def Dev.storeMarked (d : Dev) (a : Nat) (bs : List Byte) (mark : Bool) : Dev :=
  if ¬ d.protected a bs.length then d.storeFree a bs mark
  else
    let d := d.bump .BOOT_CNT 0 3
    (piecesAt 32 a bs.length).foldl (fun d p => if d.protected p.1 p.2 then d else d.storeFree p.1 (sliceB bs (p.1 - a) p.2) mark) d

def Dev.store (d : Dev) (a : Nat) (bs : List Byte) : Dev := d.storeMarked a bs false

/-- A little-endian number of `n` bytes stored (R3). -/
def Dev.storeVal (d : Dev) (a n x : Nat) : Dev := d.store a (leBytes n x)

/-- A range of memory returned to what unwritten memory reads as; the flits that it covers whole lose their mark (R191). -/
def Dev.clearMem (d : Dev) (lo hi : Nat) : Dev :=
  { d with stores := .clear lo hi :: d.stores, marks := d.marks.filter fun e => !decide (lo ≤ 32 * e.1 ∧ 32 * e.1 + 32 ≤ hi) }

/-- A range zeroed by the device itself; a protected range keeps what the loader wrote, and the write is counted (R412). -/
def Dev.zeroRange (d : Dev) (a n : Nat) : Dev :=
  if d.protected a n then d.store a (List.replicate n 0) else d.clearMem a (a + n)

/-- The region whose shared SRAM holds an address. -/
def sramRegion (a : Nat) : Option Nat :=
  if 0x100000000 ≤ a ∧ a < 0x200000000 ∧ (a - 0x100000000) % 0x40000000 < 40 * 2 ^ 20 then some ((a - 0x100000000) / 0x40000000) else none

/-- A range of shared SRAM meets none of the parts that no address reaches: packet buffer, coherence directory, placement space (R141, R356, R371, R483). -/
def Dev.sramClear (d : Dev) (a n : Nat) : Bool :=
  match sramRegion a with
  | none => true
  | some r =>
    let o := (a - 0x100000000) % 0x40000000
    let apart (base size : Nat) : Bool := decide (o + n ≤ base ∨ base + size ≤ o)
    apart (Config.bufferAt r) (2 ^ 24) && apart (Config.directoryAt r) (2 ^ 22) && apart (Config.placementAt r) (d.fld F.CRU_RGN_PLACE_KIB r * 1024)

/-- Bytes of installed DRAM (R482). -/
def Dev.dramBytes (d : Dev) : Nat := d.board.dramMiB * 2 ^ 20

/-- A memory address that exists (R482): flash, Keystone SRAM, region shared SRAM, placed space or installed DRAM. -/
def Dev.populated (d : Dev) (a : Nat) : Bool :=
  decide (a < 0x1000000) || decide (0x10000000 ≤ a ∧ a < 0x10800000) ||
  (decide (0x100000000 ≤ a ∧ a < 0x200000000) && decide ((a - 0x100000000) % 0x40000000 < 40 * 2 ^ 20)) ||
  decide (0x400000000 ≤ a ∧ a < 0x1000000000) ||
  decide (0x1000000000 ≤ a ∧ a < 0x1000000000 + min d.dramBytes (2 ^ 40))

/-- Every byte of a range lies in installed DRAM. -/
def Dev.inDram (d : Dev) (a n : Nat) : Bool :=
  decide (0x1000000000 ≤ a ∧ a + n ≤ 0x1000000000 + min d.dramBytes (2 ^ 40))

/-! ### Time -/

/-- CLK_PIPE cycles in a number of ns, rounded up: 1.65 cycles per ns. -/
def cyclesOfNs (ns : Nat) : Nat := (ns * 33 + 19) / 20

/-- Whole ns in a number of CLK_PIPE cycles. -/
def nsOfCycles (c : Nat) : Nat := c * 20 / 33

/-- CLK_PIPE cycles in a number of µs. -/
def cyclesOfUs (us : Nat) : Nat := us * 1650

/-- CLK_PIPE cycles in a number of ms. -/
def cyclesOfMs (ms : Nat) : Nat := ms * 1650000

/-- CLK_PIPE cycles that a number of bit times takes at a speed in Gb/s, rounded up for each interval by itself: DESIGN CHOICE, entry 204. -/
def cyclesOfBits (bits gbps : Nat) : Nat := ceilDiv (bits * 33) (20 * gbps)

/-- The time counter's modulus: 2^48 seconds, in units of 2^-32 ns (R69). -/
def tcModulus : Nat := 2 ^ 48 * 10 ^ 9 * 2 ^ 32

/-- The time counter in whole ns since the PTP epoch. -/
def Dev.ptpNs (d : Dev) : Nat := d.clk.tc / 2 ^ 32

/-- `n` CLK_PIPE cycles pass (R24, R69). -/
def Dev.advance (d : Dev) (n : Nat) : Dev :=
  { d with clk := { now := d.clk.now + n, tc := (d.clk.tc + n * d.fld F.MAC_TC_INC_FRAC) % tcModulus } }

/-- The clock runs to a cycle, if it has not yet reached it: a timed event stands for the moment it falls due. DESIGN CHOICE, entry 3. -/
def Dev.advanceTo (d : Dev) (t : Nat) : Dev := d.advance (t - d.clk.now)

/-- The clock runs until the time counter has reached a PTP time in ns; it stays where it is if the counter has reached it or does not advance. -/
def Dev.advanceToPtp (d : Dev) (ns : Nat) : Dev :=
  d.advance (ceilDiv (ns * 2 ^ 32 - d.clk.tc) (d.fld F.MAC_TC_INC_FRAC))

/-- The cycle stamp of the present cycle (R24). -/
def Dev.stamp (d : Dev) : Nat := d.clk.now % 2 ^ 48

/-! ### Events and outputs -/

/-- An event raised in the present cycle (R218). -/
def Dev.raiseEvent (d : Dev) (code : Nat) (fn : Option Nat) (arg0 arg1 : Nat) : Dev :=
  { d with raised := d.raised ++ [⟨code, fn, arg0, arg1, d.ptpNs % 10 ^ 9, d.ptpNs / 10 ^ 9 % 2 ^ 32⟩] }

/-- A chip event (R218). -/
def Dev.chipEvent (d : Dev) (code arg0 : Nat) (arg1 : Nat := 0) : Dev := d.raiseEvent code none arg0 arg1

/-- A function event (R218). -/
def Dev.fnEvent (d : Dev) (f code arg0 : Nat) (arg1 : Nat := 0) : Dev := d.raiseEvent code (some f) arg0 arg1

/-- Something sent out or answered. -/
def Dev.emit (d : Dev) (o : Output) : Dev := { d with out := d.out ++ [o] }

/-- A function run if a condition holds. -/
def Dev.onlyIf (d : Dev) (c : Bool) (f : Dev → Dev) : Dev := if c then f d else d

/-- A function run for each number of a list, in order. -/
def Dev.each {α : Type} (d : Dev) (l : List α) (f : α → Dev → Dev) : Dev := l.foldl (fun d x => f x d) d

/-! ### Port and bus state -/

def Dev.port (d : Dev) (p : Nat) : PortSt := d.ports.at {} p

def Dev.updPort (d : Dev) (p : Nat) (f : PortSt → PortSt) : Dev := { d with ports := d.ports.upd {} p f }

/-- Pause state of a port's priority. -/
def Dev.pauseOf (d : Dev) (p q : Nat) : Pause := d.pause.at {} (8 * p + q)

def Dev.updPause (d : Dev) (p q : Nat) (f : Pause → Pause) : Dev := { d with pause := d.pause.upd {} (8 * p + q) f }

def Dev.modBus (d : Dev) (b : Nat) : ModBus := d.mods.at {} b

def Dev.updMod (d : Dev) (b : Nat) (f : ModBus → ModBus) : Dev := { d with mods := d.mods.upd {} b f }

/-- KIND, OLD and NEW of the swap that a region last began (R384, R385). -/
def Dev.swapKind (d : Dev) (r : Nat) : Nat := (d.swapCmd.at (0, 0, 0) r).1
def Dev.swapOld (d : Dev) (r : Nat) : Nat := (d.swapCmd.at (0, 0, 0) r).2.1
def Dev.swapNew (d : Dev) (r : Nat) : Nat := (d.swapCmd.at (0, 0, 0) r).2.2

/-! ### The pair (R443, R447, R450, R452) -/

/-- A device of a pair (R442). -/
def Dev.inPair (d : Dev) : Bool := d.fld F.PAIR_STAT_ROLE == 1 || d.fld F.PAIR_STAT_ROLE == 2

/-- A pair device in SYNC or STANDBY (R452). -/
def Dev.mirrored (d : Dev) : Bool := d.inPair && (d.fld F.PAIR_STAT_STATE == 3 || d.fld F.PAIR_STAT_STATE == 4)

/-- A pair device that is not the active one stays off its ports and host paths: R443 and R452 say so of ROLE_ERR, SYNC and STANDBY. DEDUCED for the other states, entry 40. -/
def Dev.passive (d : Dev) : Bool := d.inPair && d.fld F.PAIR_STAT_STATE != 2

/-- The chip sends no frame and no TLP: as a passive pair device, or as a pair device whose Flume controller has stopped (R447, R454). -/
def Dev.offHost (d : Dev) : Bool := d.passive || (d.inPair && d.pair.squelched)

/-- The device starts nothing new: the chip safe state (R417), or deep-sleep entry (R405). -/
def Dev.quiet (d : Dev) : Bool := d.flag F.ERR_STAT_SAFE || d.boot.asleep.isSome

/-- Every Ethernet transmitter is squelched or sends only idles (R405, R417, R447, R452). -/
def Dev.mute (d : Dev) : Bool := d.quiet || d.pair.squelched || d.passive

/-- Before an action takes effect its intent record must be acknowledged: the peer is in SYNC or STANDBY (R450). -/
def Dev.peerWaits (d : Dev) : Bool :=
  d.inPair && d.fld F.PAIR_STAT_STATE == 2 && d.flag F.PAIR_STAT_HB && (d.pair.peerState == 3 || d.pair.peerState == 4)

/-- An action put in line behind its intent record (R450). -/
def Dev.queueIntent (d : Dev) (i : Intent) : Dev :=
  { d with pair := { d.pair with intents := d.pair.intents ++ [(d.pair.nextIntent, none, i)], nextIntent := d.pair.nextIntent + 1 } }

/-- The device is a cascade member. -/
def Dev.inCascade (d : Dev) : Bool := d.fld F.PAIR_STAT_ROLE == 3

/-- A cascade member other than the master (R460). -/
def Dev.member (d : Dev) : Bool := d.inCascade && d.board.cascId != 0

/-- Something discarded because the device is passive (R452). -/
def Dev.standbyDrop (d : Dev) : Dev := d.bump .PAIR_CNT 0 5

/-! ### Address map (R482, R485, R486) -/

/-- First address of the instance of a register's block. -/
def RegLayout.base (l : RegLayout) (n : Nat) : Nat :=
  match l.kind with
  | .chip => 0x200000000 + l.slot * 0x1000000
  | .rgn => 0x200000000 + 0x10000000 * (n + 1) + l.slot * 0x1000000
  | .lane => 0x200000000 + 0x10000000 * (n / 4 + 1) + 0x4000 * (n % 4)
  | .fn => 0x280000000 + 0x200000 * n
  | .qp => 0x280000000 + 0x200000 * (n / 256) + 0x100000 + 0x1000 * (n % 256)
  | .eq => 0x280000000 + 0x200000 * (n / 16) + 0xA000 + 0x1000 * (n % 16)
  | .cvu => 0x207000000 + 0x10000 + 0x1000 * n

/-- The internal address of a register word. -/
def RegKey.addr (k : RegKey) : Nat :=
  let l := k.reg.layout
  l.base k.n + l.off + l.s1 * (k.i / l.j) + l.s2 * (k.i % l.j) + 4 * k.w

/-- The element and word of a register that lie at an offset of its block, if any. -/
def RegLayout.find (l : RegLayout) (off : Nat) : Option (Nat × Nat) :=
  if off < l.off then none
  else
    let r := off - l.off
    let i1 := if l.s1 = 0 then 0 else r / l.s1
    let r1 := if l.s1 = 0 then r else r % l.s1
    let i2 := if l.s2 = 0 then 0 else r1 / l.s2
    let r2 := if l.s2 = 0 then r1 else r1 % l.s2
    if i1 < l.c1 ∧ i2 < l.j ∧ r2 / 4 < l.words then some (i1 * l.j + i2, r2 / 4) else none

/-- The block of an address and the offset in it: block kind, slot, instance and offset; none outside every block of R482, R485 and R486. -/
def blockOf (a : Nat) : Option (BlockKind × Nat × Nat × Nat) :=
  if 0x200000000 ≤ a ∧ a < 0x210000000 then
    let slot := (a - 0x200000000) / 0x1000000
    let o := (a - 0x200000000) % 0x1000000
    if 12 ≤ slot then none
    else if slot = 7 ∧ 0x10000 ≤ o ∧ o < 0x50000 then some (.cvu, 0, (o - 0x10000) / 0x1000, o % 0x1000)
    else some (.chip, slot, 0, o)
  else if 0x210000000 ≤ a ∧ a < 0x250000000 then
    let n := (a - 0x210000000) / 0x10000000
    let o := (a - 0x210000000) % 0x10000000
    let slot := o / 0x1000000
    if 9 ≤ slot then none
    else if slot = 0 ∧ o < 0x10000 then some (.lane, 0, 4 * n + o / 0x4000, o % 0x4000)
    else some (.rgn, slot, n, o % 0x1000000)
  else if 0x280000000 ≤ a ∧ a < 0x2C0000000 then
    let f := (a - 0x280000000) / 0x200000
    let o := (a - 0x280000000) % 0x200000
    if 0x100000 ≤ o then some (.qp, 0, f * 256 + (o - 0x100000) / 0x1000, o % 0x1000)
    else if 0xA000 ≤ o ∧ o < 0x1A000 then some (.eq, 0, f * 16 + (o - 0xA000) / 0x1000, o % 0x1000)
    else some (.fn, 0, f, o)
  else none

/-- What lies at the address of a register access. -/
inductive Located where
  /-- No block lies there (R483). -/
  | nowhere
  /-- A block without a register at that offset (R484). -/
  | hole
  /-- A register word. -/
  | word (k : RegKey)
  deriving DecidableEq, Repr

/-- The register word at an offset of a block, the registers being searched in the manual's order. -/
def locateIn (kind : BlockKind) (slot n off : Nat) : List Reg → Located
  | [] => .hole
  | r :: t =>
    let l := r.layout
    if l.kind = kind ∧ l.slot = slot then
      match l.find off with
      | some (i, w) => .word ⟨r, n, i, w⟩
      | none => locateIn kind slot n off t
    else locateIn kind slot n off t

/-- What lies at an internal address, taken as a 32-bit aligned access. -/
def locate (a : Nat) : Located :=
  match blockOf a with
  | none => .nowhere
  | some (kind, slot, n, off) => locateIn kind slot n (off - off % 4) Reg.all

/-! ### Functions and their resources (R168, R169) -/

def Dev.fn (d : Dev) (f : Nat) : Fn := d.fns.at {} f

def Dev.updBoot (d : Dev) (f : Boot → Boot) : Dev := { d with boot := f d.boot }

def Dev.updFn (d : Dev) (f : Nat) (g : Fn → Fn) : Dev := { d with fns := d.fns.upd {} f g }

/-- Where a configuration field is kept. Fields below 16 are those of AER, which survive a function's reset. -/
def cfgKey : CfgField → Nat
  | .uncorrectableErrorStatus => 0
  | .uncorrectableErrorMask => 1
  | .uncorrectableErrorSeverity => 2
  | .correctableErrorStatus => 3
  | .correctableErrorMask => 4
  | .firstErrorPointer => 5
  | .ecrcGenerationEnable => 6
  | .ecrcCheckEnable => 7
  | .headerLog i => 8 + i.val
  | .bar n => 16 + n.val
  | .vfBar n => 24 + n.val
  | c => 32 + c.ctorIdx

/-- The reset value of a configuration field: that of the Base Specification. PRESUMED, entry 205. -/
def cfgReset : CfgField → Nat
  | .uncorrectableErrorMask => 0x400000
  | .uncorrectableErrorSeverity => 0x462030
  | .correctableErrorMask => 0x6000
  | .maxReadRequestSize => 2
  | _ => 0

/-- A configuration field of a function. -/
def Dev.cfg (d : Dev) (f : Nat) (c : CfgField) : Nat := (d.fn f).cfg.at (cfgReset c) (cfgKey c)

def Dev.setCfg (d : Dev) (f : Nat) (c : CfgField) (v : Nat) : Dev := d.updFn f fun x => { x with cfg := x.cfg.set (cfgReset c) (cfgKey c) v }

/-- The resources that the registers of a function describe. -/
def Dev.resWritten (d : Dev) (f : Nat) : Res :=
  { tenant := d.fld F.HIF_FUNC_RES_TENANT 0 f, qpBase := d.fld F.HIF_FUNC_RES_QP_BASE 0 f, qpCnt := d.fld F.HIF_FUNC_RES_QP_CNT 0 f,
    eqCnt := d.fld F.HIF_FUNC_RES_EQ_CNT 0 f, vecCnt := d.fld F.HIF_FUNC_RES_VEC_CNT 0 f, vecBase := d.fld F.HIF_FUNC_RES_VEC_BASE 0 f,
    qpnBase := d.fld F.RMA_FUNC_QPN_BASE 0 f, qpnCnt := d.fld F.RMA_FUNC_QPN_CNT 0 f,
    keyBase := d.fld F.RMA_FUNC_KEY_BASE 0 f, keyCnt := d.fld F.RMA_FUNC_KEY_CNT 0 f,
    nvme := d.flag F.STO_FUNC_NVME_EN 0 f, cbf := d.flag F.STO_FUNC_CBF_EN 0 f,
    ioqMax := d.fld F.STO_FUNC_IOQ_MAX 0 f, cbfNs := d.fld F.STO_FUNC_CBF_NS 0 f }

/-- The resources in effect (R169): those of the registers, or those kept while newer values are pending. -/
def Dev.res (d : Dev) (f : Nat) : Res := (d.fn f).held.getD (d.resWritten f)

/-- A register page that its function has been given (R173); what lies elsewhere in a resource area is a hole. -/
def Dev.given (d : Dev) (k : RegKey) : Bool :=
  match k.reg.layout.kind with
  | .qp => decide (k.n % 256 < (d.res (k.n / 256)).qpCnt)
  | .eq => decide (k.n % 16 < (d.res (k.n / 16)).eqCnt)
  | .fn =>
    if k.reg = Reg.MSIX_TBL then decide (k.i < (d.res k.n).vecCnt)
    else if k.reg = Reg.MSIX_PBA then decide (k.i < ceilDiv (d.res k.n).vecCnt 64)
    else if k.reg = Reg.RMW_CMD ∨ k.reg = Reg.RMW_DATA then (d.res k.n).qpnCnt != 0
    else (d.res k.n).cbf
  | _ => true

/-! ### Writers (R16, R23, R490) -/

/-- The PF of a function: itself below 16, else the present PF whose VF range holds it. -/
def Dev.pfOf (d : Dev) (f : Nat) : Nat :=
  if f < 16 then f
  else (List.range 16).findIdx fun p =>
    (d.pfs.at {} p).present && decide ((d.pfs.at {} p).vfBase ≤ f ∧ f < (d.pfs.at {} p).vfBase + (d.pfs.at {} p).totalVfs)

/-- The host port of a function: 0 Host A, 1 Host B. -/
def Dev.hostOf (d : Dev) (f : Nat) : Nat := (d.pfs.at {} (d.pfOf f)).port

/-- Two functions sit on one host port; a function that is placed nowhere sits on none (R166, R199). -/
def Dev.samePort (d : Dev) (f g : Nat) : Bool :=
  (d.pfs.at {} (d.pfOf f)).present && (d.pfs.at {} (d.pfOf g)).present && d.hostOf f == d.hostOf g

/-- The one PF of a host port that counts as "PF 0" of that port (R490). -/
def Dev.mgmtPf (d : Dev) (h : Nat) : Option Nat :=
  (List.range 16).find? fun p => (d.pfs.at {} p).present && (d.pfs.at {} p).port == h

/-- The function writes as "PF 0 of a host port" (R490). -/
def Dev.isMgmtPf (d : Dev) (f : Nat) : Bool := d.mgmtPf (d.hostOf f) == some f && decide (f < 16)

/-- Writer codes of R24. -/
def Dev.writerCode (d : Dev) : Writer → Nat
  | .keystone => 1
  | .sideband => 2
  | .host f => 3 + d.hostOf f.val
  | .serviceCore _ => 5
  | .packetCore _ => 5

/-- The rank of a writer, lower numbers first (R16). -/
def Dev.rank (d : Dev) : Writer → Nat
  | .keystone => 0
  | .sideband => 1
  | .host f => 1000 + 1000 * d.hostOf f.val + f.val
  | .serviceCore i => 3000 + i.val
  | .packetCore i => 4000 + i.val

/-- The SOURCE field of a conflict log entry (R24). -/
def sourceW : Writer → Nat
  | .keystone => 0
  | .sideband => 0
  | .host f => f.val
  | .serviceCore i => i.val
  | .packetCore i => 52 + i.val

/-- Any service-core firmware. -/
def isServiceW : Writer → Bool
  | .serviceCore _ => true
  | _ => false

/-- Any firmware. -/
def isFirmwareW : Writer → Bool
  | .serviceCore _ => true
  | .packetCore _ => true
  | _ => false

/-- The function of a host writer. -/
def functionW : Writer → Option Nat
  | .host f => some f.val
  | _ => none

/-- The function that a register of a function's own pages belongs to. -/
def RegKey.ownerFn (k : RegKey) : Nat :=
  match k.reg.layout.kind with
  | .qp => k.n / 256
  | .eq => k.n / 16
  | _ => k.n

/-- A register word of class T: it has RW, RWS or RWL bits (R448). -/
def RegKey.mirroredReg (k : RegKey) : Bool := let a := k.reg.access k.w; a.rw ||| a.rws ||| a.rwl != 0

/-- Replicated state of a cascade (R460): a member's own writers may not write it. -/
def Reg.replicated (r : Reg) : Bool :=
  [Reg.CLS_PSTATE, .CLS_PTRANS, .CLS_PARSE_CTL, .CLS_TBL, .CLS_KEX, .FWD_TUQ_BASE, .FWD_TUQ_CTL, .FWD_TUQ_PI, .CRU_TBLCLS].contains r

/-- A writer that the owning chapter permits for a register (R23); none for a register of class T of a device in SYNC or STANDBY (R452), or for the replicated state of a cascade member (R460). Windows are judged by the function their FUNC field names (R199). -/
def Dev.permits (d : Dev) (k : RegKey) (w : Writer) : Bool :=
  let host : Bool := match functionW w with
    | some f => d.isMgmtPf f
    | none => false
  let key := w == .keystone
  let sb := w == .sideband
  !(d.mirrored && k.mirroredReg) && !(d.member && k.reg.replicated) &&
  match k.reg.writers with
  | .device => false
  | .mgmtPf0 => key || sb || isServiceW w || host
  | .spanW => key || sb || host
  | .mgmt => key || sb || isServiceW w
  | .ksc => key || isServiceW w
  | .ksb => key || sb
  | .keystone => key
  | .window =>
    key || sb || isServiceW w ||
      (host && (match functionW w with
        | some f => d.samePort (d.fld (if k.reg = Reg.HIF_ITT then F.HIF_ITT_FUNC else F.HIF_OTT_FUNC) 0 k.i) f
        | none => false))
  | .function => key || isServiceW w || functionW w == some k.ownerFn
  | .msix => key || functionW w == some k.ownerFn
  | .cvuOwner => key || d.cvuOwn.at (0, 0) k.n == (match w with
    | .host f => (1, f.val)
    | .serviceCore i => (2, i.val)
    | .packetCore i => (3, i.val)
    | _ => (4, 0))
  | .chain => key || isFirmwareW w
  | .sccCore => key || isServiceW w

/-! ### Conflicts (R17 to R24) -/

/-- A status returned to a writer whose access path carries one: a host's posted write carries none (R19, R23). -/
def Dev.status (d : Dev) (w : Writer) (addr st : Nat) : Dev := d.onlyIf (functionW w).isNone fun d => d.emit (.regStatus w addr st)

/-- One entry of the conflict log and one count for a discarded write with the stamp of its commit cycle (R19, R24); a valid entry overwritten sets OVF. -/
def Dev.logConflictAt (d : Dev) (stamp addr winner : Nat) (w : Writer) : Dev :=
  let x := d.fld F.CHIP_CONFLICT_STAT_NEXT
  let d := d.onlyIf (d.flag F.CHIP_CONFLICT_LOG_VALID 0 x) fun d => d.setChip F.CHIP_CONFLICT_STAT_OVF 1
  let d := d.setFld F.CHIP_CONFLICT_LOG_STAMP_LO 0 x stamp
  let d := d.setWord ⟨.CHIP_CONFLICT_LOG, 0, x, 1⟩
    (BitVec.ofNat 32 (2 ^ 31 + winner * 2 ^ 28 + d.writerCode w * 2 ^ 25 + sourceW w * 2 ^ 16 + stamp / 2 ^ 32))
  let d := d.setFld F.CHIP_CONFLICT_LOG_ADDR_LO 0 x addr
  let d := d.setFld F.CHIP_CONFLICT_LOG_ADDR_HI 0 x (addr / 2 ^ 32)
  let d := d.setChip F.CHIP_CONFLICT_STAT_NEXT (x + 1)
  (d.bump .CHIP_CONFLICT_CNT 0 0).status w addr 7

/-- A write discarded in the present cycle. -/
def Dev.logConflict (d : Dev) (addr winner : Nat) (w : Writer) : Dev := d.logConflictAt d.stamp addr winner w

/-- The highest-ranked write of a list (R16). -/
def Dev.topWrite (d : Dev) : List Write → Option Write
  | [] => none
  | w :: t =>
    match d.topWrite t with
    | none => some w
    | some v => if d.rank v.writer < d.rank w.writer then some v else some w

/-- The last cycle that a sideband message's message time can have: 64 cycles with both ends (R18). -/
def SbWrite.last (m : SbWrite) : Nat := m.accepted + 63

/-- The message time of the sideband message in flight is over. -/
def Dev.sbOver (d : Dev) : Bool :=
  match d.sb with
  | none => false
  | some m => decide (m.last < d.clk.now)

/-- The message in flight stands on a control, and its message time is over. -/
def Dev.overdue (d : Dev) (addr : Nat) : Bool := d.sbOver && d.sb.any fun m => m.addr == addr

/-- Rank and code of the highest write already seen in the message time of a sideband message on a control (R18, R19). -/
def Dev.sbTop (d : Dev) (addr : Nat) : Option (Nat × Nat) :=
  match d.sb with
  | none => none
  | some m => if m.addr = addr ∧ d.clk.now ≤ m.last then some (if m.beaten then (0, 1) else (1, 2)) else none

/-- A write that a sideband message's rank discards, its log entry being remembered: the message may yet lose to the Keystone. -/
def Dev.loseToMessage (d : Dev) (addr code : Nat) (w : Writer) : Dev :=
  let x := d.fld F.CHIP_CONFLICT_STAT_NEXT
  let d := d.logConflict addr code w
  { d with sb := d.sb.map fun m => { m with logged := m.logged ++ [x] } }

/-- A Keystone access wins in the message time of the sideband message: entries of that message time on the control name it as WINNER (R19, R24). -/
def Dev.beatMessage (d : Dev) (addr : Nat) : Dev :=
  match d.sb with
  | none => d
  | some m =>
    let d := d.each m.logged fun x d =>
      d.onlyIf (d.fld F.CHIP_CONFLICT_LOG_ADDR_LO 0 x == addr % 2 ^ 32 && d.fld F.CHIP_CONFLICT_LOG_ADDR_HI 0 x == addr / 2 ^ 32 % 2 ^ 16) fun d =>
        d.setFld F.CHIP_CONFLICT_LOG_WINNER 0 x 1
    { d with sb := some { m with beaten := true } }

/-- Writes of one cycle on one control, every writer's permission judged first (R23): each write not permitted is answered `ACCESS`;
of the rest the highest-ranked takes effect and every other is discarded and logged (R19), a sideband message in its message time counting as one of them (R18). -/
def Dev.arbitrate (d : Dev) (ok : Writer → Bool) (addr : Nat) (ws : List Write) : Dev × Option Write :=
  let good := ws.filter fun w => ok w.writer
  let d := d.each (ws.filter fun w => !ok w.writer) fun w d => d.status w.writer addr 5
  match d.topWrite good with
  | none => (d, none)
  | some top =>
    match d.sbTop addr with
    | none =>
      (d.each (good.filter fun w => w != top) fun w d => d.logConflict addr (d.writerCode top.writer) w.writer, some top)
    | some (r, code) =>
      if r < d.rank top.writer then
        (d.each good fun w d => d.loseToMessage addr code w.writer, none)
      else
        let d := d.each (good.filter fun w => w != top) fun w d => d.logConflict addr (d.writerCode top.writer) w.writer
        (d.beatMessage addr, some top)

/-- The value of a register word after a write, by its access masks (R4): RW and RWS bits take the new value, W1C and W1S bits clear and set, RWL bits take it while unlocked, and every other bit stays. -/
def Access.merge (a : Access) (locked : Bool) (old new : Word) : Word :=
  let m := a.rw ||| a.rws ||| (if locked then 0 else a.rwl)
  (((old &&& ~~~m) ||| (new &&& m)) &&& ~~~(new &&& a.w1c)) ||| (new &&& a.w1s)

/-- The LOCK bit that governs a register's RWL fields (R4, R23). -/
def Dev.locked (d : Dev) (r : Reg) : Bool :=
  match r with
  | .IMP_CFG => d.flag F.IMP_CFG_LOCK
  | .IMP_RANGE => d.flag F.IMP_CFG_LOCK
  | .LK_CFG => d.flag F.LK_CFG_LOCK
  | _ => false

/-- A register word written by its access masks. -/
def Dev.plainWrite (d : Dev) (k : RegKey) (v : Word) : Dev :=
  d.setWord k ((k.reg.access k.w).merge (d.locked k.reg) (d.word k) v)

/-- The value a register word would hold after a write, by its access masks. -/
def Dev.wouldBe (d : Dev) (k : RegKey) (v : Word) : Word := (k.reg.access k.w).merge (d.locked k.reg) (d.word k) v

/-- Fields whose Meaning column bounds their values, with the lowest and the highest value (R489). SCH_POL.PIR, whose row gives no range, takes CIR's: DEDUCED, entry 197. -/
def fieldRanges : List (Fld × Nat × Nat) :=
  [(F.MAC_PORT_CFG_LANE_RATE, 0, 5), (F.MAC_PORT_CFG_MAX_LEN, 64, 16383), (F.MAC_PAUSE_QUANTA_QUANTA, 1, 65535), (F.MAC_GCL_CTL_LEN, 1, 1024),
   (F.MAC_GCL_CYCLE_NS, 1000, 1000000000), (F.MAC_GCL_BASE_NS_NS, 0, 999999999), (F.MAC_KERF_NS, 0, 1000000), (F.MAC_MOD_CMD_LEN, 1, 8),
   (F.MAC_GCL_INTERVAL, 64, 1000000000), (F.CLS_ARB_WT_RECIRC, 1, 15), (F.CLS_ARB_WT_HOST, 1, 15), (F.CLS_ARB_WT_CORE, 1, 15), (F.CLS_TMPL_HDR_LEN, 1, 128),
   (F.FWD_TUQ_CTL_LOG2_SIZE, 4, 16), (F.FWD_AGE_PERIOD_S, 1, 65535), (F.SCH_IN_LIMIT_CELLS, 0, 65536), (F.SCH_CLASS_WEIGHT, 1, 65535),
   (F.SCH_TNODE_WEIGHT, 1, 65535), (F.SCH_QUEUE_WEIGHT, 1, 65535), (F.SCH_SHAPE_CIR, 0, 1600000), (F.SCH_SHAPE_PIR, 0, 1600000),
   (F.SCH_POL_MODE, 0, 2), (F.SCH_POL_CIR, 0, 1600000), (F.SCH_POL_PIR, 0, 1600000), (F.RMA_CTX_CFG_QP_MAX, 0, 2 ^ 24), (F.RMA_CTX_CFG_KEY_MAX, 0, 2 ^ 24),
   (F.RMA_CFG_MIN_RNR, 1, 31), (F.RMA_CC_RATE_MIN, 1, 1000000), (F.RMA_CC_CNP_US, 1, 4095), (F.STO_FUNC_IOQ_MAX, 0, 1024),
   (F.CRY_CFG_PN_GAP_LOG2, 16, 40), (F.CRY_MSEC_CFG_VALIDATE, 0, 2), (F.PCB_CTL_OWNER, 0, 51), (F.PCB_CTL_ACK_US, 1, 65535), (F.CRU_TASK_SC, 0, 51),
   (F.CRU_TBLCLS_PTIER, 0, 2), (F.IMP_CFG_SIZE_GIB, 0, 64), (F.ERR_CTL_EXT_SC, 0, 51), (F.ERR_CTL_CORR_LIMIT, 1, 127), (F.PAIR_CFG_BULK, 1, 8),
   (F.PAIR_CFG_ELECT_US, 100, 10000)]

/-- A write leaves every bounded field of its word within its bounds (R489); MAXF is 0 or at least 64. -/
def Dev.inRange (d : Dev) (k : RegKey) (v : Word) : Bool :=
  let x := d.wouldBe k v
  (fieldRanges.all fun e => e.1.reg != k.reg || e.1.w != k.w || decide (e.2.1 ≤ e.1.ofWord x ∧ e.1.ofWord x ≤ e.2.2)) &&
  !(k.reg == .MAC_QMAXF && decide (0 < F.MAC_QMAXF_MAXF.ofWord x ∧ F.MAC_QMAXF_MAXF.ofWord x < 64))

/-- A value that has won arbitration takes effect, unless it falls in a hole (R173) or out of a range (R489). -/
def Dev.commit (d : Dev) (k : RegKey) (w : Write) (effect : RegKey → Write → Dev → Dev) : Dev :=
  if d.given k && d.inRange k w.value then effect k w d else d

/-- The sideband message in flight reaches its commit cycle: its write takes effect unless a Keystone write has won in its message time, or its counter is read and cleared (R18, R19, R21). -/
def Dev.endMessage (d : Dev) (k : RegKey) (effect : RegKey → Write → Dev → Dev) : Dev :=
  match d.sb with
  | none => d
  | some m =>
    let d := { d with sb := none }
    let stamp := min d.clk.now m.last % 2 ^ 48
    if m.clear then
      let d := d.emit (.regValue .sideband m.addr (d.counter k.reg k.n k.i))
      if m.beaten then d.logConflictAt stamp m.addr 1 .sideband else d.setCounter k.reg k.n k.i 0
    else if m.beaten then d.logConflictAt stamp m.addr 1 .sideband
    else d.commit k ⟨.sideband, m.value⟩ effect

/-- A message on a control whose message time is over has committed before anything that now reaches the control (R18, R20). -/
def Dev.endOverdue (d : Dev) (k : RegKey) (effect : RegKey → Write → Dev → Dev) : Dev :=
  d.onlyIf (d.overdue k.addr) fun d => d.endMessage k effect

/-- Writes of one cycle on one register word, and the effect of the one that wins. One that wins and that the register then discards has preempted the others all the same: DESIGN CHOICE, entry 203. -/
def Dev.writeReg (d : Dev) (k : RegKey) (ws : List Write) (effect : RegKey → Write → Dev → Dev) : Dev :=
  let d := d.endOverdue k effect
  match d.arbitrate (d.permits k) k.addr ws with
  | (d, none) => d
  | (d, some w) => d.commit k w effect

/-! ### Resets (R7, R8) -/

/-- Registers in a scope returned to their reset values; RWS bits keep theirs (R8). -/
def Dev.resetRegs (d : Dev) (scope : RegKey → Bool) : Dev :=
  { d with
    csr := d.csr.filterMap fun e =>
      if scope e.1 then
        let keep := (e.1.reg.access e.1.w).rws
        let v := (e.2 &&& keep) ||| (e.1.resetWord &&& ~~~keep)
        if v = e.1.resetWord then none else some (e.1, v)
      else some e
    cnt := d.cnt.filter fun e => !scope e.1 }

/-! ### Steps -/

/-- The device at the end of a command: its memory changes applied in order. -/
def Dev.settle (m : List Host.Cell) (d : Dev) : Dev :=
  { d with mem := d.stores.reverse.foldl MemOp.apply m, stores := [] }

/-- A command's effect on the device, the queue left alone, whatever PWRGD is. -/
def State.always (s : State) (f : Dev → Dev) : Out := .next { s with dev := (f s.dev).settle s.dev.mem }

/-- A command's effect on the device, the queue left alone: none while PWRGD is low, which holds the device in cold reset (R466). -/
def State.on (s : State) (f : Dev → Dev) : Out := s.always fun d => if d.boot.pwrgd then f d else d

end Sys2Proof.Machine
end

