-- ==== Sys2Proof/Machine/HostErrors.lean ====
section
/-! DEFINITION. Routing IDs of functions (R165), and the reporting of errors to hosts through AER (R171, R194). The numbers of the AER bits are those of the Base Specification: PRESUMED, entry 205. -/

namespace Sys2Proof.Machine

open Sys2Proof

/-! ### Routing IDs -/

/-- PFs placed on a link, rising (R165). -/
def Dev.pfsOn (d : Dev) (h k : Nat) : List Nat :=
  (List.range 16).filter fun p => let x := d.pfs.at {} p; x.present && x.port == h && x.link == k

/-- The ARI function number of a PF: its place among the PFs of its link (R165). -/
def Dev.ariNumber (d : Dev) (p : Nat) : Nat :=
  let x := d.pfs.at {} p
  ((d.pfsOn x.port x.link).filter fun q => decide (q < p)).length

/-- The Routing ID of a function relative to that of its link's ARI function 0 (R165): First VF Offset is the device's own choice, VF Stride is 1. -/
def Dev.routingId (d : Dev) (f : Nat) : Nat :=
  if f < 16 then d.ariNumber f
  else
    let p := d.pfOf f
    d.ariNumber p + Config.firstVfOffset p + (f - (d.pfs.at {} p).vfBase)

/-- A function is the ARI function 0 of its link (R165, R171). -/
def Dev.linkHead (d : Dev) (f : Nat) : Bool := decide (f < 16) && (d.pfs.at {} f).present && d.ariNumber f == 0

/-! ### Errors (R194) -/

/-- Bits of the uncorrectable error registers. -/
def aerDataLink : Nat := 4
def aerPoisoned : Nat := 12
def aerFlowControl : Nat := 13
def aerTimeout : Nat := 14
def aerAbort : Nat := 15
def aerUnexpected : Nat := 16
def aerOverflow : Nat := 17
def aerMalformed : Nat := 18
def aerEcrc : Nat := 19
def aerUnsupported : Nat := 20
def aerInternal : Nat := 22

/-- Bit of the correctable error registers. -/
def correctableBit : LinkError → Nat
  | .receiver => 0
  | .badTlp => 6
  | .badDllp => 7
  | .replayRollover => 8
  | .replayTimeout => 12

/-- An uncorrectable error recorded in a function's AER registers: its status bit and, when it is the first, the pointer and the header log. The header is not the command's: a free value. -/
def Dev.recordError (d : Dev) (f bit : Nat) : Dev :=
  let was := d.cfg f .uncorrectableErrorStatus
  let d := d.setCfg f .uncorrectableErrorStatus (withBit was bit true)
  if was ≠ 0 then d
  else
    let x := d.draws
    let d := { d with draws := x + 1 }.setCfg f .firstErrorPointer bit
    d.each (List.range 4) fun i d => d.setCfg f (.headerLog (Fin.ofNat 4 i)) (Config.tlpHeader x i % 2 ^ 32)

/-- An uncorrectable error of a function (R194): recorded, and a message of its severity sent when its mask and the function's reporting allow. Before release nothing is recorded or sent (R164). -/
def Dev.report (d : Dev) (f bit : Nat) : Dev :=
  if ¬ d.released then d
  else
    let fatal := bitOf (d.cfg f .uncorrectableErrorSeverity) bit
    let d := d.recordError f bit
    let st := withBit (d.cfg f .deviceStatus) (if fatal then 2 else 1) true
    let d := d.setCfg f .deviceStatus (if bit = aerUnsupported then withBit st 3 true else st)
    let open_ := d.cfg f .serrEnable == 1 || d.cfg f (if fatal then .fatalErrorReportingEnable else .nonFatalErrorReportingEnable) == 1
    let asked := bit != aerUnsupported || d.cfg f .unsupportedRequestReportingEnable == 1
    if bitOf (d.cfg f .uncorrectableErrorMask) bit ∨ ¬ open_ ∨ ¬ asked then d else d.emit (.hostError f (if fatal then 2 else 1))

/-- Errors of a link that it has corrected, at the ARI function 0 of the link (R194). -/
def Dev.reportCorrected (d : Dev) (f : Nat) (l : List LinkError) : Dev :=
  if ¬ d.released then d
  else
    d.each l fun e d =>
      let bit := correctableBit e
      let d := d.setCfg f .correctableErrorStatus (withBit (d.cfg f .correctableErrorStatus) bit true)
      let d := d.setCfg f .deviceStatus (withBit (d.cfg f .deviceStatus) 0 true)
      if bitOf (d.cfg f .correctableErrorMask) bit ∨ d.cfg f .correctableErrorReportingEnable ≠ 1 then d else d.emit (.hostError f 0)

/-- An error of a link recorded in every PF on it, and reported by its ARI function 0 (R194). -/
def Dev.reportLink (d : Dev) (h k bit : Nat) : Dev :=
  match d.pfsOn h k with
  | [] => d
  | p :: rest => (d.each rest fun q d => d.recordError q bit).report p bit

/-- A TLP as it comes in: the errors corrected on its way reported, and whether it is taken; a malformed one and, where checking is enabled, one with a bad ECRC is discarded and reported (R194). -/
def Dev.takeTlp (d : Dev) (f : Nat) (t : Tlp) : Dev × Bool :=
  let x := d.pfs.at {} (d.pfOf f)
  let d := d.reportCorrected ((d.pfsOn x.port x.link).headD f) t.corrected
  if t.malformed then (d.reportLink x.port x.link aerMalformed, false)
  else if t.ecrcBad ∧ d.cfg f .ecrcCheckEnable = 1 then (d.report f aerEcrc, false)
  else (d, true)

end Sys2Proof.Machine
end

