-- ==== Sys2Proof/Machine/Aes.lean ====
section
/-! DEFINITION. AES-GCM with 128-bit and 256-bit keys and a 16-byte tag (R272), the one bulk cipher of the crypto clusters: FIPS 197 and the Galois counter mode. -/

namespace Sys2Proof.Machine

open Sys2Proof

/-- Multiplication by x in the AES field. -/
def xtime (a : Nat) : Nat := if 128 ≤ a then (2 * a) % 256 ^^^ 27 else 2 * a

/-- Multiplication in the AES field, over the low `n` bits of the second factor. -/
def gmul : Nat → Nat → Nat → Nat
  | 0, _, _ => 0
  | n + 1, a, b => (if b % 2 = 1 then a else 0) ^^^ gmul n (xtime a) (b / 2)

/-- The inverse in the AES field, as the 254th power. -/
def ginv (a : Nat) : Nat :=
  let m (x y : Nat) : Nat := gmul 8 x y
  let a2 := m a a
  let a3 := m a2 a
  let a6 := m a3 a3
  let a7 := m a6 a
  let a14 := m a7 a7
  let a15 := m a14 a
  let a30 := m a15 a15
  let a31 := m a30 a
  let a62 := m a31 a31
  let a63 := m a62 a
  let a126 := m a63 a63
  let a127 := m a126 a
  m a127 a127

/-- A byte rotated left. -/
def rotl8 (x n : Nat) : Nat := (x * 2 ^ n) % 256 + x / 2 ^ (8 - n)

/-- The S-box of FIPS 197. -/
def sbox (a : Nat) : Nat :=
  let b := ginv a
  b ^^^ rotl8 b 1 ^^^ rotl8 b 2 ^^^ rotl8 b 3 ^^^ rotl8 b 4 ^^^ 99

/-- SubWord and RotWord on four bytes. -/
def subWord (w : List Nat) : List Nat := w.map sbox
def rotWord (w : List Nat) : List Nat := w.drop 1 ++ w.take 1

def xorL (a b : List Nat) : List Nat := List.zipWith (· ^^^ ·) a b

/-- The key schedule: words newest first, `nk` words of key, the next index, the round constant. -/
def keyWordsAes (nk : Nat) : Nat → Nat → Nat → List (List Nat) → List (List Nat)
  | 0, _, _, ws => ws
  | n + 1, i, rc, ws =>
    let prev := ws.headD []
    let t := if i % nk = 0 then xorL (subWord (rotWord prev)) [rc, 0, 0, 0]
      else if 6 < nk ∧ i % nk = 4 then subWord prev else prev
    keyWordsAes nk n (i + 1) (if i % nk = 0 then xtime rc else rc) (xorL (ws.getD (nk - 1) []) t :: ws)

/-- Four-byte groups of a list. -/
def groups4 : List Nat → List (List Nat)
  | a :: b :: c :: e :: t => [a, b, c, e] :: groups4 t
  | _ => []

/-- Round keys of 16 bytes, in order. -/
def roundKeys (key : List Nat) : List (List Nat) :=
  let nk := key.length / 4
  let ws := (keyWordsAes nk (4 * (nk + 7) - nk) nk 1 (groups4 key).reverse).reverse
  (List.range (nk + 7)).map fun r => ((ws.drop (4 * r)).take 4).flatten

/-- ShiftRows: byte `r + 4 c` comes from column `c + r`. -/
def shiftRows (s : List Nat) : List Nat := (List.range 16).map fun i => s.getD (i % 4 + 4 * ((i / 4 + i % 4) % 4)) 0

/-- MixColumns of one column. -/
def mixCol : List Nat → List Nat
  | [a, b, c, e] =>
    let d2 (x : Nat) : Nat := xtime x
    let d3 (x : Nat) : Nat := xtime x ^^^ x
    [d2 a ^^^ d3 b ^^^ c ^^^ e, a ^^^ d2 b ^^^ d3 c ^^^ e, a ^^^ b ^^^ d2 c ^^^ d3 e, d3 a ^^^ b ^^^ c ^^^ d2 e]
  | l => l

/-- The rounds after the first key addition; the last one has no MixColumns. -/
def aesRounds : List (List Nat) → List Nat → List Nat
  | [], s => s
  | [k], s => xorL (shiftRows (s.map sbox)) k
  | k :: k' :: t, s => aesRounds (k' :: t) (xorL ((groups4 (shiftRows (s.map sbox))).map mixCol).flatten k)

/-- One block enciphered under its round keys. -/
def aesBlock (ks : List (List Nat)) (block : List Nat) : List Nat :=
  match ks with
  | [] => block
  | k :: t => aesRounds t (xorL block k)

/-- A block as a number, first byte most significant, and back. -/
def blockVal (b : List Nat) : Nat := b.foldl (fun a x => 256 * a + x) 0
def valBlock (n x : Nat) : List Nat := (beBytes n x).map (·.toNat)

/-- Multiplication in GF(2^128) as GCM orders its bits. -/
def ghashMul : Nat → Nat → Nat → Nat → Nat
  | 0, _, _, z => z
  | n + 1, x, v, z =>
    ghashMul n x (if v % 2 = 1 then v / 2 ^^^ 0xE1000000000000000000000000000000 else v / 2)
      (if bitOf x n then z ^^^ v else z)

/-- Blocks of 16 bytes, the last one padded with zeros, for at most `n` blocks. -/
def blocks16 : Nat → List Nat → List (List Nat)
  | 0, _ => []
  | n + 1, l => if l.isEmpty then [] else (l.take 16 ++ List.replicate (16 - l.length) 0) :: blocks16 n (l.drop 16)

/-- GHASH of blocks. -/
def ghash (h : Nat) (bs : List (List Nat)) : Nat := bs.foldl (fun y b => ghashMul 128 (y ^^^ blockVal b) h 0) 0

/-- The key stream of `n` blocks from a counter on. -/
def ctrStream (ks : List (List Nat)) (iv : List Nat) : Nat → Nat → List Nat
  | 0, _ => []
  | n + 1, c => aesBlock ks (iv ++ valBlock 4 c) ++ ctrStream ks iv n (c + 1)

/-- Text enciphered or deciphered by AES-GCM under a 12-byte nonce. -/
def gcmCrypt (key nonce text : List Byte) : List Byte :=
  let ks := roundKeys (key.map (·.toNat))
  let t := text.map (·.toNat)
  (xorL t (ctrStream ks (nonce.map (·.toNat)) (ceilDiv t.length 16) 2)).map (BitVec.ofNat 8)

/-- The tag of AES-GCM over associated data and ciphertext. -/
def gcmTag (key nonce aad ct : List Byte) : List Byte :=
  let ks := roundKeys (key.map (·.toNat))
  let n := nonce.map (·.toNat)
  let h := blockVal (aesBlock ks (List.replicate 16 0))
  let bl (l : List Byte) : List (List Nat) := blocks16 (ceilDiv l.length 16) (l.map (·.toNat))
  let y := ghash h (bl aad ++ bl ct ++ [valBlock 8 (8 * aad.length) ++ valBlock 8 (8 * ct.length)])
  beBytes 16 (y ^^^ blockVal (aesBlock ks (n ++ [0, 0, 0, 1])))

end Sys2Proof.Machine
end

