-- ==== Sys2Proof/Machine/Buffers.lean ====
section
/-! DEFINITION. Ports as the lane map gives them, packets, buffer cells and the pause they bring about (R42, R48 to R61, R141). -/

namespace Sys2Proof.Machine

open Sys2Proof

/-! ### Lanes and ports (R42, R43) -/

/-- The width code of a lane in a lane map. -/
def laneCode (map l : Nat) : Nat := map / 4 ^ l % 4

/-- The number of lanes that a width code stands for. -/
def widthOf (code : Nat) : Nat := 2 ^ code

def Dev.laneMap (d : Dev) : Nat := d.fld F.MAC_LANE_MAP_WIDTH

/-- The lowest lane of the port that covers a lane. -/
def portIn (map l : Nat) : Nat := l - l % widthOf (laneCode map l)

/-- Lanes of a port. -/
def Dev.portWidth (d : Dev) (p : Nat) : Nat := widthOf (laneCode d.laneMap p)

/-- A lane is the lowest lane of a port. -/
def Dev.isPort (d : Dev) (p : Nat) : Bool := portIn d.laneMap p == p

/-- A map is valid: every port starts on a multiple of its width, and every lane it covers carries its code (R42). -/
def mapValid (map : Nat) : Bool :=
  (List.range 16).all fun l => (List.range (widthOf (laneCode map l))).all fun j => laneCode map (portIn map l + j) == laneCode map l

/-- Lane rate in Gb/s of a LANE_RATE code. -/
def rateGbps : Nat → Nat
  | 1 => 10
  | 2 => 25
  | 3 => 50
  | 4 => 100
  | 5 => 200
  | _ => 0

/-- The port is in state UP (R46). -/
def Dev.portUp (d : Dev) (p : Nat) : Bool := d.flag F.MAC_PORT_STAT_UP p

/-- The port's speed in Gb/s. -/
def Dev.portSpeed (d : Dev) (p : Nat) : Nat := d.portWidth p * rateGbps (d.fld F.MAC_PORT_STAT_LANE_RATE p)

/-! ### Port counters (R72, R73) -/

/-- A port counter raised by `x`. -/
def Dev.portCount (d : Dev) (p k : Nat) (x : Nat := 1) : Dev := d.bump .MAC_CNT p k x

/-- A discarding counter of R72, with the DROPS tally of R73. -/
def Dev.portDrop (d : Dev) (p k : Nat) : Dev := (d.portCount p k).tally (tlyPort p + 0x20) 1

/-! ### CRC of frames and keys -/

/-- One bit of a reflected CRC-32 with the reflected polynomial `poly`. -/
def crcBit (poly c : Nat) : Nat := if c % 2 = 1 then c / 2 ^^^ poly else c / 2

/-- One byte fed to a reflected CRC-32. -/
def crcByte (poly c : Nat) (b : Byte) : Nat :=
  let x := c ^^^ b.toNat
  crcBit poly (crcBit poly (crcBit poly (crcBit poly (crcBit poly (crcBit poly (crcBit poly (crcBit poly x)))))))

/-- Bytes fed to a reflected CRC-32. -/
def crcFeed (poly seed : Nat) (bs : List Byte) : Nat := bs.foldl (crcByte poly) seed

/-- CRC-32C of R93: polynomial 0x1EDC_6F41, reflected, no final XOR. -/
def crc32c (seed : Nat) (bs : List Byte) : Nat := crcFeed 0x82F63B78 seed bs

/-- The frame check sequence of IEEE 802.3, as the four bytes sent after the frame. -/
def fcsOf (bs : List Byte) : List Byte := leBytes 4 (crcFeed 0xEDB88320 0xFFFFFFFF bs ^^^ 0xFFFFFFFF)

/-- The last four bytes of a received frame are its frame check sequence. -/
def fcsGood (bs : List Byte) : Bool := bs.drop (bs.length - 4) == fcsOf (bs.take (bs.length - 4))

/-! ### Received pause and storm state (R55 to R61) -/

/-- MAC_WD_STAT shows which priorities are held and which are in storm state. -/
def Dev.showPause (d : Dev) (p : Nat) : Dev :=
  let bits (f : Pause → Bool) : Nat := ((List.range 8).map fun q => if f (d.pauseOf p q) then 2 ^ q else 0).sum
  (d.setFld F.MAC_WD_STAT_STORM p 0 (bits (·.storm))).setFld F.MAC_WD_STAT_PAUSED p 0 (bits (·.hold.isSome))

/-- The hold of a priority ends at cycle `t`: its time is tallied and a gap begins (R59, R73). -/
def Dev.endHold (d : Dev) (p q t : Nat) : Dev :=
  match (d.pauseOf p q).hold with
  | none => d
  | some _ =>
    let d := d.tally (tlyPort p + 0x28 + 8 * q) (nsOfCycles (t - (d.pauseOf p q).holdFrom))
    (d.updPause p q fun s => { s with hold := none, gap := some t }).showPause p

/-- A hold whose time has run out is ended at the cycle at which it ran out. -/
def Dev.settleHold (d : Dev) (p q : Nat) : Dev :=
  match (d.pauseOf p q).hold with
  | some e => if e ≤ d.clk.now then d.endHold p q e else d
  | none => d

/-- T_wd and T_rec in cycles (R59, R61). -/
def Dev.twd (d : Dev) (p : Nat) : Nat := cyclesOfMs (d.fld F.MAC_WD_CFG_TWD_MS p)
def Dev.trec (d : Dev) (p : Nat) : Nat := cyclesOfMs (d.fld F.MAC_WD_CFG_TREC_MS p)

/-- Entry to storm state (R60): the hold and the timing end, and PAUSE_STORM is raised once. -/
def Dev.enterStorm (d : Dev) (p q : Nat) : Dev :=
  let d := d.endHold p q d.clk.now
  let d := d.updPause p q fun s =>
    { s with storm := true, stormRef := d.clk.now, stretch := false, timed := none, gap := none }
  (d.showPause p).chipEvent 3 (8 * p + q)

/-- The watchdog's test of a priority whose hold is running (R59). -/
def Dev.stormTest (d : Dev) (p q : Nat) : Dev :=
  match (d.pauseOf p q).hold, (d.pauseOf p q).timed with
  | some _, some t => if t + d.twd p ≤ d.clk.now then d.enterStorm p q else d
  | _, _ => d

/-- Storm state ends, with no event (R61). -/
def Dev.leaveStorm (d : Dev) (p q : Nat) : Dev :=
  (d.updPause p q fun s => { s with storm := false }).showPause p

/-- A priority in storm state for which T_rec has passed leaves it (R61). -/
def Dev.stormExit (d : Dev) (p q : Nat) : Dev :=
  d.onlyIf ((d.pauseOf p q).storm && decide ((d.pauseOf p q).stormRef + d.trec p ≤ d.clk.now)) fun d => d.leaveStorm p q

/-- A pause with a time is received for a priority (R55, R56, R59, R60): in storm state it is ignored but prolongs the state; a running hold takes the new time;
otherwise a hold begins, in the stretch in progress if the gap is shorter than 1 µs. -/
def Dev.startHold (d : Dev) (p q len : Nat) : Dev :=
  let d := (d.settleHold p q).stormExit p q
  let s := d.pauseOf p q
  let now := d.clk.now
  if s.storm then d.updPause p q fun s => { s with stormRef := now }
  else if s.hold.isSome then d.updPause p q fun s => { s with hold := some (now + len) }
  else
    let on := d.flag F.MAC_WD_CFG_EN p
    let goesOn := s.stretch && (match s.gap with
      | some g => decide (now < g + 1650)
      | none => false)
    let timed := if goesOn then s.timed else if on then some now else none
    let d := d.updPause p q fun s =>
      { s with hold := some (now + len), holdFrom := now, stretch := true, timed := timed, gap := none }
    (d.showPause p).stormTest p q

/-- A pause of time zero releases a priority at once (R56); in storm state it does nothing (R61). -/
def Dev.releaseHold (d : Dev) (p q : Nat) : Dev :=
  let d := d.settleHold p q
  if (d.pauseOf p q).storm then d else d.endHold p q d.clk.now

/-! ### Sent pause (R50 to R54) -/

/-- Ingress occupancy of a port's priority, in cells. -/
def Dev.occ (d : Dev) (p q : Nat) : Nat := d.fld F.SCH_IN_OCC_CELLS (p / 4) (8 * (p % 4) + q)

/-- Flow-control mode of a port. -/
def Dev.pfcMode (d : Dev) (p : Nat) : Nat := d.fld F.MAC_PFC_CFG_MODE p

/-- The occupancy that a watermark set is tested against: the port's total in PAUSE mode (R50). -/
def Dev.pauseOcc (d : Dev) (p q : Nat) : Nat :=
  if d.pfcMode p = 1 then ((List.range 8).map fun q => d.occ p q).sum else d.occ p q

/-- Watermark sets in use: set 0 in PAUSE mode, eight in PFC mode, none without flow control. -/
def Dev.pauseSets (d : Dev) (p : Nat) : List Nat :=
  match d.pfcMode p with
  | 1 => [0]
  | 2 => List.range 8
  | _ => []

/-- Cycles between refreshes: QUANTA × 256 bit times (R52). -/
def Dev.refreshCycles (d : Dev) (p : Nat) : Nat := cyclesOfBits (d.fld F.MAC_PAUSE_QUANTA_QUANTA p * 256) (d.portSpeed p)

/-- XOFF deasserted: its time is tallied (R73); `xon` says whether a pause of time zero is sent. -/
def Dev.deassertXoff (d : Dev) (p q : Nat) (xon : Bool) : Dev :=
  if (d.pauseOf p q).xoff then
    let d := d.tally (tlyPort p + 0x68 + 8 * q) (nsOfCycles (d.clk.now - (d.pauseOf p q).xoffFrom))
    d.updPause p q fun s => { s with xoff := false, due := if xon then some false else none }
  else d

/-- XON_SEND (R53): occupancy at or below the low watermark while XOFF is asserted. -/
def Dev.xonTest (d : Dev) (p q : Nat) : Dev :=
  if (d.pauseOf p q).xoff ∧ d.pauseOcc p q ≤ d.fld F.MAC_PAUSE_LWM_CELLS p q then d.deassertXoff p q true else d

/-- XOFF_ASSERT (R51): a level test of occupancy, XOFF and TX_EN. -/
def Dev.xoffTest (d : Dev) (p q : Nat) : Dev :=
  if d.portUp p ∧ ¬ (d.pauseOf p q).xoff ∧ bitOf (d.fld F.MAC_PFC_CFG_TX_EN p) q ∧
      d.fld F.MAC_PAUSE_HWM_CELLS p q ≤ d.pauseOcc p q then
    d.updPause p q fun s =>
      { s with xoff := true, xoffFrom := d.clk.now, refreshAt := d.clk.now + d.refreshCycles p, due := some true }
  else d

/-- The watermark tests of every set in use. -/
def Dev.pauseTest (d : Dev) (p : Nat) : Dev :=
  d.each (d.pauseSets p) fun q d => (d.xonTest p q).xoffTest p q

/-! ### Packets and their cells -/

def Dev.pkt (d : Dev) (id : Nat) : Pkt := d.pkts.at {} id

def Dev.setPkt (d : Dev) (id : Nat) (k : Pkt) : Dev := { d with pkts := d.pkts.set {} id k }

def Dev.updPkt (d : Dev) (id : Nat) (f : Pkt → Pkt) : Dev := d.setPkt id (f (d.pkt id))

/-- A packet identifier is in use. -/
def Dev.hasPkt (d : Dev) (id : Nat) : Bool := d.pkts.any fun e => e.1 == id

/-- A new packet, and its identifier. -/
def Dev.newPkt (d : Dev) (k : Pkt) : Dev × Nat :=
  ({ d.setPkt d.nextPkt k with nextPkt := d.nextPkt + 1 }, d.nextPkt)

/-- Cells that a frame of `n` bytes, FCS included, holds (R48). -/
def cellsFor (n : Nat) : Nat := ceilDiv n 256

/-- The region buffer's occupancy, with its BUF_MAX tally (R141, R156). -/
def Dev.bufUse (d : Dev) (r : Nat) (f : Nat → Nat) : Dev :=
  let u := f (d.fld F.SCH_BUF_STAT_USED r)
  (d.setFld F.SCH_BUF_STAT_USED r 0 u).tallyMax (tlyRgn r + 0xA4) u

/-- `n` more cells for a frame (R141): counted against the region buffer and, for a port frame, against its port and priority, whose watermarks are tested. -/
def Dev.takeCells (d : Dev) (b n : Nat) : Dev :=
  let x := d.bufs.at {} b
  let d := { d with bufs := d.bufs.set {} b { x with cells := x.cells + n } }
  let d := d.bufUse x.region (· + n)
  match x.port with
  | none => d
  | some p =>
    let i := 8 * (p % 4) + x.prio
    (d.setFld F.SCH_IN_OCC_CELLS (p / 4) i (d.fld F.SCH_IN_OCC_CELLS (p / 4) i + n)).pauseTest p

/-- One packet gives up its share of a frame's cells; the last one releases them (R48), which may send XON (R53). -/
def Dev.dropRef (d : Dev) (b : Nat) : Dev :=
  let x := d.bufs.at {} b
  if 1 < x.refs then { d with bufs := d.bufs.set {} b { x with refs := x.refs - 1 } }
  else
    let d := { d with bufs := d.bufs.set {} b {} }
    let d := d.setFld F.SCH_BUF_STAT_USED x.region 0 (d.fld F.SCH_BUF_STAT_USED x.region - x.cells)
    match x.port with
    | none => d
    | some p =>
      let i := 8 * (p % 4) + x.prio
      (d.setFld F.SCH_IN_OCC_CELLS (p / 4) i (d.fld F.SCH_IN_OCC_CELLS (p / 4) i - x.cells)).pauseTest p

/-- A packet no longer has a deferred lookup to repeat; a fetch ends with its last one (R374). -/
def Dev.leaveFetch (d : Dev) (id : Nat) : Dev :=
  if d.fetches.isEmpty then d
  else
    let l := d.fetches.map fun (f : Fetch) => { f with waiting := f.waiting.erase id, members := f.members.erase id }
    { d with fetches := l.filter fun (f : Fetch) => !(f.arrived && f.members.isEmpty) }

/-- A packet leaves the device or is discarded: it is forgotten and its cells are released. -/
def Dev.freePkt (d : Dev) (id : Nat) : Dev :=
  let b := (d.pkt id).buf
  (({ d with pkts := Sparse.erase d.pkts id }).leaveFetch id).dropRef b

/-- A packet that shares the cells of another (R48). -/
def Dev.shareCells (d : Dev) (b : Nat) : Dev :=
  { d with bufs := d.bufs.upd {} b fun x => { x with refs := x.refs + 1 } }

/-- A packet appended to one of the lists of waiting packets, its time of joining noted. -/
def Dev.joinInput (d : Dev) (id r src : Nat) : Dev :=
  let d := d.updPkt id fun k => { k with place := .input src, region := r, since := d.clk.now }
  { d with inputQ := d.inputQ.upd [] (4 * r + src) (· ++ [id]) }

/-- Packets waiting for a slot from one source of a region. -/
def Dev.waiting (d : Dev) (r src : Nat) : List Nat := d.inputQ.at [] (4 * r + src)

/-- Bytes of a frame from destination address to FCS. -/
def Pkt.frameLen (k : Pkt) : Nat := k.bytes.length + 4

end Sys2Proof.Machine
end

