-- ==== Sys2Proof/Machine/Ports.lean ====
section
/-! DEFINITION. Ports: the lane map, link bring-up and its state machine (R42 to R47, R139, R493). -/

namespace Sys2Proof.Machine

open Sys2Proof

/-! ### Allowed configurations (R43, R46) -/

/-- FEC choices of R43 for a width and a lane-rate code: 0 RS(544,514), 1 none, 2 BASE-R, 3 RS(528,514); none where R43 does not list the combination. -/
def fecsOf (width rate : Nat) : List Nat :=
  match width, rate with
  | 1, 1 => [1, 2]
  | 1, 2 => [1, 2, 3]
  | 1, 3 => [0]
  | 1, 4 => [0]
  | 1, 5 => [0]
  | 2, 3 => [0]
  | 2, 4 => [0]
  | 2, 5 => [0]
  | 4, 2 => [1, 3]
  | 4, 3 => [0]
  | 4, 4 => [0]
  | 4, 5 => [0]
  | 8, 3 => [0]
  | 8, 4 => [0]
  | 8, 5 => [0]
  | _, _ => []

/-- Lane-rate codes that R43 lists for a width, highest first. -/
def ratesOf (width : Nat) : List Nat := [5, 4, 3, 2, 1].filter fun r => fecsOf width r != []

/-- The configuration is allowed (R46). -/
def cfgAllowed (width rate fec : Nat) : Bool :=
  (rate == 0 || (ratesOf width).contains rate) &&
  (fec == 0 || ((if rate = 0 then ratesOf width else [rate]).any fun r => (fecsOf width r).contains fec))

/-- Trial rates of a FORCED port: those of R43 for its width, highest first, or LANE_RATE alone. -/
def Dev.trialRates (d : Dev) (p : Nat) : List Nat :=
  let r := d.fld F.MAC_PORT_CFG_LANE_RATE p
  if r = 0 then ratesOf (d.portWidth p) else [r]

/-- The FEC in use in FORCED at a rate: the FEC chosen where R43 allows it, otherwise the default of R46. -/
def forcedFec (width rate fec : Nat) : Nat :=
  if fec ≠ 0 ∧ (fecsOf width rate).contains fec then fec
  else match rate with
    | 1 => 1
    | 2 => 3
    | _ => 0

/-! ### States (R46) -/

def Dev.portState (d : Dev) (p : Nat) : Nat := d.fld F.MAC_PORT_STAT_STATE p

/-- A state entered: 0 DISABLED, 1 AN, 2 TRAIN, 3 FORCED, 4 UP. -/
def Dev.enterState (d : Dev) (p st rate fec : Nat) : Dev :=
  let d := d.setFld F.MAC_PORT_STAT_STATE p 0 st
  let d := d.setFld F.MAC_PORT_STAT_UP p 0 (natOf (st == 4))
  let d := d.setFld F.MAC_PORT_STAT_LANE_RATE p 0 rate
  let d := d.setFld F.MAC_PORT_STAT_FEC p 0 fec
  d.updPort p fun s => { s with held := false }

/-- A forced trial starts at a rate; its 500 ms run from here. -/
def Dev.startTrial (d : Dev) (p rate : Nat) : Dev :=
  let d := d.enterState p 3 rate (forcedFec (d.portWidth p) rate (d.fld F.MAC_PORT_CFG_FEC p))
  d.updPort p fun s => { s with trialFrom := d.clk.now }

/-- The first forced trial. -/
def Dev.firstTrial (d : Dev) (p : Nat) : Dev := d.startTrial p ((d.trialRates p).headD 0)

/-- The DISABLED rows of R46 under the settings in force. With EN = 0 no row applies and CFGERR stays as it is: DESIGN CHOICE, entry 210. -/
def Dev.evalDisabled (d : Dev) (p : Nat) : Dev :=
  let w := d.portWidth p
  if ¬ d.released ∨ ¬ d.flag F.MAC_PORT_CFG_EN p then d
  else if ¬ cfgAllowed w (d.fld F.MAC_PORT_CFG_LANE_RATE p) (d.fld F.MAC_PORT_CFG_FEC p) then
    d.setFld F.MAC_PORT_STAT_CFGERR p 0 1
  else
    let d := d.setFld F.MAC_PORT_STAT_CFGERR p 0 0
    if d.flag F.MAC_PORT_CFG_AN_EN p then d.enterState p 1 0 0 else d.firstTrial p

/-- The port goes UP: PORT_UP is raised and the watermarks are tested afresh (R46, R47, R493). -/
def Dev.goUp (d : Dev) (p : Nat) : Dev :=
  let d := d.enterState p 4 (d.fld F.MAC_PORT_STAT_LANE_RATE p) (d.fld F.MAC_PORT_STAT_FEC p)
  (d.chipEvent 1 p).pauseTest p

/-- PORT_PAUSE_CLEAR (R493): every pause state of the port is cleared. -/
def Dev.clearPause (d : Dev) (p : Nat) : Dev :=
  let d := d.each (List.range 8) fun q d =>
    let d := ((d.settleHold p q).endHold p q d.clk.now).deassertXoff p q false
    d.updPause p q fun _ => {}
  (d.updPort p fun s => { s with control := [] }).showPause p

/-- A frame queued for a port that leaves UP, or arriving for a port that is not UP, is discarded and counted in PORT_DOWN_DROP (R139). -/
def Dev.downDrop (d : Dev) (id : Nat) : Dev := (d.bump .SCH_CNT ((d.pkt id).outPort / 4) 3).freePkt id

/-- The frames queued for a port are discarded in queue order (R139). -/
def Dev.flushPort (d : Dev) (p : Nat) : Dev :=
  d.each d.egressQ fun e d =>
    let gone := e.2.filter fun id => (d.pkt id).outPort == p
    let bytes := (gone.map fun id => (d.pkt id).frameLen).sum
    let r := e.1 / 16384
    let q := e.1 % 16384
    if gone.isEmpty then d
    else
      let d := { d with egressQ := d.egressQ.set [] e.1 (e.2.filter fun id => !gone.contains id) }
      let d := d.setFld F.SCH_QDEPTH_BYTES r q (d.fld F.SCH_QDEPTH_BYTES r q - bytes)
      d.each gone fun id d => d.downDrop id

/-- A reception cut short by a loss of link counts as a frame with a bad FCS (R492). -/
def Dev.cutReception (d : Dev) (p : Nat) : Dev :=
  match d.rx.at none p with
  | none => d
  | some x =>
    let d := { d with rx := d.rx.set none p none }
    if x.dead then d
    else (d.portDrop p (if x.bytes.length < 64 then 6 else 4)).freePkt x.pkt

/-- A port that is UP leaves it (R46, R47, R139, R493): PORT_DOWN is raised and LINK_DOWN counted, its pause state is cleared, the frame being received is cut short and the frames queued for it are discarded. -/
def Dev.leaveUp (d : Dev) (p : Nat) : Dev :=
  if d.portUp p then
    let d := (d.chipEvent 2 p).portCount p 53
    let d := d.setFld F.MAC_PORT_STAT_UP p 0 0
    let d := (d.clearPause p).cutReception p
    let d := match (d.port p).txPkt with
      | some id => (d.freePkt id).updPort p fun s => { s with txPkt := none, wireBusy := d.clk.now }
      | none => d
    d.flushPort p
  else d

/-- The port goes to DISABLED (R46). -/
def Dev.toDisabled (d : Dev) (p : Nat) : Dev := (d.leaveUp p).enterState p 0 0 0

/-- The port restarts: auto-negotiation if AN_EN = 1, otherwise FORCED. -/
def Dev.restartPort (d : Dev) (p : Nat) : Dev :=
  if d.flag F.MAC_PORT_CFG_AN_EN p then d.enterState p 1 0 0 else d.firstTrial p

/-- The next lower trial rate; after the lowest, AN if AN_EN = 1, otherwise the highest rate again (R46). -/
def Dev.nextTrial (d : Dev) (p : Nat) : Dev :=
  let cur := d.fld F.MAC_PORT_STAT_LANE_RATE p
  match (d.trialRates p).find? fun r => decide (r < cur) with
  | some r => d.startTrial p r
  | none => d.restartPort p

/-! ### Register effects -/

/-- MAC_PORT_CFG (R46, R489): MAX_LEN in 64 to 16,383 and LANE_RATE in 0 to 5; then EN = 0 takes the port to DISABLED, and a change of EN, AN_EN, FEC or LANE_RATE re-evaluates the DISABLED rows. -/
def portCfgEffect (k : RegKey) (w : Write) (d : Dev) : Dev :=
  let v := d.wouldBe k w.value
  let old := d.word k
  let p := k.n
  if F.MAC_PORT_CFG_MAX_LEN.ofWord v < 64 ∨ 5 < F.MAC_PORT_CFG_LANE_RATE.ofWord v then d
  else
    let d := d.setWord k v
    if v.toNat / 2 ^ 24 = old.toNat / 2 ^ 24 then d
    else
      let d := d.toDisabled p
      d.evalDisabled p

/-- MEMBER bits of MAC_PORT_STAT: the lane belongs to a port that starts at a lower lane. -/
def Dev.showMembers (d : Dev) : Dev :=
  d.each (List.range 16) fun l d => d.setFld F.MAC_PORT_STAT_MEMBER l 0 (natOf (!d.isPort l))

/-- MAC_LANE_MAP (R45): an invalid map is discarded with BADMAP; otherwise the ports whose lanes change go to DISABLED and restart under the new map, and the others are not disturbed. -/
def laneMapEffect (k : RegKey) (w : Write) (d : Dev) : Dev :=
  let old := d.laneMap
  let new := w.value.toNat
  if ¬ mapValid new then d.setChip F.MAC_LANE_STAT_BADMAP 1
  else
    let changed (l : Nat) : Bool := laneCode old l != laneCode new l || portIn old l != portIn new l
    let olds := (List.range 16).filter fun p => portIn old p == p &&
      (List.range (widthOf (laneCode old p))).any fun j => changed (p + j)
    let d := d.each olds fun p d => d.toDisabled p
    let d := (d.setWord k w.value).showMembers
    let news := (List.range 16).filter fun p => portIn new p == p &&
      (List.range (widthOf (laneCode new p))).any fun j => changed (p + j)
    d.each news fun p d => d.evalDisabled p

/-! ### Commands -/

/-- LANE_MAP_WRITE (R45). -/
def execLaneMapWrite (ws : List Write) (s : State) : Out := s.on fun d =>
  d.writeReg ⟨.MAC_LANE_MAP, 0, 0, 0⟩ ws laneMapEffect

/-- A write of MAC_PORT_CFG; the sets of covered lanes hold no such register, so nothing is written there (R484). -/
def Dev.writePortCfg (d : Dev) (lane : Nat) (ws : List Write) : Dev :=
  d.onlyIf (d.isPort lane) fun d => d.writeReg ⟨.MAC_PORT_CFG, lane, 0, 0⟩ ws portCfgEffect

/-- PORT_ENABLE (R46). -/
def execPortEnable (lane : Fin 16) (ws : List Write) (s : State) : Out := s.on fun d => d.writePortCfg lane.val ws

/-- PORT_DISABLE (R46). -/
def execPortDisable (lane : Fin 16) (ws : List Write) (s : State) : Out := s.on fun d => d.writePortCfg lane.val ws

/-- PORT_CFG_CHANGE (R46). -/
def execPortCfgChange (lane : Fin 16) (ws : List Write) (s : State) : Out := s.on fun d => d.writePortCfg lane.val ws

/-- What a port advertises (R46): the combinations of R43, as lane rate and FEC, that fit its width and its LANE_RATE and FEC fields; a non-zero FEC alone wherever R43 allows a choice. -/
def Dev.advertised (d : Dev) (p : Nat) : List (Nat × Nat) :=
  let w := d.portWidth p
  let rate := d.fld F.MAC_PORT_CFG_LANE_RATE p
  let fec := d.fld F.MAC_PORT_CFG_FEC p
  ((ratesOf w).filter fun r => rate == 0 || r == rate).flatMap fun r =>
    ((fecsOf w r).filter fun f => fec == 0 || f == fec || (fecsOf w r).length == 1).map fun f => (r, f)

/-- The combination that Clause 73 resolves (R46): the highest speed that both advertise, and of the FECs that both advertise there (`fecs`, each with the speed that it is advertised for) RS-FEC before BASE-R before none. PRESUMED (IEEE 802.3) for the order of FECs, entry 192. -/
def Dev.resolveMode (d : Dev) (p : Nat) (rates : List Nat) (fecs : List (Nat × Nat)) : Option (Nat × Nat) :=
  let both := (d.advertised p).filter fun e => rates.contains e.1 && fecs.contains e
  match [5, 4, 3, 2, 1].find? fun r => both.any fun e => e.1 == r with
  | none => none
  | some r => ([0, 3, 2, 1].find? fun f => both.contains (r, f)).map fun f => (r, f)

/-- AN_RESOLVED (R46): base pages are exchanged; the highest common mode of what the port and its partner advertise is resolved and link training starts. -/
def execAnResolved (port : Fin 16) (rates : List (Fin 6)) (fecs : List (Fin 6 × Fin 4)) (s : State) : Out := s.on fun d =>
  let p := port.val
  d.onlyIf (d.portState p == 1) fun d =>
    match d.resolveMode p (rates.map Fin.val) (fecs.map fun e => (e.1.val, e.2.val)) with
    | some (rate, fec) => d.enterState p 2 rate fec
    | none => d

/-- AN_NO_COMMON_MODE (R46): auto-negotiation restarts. -/
def execAnNoCommonMode (port : Fin 16) (s : State) : Out := s.on fun d =>
  d.onlyIf (d.portState port.val == 1) fun d => d.enterState port.val 1 0 0

/-- AN_BASE_PAGE_TIMEOUT (R46): no base page for 500 ms; the first trial rate is set. -/
def execAnBasePageTimeout (port : Fin 16) (s : State) : Out := s.on fun d =>
  d.onlyIf (d.portState port.val == 1) fun d => d.firstTrial port.val

/-- TRAINING_COMPLETE (R46): UP, or TRAIN (held) while remote fault is received. -/
def execTrainingComplete (port : Fin 16) (s : State) : Out := s.on fun d =>
  let p := port.val
  d.onlyIf (d.portState p == 2 && !(d.port p).held) fun d =>
    if (d.port p).remoteFault then d.updPort p fun s => { s with held := true } else d.goUp p

/-- TRAINING_FAIL (R46): training fails or its wait timer expires; auto-negotiation restarts. -/
def execTrainingFail (port : Fin 16) (s : State) : Out := s.on fun d =>
  d.onlyIf (d.portState port.val == 2) fun d => d.enterState port.val 1 0 0

/-- TRIAL_ALIGNED (R46): alignment within 500 ms of the trial start; UP, or FORCED (held) while remote fault is received. -/
def execTrialAligned (port : Fin 16) (s : State) : Out := s.on fun d =>
  let p := port.val
  d.onlyIf (d.portState p == 3 && !(d.port p).held && decide (d.clk.now ≤ (d.port p).trialFrom + cyclesOfMs 500)) fun d =>
    if (d.port p).remoteFault then d.updPort p fun s => { s with held := true } else d.goUp p

/-- TRIAL_TIMEOUT (R46): 500 ms after the trial start without alignment. -/
def execTrialTimeout (port : Fin 16) (s : State) : Out := s.on fun d =>
  let p := port.val
  d.onlyIf (d.portState p == 3 && !(d.port p).held) fun d =>
    (d.advanceTo ((d.port p).trialFrom + cyclesOfMs 500)).nextTrial p

/-- PCS_ALIGNMENT_LOSS (R46): any lane's loss of signal, block lock or alignment is the port's. -/
def execPcsAlignmentLoss (port : Fin 16) (s : State) : Out := s.on fun d =>
  let p := port.val
  match d.portState p with
  | 4 => (d.leaveUp p).restartPort p
  | 2 => d.enterState p 1 0 0
  | 3 => if (d.port p).held then d.nextTrial p else d
  | _ => d

/-- REMOTE_FAULT_RECEIVED (R46): a port that is UP leaves it and restarts at once. -/
def execRemoteFaultReceived (port : Fin 16) (s : State) : Out := s.on fun d =>
  let p := port.val
  let d := d.updPort p fun s => { s with remoteFault := true }
  if d.portUp p then (d.leaveUp p).restartPort p else d

/-- REMOTE_FAULT_CLEARED (R46): a held port goes UP. -/
def execRemoteFaultCleared (port : Fin 16) (s : State) : Out := s.on fun d =>
  let p := port.val
  let d := d.updPort p fun s => { s with remoteFault := false }
  if (d.port p).held then d.goUp p else d

end Sys2Proof.Machine
end

