-- ==== Sys2Proof/Machine/PauseFrames.lean ====
section
/-! DEFINITION. PAUSE and PFC: control frames sent and received, refreshes, holds and the pause watchdog (R50 to R61). -/

namespace Sys2Proof.Machine

open Sys2Proof

/-! ### Control frames (R54, R57) -/

/-- The header of a control frame from a port: destination 01-80-C2-00-00-01, the port's address, Length/Type 0x8808 and the operation code (R54). -/
def Dev.controlHead (d : Dev) (p opcode : Nat) : List Byte :=
  beBytes 6 0x0180C2000001 ++ beBytes 6 (d.board.baseMac + p) ++ beBytes 2 0x8808 ++ beBytes 2 opcode

/-- A control frame padded to 60 bytes, with its FCS. -/
def padControl (bs : List Byte) : List Byte :=
  let b := bs ++ List.replicate (60 - bs.length) 0
  b ++ fcsOf b

/-- A PAUSE frame with a time in quanta. -/
def Dev.pauseFrame (d : Dev) (p time : Nat) : List Byte := padControl (d.controlHead p 1 ++ beBytes 2 time)

/-- A PFC frame naming priorities, each with its time in quanta. -/
def Dev.pfcFrame (d : Dev) (p : Nat) (times : List (Nat × Nat)) : List Byte :=
  let vec := (times.map fun t => 2 ^ t.1).sum
  padControl (d.controlHead p 0x101 ++ beBytes 2 vec ++
    ((List.range 8).map fun q => beBytes 2 ((times.lookup q).getD 0)).flatten)

/-- The time that a due pause carries: QUANTA for XOFF or a refresh, 0 for XON. -/
def Dev.dueTime (d : Dev) (p : Nat) (xoff : Bool) : Nat := if xoff then d.fld F.MAC_PAUSE_QUANTA_QUANTA p else 0

/-- Priorities of a port with a pause due, and their times. -/
def Dev.dueList (d : Dev) (p : Nat) : List (Nat × Nat) :=
  (List.range 8).filterMap fun q => (d.pauseOf p q).due.map fun x => (q, d.dueTime p x)

/-- The control frame that carries every due pause in the format of a flow-control mode, if any is due. -/
def Dev.dueFrame (d : Dev) (p mode : Nat) : Option (List Byte) :=
  match d.dueList p, mode with
  | [], _ => none
  | (_, t) :: _, 1 => some (d.pauseFrame p t)
  | l, _ => some (d.pfcFrame p l)

/-- Every due pause of a port is carried by the frame that starts. -/
def Dev.clearDue (d : Dev) (p : Nat) : Dev :=
  d.each (List.range 8) fun q d => d.updPause p q fun s => { s with due := none }

/-- A control frame starts on the wire: it is sent ahead of data, subject to no gate or kerf, and counted (R54, R72). -/
def Dev.sendControl (d : Dev) (p : Nat) (f : List Byte) : Dev :=
  let d := d.emit (.frame p f)
  let d := d.updPort p fun s => { s with wireBusy := d.clk.now + cyclesOfBits ((f.length + 20) * 8) (d.portSpeed p) }
  let d := ((d.portCount p 2 f.length).portCount p 3).portCount p 13
  let d := (d.tally (tlyPort p + 0x08) f.length).tally (tlyPort p + 0x18) 1
  if beVal (sliceB f 14 2) = 1 then d.portCount p 22
  else
    let vec := beVal (sliceB f 16 2)
    d.each ((List.range 8).filter fun q => bitOf vec q) fun q d => d.portCount p (31 + q)

/-- PAUSE_FRAME_SEND (R54): at a frame boundary of a port that is UP, a control frame built earlier in an old mode, or one frame with every due priority. -/
def execPauseFrameSend (port : Fin 16) (s : State) : Out := s.on fun d =>
  let p := port.val
  d.onlyIf (d.portUp p && !d.mute && (d.port p).txPkt.isNone) fun d =>
    match (d.port p).control with
    | f :: t =>
      let d := d.advanceTo (d.port p).wireBusy
      (d.updPort p fun s => { s with control := t }).sendControl p f
    | [] =>
      match d.dueFrame p (d.pfcMode p) with
      | none => d
      | some _ =>
        let d := d.advanceTo (d.port p).wireBusy
        match d.dueFrame p (d.pfcMode p) with
        | none => d
        | some f => (d.clearDue p).sendControl p f

/-- PAUSE_REFRESH (R52): on its fixed grid, while XOFF stays asserted and occupancy stays above the low watermark. -/
def execPauseRefresh (port : Fin 16) (prio : Fin 8) (s : State) : Out := s.on fun d =>
  let p := port.val
  let q := prio.val
  d.onlyIf (d.pauseOf p q).xoff fun d =>
    let d := d.advanceTo (d.pauseOf p q).refreshAt
    let above := decide (d.fld F.MAC_PAUSE_LWM_CELLS p q < d.pauseOcc p q)
    d.updPause p q fun s =>
      { s with refreshAt := s.refreshAt + d.refreshCycles p, due := if above then some true else s.due }

/-! ### Register effects -/

/-- MAC_PFC_CFG (R50, R51): MODE 3 is discarded. A change of MODE sends XON in the old format for every asserted priority, ends every hold (an XON that already waits among them), and tests the watermarks afresh; clearing a TX_EN bit while XOFF is asserted sends XON; setting one tests at once. -/
def pfcCfgEffect (k : RegKey) (w : Write) (d : Dev) : Dev :=
  let v := d.wouldBe k w.value
  let p := k.n
  let oldMode := d.pfcMode p
  if F.MAC_PFC_CFG_MODE.ofWord v = 3 then d
  else if F.MAC_PFC_CFG_MODE.ofWord v = oldMode then
    let d := d.setWord k v
    let d := d.each (d.pauseSets p) fun q d =>
      if (d.pauseOf p q).xoff ∧ ¬ bitOf (d.fld F.MAC_PFC_CFG_TX_EN p) q then d.deassertXoff p q true else d
    d.pauseTest p
  else
    let d := d.each (d.pauseSets p) fun q d => d.deassertXoff p q true
    let d := match d.dueFrame p oldMode with
      | some f => (d.clearDue p).updPort p fun s => { s with control := s.control ++ [f] }
      | none => d
    let d := d.each (List.range 8) fun q d => (d.settleHold p q).endHold p q d.clk.now
    (d.setWord k v).pauseTest p

/-- MAC_PAUSE_HWM and MAC_PAUSE_LWM (R51, R53): the low watermark is written below the high one alone, while a high one is written freely (DESIGN CHOICE, entry 211); the watermarks are then tested. -/
def watermarkEffect (k : RegKey) (w : Write) (d : Dev) : Dev :=
  let v := d.wouldBe k w.value
  if k.reg = Reg.MAC_PAUSE_LWM ∧ d.fld F.MAC_PAUSE_HWM_CELLS k.n k.i ≤ F.MAC_PAUSE_LWM_CELLS.ofWord v then d
  else (d.setWord k v).pauseTest k.n

/-- MAC_WD_CFG (R59, R61, R489): both times in 1 to 10,000 ms. Clearing EN ends storm state and all timing; setting it starts the timing of running stretches; a new TWD_MS that has passed is entry to storm state if the hold is running. -/
def wdCfgEffect (k : RegKey) (w : Write) (d : Dev) : Dev :=
  let v := d.wouldBe k w.value
  let p := k.n
  let ok (x : Nat) : Bool := decide (1 ≤ x ∧ x ≤ 10000)
  if ¬ (ok (F.MAC_WD_CFG_TREC_MS.ofWord v) ∧ ok (F.MAC_WD_CFG_TWD_MS.ofWord v)) then d
  else
    let was := d.flag F.MAC_WD_CFG_EN p
    let d := d.setWord k v
    let now := d.clk.now
    if ¬ d.flag F.MAC_WD_CFG_EN p then
      d.each (List.range 8) fun q d => (d.updPause p q fun s => { s with timed := none }).leaveStorm p q
    else
      d.each (List.range 8) fun q d =>
        let d := d.settleHold p q
        let d := if ¬ was ∧ (d.pauseOf p q).stretch then d.updPause p q fun s => { s with timed := some now } else d
        (d.stormTest p q).stormExit p q

/-! ### Commands -/

/-- PFC_MODE_CHANGE (R50). -/
def execPfcModeChange (port : Fin 16) (ws : List Write) (s : State) : Out := s.on fun d =>
  d.onlyIf (d.isPort port.val) fun d => d.writeReg ⟨.MAC_PFC_CFG, port.val, 0, 0⟩ ws pfcCfgEffect

/-- PFC_TX_EN_CHANGE (R51). -/
def execPfcTxEnChange (port : Fin 16) (ws : List Write) (s : State) : Out := s.on fun d =>
  d.onlyIf (d.isPort port.val) fun d => d.writeReg ⟨.MAC_PFC_CFG, port.val, 0, 0⟩ ws pfcCfgEffect

/-- PAUSE_WATERMARK_WRITE (R51, R53). -/
def execPauseWatermarkWrite (port : Fin 16) (prio : Fin 8) (high : Bool) (ws : List Write) (s : State) : Out := s.on fun d =>
  d.onlyIf (d.isPort port.val) fun d =>
    d.writeReg ⟨if high then .MAC_PAUSE_HWM else .MAC_PAUSE_LWM, port.val, prio.val, 0⟩ ws watermarkEffect

/-- WATCHDOG_CFG_WRITE (R59, R61). -/
def execWatchdogCfgWrite (port : Fin 16) (ws : List Write) (s : State) : Out := s.on fun d =>
  d.onlyIf (d.isPort port.val) fun d => d.writeReg ⟨.MAC_WD_CFG, port.val, 0, 0⟩ ws wdCfgEffect

/-- WATCHDOG_DISABLE (R61). -/
def execWatchdogDisable (port : Fin 16) (ws : List Write) (s : State) : Out := s.on fun d =>
  d.onlyIf (d.isPort port.val) fun d => d.writeReg ⟨.MAC_WD_CFG, port.val, 0, 0⟩ ws wdCfgEffect

/-- Priorities that a good control frame names and the port's RX_EN accepts, each with its time in quanta; none when the frame is ignored (R55, R57). In PAUSE mode RX_EN bit 0 alone decides, and the hold applies to every class. -/
def Dev.pauseNamed (d : Dev) (p : Nat) (f : List Byte) : List (Nat × Nat) :=
  let op := beVal (sliceB f 14 2)
  let en := d.fld F.MAC_PFC_CFG_RX_EN p
  if op = 1 ∧ d.pfcMode p = 1 ∧ bitOf en 0 then (List.range 8).map fun q => (q, beVal (sliceB f 16 2))
  else if op = 0x101 ∧ d.pfcMode p = 2 then
    ((List.range 8).filter fun q => bitOf (beVal (sliceB f 16 2)) q && bitOf en q).map fun q => (q, beVal (sliceB f (18 + 2 * q) 2))
  else []

/-- The counters of a good frame received (R72, R73): octets and frames, address kind and size bin. -/
def Dev.countGoodRx (d : Dev) (p : Nat) (f : List Byte) : Dev :=
  let n := f.length
  let d := (d.portCount p 0 n).portCount p 1
  let d := (d.tally (tlyPort p) n).tally (tlyPort p + 0x10) 1
  let d := if beVal (sliceB f 0 6) = 2 ^ 48 - 1 then d.portCount p 10
    else if bitOf (f.headD 0).toNat 0 then d.portCount p 11 else d
  d.portCount p (if n ≤ 64 then 14 else if n ≤ 127 then 15 else if n ≤ 255 then 16 else if n ≤ 511 then 17
    else if n ≤ 1023 then 18 else if n ≤ 1518 then 19 else 20)

/-- CONTROL_FRAME_RECEIVE (R55 to R57, R60, R72): a frame whose Length/Type is 0x8808, FCS included. A bad FCS is an FCS error; a good frame that is not obeyed counts in RX_CTRL_DISCARD, which is none of the discarding counters of R492. DESIGN CHOICE, entry 193. -/
def execControlFrameReceive (port : Fin 16) (frame : List Byte) (s : State) : Out := s.on fun d =>
  let p := port.val
  d.onlyIf (d.portUp p && beVal (sliceB frame 12 2) == 0x8808) fun d =>
    if d.passive then d.standbyDrop
    else if d.fld F.MAC_PORT_CFG_MAX_LEN p < frame.length then d.portDrop p (if fcsGood frame then 7 else 8)
    else if ¬ fcsGood frame then d.portDrop p (if frame.length < 64 then 6 else 4)
    else if frame.length < 64 then d.portDrop p 5
    else
      let op := beVal (sliceB frame 14 2)
      let d := d.countGoodRx p frame
      let d := d.onlyIf (op == 1) fun d => d.portCount p 21
      let d := d.onlyIf (op == 0x101) fun d =>
        d.each ((List.range 8).filter fun q => bitOf (beVal (sliceB frame 16 2)) q) fun q d => d.portCount p (23 + q)
      match d.pauseNamed p frame with
      | [] => d.portCount p 39
      | l => d.each l fun t d =>
          if t.2 = 0 then d.releaseHold p t.1 else d.startHold p t.1 (cyclesOfBits (t.2 * 512) (d.portSpeed p))

/-- PAUSE_HOLD_EXPIRY (R55): the hold's time runs out. -/
def execPauseHoldExpiry (port : Fin 16) (prio : Fin 8) (s : State) : Out := s.on fun d =>
  match (d.pauseOf port.val prio.val).hold with
  | none => d
  | some e => (d.advanceTo e).endHold port.val prio.val e

/-- PAUSE_GAP_EXPIRY (R59): a gap of 1 µs ends the stretch and its timing. -/
def execPauseGapExpiry (port : Fin 16) (prio : Fin 8) (s : State) : Out := s.on fun d =>
  match (d.pauseOf port.val prio.val).gap with
  | none => d
  | some g => (d.advanceTo (g + 1650)).updPause port.val prio.val fun s => { s with stretch := false, timed := none, gap := none }

/-- STORM_STATE_ENTRY (R59, R60): the timed duration reaches T_wd while the hold is running. -/
def execStormStateEntry (port : Fin 16) (prio : Fin 8) (s : State) : Out := s.on fun d =>
  let p := port.val
  let q := prio.val
  match (d.pauseOf p q).hold, (d.pauseOf p q).timed with
  | some e, some t => if max (t + d.twd p) d.clk.now < e then (d.advanceTo (t + d.twd p)).enterStorm p q else d
  | _, _ => d

/-- STORM_STATE_EXIT (R61): T_rec after the later of entry and the last non-zero pause received since. -/
def execStormStateExit (port : Fin 16) (prio : Fin 8) (s : State) : Out := s.on fun d =>
  let st := d.pauseOf port.val prio.val
  d.onlyIf st.storm fun d => (d.advanceTo (st.stormRef + d.trec port.val)).leaveStorm port.val prio.val

end Sys2Proof.Machine
end

