-- ==== Sys2Proof/Machine/Ingress.lean ====
section
/-! DEFINITION. Frames arriving on a port up to their last cell, and the input arbiter of a pipeline (R44, R48, R49, R78, R79, R142). -/

namespace Sys2Proof.Machine

open Sys2Proof

/-! ### Ingress settings (R44, R49) -/

/-- A VLAN tag stands directly after the source address. -/
def tagged (h : List Byte) : Bool := let t := beVal (sliceB h 12 2); t == 0x8100 || t == 0x88A8

/-- Offset of the EtherType after at most one VLAN tag. -/
def typeOff (h : List Byte) : Nat := if tagged h then 16 else 12

/-- The DSCP of an IPv4 or IPv6 header that follows the Ethernet header or one VLAN tag. -/
def dscpOf (h : List Byte) : Option Nat :=
  let o := typeOff h
  let t := beVal (sliceB h o 2)
  if t = 0x0800 then some ((h.getD (o + 3) 0).toNat / 4)
  else if t = 0x86DD then some (beVal (sliceB h (o + 2) 2) / 64 % 64)
  else none

/-- The ingress priority of a frame by its first bytes (R49). -/
def Dev.ingressPrio (d : Dev) (p : Nat) (h : List Byte) : Nat :=
  let defp := d.fld F.MAC_ING_CFG_DEFP p
  let pcp := (h.getD 14 0).toNat / 32
  let byDscp := match dscpOf h with
    | some x => bitsOf (d.fld F.MAC_DSCP_MAP_PRIO p (x / 8)) (3 * (x % 8) + 2) (3 * (x % 8))
    | none => defp
  match d.fld F.MAC_ING_CFG_PMODE p with
  | 0 => defp
  | 1 => if tagged h then pcp else defp
  | 2 => byDscp
  | _ => if tagged h then pcp else byDscp

/-- The hash that divides an 8-lane port's frames between two pipelines (R44). -/
def spreadHash (h : List Byte) : Nat :=
  let o := typeOff h
  let t := beVal (sliceB h o 2)
  let addrs := if t = 0x0800 then sliceB h (o + 14) 8 else if t = 0x86DD then sliceB h (o + 10) 32 else []
  crc32c 0 (sliceB h 0 12 ++ addrs)

/-- FRAME_RECEIVE_START (R49, R44, R70): the first bytes of a frame on a port that is UP fix its priority, bridge domain, tenant and pipeline; its timestamp is taken. MAC control frames have a row of their own. -/
def execFrameReceiveStart (port : Fin 16) (head : List Byte) (s : State) : Out := s.on fun d =>
  let p := port.val
  d.onlyIf (d.portUp p && (d.rx.at none p).isNone && beVal (sliceB head 12 2) != 0x8808) fun d =>
    if d.passive then d.standbyDrop
    else
    let r := p / 4 + (if d.portWidth p = 8 then spreadHash head % 2 else 0)
    let prio := d.ingressPrio p head
    let k : Pkt := { region := r, buf := d.nextPkt, source := p, prio := prio, rxNs := d.ptpNs
                     bd := d.fld F.MAC_ING_CFG_DEF_BD p, tenant := d.fld F.MAC_ING_CFG_DEF_TENANT p }
    let (d, id) := d.newPkt k
    { d with bufs := d.bufs.set {} id { port := some p, prio := prio, region := r, refs := 1 }
             rx := d.rx.set none p (some { pkt := id }) }

/-- A frame refused a cell or a slot is discarded whole and counted in RX_BUF_DROP in that cycle (R142, R492). -/
def Dev.refuseRx (d : Dev) (p : Nat) (x : Rx) : Dev :=
  let d := (d.portDrop p 52).freePkt x.pkt
  { d with rx := d.rx.set none p (some { x with dead := true }) }

/-- CELL_ARRIVAL (R142, R48, R51, R492): at most 256 bytes of the frame being received. Past MAX_LEN a frame takes no further cells; a cell beyond the ingress limit or the region buffer, or a frame of an 8-lane port beyond its pipeline's slots (R44), is refused. -/
def execCellArrival (port : Fin 16) (data : List Byte) (noSlot : Bool) (s : State) : Out := s.on fun d =>
  let p := port.val
  match d.rx.at none p with
  | none => d
  | some x =>
    if x.dead then d
    else
      let k := d.pkt x.pkt
      let bytes := x.bytes ++ data.take 256
      let x' : Rx := { x with bytes := bytes }
      if d.fld F.MAC_PORT_CFG_MAX_LEN p ≤ x.bytes.length then { d with rx := d.rx.set none p (some x') }
      else if (noSlot ∧ d.portWidth p = 8) ∨ d.fld F.SCH_IN_LIMIT_CELLS (p / 4) (8 * (p % 4) + k.prio) ≤ d.occ p k.prio ∨
          65536 ≤ d.fld F.SCH_BUF_STAT_USED k.region then d.refuseRx p x
      else ({ d with rx := d.rx.set none p (some x') }).takeCells x.pkt 1

/-! ### The input arbiter (R78, R79) -/

/-- The weight of a source: 1 recirculation, 2 host, 3 core. -/
def Dev.arbWeight (d : Dev) (r : Nat) : Nat → Nat
  | 1 => d.fld F.CLS_ARB_WT_RECIRC r
  | 2 => d.fld F.CLS_ARB_WT_HOST r
  | _ => d.fld F.CLS_ARB_WT_CORE r

/-- The source after another in the round. -/
def nextSource (x : Nat) : Nat := if x = 3 then 1 else x + 1

/-- The source that the weighted round robin serves next, with its turn state; a source with nothing waiting gives up its turn. -/
def Dev.arbPick (d : Dev) (r : Nat) (a : Arb) : Option (Nat × Arb) :=
  let has (x : Nat) : Bool := !(d.waiting r x).isEmpty
  if has a.turn && decide (a.used < d.arbWeight r a.turn) then some (a.turn, { a with used := a.used + 1 })
  else
    let t1 := nextSource a.turn
    let t2 := nextSource t1
    let t3 := nextSource t2
    if has t1 then some (t1, { a with turn := t1, used := 1 })
    else if has t2 then some (t2, { a with turn := t2, used := 1 })
    else if has t3 then some (t3, { a with turn := t3, used := 1 })
    else none

/-- A packet waiting for recirculation is discarded for its wait (R79). -/
def Dev.recircWaitDrop (d : Dev) (r id : Nat) : Dev :=
  let d := { d with inputQ := d.inputQ.upd [] (4 * r + 1) (·.erase id) }
  (d.bump .CLS_CNT r 1).freePkt id

/-- Recirculated packets that have waited more than 10 µs are discarded before a slot is granted (R79). -/
def Dev.dropOldRecirc (d : Dev) (r : Nat) : Dev :=
  d.each ((d.waiting r 1).filter fun id => decide ((d.pkt id).since + 16500 < d.clk.now)) fun id d => d.recircWaitDrop r id

/-- The first packet waiting from a source enters the pipeline (R78, R80); a resumed packet skips the parser and the stages before RESUME (R100). -/
def Dev.grantSlot (d : Dev) (r src : Nat) : Dev :=
  match d.waiting r src with
  | [] => d
  | id :: rest =>
    let k := d.pkt id
    let d := { d with inputQ := d.inputQ.set [] (4 * r + src) rest, pipeQ := d.pipeQ.upd [] r (· ++ [id]) }
    let d := d.onlyIf (src == 1) fun d => d.tallyMax (tlyRgn r + 0x94) (nsOfCycles (d.clk.now - k.since))
    let d := d.tally (tlyRgn r + 8 * src) 1
    d.setPkt id { k with place := if k.resumed then .stage k.resume else .parser, slot := d.clk.now, since := d.clk.now,
                          recirc := src == 1, bank := d.fld F.CLS_PARSE_CTL_ACTIVE r }

/-- PIPELINE_SLOT_GRANT (R78): port ingress first, otherwise weighted round robin; one slot per cycle. -/
def execPipelineSlotGrant (region : Fin 4) (s : State) : Out := s.on fun d =>
  let r := region.val
  if bitOf (d.fld F.ERR_STAT_FENCED) r then d
  else
  let a := d.arbs.at {} r
  let d := (d.advanceTo a.next).dropOldRecirc r
  let d := { d with arbs := d.arbs.upd {} r fun a => { a with next := d.clk.now + 1 } }
  if ¬ (d.waiting r 0).isEmpty then d.grantSlot r 0
  else
    match d.arbPick r (d.arbs.at {} r) with
    | none => d
    | some (src, a) => ({ d with arbs := d.arbs.set {} r a }).grantSlot r src

/-- RECIRC_WAIT_EXPIRY (R79): the first recirculated packet has waited more than 10 µs. -/
def execRecircWaitExpiry (region : Fin 4) (s : State) : Out := s.on fun d =>
  match d.waiting region.val 1 with
  | [] => d
  | id :: _ => (d.advanceTo ((d.pkt id).since + 16501)).recircWaitDrop region.val id

/-- A packet joins the recirculation queue of a region, of 4,096 packets; one that finds it full is discarded (R79). -/
def Dev.joinRecirc (d : Dev) (id r : Nat) : Dev :=
  if 4096 ≤ (d.waiting r 1).length then (d.bump .CLS_CNT r 1).freePkt id else d.joinInput id r 1

end Sys2Proof.Machine
end

