-- ==== Sys2Proof/Machine/Parser.lean ====
section
/-! DEFINITION. The parser: parse programs, the layer stack, malformed packets and the flow hash (R82 to R89, R491). -/

namespace Sys2Proof.Machine

open Sys2Proof

/-- A byte of the packet as the parser reads it: zero beyond the frame before its FCS and beyond byte 256 (R83). -/
def pbyte (bs : List Byte) (i : Nat) : Nat := if i < 256 then (bs.getD i 0).toNat else 0

/-- A big-endian number of `n` bytes as the parser reads it. -/
def pnum (bs : List Byte) (o n : Nat) : Nat := (List.range n).foldl (fun a k => 256 * a + pbyte bs (o + k)) 0

/-- What the parser has found: layers recorded, DEEP and FRAG, malformed class. -/
structure Parsed where
  layers : List (Nat × Nat) := []
  /-- End of the first recorded layer. -/
  firstEnd : Nat := 0
  /-- End of the last recorded layer, and of the one before it. -/
  lastEnd : Nat := 0
  prevEnd : Nat := 0
  deep : Bool := false
  frag : Bool := false
  mal : Option Nat := none
  deriving DecidableEq, Repr

/-- The latest recorded layer with one of some LAYER_IDs. -/
def lastLayer (ls : List (Nat × Nat)) (ids : List Nat) : Option (Nat × Nat) := ls.reverse.find? fun l => ids.contains l.1

/-- The end of the datagram of an IP layer: its start and total length, or start, 40 and payload length (R88). -/
def datagramEnd (bs : List Byte) (l : Nat × Nat) : Nat :=
  if l.1 = 3 then l.2 + pnum bs (l.2 + 2) 2 else l.2 + 40 + pnum bs (l.2 + 4) 2

/-- The one's complement sum of 16-bit words, folded. -/
def onesSum : Nat → List Byte → Nat
  | a, x :: y :: t => onesSum (a + 256 * x.toNat + y.toNat) t
  | a, [x] => a + 256 * x.toNat
  | a, [] => a

/-- A one's complement sum folded to 16 bits. -/
def onesFold (a : Nat) : Nat :=
  let b := a / 65536 + a % 65536
  b / 65536 + b % 65536

/-- The check of malformed class `c` fails in the header at `o`, which ends at `e`, of a layer with a LAYER_ID (R88). -/
def malFails (bs : List Byte) (ls : List (Nat × Nat)) (id o e c : Nat) : Bool :=
  let n := bs.length
  let ihl := pbyte bs o % 16
  let tl := pnum bs (o + 2) 2
  match c with
  | 1 => pbyte bs o / 16 != 4
  | 2 => decide (ihl < 5)
  | 3 => onesFold (onesSum 0 ((List.range (4 * ihl)).map fun k => BitVec.ofNat 8 (pbyte bs (o + k)))) != 65535
  | 4 => decide (tl < 4 * ihl ∨ n - o < tl)
  | 5 => pbyte bs o / 16 != 6
  | 6 => decide (pnum bs (o + 4) 2 = 0 ∨ n - o < 40 + pnum bs (o + 4) 2)
  | 7 => id == 5 && (ls.getLast?.map (·.1)) != some 4
  | 8 =>
    if id = 3 then decide (65535 < 8 * (pnum bs (o + 6) 2 % 8192) + (tl - 4 * ihl))
    else if id = 6 then
      match lastLayer ls [4] with
      | some l => decide (65535 < 8 * (pnum bs (o + 2) 2 / 8) + (datagramEnd bs l - e))
      | none => false
    else false
  | 9 =>
    if id = 8 then decide (pbyte bs (o + 12) / 16 < 5)
    else if id = 9 then
      let ul := pnum bs (o + 4) 2
      decide (ul < 8) || (match lastLayer ls [3, 4] with
        | some l => decide (datagramEnd bs l - o < ul)
        | none => false)
    else false
  | 10 =>
    if id = 3 then pnum bs (o + 12) 4 == 2 ^ 32 - 1 || pbyte bs (o + 12) / 16 == 14
    else if id = 4 then pbyte bs (o + 8) == 255
    else false
  | _ => false

/-- The first transition that matches a select value, from an index on. -/
def Dev.transition (d : Dev) (r b sel : Nat) : Nat → Nat → Option Nat
  | 0, _ => none
  | n + 1, t =>
    if 1024 ≤ t then none
    else
      let i := 1024 * b + t
      let m := d.fld F.CLS_PTRANS_MASK r i
      if sel &&& m = d.fld F.CLS_PTRANS_VALUE r i &&& m then some (d.fld F.CLS_PTRANS_NEXT r i)
      else d.transition r b sel n (t + 1)

/-- The parse program run from a state at an offset (R83 to R85); the fuel bounds the layers (R82). -/
def Dev.parseFrom (d : Dev) (r b : Nat) (bs : List Byte) : Nat → Nat → Nat → Parsed → Parsed
  | 0, _, _, a => { a with deep := true }
  | fuel + 1, s, o, a =>
    if s = 255 then a
    else if s = 254 then { a with mal := some 11, layers := a.layers.dropLast, lastEnd := a.prevEnd }
    else
      let i := 254 * b + s
      let lsb := d.fld F.CLS_PSTATE_LENF_LSB r i
      let bits := d.fld F.CLS_PSTATE_LENF_BITS r i
      let field := pbyte bs (o + d.fld F.CLS_PSTATE_LENF_BYTE r i) / 2 ^ lsb % 2 ^ bits
      let e := o + d.fld F.CLS_PSTATE_LEN_FIXED r i + field * 2 ^ d.fld F.CLS_PSTATE_LEN_SHIFT r i
      let id := d.fld F.CLS_PSTATE_LAYER_ID r i
      let checks := d.fld F.CLS_PSTATE_CHECKS r i
      if bs.length < e then { a with mal := some 0 }
      else if 256 < e ∨ 12 ≤ a.layers.length then { a with deep := true }
      else
        match (List.range 11).find? fun c => c != 0 && bitOf checks c && malFails bs a.layers id o e c with
        | some c => { a with mal := some c }
        | none =>
          let a := { a with layers := a.layers ++ [(id, o)], firstEnd := if a.layers.isEmpty then e else a.firstEnd, lastEnd := e, prevEnd := a.lastEnd }
          let fr := d.fld F.CLS_PSTATE_FRAG r i
          if fr = 2 ∨ (fr = 1 ∧ (bitOf (pbyte bs (o + 6)) 5 ∨ pnum bs (o + 6) 2 % 8192 ≠ 0)) then { a with frag := true }
          else
            let sb := d.fld F.CLS_PSTATE_SEL_BITS r i
            let sel := pnum bs (o + d.fld F.CLS_PSTATE_SEL_BYTE r i) 4 / 2 ^ (32 - sb)
            let dn := d.fld F.CLS_PSTATE_DEFAULT_NEXT r i
            let next := if sb = 0 then dn
              else (d.transition r b sel (d.fld F.CLS_PSTATE_TRANS_CNT r i) (d.fld F.CLS_PSTATE_TRANS_BASE r i)).getD dn
            d.parseFrom r b bs fuel next e a

/-- FLOW_HASH (R86). Of a packet without a recorded layer it is the CRC of no bytes, 0: DESIGN CHOICE, entry 212. -/
def flowHash (bs : List Byte) (a : Parsed) : Nat :=
  let raw (o n : Nat) : List Byte := (List.range n).map fun k => BitVec.ofNat 8 (pbyte bs (o + k))
  match a.layers.findIdx? fun l => l.1 == 3 || l.1 == 4 with
  | some x =>
    let l := a.layers.getD x (0, 0)
    let addrs := if l.1 = 3 then raw (l.2 + 12) 8 else raw (l.2 + 8) 32
    let ports := if a.frag then [] else
      match (a.layers.drop (x + 1)).find? fun l => l.1 == 8 || l.1 == 9 with
      | some u => raw u.2 4
      | none => []
    crc32c 0 (addrs ++ ports)
  | none =>
    match a.layers with
    | [] => crc32c 0 []
    | l :: _ =>
      let cut (k : Nat) : Byte := if l.2 + k < a.firstEnd then BitVec.ofNat 8 (pbyte bs (l.2 + k)) else 0
      crc32c 0 (((List.range 6).map fun k => cut (6 + k)) ++ ((List.range 6).map cut) ++ [cut 12, cut 13])

/-- The class of CLS_START that a packet's source uses (R82): a packet from the recirculation queue is parsed as recirculated (R107, R461), one that PKTFWD began as a core's (R319). -/
def startOf (k : Pkt) : Nat := if k.recirc then 3 else if k.fromCore then 2 else if k.source < 16 then 0 else if k.source < 18 then 1 else 2

/-- The source index of the malformed counters (R89). -/
def Dev.malSource (d : Dev) (k : Pkt) : Nat :=
  if k.source < 16 then (if d.portWidth k.source = 8 then 0 else k.source % 4) else k.source - 12

/-- A packet in its first pass slot runs the new version of a swapped action program (R384): the swap is in progress, the slot is after its commit cycle, and the packet's flow bucket has flipped. -/
def Dev.newVersion (d : Dev) (r slot flow : Nat) : Bool :=
  d.flag F.CRU_SWAP_ACTIVE r && d.swapKind r == 0 && decide (d.swapAt.at 0 r < slot) &&
  !bitOf (d.swapFrozen.at 0 r) (d.fld F.CRU_FBMAP_CLASS r (flow / 65536))

/-- The metadata and layers that a parse gives a packet, its first table chosen, and its malformed class handled by CLS_MAL_ACT (R81, R86, R89). -/
def Dev.applyParse (d : Dev) (r id : Nat) (k : Pkt) (a : Parsed) : Dev :=
  let st := startOf k
  let k := { k with
    layers := a.layers, layersEnd := a.lastEnd, deep := a.deep, frag := a.frag, malformed := false, malclass := 255, partialKey := false
    flowHash := flowHash k.bytes a, nextTbl := d.fld F.CLS_START_FIRST_TBL r st
    disp := 0, dispArg := 0, encaps := [], decap := 0, mirrors := [], sa := none, fromCore := false, place := .stage 0 }
  let k := if k.pass = 0 then { k with newProg := d.newVersion r k.slot k.flowHash } else k
  let d := d.onlyIf a.deep fun d => d.bump .CLS_CNT r 6
  let d := d.onlyIf a.frag fun d => d.bump .CLS_CNT r 7
  match a.mal with
  | none => d.setPkt id k
  | some c =>
    let d := d.bump .CLS_MAL_CNT r (12 * d.malSource k + c)
    let k := { k with malclass := c }
    match bitsOf (d.fld F.CLS_MAL_ACT_ACT r) (2 * c + 1) (2 * c) with
    | 0 => d.setPkt id { k with disp := 2, place := .stage 12 }
    | 1 => d.setPkt id { k with disp := 4, dispArg := d.fld F.CLS_EXC_POOL_POOL r, byFlow := false, place := .stage 12 }
    | 2 => d.setPkt id { k with disp := 3, dispArg := d.fld F.CLS_EXC_HOST_FUNC r, qbase := d.fld F.CLS_EXC_HOST_QUEUE r, qcount := 1, rss := false, place := .stage 12 }
    | _ => d.setPkt id { k with malformed := true }

/-- PACKET_PARSE (R82 to R89): the oldest packet of the pipeline that has not been parsed, 96 cycles after its slot, by the bank in use at its slot (R87). DEDUCED, entry 198. -/
def execPacketParse (region : Fin 4) (s : State) : Out := s.on fun d =>
  let r := region.val
  match (d.pipeQ.at [] r).find? fun id => (d.pkt id).place == .parser with
  | none => d
  | some id =>
    let k := d.pkt id
    let d := d.advanceTo (k.slot + 96)
    d.applyParse r id k (d.parseFrom r k.bank k.bytes 16 (d.fld F.CLS_START_STATE r (startOf k)) 0 {})

/-! ### Parse banks (R87) -/

/-- CLS_PARSE_CTL: COMMIT switches banks between two packets. -/
def parseCtlEffect (k : RegKey) (w : Write) (d : Dev) : Dev :=
  let d := d.plainWrite k w.value
  if bitOf w.value.toNat 31 then d.setFld F.CLS_PARSE_CTL_ACTIVE k.n 0 (1 - d.fld F.CLS_PARSE_CTL_ACTIVE k.n) else d

/-- The bank of an entry of CLS_PSTATE or CLS_PTRANS. -/
def RegKey.parseBank (k : RegKey) : Nat := if k.reg = Reg.CLS_PSTATE then k.i / 254 else k.i / 1024

/-- CLS_PSTATE and CLS_PTRANS (R87, R489): an entry of the active bank is not written and sets WRACT; values out of their ranges are discarded. -/
def parseEntryEffect (k : RegKey) (w : Write) (d : Dev) : Dev :=
  let v := w.value
  let bad := k.reg = Reg.CLS_PSTATE ∧
    ((k.w = 0 ∧ 8 < F.CLS_PSTATE_LENF_BITS.ofWord v) ∨
     (k.w = 1 ∧ (32 < F.CLS_PSTATE_SEL_BITS.ofWord v ∨ F.CLS_PSTATE_FRAG.ofWord v = 3)) ∨
     (k.w = 2 ∧ 64 < F.CLS_PSTATE_TRANS_CNT.ofWord v))
  if k.parseBank = d.fld F.CLS_PARSE_CTL_ACTIVE k.n then d.setFld F.CLS_PARSE_CTL_WRACT k.n 0 1
  else if bad then d
  else d.plainWrite k v

/-- PARSE_BANK_COMMIT (R87). -/
def execParseBankCommit (region : Fin 4) (ws : List Write) (s : State) : Out := s.on fun d =>
  d.writeReg ⟨.CLS_PARSE_CTL, region.val, 0, 0⟩ ws parseCtlEffect

end Sys2Proof.Machine
end

