-- ==== Sys2Proof/Machine/Headers.lean ====
section
/-! DEFINITION. Headers as they stand in a packet's bytes: where the IP and transport headers lie, and the lengths and checksums that the device fills in (R70, R105, R205, R280, R281). -/

namespace Sys2Proof.Machine

open Sys2Proof

/-- A big-endian number in a packet. -/
def be (bs : List Byte) (o n : Nat) : Nat := beVal (sliceB bs o n)

/-- A big-endian number written into a packet. -/
def putBe (bs : List Byte) (o n v : Nat) : List Byte := overB bs o (beBytes n v)

/-- Offset of the EtherType after any VLAN tags, at most `n` of them. -/
def etherOff (bs : List Byte) : Nat → Nat → Nat
  | 0, o => o
  | n + 1, o => let t := be bs o 2; if t = 0x8100 ∨ t = 0x88A8 then etherOff bs n (o + 4) else o

/-- Offset and version of the outermost IP header. -/
def ipAt (bs : List Byte) : Option (Nat × Nat) :=
  let o := etherOff bs 8 12
  let t := be bs o 2
  if t = 0x0800 then some (o + 2, 4) else if t = 0x86DD then some (o + 2, 6) else none

/-- Protocol numbers of IPv6 extension headers that may stand before the payload: Hop-by-Hop, Routing, Fragment and Destination Options. -/
def isExt (p : Nat) : Bool := p == 0 || p == 43 || p == 44 || p == 60

/-- End of the extension headers from an offset on: the offset of the payload, its protocol, and where that protocol number stands. -/
def extEnd (bs : List Byte) : Nat → Nat → Nat → Nat → Nat × Nat × Nat
  | 0, o, p, at_ => (o, p, at_)
  | n + 1, o, p, at_ =>
    if isExt p then extEnd bs n (o + (if p = 44 then 8 else 8 * (be bs (o + 1) 1 + 1))) (be bs o 1) o else (o, p, at_)

/-- The payload of the outermost IP header: its offset, its protocol, and the offset of the byte that names it. -/
def ipPayload (bs : List Byte) (ip : Nat × Nat) : Nat × Nat × Nat :=
  if ip.2 = 4 then (ip.1 + 4 * (be bs ip.1 1 % 16), be bs (ip.1 + 9) 1, ip.1 + 9)
  else extEnd bs 8 (ip.1 + 40) (be bs (ip.1 + 6) 1) (ip.1 + 6)

/-- The end of the outermost IP datagram, no later than the packet's last byte. -/
def ipEnd (bs : List Byte) (ip : Nat × Nat) : Nat :=
  min bs.length (if ip.2 = 4 then ip.1 + be bs (ip.1 + 2) 2 else ip.1 + 40 + be bs (ip.1 + 4) 2)

/-- The checksum of bytes: the complement of their one's complement sum. -/
def checksum (bs : List Byte) : Nat := 65535 - onesFold (onesSum 0 bs)

/-- The IPv4 header checksum filled in. -/
def fixIpSum (bs : List Byte) (o : Nat) : List Byte :=
  let b := putBe bs (o + 10) 2 0
  putBe b (o + 10) 2 (checksum (sliceB b o (4 * (be b o 1 % 16))))

/-- The length of the outermost IP header set so that the datagram ends at `e`, with its checksum. -/
def fixIpLen (bs : List Byte) (ip : Nat × Nat) (e : Nat) : List Byte :=
  if ip.2 = 4 then fixIpSum (putBe bs (ip.1 + 2) 2 (e - ip.1)) ip.1 else putBe bs (ip.1 + 4) 2 (e - ip.1 - 40)

/-- The pseudo-header of a transport checksum. -/
def pseudo (bs : List Byte) (ip : Nat × Nat) (proto len : Nat) : List Byte :=
  if ip.2 = 4 then sliceB bs (ip.1 + 12) 8 ++ beBytes 2 proto ++ beBytes 2 len
  else sliceB bs (ip.1 + 8) 32 ++ beBytes 4 len ++ beBytes 4 proto

/-- The TCP or UDP checksum of an IP header's payload filled in; a UDP checksum that comes to 0 is sent as all ones. -/
def fixL4Sum (bs : List Byte) (ip : Nat × Nat) : List Byte :=
  let (o, proto, _) := ipPayload bs ip
  let e := ipEnd bs ip
  if proto ≠ 6 ∧ proto ≠ 17 then bs
  else
    let c := o + (if proto = 6 then 16 else 6)
    let b := putBe bs c 2 0
    let v := checksum (pseudo b ip proto (e - o) ++ sliceB b o (e - o))
    putBe b c 2 (if v = 0 ∧ proto = 17 then 65535 else v)

/-- The IP header that an EtherType at an offset announces, its header starting after the type and any VLAN tags. -/
def ipBehind (bs : List Byte) (o : Nat) : Option (Nat × Nat) :=
  let o := etherOff bs 8 o
  let t := be bs o 2
  if t = 0x0800 then some (o + 2, 4) else if t = 0x86DD then some (o + 2, 6) else none

/-- What a tunnel header that ends at `o` and carries protocol type `t` holds: an IP header there, or behind an Ethernet header. -/
def tunnelled (bs : List Byte) (t o : Nat) : Option (Nat × Nat) :=
  if t = 0x0800 then some (o, 4) else if t = 0x86DD then some (o, 6) else if t = 0x6558 then ipBehind bs (o + 12) else none

/-- The IP header inside another one: IP in IP, GRE, or VXLAN and Geneve over UDP at their ports. PRESUMED (IANA), entry 208. -/
def innerIp (bs : List Byte) (ip : Nat × Nat) : Option (Nat × Nat) :=
  let (o, proto, _) := ipPayload bs ip
  if proto = 4 then some (o, 4)
  else if proto = 41 then some (o, 6)
  else if proto = 47 then
    let fl := be bs o 1
    tunnelled bs (be bs (o + 2) 2) (o + 4 + 4 * (natOf (bitOf fl 7) + natOf (bitOf fl 5) + natOf (bitOf fl 4)))
  else if proto = 17 then
    let port := be bs (o + 2) 2
    if port = 4789 then tunnelled bs 0x6558 (o + 16)
    else if port = 6081 then tunnelled bs (be bs (o + 10) 2) (o + 16 + 4 * (be bs (o + 8) 1 % 64))
    else none
  else none

/-- An IP header and those inside it, outermost first. -/
def ipsFrom (bs : List Byte) : Nat → Option (Nat × Nat) → List (Nat × Nat)
  | 0, _ => []
  | _ + 1, none => []
  | n + 1, some ip => if bs.length ≤ ip.1 then [] else ip :: ipsFrom bs n (innerIp bs ip)

/-- The IP headers of a packet, outermost first. -/
def ipsOf (bs : List Byte) : List (Nat × Nat) := ipsFrom bs 8 (ipAt bs)

/-- The checksums of one IP header and of its TCP or UDP payload are correct, as far as it carries them. -/
def ipSumsGood (bs : List Byte) (ip : Nat × Nat) : Bool :=
  let (o, proto, _) := ipPayload bs ip
  let e := ipEnd bs ip
  let h := ip.2 == 6 || onesFold (onesSum 0 (sliceB bs ip.1 (4 * (be bs ip.1 1 % 16)))) == 65535
  let none_ := proto == 17 && be bs (o + 6) 2 == 0
  h && ((proto != 6 && proto != 17) || none_ ||
    onesFold (onesSum 0 (pseudo bs ip proto (e - o) ++ sliceB bs o (e - o))) == 65535)

/-- Every checksum of a packet is correct, inside tunnels too (R212); a packet without an IP header has none to check. -/
def sumsGood (bs : List Byte) : Bool := (ipAt bs).isSome && (ipsOf bs).all (ipSumsGood bs)

/-! ### PTP event messages (R70) -/

/-- Offset of the PTP header of an IEEE 1588 event message, over Ethernet or over UDP port 319. -/
def ptpAt (bs : List Byte) : Option Nat :=
  let o := etherOff bs 8 12
  let ok (h : Nat) : Option Nat := if be bs h 1 % 16 < 4 then some h else none
  if be bs o 2 = 0x88F7 then ok (o + 2)
  else
    match ipAt bs with
    | none => none
    | some ip =>
      let (l, proto, _) := ipPayload bs ip
      if proto = 17 ∧ be bs (l + 2) 2 = 319 then ok (l + 8) else none

/-- One-step transmission (R70): a Sync without the two-step flag takes its origin timestamp and the fraction of its nanosecond as correction, and its UDP checksum is recomputed. -/
def oneStep (bs : List Byte) (tc : Nat) : List Byte :=
  match ptpAt bs with
  | none => bs
  | some h =>
    if be bs h 1 % 16 ≠ 0 ∨ bitOf (be bs (h + 6) 1) 1 then bs
    else
      let ns := tc / 2 ^ 32
      let b := putBe bs (h + 34) 6 (ns / 10 ^ 9)
      let b := putBe b (h + 40) 4 (ns % 10 ^ 9)
      let b := putBe b (h + 8) 8 (tc % 2 ^ 32 / 2 ^ 16)
      match ipAt b with
      | some ip => fixL4Sum b ip
      | none => b

end Sys2Proof.Machine
end

