-- ==== Sys2Proof/Machine/Crypto.lean ====
section
/-! DEFINITION. Security associations, MACsec and ESP (R272 to R288). -/

namespace Sys2Proof.Machine

open Sys2Proof

/-! ### Identifiers (R273) -/

/-- The identifier's reserved bits are zero. -/
def saIdOk (id : Nat) : Bool :=
  if bitOf id 23 then bitsOf id 22 10 == 0 && (bitOf id 5 || bitsOf id 4 2 == 0) else bitsOf id 22 18 == 0

def saMacsec (id : Nat) : Bool := bitOf id 23
def saRx (id : Nat) : Bool := bitOf id 5
def saPort (id : Nat) : Nat := bitsOf id 9 6
def saHome (id : Nat) : Nat := bitsOf id 17 16

/-- The identifier of a MACsec SA: port, direction, receive channel and AN. -/
def macsecId (p : Nat) (rx : Bool) (ch an : Nat) : Nat := 2 ^ 23 + p * 64 + natOf rx * 32 + ch * 4 + an

/-- A kind that agrees with an identifier: 1 ESP out, 2 ESP in, 3 TLS seal, 4 TLS open, 5 MACsec TX, 6 MACsec RX. -/
def kindAgrees (id kind : Nat) : Bool :=
  if saMacsec id then kind == (if saRx id then 6 else 5) else decide (1 ≤ kind ∧ kind ≤ 4)

def sending (kind : Nat) : Bool := kind == 1 || kind == 3 || kind == 5

def Dev.sa (d : Dev) (id : Nat) : Option Sa := d.sas.at none id

def Dev.setSa (d : Dev) (id : Nat) (x : Option Sa) : Dev := { d with sas := d.sas.set none id x }

/-- A region is fenced (R419). -/
def Dev.fenced (d : Dev) (r : Nat) : Bool := bitOf (d.fld F.ERR_STAT_FENCED) r

/-! ### Counters that never repeat (R285, R286) -/

/-- First and last value of a sending SA's counter, and its default soft limit. -/
def saFirst (kind : Nat) : Nat := if kind = 3 then 0 else 1
def saWide (kind : Nat) (wide : Bool) : Bool := kind == 3 || wide
def saLast (kind : Nat) (wide : Bool) : Nat := if saWide kind wide then 2 ^ 64 - 1 else 2 ^ 32 - 1
def saSoft (x : Sa) : Nat :=
  if x.soft ≠ 0 then x.soft else if saWide x.kind x.wide then 2 ^ 64 - 2 ^ 32 else 3 * 2 ^ 30

/-- A sending SA takes its next value, with the soft limit and the last value reported (R286); none: EXHAUSTED. -/
def Dev.takeNext (d : Dev) (id : Nat) (x : Sa) : Option (Dev × Nat) :=
  if x.exhausted then none
  else
    let v := x.next
    let hit := v == saSoft x
    let last := v == saLast x.kind x.wide
    let x' : Sa := { x with softHit := x.softHit || hit, exhausted := last, next := if last then v else v + 1 }
    let d := d.setSa id (some x')
    let d := d.onlyIf hit fun d => d.fnEvent x.fn 0x0A id
    some (d.onlyIf last fun d => d.fnEvent x.fn 0x0B id, v)

/-- Every sending SA advanced by 2^PN_GAP_LOG2 on promotion, each threshold crossed reported once (R288). -/
def Dev.advanceSas (d : Dev) : Dev :=
  let gap := 2 ^ d.fld F.CRY_CFG_PN_GAP_LOG2
  d.each d.sas fun e d =>
    match e.2 with
    | none => d
    | some x =>
      if ¬ sending x.kind ∨ x.exhausted then d
      else
        let n := x.next + gap
        let soft := !x.softHit && decide (saSoft x < n)
        let past := decide (saLast x.kind x.wide < n)
        let d := d.setSa e.1 (some { x with next := min n (saLast x.kind x.wide), softHit := x.softHit || soft, exhausted := past })
        (d.onlyIf soft fun d => d.fnEvent x.fn 0x0A e.1).onlyIf past fun d => d.fnEvent x.fn 0x0B e.1

/-! ### SA commands (R287, R299) -/

/-- The SA image in CRY_SADATA. -/
def Dev.saImage (d : Dev) : List Byte := ((List.range 20).map fun i => leBytes 4 (d.fld F.CRY_SADATA_DATA 0 i)).flatten

/-- The SA that an image describes, and its VALID bit. -/
def saOfImage (m : List Byte) : Sa × Bool :=
  let v (o n : Nat) : Nat := leVal (sliceB m o n)
  let f := v 1 1
  let k := v 0 1
  ({ kind := k, aes256 := bitOf f 1, wide := bitOf f 2, fn := v 2 2, spi := v 4 4, next := v 8 8, soft := v 16 8,
     salt := sliceB m 24 12, window := v 36 4, key := sliceB m 40 (if bitOf f 1 then 32 else 16), sci := v 72 8,
     seen := if sending k then 0 else 1 }, bitOf f 0)

/-- The image of a security association with a key. -/
def Sa.imageWith (x : Sa) (key : List Byte) : List Byte :=
  leBytes 1 x.kind ++ leBytes 1 (1 + natOf x.aes256 * 2 + natOf x.wide * 4 + natOf x.softHit * 8 + natOf x.exhausted * 16) ++
  leBytes 2 x.fn ++ leBytes 4 x.spi ++ leBytes 8 x.next ++ leBytes 8 x.soft ++ x.salt ++ leBytes 4 x.window ++
  key.take 32 ++ List.replicate (32 - key.length) 0 ++ leBytes 8 x.sci

/-- The image that READ returns: the key reads as zero (R275). -/
def Sa.image (x : Sa) : List Byte := x.imageWith []

/-- A field that the kind does not use is not zero, or a reserved flag is set. -/
def saBadField (x : Sa) (m : List Byte) : Bool :=
  decide (32 ≤ (m.getD 1 0).toNat) ||
  (x.spi != 0 && x.kind != 1 && x.kind != 2 && !(decide (5 ≤ x.kind) && x.wide))

/-- A value out of its range: the function, the window of a receiver, a counter beyond its width or below its first value. -/
def saBadRange (x : Sa) : Bool :=
  decide (512 ≤ x.fn) || decide (saLast x.kind x.wide < x.next) || (sending x.kind && decide (x.next < saFirst x.kind)) ||
  (x.kind == 2 && decide (x.window < 64 ∨ 4096 < x.window)) || (x.kind == 4 && x.window != 0)

/-- The other SAs of a MACsec channel carry another SCI. -/
def Dev.sciDiffers (d : Dev) (id : Nat) (x : Sa) : Bool :=
  saMacsec id && (List.range 4).any fun an => match d.sa (id - id % 4 + an) with
    | some y => id % 4 != an && y.sci != x.sci
    | none => false

/-- SA WRITE with its STATUS (R287): 0 OK, 1 BADKIND, 2 RANGE, 3 BADFIELD. -/
def Dev.saWrite (d : Dev) (id : Nat) : Dev × Nat :=
  let m := d.saImage
  let (x, valid) := saOfImage m
  let old := d.sa id
  let rekey : Bool := match old with
    | some y => y.key != x.key || y.salt != x.salt
    | none => false
  let lowers : Bool := match old with
    | some y => sending x.kind && decide (x.next < y.next)
    | none => false
  if ¬ saIdOk id ∨ ¬ kindAgrees id x.kind then (d, 1)
  else if saBadField x m ∨ d.sciDiffers id x ∨ rekey then (d, 3)
  else if saBadRange x ∨ lowers then (d, 2)
  else
    match old with
    | none => (d.setSa id (if valid then some x else none), 0)
    | some y =>
      let x : Sa := { x with softHit := y.softHit, exhausted := y.exhausted, seen := if y.next = x.next then y.seen else x.seen }
      (d.setSa id (if valid then some x else none), 0)

/-- The SA image shown in CRY_SADATA. -/
def Dev.showImage (d : Dev) (m : List Byte) : Dev :=
  d.each (List.range 20) fun i d => d.setFld F.CRY_SADATA_DATA 0 i (leVal (sliceB m (4 * i) 4))

/-- CRY_SACMD: GO starts WRITE, READ or DELETE; an OP of no command is discarded with the write. -/
def sacmdEffect (k : RegKey) (w : Write) (d : Dev) : Dev :=
  let go := bitOf w.value.toNat 31
  if go ∧ d.flag F.CRY_SACMD_BUSY then d
  else
    let d := d.plainWrite k w.value
    if ¬ go then d
    else
      let id := d.fld F.CRY_SACMD_ID
      let done (x : Dev × Nat) : Dev := x.1.setChip F.CRY_SACMD_STATUS x.2
      match d.fld F.CRY_SACMD_OP with
      | 1 => done (d.saWrite id)
      | 2 => if ¬ saIdOk id then done (d, 1) else done (d.showImage (match d.sa id with
          | some x => x.image
          | none => List.replicate 80 0), 0)
      | 3 => if ¬ saIdOk id then done (d, 1) else done (d.setSa id none, 0)
      | _ => d

def Dev.writeSacmd (d : Dev) (ws : List Write) : Dev := d.writeReg ⟨.CRY_SACMD, 0, 0, 0⟩ ws sacmdEffect

/-- SA_WRITE (R287): SA command OP 1. -/
def execSaWrite (ws : List Write) (s : State) : Out := s.on fun d => d.writeSacmd ws

/-- SA_READ (R275): SA command OP 2. -/
def execSaRead (ws : List Write) (s : State) : Out := s.on fun d => d.writeSacmd ws

/-- SA_DELETE (R274): SA command OP 3. -/
def execSaDelete (ws : List Write) (s : State) : Out := s.on fun d => d.writeSacmd ws

/-- A crypto counter of a region raised. -/
def Dev.cryCount (d : Dev) (r k : Nat) : Dev := d.bump .CRY_CNT r k

/-! ### MACsec (R276 to R279) -/

def xorB (a b : List Byte) : List Byte := List.zipWith (· ^^^ ·) a b

/-- The 12-byte nonce of a MACsec SA: SCI and PN, or under XPN the salt XOR SSCI and 64-bit PN. -/
def macsecNonce (x : Sa) (pn : Nat) : List Byte :=
  if x.wide then xorB x.salt (beBytes 4 x.spi ++ beBytes 8 pn) else beBytes 8 x.sci ++ beBytes 4 pn

/-- A frame, without FCS, protected under an SA: SecTAG after the addresses, user data enciphered when CONF = 1, and the ICV. -/
def macsecSeal (x : Sa) (an pn : Nat) (conf inclSci : Bool) (f : List Byte) : List Byte :=
  let body := f.drop 12
  let tci := natOf inclSci * 32 + natOf conf * 12 + an
  let sl := if body.length < 48 then body.length else 0
  let head := f.take 12 ++ beBytes 2 0x88E5 ++ beBytes 1 tci ++ beBytes 1 sl ++ beBytes 4 (pn % 2 ^ 32) ++ (if inclSci then beBytes 8 x.sci else [])
  let n := macsecNonce x pn
  if conf then
    let ct := gcmCrypt x.key n body
    head ++ ct ++ gcmTag x.key n head ct
  else head ++ body ++ gcmTag x.key n (head ++ body) []

/-- EAPOL frames always pass unprotected (R276). -/
def eapol (f : List Byte) : Bool := be f 12 2 == 0x888E

/-- A frame that leaves on a port is to be protected (R276, R277). -/
def Dev.protects (d : Dev) (p : Nat) (k : Pkt) : Bool :=
  d.flag F.CRY_MSEC_CFG_EN 0 p && !eapol k.bytes && (d.flag F.CRY_MSEC_CFG_PROTECT_ALL 0 p || k.sa.isSome)

/-- Bytes that protection adds (R278). -/
def Dev.protectBytes (d : Dev) (p : Nat) (k : Pkt) : Nat :=
  if d.protects p k then 24 + (if d.flag F.CRY_MSEC_CFG_INCLUDE_SCI 0 p then 8 else 0) else 0

/-- The length of a frame on a port from destination address to FCS, as protected (R278). -/
def Dev.wireLen (d : Dev) (p : Nat) (k : Pkt) : Nat := k.frameLen + d.protectBytes p k

/-- A frame protected as it starts on the wire (R277, R286): its bytes, or none and the discard counted. -/
def Dev.protectTx (d : Dev) (p : Nat) (k : Pkt) : Dev × Option (List Byte) :=
  if ¬ d.protects p k then (d, some k.bytes)
  else
    let an := d.fld F.CRY_MSEC_CFG_TX_AN 0 p
    let id := macsecId p false 0 an
    let r := p / 4
    match d.sa id with
    | none => (d.cryCount r 0, none)
    | some x =>
      match d.takeNext id x with
      | none => (d.cryCount r 1, none)
      | some (d, pn) =>
        let d := d.tally (tlyRgn r + 0x58) (k.bytes.length - 12)
        (d, some (macsecSeal x an pn (d.flag F.CRY_MSEC_CFG_CONF 0 p) (d.flag F.CRY_MSEC_CFG_INCLUDE_SCI 0 p) k.bytes))

/-- The receive channel of a port whose SAs carry an SCI. -/
def Dev.rxChannel (d : Dev) (p sci : Nat) : Option Nat :=
  (List.range 8).find? fun ch => (List.range 4).any fun an => match d.sa (macsecId p true ch an) with
    | some x => x.sci == sci
    | none => false

/-- The full PN that a received low word stands for, next after the highest accepted (XPN). -/
def recoverPn (highest low : Nat) : Nat :=
  let nx := highest + 1
  let hi := nx / 2 ^ 32
  if low < nx % 2 ^ 32 ∧ 2 ^ 31 ≤ nx % 2 ^ 32 - low then (hi + 1) * 2 ^ 32 + low else hi * 2 ^ 32 + low

/-- What becomes of a received frame, without its FCS, under MACsec (R279): the frame delivered, or none with the discard counted. -/
def Dev.macsecRx (d : Dev) (p : Nat) (f : List Byte) : Dev × Option (List Byte) :=
  let mode := if d.flag F.CRY_MSEC_CFG_EN 0 p then d.fld F.CRY_MSEC_CFG_VALIDATE 0 p else 0
  let r := p / 4
  if mode = 0 then (d, some f)
  else if be f 12 2 ≠ 0x88E5 then
    if mode = 2 ∧ ¬ eapol f then (d.cryCount r 7, none) else (d, some f)
  else
    let tci := be f 14 1
    let sc := bitOf tci 5
    let sci := if sc then be f 20 8 else be f 6 6 * 65536 + 1
    let o := if sc then 28 else 20
    match (d.rxChannel p sci).bind fun ch => let id := macsecId p true ch (tci % 4); (d.sa id).map fun x => (id, x) with
    | none => (d.cryCount r 6, none)
    | some (id, x) =>
      let low := be f 16 4
      let pn := if x.wide then recoverPn x.next low else low
      let n := macsecNonce x pn
      let conf := bitOf tci 3
      let body := (f.drop o).take (f.length - 16 - o)
      let icv := f.drop (f.length - 16)
      let good := decide (o + 16 ≤ f.length) && !bitOf tci 7 &&
        (icv == (if conf then gcmTag x.key n (f.take o) body else gcmTag x.key n (f.take o ++ body) []))
      let plain := f.take 12 ++ (if conf then gcmCrypt x.key n body else body)
      if ¬ good then
        let d := d.cryCount r 5
        if mode = 2 ∨ conf then (d, none) else (d, some plain)
      else if d.flag F.CRY_MSEC_CFG_REPLAY 0 p ∧ pn + x.window < x.next + 1 then (d.cryCount r 4, none)
      else ((d.setSa id (some { x with next := max x.next pn })).tally (tlyRgn r + 0x60) body.length, some plain)

/-! ### ESP (R280, R281) -/

/-- The nonce of an ESP SA: its salt and the 8-byte IV. -/
def espNonce (x : Sa) (seq : Nat) : List Byte := x.salt.take 4 ++ beBytes 8 seq

/-- Associated data of an ESP packet: SPI and the sequence number, 64 bits of it with ESN (RFC 4106). -/
def espAad (x : Sa) (seq : Nat) : List Byte := beBytes 4 x.spi ++ (if x.wide then beBytes 8 seq else beBytes 4 seq)

/-- Padding of an ESP trailer: to 4 bytes with pad length and next header, bytes 1, 2, 3. -/
def espPad (n : Nat) : List Byte := (List.range ((4 - (n + 2) % 4) % 4)).map fun i => BitVec.ofNat 8 (i + 1)

/-- A packet protected under an outbound SA with a sequence value; `tunnel`: an action program has built a tunnel header. -/
def espSeal (x : Sa) (seq : Nat) (tunnel : Bool) (f : List Byte) (ip : Nat × Nat) : List Byte :=
  let (o, proto, at_) := ipPayload f ip
  let e := ipEnd f ip
  let inner := sliceB f o (e - o)
  let nh := if tunnel then (if be inner 0 1 / 16 = 6 then 41 else 4) else proto
  let pad := espPad inner.length
  let pt := inner ++ pad ++ [BitVec.ofNat 8 pad.length, BitVec.ofNat 8 nh]
  let n := espNonce x seq
  let ct := gcmCrypt x.key n pt
  let esp := beBytes 4 x.spi ++ beBytes 4 (seq % 2 ^ 32) ++ beBytes 8 seq ++ ct ++ gcmTag x.key n (espAad x seq) ct
  let out := putBe (f.take o) at_ 1 50 ++ esp
  fixIpLen out ip out.length

/-- The sequence value that a received low word stands for, in a window below the highest accepted (RFC 4303, appendix A). -/
def recoverSeq (highest window low : Nat) : Nat :=
  let th := highest / 2 ^ 32
  let tl := highest % 2 ^ 32
  if window - 1 ≤ tl then (if tl + 1 - window ≤ low then th else th + 1) * 2 ^ 32 + low
  else if 2 ^ 32 + tl + 1 - window ≤ low then (th - 1) * 2 ^ 32 + low
  else th * 2 ^ 32 + low

/-- A sequence value is a replay under the window of an SA. -/
def replayed (x : Sa) (seq : Nat) : Bool :=
  decide (seq ≤ x.next) && (decide (x.window ≤ x.next - seq) || bitOf x.seen (x.next - seq))

/-- The window after a value is accepted. -/
def acceptSeq (x : Sa) (seq : Nat) : Sa :=
  if x.next < seq then { x with next := seq, seen := (x.seen * 2 ^ (min (seq - x.next) x.window) + 1) % 2 ^ x.window }
  else { x with seen := withBit x.seen (x.next - seq) true }

/-- The outcome of an inbound ESP packet: the packet without its ESP parts, or the counter of its discard (R281). -/
inductive EspIn where
  | ok (x : Sa) (bytes : List Byte) (n : Nat)
  | drop (counter : Nat)
  deriving DecidableEq, Repr

/-- A packet checked and deciphered under an inbound SA. -/
def espOpen (x : Sa) (f : List Byte) (ip : Nat × Nat) : EspIn :=
  let (o, proto, at_) := ipPayload f ip
  let e := ipEnd f ip
  if proto ≠ 50 ∨ be f o 4 ≠ x.spi then .drop 0
  else
    let seq := if x.wide then recoverSeq x.next x.window (be f (o + 4) 4) else be f (o + 4) 4
    if replayed x seq then .drop 2
    else
      let ct := sliceB f (o + 16) (e - o - 32)
      let iv := sliceB f (o + 8) 8
      let n := x.salt.take 4 ++ iv
      if e < o + 34 ∨ sliceB f (e - 16) 16 ≠ gcmTag x.key n (espAad x seq) ct then .drop 3
      else
        let pt := gcmCrypt x.key n ct
        let pl := (pt.getD (pt.length - 2) 0).toNat
        let nh := (pt.getD (pt.length - 1) 0).toNat
        let out := putBe (f.take o) at_ 1 nh ++ pt.take (pt.length - 2 - pl)
        .ok (acceptSeq x seq) (fixIpLen out ip out.length) ct.length

end Sys2Proof.Machine
end

