-- ==== Sys2Proof/Machine/Operands.lean ====
section
/-! DEFINITION. Stavte instructions: every operand form of R304, decoding of an instruction word with the reserved encodings of R305 and R306 refused, and the encoder written from the same tables. -/

namespace Sys2Proof.Machine

open Sys2Proof

/-- ALU operations: the funct table of R307, and the multiply and divide group of R308. -/
inductive AluOp where
  | add | sub | and | or | xor | andn | sll | srl | sra | ror | slt | sltu | min | max | minu | maxu
  | clz | ctz | popc | bswap
  | mul | mulh | mulhu | div | divu | rem | remu
  deriving DecidableEq, Repr

/-- Operations with a 16-bit immediate (R309), majors 0x02 to 0x07, 0x09 and 0x0A. -/
inductive ImmOp where
  | addi | andi | ori | xori | slti | sltiu | lui | shori
  deriving DecidableEq, Repr

/-- Loads (R312), majors 0x10 to 0x16. -/
inductive LoadOp where
  | lb | lbu | lh | lhu | lw | lwu | ld
  deriving DecidableEq, Repr

/-- Stores (R312), majors 0x18 to 0x1B. -/
inductive StoreOp where
  | sb | sh | sw | sd
  deriving DecidableEq, Repr

/-- Branch conditions (R313), majors 0x20 to 0x25. -/
inductive BranchOp where
  | eq | ne | lt | ge | ltu | geu
  deriving DecidableEq, Repr

/-- Atomic operations (R314). -/
inductive AtomicOp where
  | cas | fadd | swap
  deriving DecidableEq, Repr

/-- Packet operations without a memory operand (R319): PKTFWD, PKTDROP, PKTRECIRC. -/
inductive PktEnd where
  | fwd | drop | recirc
  deriving DecidableEq, Repr

/-- Table operations (R321). -/
inductive TblOp where
  | lookup | insert | delete
  deriving DecidableEq, Repr

/-- One Stavte instruction with its operands, register fields under the manual's names. -/
inductive SOp where
  | alu (op : AluOp) (rd rs1 rs2 : Fin 32)
  | imm (op : ImmOp) (rd rs1 : Fin 32) (imm : BitVec 16)
  | shi (kind : Fin 4) (rd rs1 : Fin 32) (amount : Fin 64)
  | load (op : LoadOp) (rd rs1 : Fin 32) (imm : BitVec 16)
  | store (op : StoreOp) (rs rs1 : Fin 32) (imm : BitVec 16)
  | branch (op : BranchOp) (rs1 rs2 : Fin 32) (offset : BitVec 16)
  | jump (offset : BitVec 26)
  | jal (offset : BitVec 26)
  | jalr (rd rs1 : Fin 32) (imm : BitVec 16)
  | atomic (op : AtomicOp) (word acq rel : Bool) (rd rs1 rs2 : Fin 32)
  | bfx (signed : Bool) (rd rs1 : Fin 32) (lsb widthM1 : Fin 64)
  | bfi (rd rs1 : Fin 32) (lsb widthM1 : Fin 64)
  | crc (ieee : Bool) (size : Fin 4) (rd rs1 rs2 : Fin 32)
  | mix (rd rs1 rs2 : Fin 32)
  | fence (bits : Fin 32)
  | fork (rd rs1 rs2 : Fin 32)
  | join (rd rs1 : Fin 32)
  | quit (rs1 : Fin 32)
  | chin (rd chan : Fin 32)
  | chout (rs chan : Fin 32)
  | chtest (room : Bool) (rd chan : Fin 32)
  | pktld (size : Fin 4) (rd rs1 : Fin 32) (off : Fin 1024)
  | pktldm (size : Fin 4) (rd : Fin 32) (byte : Fin 64)
  | pktst (size : Fin 4) (rs rs1 : Fin 32) (off : Fin 1024)
  | pktstm (size : Fin 4) (rs : Fin 32) (byte : Fin 1024)
  | pktlay (rd : Fin 32) (layer : Fin 1024)
  | pktend (op : PktEnd)
  | table (op : TblOp) (rs1 : Fin 32) (table : Fin 64)
  | prim (rs1 : Fin 32) (code : Fin 256)
  | csrr (rd : Fin 32) (num : Fin 4096)
  | csrw (rs1 : Fin 32) (num : Fin 4096)
  | trap (rs1 : Fin 32)
  | eret
  | wfe
  deriving DecidableEq, Repr

/-! ### Encoding (R304, R306) -/

/-- Major opcode and funct of an ALU operation (R307, R308). -/
def AluOp.code : AluOp → Nat × Nat
  | .add => (0, 0) | .sub => (0, 1) | .and => (0, 2) | .or => (0, 3) | .xor => (0, 4) | .andn => (0, 5)
  | .sll => (0, 6) | .srl => (0, 7) | .sra => (0, 8) | .ror => (0, 9) | .slt => (0, 10) | .sltu => (0, 11)
  | .min => (0, 12) | .max => (0, 13) | .minu => (0, 14) | .maxu => (0, 15)
  | .clz => (0, 16) | .ctz => (0, 17) | .popc => (0, 18) | .bswap => (0, 19)
  | .mul => (1, 0) | .mulh => (1, 1) | .mulhu => (1, 2) | .div => (1, 3) | .divu => (1, 4) | .rem => (1, 5) | .remu => (1, 6)

/-- Unary operations, whose rs2 field must be 0 (R307). -/
def AluOp.unary : AluOp → Bool
  | .clz => true | .ctz => true | .popc => true | .bswap => true
  | _ => false

/-- Major opcode of an immediate operation. -/
def ImmOp.major : ImmOp → Nat
  | .addi => 2 | .andi => 3 | .ori => 4 | .xori => 5 | .slti => 6 | .sltiu => 7 | .lui => 9 | .shori => 10

/-- Major opcode of a load. -/
def LoadOp.major : LoadOp → Nat
  | .lb => 0x10 | .lbu => 0x11 | .lh => 0x12 | .lhu => 0x13 | .lw => 0x14 | .lwu => 0x15 | .ld => 0x16

/-- Major opcode of a store. -/
def StoreOp.major : StoreOp → Nat
  | .sb => 0x18 | .sh => 0x19 | .sw => 0x1A | .sd => 0x1B

/-- Major opcode of a branch. -/
def BranchOp.major : BranchOp → Nat
  | .eq => 0x20 | .ne => 0x21 | .lt => 0x22 | .ge => 0x23 | .ltu => 0x24 | .geu => 0x25

def AtomicOp.code : AtomicOp → Nat
  | .cas => 0 | .fadd => 1 | .swap => 2

def PktEnd.xsub : PktEnd → Nat
  | .fwd => 5 | .drop => 6 | .recirc => 7

def TblOp.xsub : TblOp → Nat
  | .lookup => 0 | .insert => 1 | .delete => 2

/-- Format A. -/
def wordA (major rd rs1 rs2 funct : Nat) : Nat := major * 67108864 + rd * 2097152 + rs1 * 65536 + rs2 * 2048 + funct

/-- Formats I, B and C: two register fields and 16 bits. -/
def wordI (major rd rs1 imm : Nat) : Nat := major * 67108864 + rd * 2097152 + rs1 * 65536 + imm

/-- Format X. -/
def wordX (major rd rs1 xsub xsz xarg : Nat) : Nat :=
  major * 67108864 + rd * 2097152 + rs1 * 65536 + xsub * 4096 + xsz * 1024 + xarg

/-- The instruction word of an instruction (R304 to R334). -/
def SOp.encode : SOp → Nat
  | .alu op rd rs1 rs2 => wordA op.code.1 rd rs1 (if op.unary then 0 else rs2) op.code.2
  | .imm op rd rs1 i => wordI op.major rd (if op = .lui then 0 else rs1) i.toNat
  | .shi k rd rs1 a => wordI 8 rd rs1 (k * 64 + a)
  | .load op rd rs1 i => wordI op.major rd rs1 i.toNat
  | .store op rs rs1 i => wordI op.major rs rs1 i.toNat
  | .branch op rs1 rs2 o => wordI op.major rs1 rs2 o.toNat
  | .jump o => 0x26 * 67108864 + o.toNat
  | .jal o => 0x27 * 67108864 + o.toNat
  | .jalr rd rs1 i => wordI 0x28 rd rs1 i.toNat
  | .atomic op w acq rel rd rs1 rs2 => wordA 0x2C rd rs1 rs2 (natOf acq * 32 + natOf rel * 16 + natOf w * 8 + op.code)
  | .bfx sg rd rs1 lsb wm => wordI 0x2D rd rs1 (lsb * 1024 + wm * 16 + natOf sg * 8)
  | .bfi rd rs1 lsb wm => wordI 0x2D rd rs1 (lsb * 1024 + wm * 16 + 1)
  | .crc ieee n rd rs1 rs2 => wordA 0x2E rd rs1 rs2 (natOf ieee * 4 + n)
  | .mix rd rs1 rs2 => wordA 0x2E rd rs1 rs2 16
  | .fence b => wordI 0x30 0 0 b
  | .fork rd rs1 rs2 => wordA 0x31 rd rs1 rs2 0
  | .join rd rs1 => wordA 0x31 rd rs1 0 1
  | .quit rs1 => wordA 0x31 0 rs1 0 2
  | .chin rd c => wordI 0x32 rd c 0
  | .chout rs c => wordI 0x33 rs c 0
  | .chtest room rd c => wordI 0x34 rd c (natOf room)
  | .pktld sz rd rs1 off => wordX 0x38 rd rs1 0 sz off
  | .pktldm sz rd byte => wordX 0x38 rd 0 1 sz byte
  | .pktst sz rs rs1 off => wordX 0x38 rs rs1 2 sz off
  | .pktstm sz rs byte => wordX 0x38 rs 0 3 sz byte
  | .pktlay rd l => wordX 0x38 rd 0 4 0 l
  | .pktend op => wordX 0x38 0 0 op.xsub 0 0
  | .table op rs1 t => wordX 0x39 0 rs1 op.xsub 0 t
  | .prim rs1 c => wordX 0x3A 0 rs1 0 0 c
  | .csrr rd n => wordI 0x3C rd 0 n
  | .csrw rs1 n => wordI 0x3D 0 rs1 n
  | .trap rs1 => wordA 0x3E 0 rs1 0 0
  | .eret => wordA 0x3E 0 0 0 1
  | .wfe => wordA 0x3E 0 0 0 2

/-! ### Decoding (R304 to R306) -/

/-- The ALU operation of a funct under major 0x00 (R307). -/
def aluOf : Nat → Option AluOp
  | 0 => some .add | 1 => some .sub | 2 => some .and | 3 => some .or | 4 => some .xor | 5 => some .andn
  | 6 => some .sll | 7 => some .srl | 8 => some .sra | 9 => some .ror | 10 => some .slt | 11 => some .sltu
  | 12 => some .min | 13 => some .max | 14 => some .minu | 15 => some .maxu
  | 16 => some .clz | 17 => some .ctz | 18 => some .popc | 19 => some .bswap
  | _ => none

/-- The operation of a funct under major 0x01 (R308). -/
def mulOf : Nat → Option AluOp
  | 0 => some .mul | 1 => some .mulh | 2 => some .mulhu | 3 => some .div | 4 => some .divu | 5 => some .rem | 6 => some .remu
  | _ => none

/-- Register field numbers of a word. -/
def fRd (w : Nat) : Fin 32 := Fin.ofNat 32 (w / 2097152)
def fRs1 (w : Nat) : Fin 32 := Fin.ofNat 32 (w / 65536)
def fRs2 (w : Nat) : Fin 32 := Fin.ofNat 32 (w / 2048)

/-- An answer under a condition; fields that an instruction does not use must be 0 (R305). -/
def guardOp (c : Bool) (i : SOp) : Option SOp := if c then some i else none

/-- An A-format ALU word. -/
def decodeAlu (op : Option AluOp) (w : Nat) : Option SOp :=
  match op with
  | none => none
  | some op => guardOp (!op.unary || fRs2 w == 0) (.alu op (fRd w) (fRs1 w) (fRs2 w))

/-- Major 0x2C (R314). -/
def decodeAtomic (w : Nat) : Option SOp :=
  let f := w % 2048
  let mk (op : AtomicOp) : Option SOp :=
    guardOp (decide (f < 64)) (.atomic op (bitOf f 3) (bitOf f 5) (bitOf f 4) (fRd w) (fRs1 w) (fRs2 w))
  match f % 8 with
  | 0 => mk .cas
  | 1 => mk .fadd
  | 2 => mk .swap
  | _ => none

/-- Major 0x2D (R310). -/
def decodeBf (w : Nat) : Option SOp :=
  let i := w % 65536
  let lsb : Fin 64 := Fin.ofNat 64 (i / 1024)
  let wm : Fin 64 := Fin.ofNat 64 (i / 16)
  let fits := decide (lsb.val + wm.val + 1 ≤ 64)
  match i % 8 with
  | 0 => guardOp fits (.bfx (bitOf i 3) (fRd w) (fRs1 w) lsb wm)
  | 1 => guardOp (fits && !bitOf i 3) (.bfi (fRd w) (fRs1 w) lsb wm)
  | _ => none

/-- Major 0x2E (R311). -/
def decodeCheck (w : Nat) : Option SOp :=
  let f := w % 2048
  if f < 8 then some (.crc (bitOf f 2) (Fin.ofNat 4 f) (fRd w) (fRs1 w) (fRs2 w))
  else if f = 16 then some (.mix (fRd w) (fRs1 w) (fRs2 w))
  else none

/-- Major 0x31 (R316). -/
def decodeThread (w : Nat) : Option SOp :=
  match w % 2048 with
  | 0 => some (.fork (fRd w) (fRs1 w) (fRs2 w))
  | 1 => guardOp (fRs2 w == 0) (.join (fRd w) (fRs1 w))
  | 2 => guardOp (fRd w == 0 && fRs2 w == 0) (.quit (fRs1 w))
  | _ => none

/-- Major 0x38 (R319). -/
def decodePkt (w : Nat) : Option SOp :=
  let sz : Fin 4 := Fin.ofNat 4 (w / 1024)
  let arg : Fin 1024 := Fin.ofNat 1024 w
  let bare := fRd w == 0 && fRs1 w == 0 && decide (w % 4096 = 0)
  match w / 4096 % 16 with
  | 0 => some (.pktld sz (fRd w) (fRs1 w) arg)
  | 1 => guardOp (fRs1 w == 0 && decide (arg.val < 64)) (.pktldm sz (fRd w) (Fin.ofNat 64 w))
  | 2 => some (.pktst sz (fRd w) (fRs1 w) arg)
  | 3 => guardOp (fRs1 w == 0) (.pktstm sz (fRd w) arg)
  | 4 => guardOp (fRs1 w == 0 && sz == 0) (.pktlay (fRd w) arg)
  | 5 => guardOp bare (.pktend .fwd)
  | 6 => guardOp bare (.pktend .drop)
  | 7 => guardOp bare (.pktend .recirc)
  | _ => none

/-- Major 0x39 (R321). -/
def decodeTable (w : Nat) : Option SOp :=
  let ok := fRd w == 0 && decide (w % 4096 < 64)
  let mk (op : TblOp) : Option SOp := guardOp ok (.table op (fRs1 w) (Fin.ofNat 64 w))
  match w / 4096 % 16 with
  | 0 => mk .lookup
  | 1 => mk .insert
  | 2 => mk .delete
  | _ => none

/-- Major 0x3E (R306). -/
def decodeSys (w : Nat) : Option SOp :=
  match w % 2048 with
  | 0 => guardOp (fRd w == 0 && fRs2 w == 0) (.trap (fRs1 w))
  | 1 => guardOp (decide (w % 67108864 = 1)) .eret
  | 2 => guardOp (decide (w % 67108864 = 2)) .wfe
  | _ => none

/-- Majors below 0x20. -/
def decodeLow (major w : Nat) : Option SOp :=
  let i : BitVec 16 := BitVec.ofNat 16 w
  let im (op : ImmOp) : Option SOp := some (.imm op (fRd w) (fRs1 w) i)
  let ld (op : LoadOp) : Option SOp := some (.load op (fRd w) (fRs1 w) i)
  let st (op : StoreOp) : Option SOp := some (.store op (fRd w) (fRs1 w) i)
  match major with
  | 0 => decodeAlu (aluOf (w % 2048)) w
  | 1 => decodeAlu (mulOf (w % 2048)) w
  | 2 => im .addi
  | 3 => im .andi
  | 4 => im .ori
  | 5 => im .xori
  | 6 => im .slti
  | 7 => im .sltiu
  | 8 => guardOp (decide (w % 65536 < 256)) (.shi (Fin.ofNat 4 (w / 64)) (fRd w) (fRs1 w) (Fin.ofNat 64 w))
  | 9 => guardOp (fRs1 w == 0) (.imm .lui (fRd w) (fRs1 w) i)
  | 10 => im .shori
  | 16 => ld .lb
  | 17 => ld .lbu
  | 18 => ld .lh
  | 19 => ld .lhu
  | 20 => ld .lw
  | 21 => ld .lwu
  | 22 => ld .ld
  | 24 => st .sb
  | 25 => st .sh
  | 26 => st .sw
  | 27 => st .sd
  | _ => none

/-- Majors from 0x20 on. -/
def decodeHigh (major w : Nat) : Option SOp :=
  let i : BitVec 16 := BitVec.ofNat 16 w
  let br (op : BranchOp) : Option SOp := some (.branch op (fRd w) (fRs1 w) i)
  match major with
  | 32 => br .eq
  | 33 => br .ne
  | 34 => br .lt
  | 35 => br .ge
  | 36 => br .ltu
  | 37 => br .geu
  | 38 => some (.jump (BitVec.ofNat 26 w))
  | 39 => some (.jal (BitVec.ofNat 26 w))
  | 40 => some (.jalr (fRd w) (fRs1 w) i)
  | 44 => decodeAtomic w
  | 45 => decodeBf w
  | 46 => decodeCheck w
  | 48 => guardOp (decide (w % 67108864 < 32)) (.fence (Fin.ofNat 32 w))
  | 49 => decodeThread w
  | 50 => guardOp (decide (w % 65536 = 0)) (.chin (fRd w) (fRs1 w))
  | 51 => guardOp (decide (w % 65536 = 0)) (.chout (fRd w) (fRs1 w))
  | 52 => guardOp (decide (w % 65536 < 2)) (.chtest (bitOf w 0) (fRd w) (fRs1 w))
  | 56 => decodePkt w
  | 57 => decodeTable w
  | 58 => guardOp (fRd w == 0 && decide (w % 65536 < 256)) (.prim (fRs1 w) (Fin.ofNat 256 w))
  | 60 => guardOp (fRs1 w == 0 && decide (w % 65536 < 4096)) (.csrr (fRd w) (Fin.ofNat 4096 w))
  | 61 => guardOp (fRd w == 0 && decide (w % 65536 < 4096)) (.csrw (fRs1 w) (Fin.ofNat 4096 w))
  | 62 => decodeSys w
  | _ => none

/-- The instruction that a 32-bit word stands for; none where R305 decodes it as ILLEGAL. -/
def SOp.decode (w : Nat) : Option SOp :=
  if w < 2147483648 then decodeLow (w / 67108864) w else if w < 4294967296 then decodeHigh (w / 67108864) w else none

/-- An instruction whose fields the encodings of R304 to R334 admit. -/
def SOp.wf : SOp → Bool
  | .alu op _ _ rs2 => !op.unary || rs2 == 0
  | .imm op _ rs1 _ => op != .lui || rs1 == 0
  | .bfx _ _ _ lsb wm => decide (lsb.val + wm.val + 1 ≤ 64)
  | .bfi _ _ lsb wm => decide (lsb.val + wm.val + 1 ≤ 64)
  | _ => true

end Sys2Proof.Machine
end

