-- ==== Sys2Proof/Machine/Flags.lean ====
section
/-! DEFINITION. What Stavte instructions compute: arithmetic, conditions, bitfields, check values and sign extension (R307 to R313). Stavte has no flag register; its conditions are the comparisons of the branches and of SLT. -/

namespace Sys2Proof.Machine

open Sys2Proof

/-- Leading zeros of a 64-bit value, 64 for 0 (R307). -/
def clz64 (a : DWord) : Nat := if a = 0 then 64 else 63 - a.toNat.log2

/-- Trailing zeros of a 64-bit value, 64 for 0 (R307). -/
def ctz64 (a : DWord) : Nat := ((List.range 64).find? fun i => bitOf a.toNat i).getD 64

/-- Set bits of a 64-bit value. -/
def popc64 (a : DWord) : Nat := ((List.range 64).filter fun i => bitOf a.toNat i).length

/-- The eight bytes reversed. -/
def bswap64 (a : DWord) : DWord := BitVec.ofNat 64 (beVal (leBytes 8 a.toNat))

/-- Signed division (R308). -/
def sdiv64 (a b : DWord) : DWord :=
  if b = 0 then (if a.slt 0 then BitVec.ofNat 64 (2 ^ 63) else BitVec.ofNat 64 (2 ^ 63 - 1))
  else if a = BitVec.ofNat 64 (2 ^ 63) ∧ b = BitVec.allOnes 64 then BitVec.ofNat 64 (2 ^ 63 - 1)
  else BitVec.ofInt 64 (a.toInt.tdiv b.toInt)

/-- Signed remainder (R308). -/
def srem64 (a b : DWord) : DWord :=
  if b = 0 then a
  else if a = BitVec.ofNat 64 (2 ^ 63) ∧ b = BitVec.allOnes 64 then 0
  else BitVec.ofInt 64 (a.toInt.tmod b.toInt)

/-- The result of an ALU operation (R307, R308). -/
def AluOp.eval (op : AluOp) (a b : DWord) : DWord :=
  let sh := b.toNat % 64
  match op with
  | .add => a + b
  | .sub => a - b
  | .and => a &&& b
  | .or => a ||| b
  | .xor => a ^^^ b
  | .andn => a &&& ~~~b
  | .sll => a <<< sh
  | .srl => a >>> sh
  | .sra => a.sshiftRight sh
  | .ror => a.rotateRight sh
  | .slt => if a.slt b then 1 else 0
  | .sltu => if a.ult b then 1 else 0
  | .min => if b.slt a then b else a
  | .max => if a.slt b then b else a
  | .minu => if b.ult a then b else a
  | .maxu => if a.ult b then b else a
  | .clz => BitVec.ofNat 64 (clz64 a)
  | .ctz => BitVec.ofNat 64 (ctz64 a)
  | .popc => BitVec.ofNat 64 (popc64 a)
  | .bswap => bswap64 a
  | .mul => a * b
  | .mulh => BitVec.ofInt 64 (a.toInt * b.toInt / 2 ^ 64)
  | .mulhu => BitVec.ofNat 64 (a.toNat * b.toNat / 2 ^ 64)
  | .div => sdiv64 a b
  | .divu => if b = 0 then BitVec.allOnes 64 else a / b
  | .rem => srem64 a b
  | .remu => if b = 0 then a else a % b

/-- The result of an immediate operation (R309). -/
def ImmOp.eval (op : ImmOp) (a : DWord) (i : BitVec 16) : DWord :=
  match op with
  | .addi => a + i.signExtend 64
  | .andi => a &&& i.zeroExtend 64
  | .ori => a ||| i.zeroExtend 64
  | .xori => a ^^^ i.zeroExtend 64
  | .slti => if a.slt (i.signExtend 64) then 1 else 0
  | .sltiu => if a.ult (i.signExtend 64) then 1 else 0
  | .lui => i.signExtend 64 <<< 16
  | .shori => (a <<< 16) ||| i.zeroExtend 64

/-- The ALU operation of a SHI kind. -/
def shiOp (k : Fin 4) : AluOp :=
  match k with
  | 0 => .sll
  | 1 => .srl
  | 2 => .sra
  | 3 => .ror

/-- A branch condition (R313). -/
def BranchOp.holds (op : BranchOp) (a b : DWord) : Bool :=
  match op with
  | .eq => a == b
  | .ne => a != b
  | .lt => a.slt b
  | .ge => !a.slt b
  | .ltu => a.ult b
  | .geu => !a.ult b

/-- BFX (R310). -/
def bfxEval (signed : Bool) (a : DWord) (lsb wm : Nat) : DWord :=
  let v := bitsOf a.toNat (lsb + wm) lsb
  if signed && bitOf v wm then BitVec.ofNat 64 (v + (2 ^ 64 - 2 ^ (wm + 1))) else BitVec.ofNat 64 v

/-- BFI (R310). -/
def bfiEval (old a : DWord) (lsb wm : Nat) : DWord :=
  BitVec.ofNat 64 (old.toNat - bitsOf old.toNat (lsb + wm) lsb * 2 ^ lsb + a.toNat % 2 ^ (wm + 1) * 2 ^ lsb)

/-- CRC (R311): the state after the low bytes of `b`. -/
def crcEval (ieee : Bool) (size : Nat) (a b : DWord) : DWord :=
  BitVec.ofNat 64 (crcFeed (if ieee then 0xEDB88320 else 0x82F63B78) (a.toNat % 2 ^ 32) (leBytes (2 ^ size) b.toNat))

/-- MIX (R311). -/
def mixEval (a b : DWord) : DWord :=
  let m := (a ^^^ b) * 0x9E3779B97F4A7C15#64
  m ^^^ (m >>> 29)

/-- Bytes of a load, and whether it sign-extends (R312). -/
def LoadOp.shape : LoadOp → Nat × Bool
  | .lb => (1, true) | .lbu => (1, false) | .lh => (2, true) | .lhu => (2, false) | .lw => (4, true) | .lwu => (4, false) | .ld => (8, false)

/-- Bytes of a store (R312). -/
def StoreOp.size : StoreOp → Nat
  | .sb => 1 | .sh => 2 | .sw => 4 | .sd => 8

/-- A loaded number of `n` bytes extended to 64 bits. -/
def extend (n : Nat) (signed : Bool) (v : Nat) : DWord :=
  if signed && bitOf v (8 * n - 1) then BitVec.ofNat 64 (v + (2 ^ 64 - 2 ^ (8 * n))) else BitVec.ofNat 64 v

/-- The new memory value of an atomic, with old value `old` and the comparand `cmp` of CAS (R314); none: CAS failed. -/
def AtomicOp.eval (op : AtomicOp) (n old cmp operand : Nat) : Option Nat :=
  match op with
  | .cas => if old = cmp % 2 ^ (8 * n) then some (operand % 2 ^ (8 * n)) else none
  | .fadd => some ((old + operand) % 2 ^ (8 * n))
  | .swap => some (operand % 2 ^ (8 * n))

/-- Instructions of profile A (R306, R332, R333). -/
def SOp.inA : SOp → Bool
  | .alu op _ _ _ => (match op with
    | .div => false | .divu => false | .rem => false | .remu => false
    | _ => true)
  | .imm .. => true
  | .shi .. => true
  | .branch _ _ _ o => decide (0 < o.toInt)
  | .jump o => decide (0 < o.toInt)
  | .bfx .. => true
  | .bfi .. => true
  | .crc .. => true
  | .mix .. => true
  | .quit _ => true
  | .pktld .. => true
  | .pktldm .. => true
  | .pktstm sz _ b => decide (16 ≤ b.val ∧ b.val + 2 ^ sz.val ≤ 64)
  | .pktlay .. => true
  | .prim _ c => decide (1 ≤ c.val ∧ c.val ≤ 14)
  | _ => false

/-- An action program that R333 admits: 1 to 32 instructions, each of profile A. -/
def programOk (ws : List Nat) : Bool :=
  decide (1 ≤ ws.length ∧ ws.length ≤ 32) && ws.all fun w => match SOp.decode w with
    | some i => i.inA
    | none => false

end Sys2Proof.Machine
end

