-- ==== Sys2Proof/Machine/Placement.lean ====
section
/-! DEFINITION. Parcels and their places (R361 to R368, R381): identifiers, creation, charging and access counts. -/

namespace Sys2Proof.Machine

open Sys2Proof

/-- A parcel identifier (R367). -/
def parcelId (kind region table index : Nat) : Nat := kind * 2 ^ 60 + region * 2 ^ 58 + table * 2 ^ 48 + index

def bucketId (r t b : Nat) : Nat := parcelId 1 r t b
def recordId (r t page : Nat) : Nat := parcelId 2 r t page
def qpctxId (qpn : Nat) : Nat := parcelId 3 0 0 qpn
def fwpageId (page : Nat) : Nat := parcelId 4 0 0 page

/-- Fields of a parcel identifier. -/
def idKind (id : Nat) : Nat := id / 2 ^ 60
def idRegion (id : Nat) : Nat := bitsOf id 59 58
def idTable (id : Nat) : Nat := bitsOf id 53 48
def idIndex (id : Nat) : Nat := bitsOf id 31 0

/-- A parcel: listed, or a bucket at the place its table's buckets took when they were created. -/
def Dev.parcel (d : Dev) (id : Nat) : Option Parcel :=
  match d.parcels.at none id with
  | some p => some p
  | none =>
    if idKind id = 1 then
      match d.tblPlaces.at none (64 * idRegion id + idTable id) with
      | some t => if idIndex id < t.nb then
          some { sram := t.sram, home := idRegion id, bytes := 64, tenant := t.tenant, majority := idRegion id }
        else none
      | none => none
    else none

def Dev.setParcel (d : Dev) (id : Nat) (p : Parcel) : Dev := { d with parcels := d.parcels.set none id (some p) }

/-- A parcel changed, if it exists. -/
def Dev.updParcel (d : Dev) (id : Nat) (f : Parcel → Parcel) : Dev :=
  match d.parcel id with
  | some p => d.setParcel id (f p)
  | none => d

/-- A parcel lies in tier D: in its home slot (R363). -/
def Dev.inTierD (d : Dev) (id : Nat) : Bool :=
  match d.parcel id with
  | some p => p.sram.isNone
  | none => false

/-- An access to a parcel made by a region adds one to its count (R368); region 4 stands for an agent that lies in none. -/
def Dev.touch (d : Dev) (id r : Nat) : Dev :=
  d.updParcel id fun p => { p with count := NMap.upd p.count 0 r (· + 1) }

/-- The identifier of a flow bucket (R367), and whether a barrier holds its packets (R375). -/
def fbId (r b : Nat) : Nat := parcelId 5 r 0 b
def Dev.fbMoving (d : Dev) (r b : Nat) : Bool := d.fbMoves.any fun m => m.id == fbId r b && !m.idle

/-- Bytes of SRAM that a region's placement space admits (R371). -/
def Dev.placeCap (d : Dev) (r : Nat) : Nat := d.fld F.CRU_RGN_PLACE_KIB r * 1024

/-- Free placement space of a region, in bytes. -/
def Dev.placeFree (d : Dev) (r : Nat) : Nat := d.placeCap r - d.placed.at 0 r

/-- A tenant's quota in bytes for tier N (0) or F (1); none: no limit (R381). -/
def Dev.quota (d : Dev) (t tier : Nat) : Option Nat :=
  let k := if tier = 0 then d.fld F.CRU_TENANT_N_KIB 0 t else d.fld F.CRU_TENANT_F_KIB 0 t
  if k = 0xFFFFFF then none else some (k * 1024)

/-- A tenant's quota admits more bytes in tier N (0) or F (1). -/
def Dev.quotaOk (d : Dev) (t tier n : Nat) : Bool :=
  match d.quota t tier with
  | none => true
  | some q => decide (d.tuse.at 0 (2 * t + tier) + n ≤ q)

/-- The tier in which SRAM of region `x` counts for a parcel with a majority region (R381). -/
def tierFor (majority x : Nat) : Nat := if majority = x then 0 else 1

/-- Placement space and quota admit a parcel in the SRAM of region `x` (R366, R370). -/
def Dev.room (d : Dev) (x majority tenant n : Nat) : Bool :=
  decide (n ≤ d.placeFree x) && d.quotaOk tenant (tierFor majority x) n

/-- The region with the most free placement space; ties to the lower region. DESIGN CHOICE, entry 14. -/
def Dev.freest (d : Dev) (among : List Nat) : Nat :=
  among.foldl (fun a x => if d.placeFree a < d.placeFree x then x else a) (among.headD 0)

/-- CRU_TUSE shows the KiB that a tenant holds (R381). -/
def Dev.showTuse (d : Dev) (t : Nat) : Dev :=
  (d.setFld F.CRU_TUSE_N_KIB 0 t (d.tuse.at 0 (2 * t) / 1024)).setFld F.CRU_TUSE_F_KIB 0 t (d.tuse.at 0 (2 * t + 1) / 1024)

/-- Bytes charged to a tenant in the SRAM of a region; nothing for the home slot. -/
def Dev.charge (d : Dev) (sram : Option Nat) (majority tenant n : Nat) : Dev :=
  match sram with
  | none => d
  | some x =>
    let d := { d with placed := d.placed.upd 0 x (· + n), tuse := d.tuse.upd 0 (2 * tenant + tierFor majority x) (· + n) }
    d.showTuse tenant

/-- The charge of `charge` given back. -/
def Dev.uncharge (d : Dev) (sram : Option Nat) (majority tenant n : Nat) : Dev :=
  match sram with
  | none => d
  | some x =>
    let d := { d with placed := d.placed.upd 0 x (· - n), tuse := d.tuse.upd 0 (2 * tenant + tierFor majority x) (· - n) }
    d.showTuse tenant

/-- The place of a new parcel (R366): tier N of its home region, tier F in the region with the most free space, the home slot. -/
def Dev.placeNew (d : Dev) (home tenant n : Nat) : Option Nat :=
  if d.room home home tenant n then some home
  else
    let x := d.freest ((List.range 4).filter (· != home))
    if d.room x home tenant n then some x else none

/-- A parcel created and charged. -/
def Dev.createParcel (d : Dev) (id home tenant n : Nat) : Dev :=
  let x := d.placeNew home tenant n
  (d.charge x home tenant n).setParcel id { sram := x, home := home, bytes := n, tenant := tenant, majority := home }

/-- The places for which a parcel is charged: its own, and that of its move (R372). -/
def Parcel.places (p : Parcel) : List (Option Nat) :=
  p.sram :: match p.move with
    | some m => [if m.step = 1 then m.dest else m.src]
    | none => []

/-- A parcel's charges given back, and made anew for what it has become (R381). -/
def Dev.recharge (d : Dev) (p q : Parcel) : Dev :=
  let d := d.each p.places fun x d => d.uncharge x p.majority p.tenant p.bytes
  d.each q.places fun x d => d.charge x q.majority q.tenant q.bytes

/-- A parcel freed and its charges given back; a move of it ends. -/
def Dev.freeParcel (d : Dev) (id : Nat) : Dev :=
  match d.parcel id with
  | none => d
  | some p =>
    let d := d.each p.places fun x d => d.uncharge x p.majority p.tenant p.bytes
    let d := d.onlyIf p.move.isSome fun d => d.setChip F.CRU_STAT_MOVING (d.fld F.CRU_STAT_MOVING - 1)
    { d with parcels := Sparse.erase d.parcels id }

end Sys2Proof.Machine
end

