-- ==== Sys2Proof/Machine/Tables.lean ====
section
/-! DEFINITION. Exact-match and direct-index tables: keys, lookups, the insert engine, the table command interface, templates and flow counts (R90 to R99, R105, R106, R110, R121). -/

namespace Sys2Proof.Machine

open Sys2Proof

/-! ### Which table (R91, R110, R121) -/

def Dev.tblEn (d : Dev) (r t : Nat) : Bool := d.flag F.CLS_TBL_EN r t
def Dev.tblKind (d : Dev) (r t : Nat) : Nat := d.fld F.CLS_TBL_KIND r t
def Dev.keyWords (d : Dev) (r t : Nat) : Nat := d.fld F.CLS_TBL_KEY_WORDS r t
def Dev.tblNb (d : Dev) (r t : Nat) : Nat := d.fld F.CLS_TBL_NB_K r t * 1024

/-- A table is a bridge table named in FWD_BRT (R121). -/
def Dev.isBridge (d : Dev) (t : Nat) : Bool :=
  (List.range 4).any fun k => d.flag F.FWD_BRT_EN 0 k && d.fld F.FWD_BRT_TBL 0 k == t

/-- The region whose engine and contents a table number names in a region: the home region of a bridge table (R121), else the region itself. -/
def Dev.homeOf (d : Dev) (r t : Nat) : Nat :=
  match (List.range 4).find? fun k => d.flag F.FWD_BRT_EN 0 k && d.fld F.FWD_BRT_TBL 0 k == t with
  | some k => d.fld F.FWD_BRT_HOME 0 k
  | none => r

/-- Bits of the key that the valid extracts of a table give. -/
def Dev.extractBits (d : Dev) (r t : Nat) : Nat :=
  ((List.range 16).map fun i => if d.flag F.CLS_KEX_VALID r (16 * t + i) then d.fld F.CLS_KEX_WIDTH r (16 * t + i) + 1 else 0).sum

/-- An LPM table that breaks R110: a wrong key width, or a lower-numbered enabled LPM table of the same family or on another stage. -/
def Dev.lpmBad (d : Dev) (r t : Nat) : Bool :=
  let kw := d.keyWords r t
  (kw != 2 && kw != 5) || (List.range t).any fun u => d.tblEn r u && d.tblKind r u == 1 &&
    (d.keyWords r u == kw || d.fld F.CLS_TBL_STAGE r u != d.fld F.CLS_TBL_STAGE r t)

/-- The ways of all enabled tables, for the chip limit of 2^28 (chapter 03). -/
def Dev.chipWays (d : Dev) : Nat :=
  ((List.range 4).map fun r => ((List.range 64).map fun t =>
    if d.tblEn r t && d.tblKind r t != 1 && d.homeOf r t == r then 4 * d.tblNb r t else 0).sum).sum

/-- BADCFG of a table: extracts wider than the key, the chip limit, R110, or settings that differ from a bridge table's home region (R121). -/
def Dev.tblBad (d : Dev) (r t : Nat) : Bool :=
  let h := d.homeOf r t
  decide (d.keyWords r t * 32 < d.extractBits r t) || (d.tblKind r t == 1 && d.lpmBad r t) ||
  (d.tblKind r t != 1 && decide (2 ^ 28 < d.chipWays)) ||
  (h != r && (d.tblKind r t != d.tblKind h t || d.keyWords r t != d.keyWords h t ||
    d.fld F.CLS_TBL_SEED r t != d.fld F.CLS_TBL_SEED h t || d.tblNb r t != d.tblNb h t))

/-- The BADCFG flags of enabled tables of a region shown. -/
def Dev.showBad (d : Dev) (r : Nat) : Dev :=
  d.each (List.range 64) fun t d =>
    let b := d.tblEn r t && d.tblBad r t
    if d.flag F.CLS_TBL_BADCFG r t == b then d else d.setFld F.CLS_TBL_BADCFG r t (natOf b)

/-- The BADCFG flags of every region: a change of one table may settle those of others (R91, R121). -/
def Dev.showAllBad (d : Dev) : Dev := d.each (List.range 4) fun r d => d.showBad r

/-- A table answers lookups: enabled, and its configuration stands. -/
def Dev.tblLive (d : Dev) (r t : Nat) : Bool := d.tblEn r t && !d.flag F.CLS_TBL_BADCFG r t

/-! ### Keys (R90) -/

/-- Byte `i` of the metadata of R81. -/
def Pkt.mdByte (k : Pkt) (i : Nat) : Nat :=
  match i with
  | 0 => k.pass % 4 * 64 + natOf k.deep * 32 + natOf k.frag * 16 + natOf k.malformed * 8 + natOf k.partialKey * 4 + k.colour % 4
  | 1 => k.nextTbl % 256
  | 2 => k.disp % 16 * 16 + k.resume % 16
  | 3 => k.malclass % 256
  | 4 => k.flowHash % 256
  | 5 => k.flowHash / 2 ^ 8 % 256
  | 6 => k.flowHash / 2 ^ 16 % 256
  | 7 => k.flowHash / 2 ^ 24 % 256
  | 8 => k.source % 256
  | 9 => k.prio % 256
  | 10 => k.bd % 256
  | 11 => k.bd / 256 % 256
  | 12 => k.tenant % 256
  | 13 => k.tenant / 256 % 256
  | 14 => k.dispArg % 256
  | 15 => k.dispArg / 256 % 256
  | _ => if i < 64 then (k.user.getD (i - 16) 0).toNat else Config.metaPast i % 256

/-- Bits `o` to `o + n - 1`, counted from the most significant bit of byte 0, of a byte-valued function. -/
def bitString (f : Nat → Nat) (o n : Nat) : Nat :=
  (List.range n).foldl (fun a j => 2 * a + f ((o + j) / 8) / 2 ^ (7 - (o + j) % 8) % 2) 0

/-- One key extract: its value, width, and whether it is partial. -/
def Dev.extract (d : Dev) (r i : Nat) (k : Pkt) : Nat × Nat × Bool :=
  let n := d.fld F.CLS_KEX_WIDTH r i + 1
  let o := 8 * d.fld F.CLS_KEX_BYTE r i + d.fld F.CLS_KEX_BIT r i
  if d.flag F.CLS_KEX_META r i then (bitString k.mdByte o n, n, false)
  else
    match (k.layers.filter fun l => l.1 == d.fld F.CLS_KEX_LAYER_ID r i)[d.fld F.CLS_KEX_OCC r i]? with
    | none => (0, n, true)
    | some l => (bitString (fun j => pbyte k.bytes (l.2 + j)) o n, n, decide (min k.bytes.length 256 * 8 < 8 * l.2 + o + n))

/-- The key that a table's extracts build from a packet, and whether it is partial. -/
def Dev.buildKey (d : Dev) (r t : Nat) (k : Pkt) : List Byte × Bool :=
  let xs := ((List.range 16).filter fun i => d.flag F.CLS_KEX_VALID r (16 * t + i)).map fun i => d.extract r (16 * t + i) k
  let v := xs.foldl (fun a x => a * 2 ^ x.2.1 + x.1) 0
  let w := (xs.map (·.2.1)).sum
  let kw := d.keyWords r t
  (beBytes (4 * kw) (v * 2 ^ (32 * kw - w)), xs.any (·.2.2))

/-! ### Positions of a key (R92, R93) -/

/-- Candidate buckets of a key; for a direct-index table the bucket of the way that the key's low bits index. -/
def Dev.buckets (d : Dev) (r t : Nat) (key : List Byte) : Nat × Nat :=
  let nb := d.tblNb r t
  if d.tblKind r t = 2 then let b := beVal key % (4 * nb) / 4; (b, b)
  else
    let seed := d.fld F.CLS_TBL_SEED r t
    (crc32c seed key * nb / 2 ^ 32, crc32c (seed ^^^ 0xFFFFFFFF) key * nb / 2 ^ 32)

/-- TAG of a key: h1[15:0] XOR h2[15:0] (R91). -/
def Dev.tagOf (d : Dev) (r t : Nat) (key : List Byte) : Nat :=
  let seed := d.fld F.CLS_TBL_SEED r t
  (crc32c seed key ^^^ crc32c (seed ^^^ 0xFFFFFFFF) key) % 2 ^ 16

def Dev.tbl (d : Dev) (h t : Nat) : Tbl := d.tbls.at {} (64 * h + t)

def Dev.updTbl (d : Dev) (h t : Nat) (f : Tbl → Tbl) : Dev := { d with tbls := d.tbls.upd {} (64 * h + t) f }

/-- Where an entry sits. -/
inductive Slot where
  | way (i : Nat)
  | stash (i : Nat)
  deriving DecidableEq, Repr

/-- The entry of a slot. -/
def Tbl.entry (x : Tbl) : Slot → Option Way
  | .way i => x.ways.at none i
  | .stash i => x.stash.at none i

def Tbl.setEntry (x : Tbl) (s : Slot) (w : Option Way) : Tbl :=
  match s with
  | .way i => { x with ways := x.ways.set none i w }
  | .stash i => { x with stash := x.stash.set none i w }

/-- Slots in which a key may sit: the ways of its buckets, in order, and the stash; in a direct-index table, its one way. -/
def Dev.slotsOf (d : Dev) (r t : Nat) (key : List Byte) : List Slot :=
  if d.tblKind r t = 2 then [.way (beVal key % (4 * d.tblNb r t))]
  else
    let b := d.buckets r t key
    ((List.range 4).map fun w => Slot.way (4 * b.1 + w)) ++
      (if b.1 = b.2 then [] else (List.range 4).map fun w => Slot.way (4 * b.2 + w)) ++ (List.range 32).map Slot.stash

/-- An entry matches a key; a direct-index way matches whatever key led to it. -/
def Dev.matchesKey (d : Dev) (h t : Nat) (key : List Byte) : Option Way → Bool
  | none => false
  | some w => d.tblKind h t == 2 || w.key == key

/-- The slot of the entry that a key matches, wherever it lies. -/
def Dev.findKey (d : Dev) (h t : Nat) (key : List Byte) : Option Slot :=
  (d.slotsOf h t key).find? fun s => d.matchesKey h t key ((d.tbl h t).entry s)

/-- The entries of a table counted, and shown in ENTRIES and STASH. -/
def Dev.showEntries (d : Dev) (h t : Nat) : Dev :=
  let x := d.tbl h t
  (d.setFld F.CLS_TBL_ENTRIES h t (x.ways.length + x.stash.length)).setFld F.CLS_TBL_STASH h t x.stash.length

/-! ### Buckets and record pages as parcels (R91) -/

/-- Bytes of a key record. -/
def Dev.recordBytes (d : Dev) (h t : Nat) : Nat := ceilDiv (d.keyWords h t * 32) 128 * 16

/-- The page that holds a record. -/
def Dev.recordPage (d : Dev) (h t rec : Nat) : Nat := rec * d.recordBytes h t / 4096

/-- A table's tenant (R381). -/
def Dev.tblTenant (d : Dev) (h t : Nat) : Nat := d.fld F.CRU_TBLCLS_TENANT 0 (64 * h + t)

/-- The bucket parcels of a table created together (R366). -/
def Dev.createBuckets (d : Dev) (h t : Nat) : Dev :=
  let n := d.tblNb h t * 64
  let ten := d.tblTenant h t
  let x := d.placeNew h ten n
  let d := d.charge x h ten n
  { d with tblPlaces := d.tblPlaces.set none (64 * h + t) (some { sram := x, nb := d.tblNb h t, tenant := ten }) }

/-- The bucket parcels of a table freed, those that have moved on their own among them. -/
def Dev.freeBuckets (d : Dev) (h t : Nat) : Dev :=
  match d.tblPlaces.at none (64 * h + t) with
  | none => d
  | some x =>
    let own := d.parcels.filter fun e => idKind e.1 == 1 && idRegion e.1 == h && idTable e.1 == t
    let d := d.each own fun e d => d.freeParcel e.1
    let d := d.uncharge x.sram h x.tenant ((x.nb - own.length) * 64)
    { d with tblPlaces := d.tblPlaces.set none (64 * h + t) none }

/-- The entries of a table, ways and stash. -/
def Tbl.all (x : Tbl) : List Way := (x.ways ++ x.stash).filterMap (·.2)

/-- The lowest record index that no entry uses (R91). -/
def Tbl.freeRecord (x : Tbl) : Nat :=
  let used := x.all.map (·.record)
  ((List.range (used.length + 1)).find? fun i => !used.contains i).getD 0

/-- The page of a record created when it does not yet exist. -/
def Dev.needPage (d : Dev) (h t rec : Nat) : Dev :=
  let id := recordId h t (d.recordPage h t rec)
  if (d.parcel id).isSome then d else d.createParcel id h (d.tblTenant h t) 4096

/-- The page of a record freed when no entry uses any record on it. -/
def Dev.dropPage (d : Dev) (h t rec : Nat) : Dev :=
  let p := d.recordPage h t rec
  if (d.tbl h t).all.any fun w => d.recordPage h t w.record == p then d else d.freeParcel (recordId h t p)

/-! ### The operations of one cycle (R22, R96, R131) -/

/-- What has been done on a table in the present cycle. -/
def Dev.wasTbl (d : Dev) (h t : Nat) : Option TblWas :=
  let x := d.tblWas.at {} (64 * h + t)
  if x.cycle = d.clk.now + 1 then some x else none

/-- A change noted beside the table as it stood before the present cycle's changes. -/
def Dev.keepTbl (d : Dev) (h t : Nat) (f : TblWas → TblWas) : Dev :=
  let x := match d.wasTbl h t with
    | some x => x
    | none => { cycle := d.clk.now + 1, tbl := d.tbl h t }
  { d with tblWas := d.tblWas.set {} (64 * h + t) (f x) }

/-- The device with a table as the lookups of the present cycle see it: as it was before the writes that complete operations in this cycle (R96). -/
def Dev.before (d : Dev) (h t : Nat) : Dev :=
  match d.wasTbl h t with
  | some x => { d with tbls := d.tbls.set {} (64 * h + t) x.tbl }
  | none => d

/-! ### Insertion (R95, R96, R98, R131) -/

/-- The first free way of a bucket. -/
def Tbl.freeWay (x : Tbl) (b : Nat) : Option Nat :=
  ((List.range 4).map (4 * b + ·)).find? fun i => (x.ways.at none i).isNone

/-- The other candidate bucket of an entry that sits in a bucket. -/
def Dev.otherBucket (d : Dev) (h t b : Nat) (w : Way) : Nat :=
  let c := d.buckets h t w.key
  if c.1 = b then c.2 else c.1

/-- One level of the breadth-first search: paths of ways to displace, nearest the free end first, extended by the other bucket of their last entry. -/
def Dev.bfsLevel (d : Dev) (h t : Nat) (x : Tbl) (seen : List Nat) : List (List Nat) → Option (List Nat) × List (List Nat) × List Nat
  | [] => (none, [], seen)
  | path :: rest =>
    let i := path.headD 0
    match x.ways.at none i with
    | none => d.bfsLevel h t x seen rest
    | some w =>
      let b := d.otherBucket h t (i / 4) w
      match x.freeWay b with
      | some f => (some (f :: path), [], seen)
      | none =>
        if seen.contains b then d.bfsLevel h t x seen rest
        else
          let more := (List.range 4).map fun j => (4 * b + j) :: path
          match d.bfsLevel h t x (b :: seen) rest with
          | (r, l, s) => (r, more ++ l, s)

/-- Breadth-first search for a path of at most `n` displacements that ends in a free way; the path lists ways from the free one back. -/
def Dev.bfs (d : Dev) (h t : Nat) (x : Tbl) : Nat → List (List Nat) → List Nat → Option (List Nat)
  | 0, _, _ => none
  | n + 1, paths, seen =>
    match d.bfsLevel h t x seen paths with
    | (some p, _, _) => some p
    | (none, l, s) => if l.isEmpty then none else d.bfs h t x n l s

/-- The moves of a path carried out from the free end backwards; each moved entry counts as hit (R131). -/
def Dev.shiftPath (d : Dev) (h t : Nat) (x : Tbl) : List Nat → Tbl
  | dst :: from_ :: rest =>
    let x := match x.ways.at none from_ with
      | some w =>
        let w := { w with hit := true, age := 0, alt := (d.buckets h t w.key).1 != dst / 4 }
        (x.setEntry (.way dst) (some w)).setEntry (.way from_) none
      | none => x
    d.shiftPath h t x (from_ :: rest)
  | _ => x

/-- A new entry placed: a free way of b1 or b2, a path of displacements, or the stash; with the R99 status. -/
def Dev.placeEntry (d : Dev) (h t : Nat) (w : Way) : Option Tbl × Nat :=
  let x := d.tbl h t
  let b := d.buckets h t w.key
  let put (x : Tbl) (i : Nat) : Tbl := x.setEntry (.way i) (some { w with alt := b.1 != i / 4 })
  if d.tblKind h t = 2 then (some (put x (beVal w.key % (4 * d.tblNb h t))), 0)
  else
    match x.freeWay b.1 with
    | some i => (some (put x i), 0)
    | none =>
      match x.freeWay b.2 with
      | some i => (some (put x i), 0)
      | none =>
        let starts := (List.range 4).map (fun j => [4 * b.1 + j]) ++ (if b.1 = b.2 then [] else (List.range 4).map fun j => [4 * b.2 + j])
        match d.bfs h t x 8 starts [b.1, b.2] with
        | some p => (some (put (d.shiftPath h t x p) (p.getLast?.getD 0)), 0)
        | none =>
          match (List.range 32).find? fun i => (x.stash.at none i).isNone with
          | some i => (some (x.setEntry (.stash i) (some w)), 2)
          | none => (none, 3)

/-- An insert (R95): replacement of a present key's ACTION and ADATA, or a new entry. -/
def Dev.insertKey (d : Dev) (h t : Nat) (key : List Byte) (action adata : Nat) : Dev × Nat :=
  match d.findKey h t key with
  | some s =>
    (d.updTbl h t fun x => x.setEntry s ((x.entry s).map fun w => { w with action := action, adata := adata, hit := true, age := 0, hitAt := d.clk.now + 1 }), 1)
  | none =>
    let w : Way := { key := key, hit := true, action := action, adata := adata, record := (d.tbl h t).freeRecord, hitAt := d.clk.now + 1 }
    match d.placeEntry h t w with
    | (none, st) => (d.bump .CLS_CNT h 5, st)
    | (some x, st) =>
      let d := { d with tbls := d.tbls.set {} (64 * h + t) x }
      ((d.needPage h t w.record).showEntries h t, st)

/-! ### Deletion (R97) -/

/-- STASH_MIGRATE (R97): the lowest stash entry that has a free way in b1 or b2 moves there. -/
def Dev.migrateStash (d : Dev) (h t : Nat) : Dev :=
  let x := d.tbl h t
  let target (w : Way) : Option Nat :=
    let b := d.buckets h t w.key
    match x.freeWay b.1 with
    | some i => some i
    | none => x.freeWay b.2
  match (List.range 32).findSome? fun i => ((x.stash.at none i).bind fun w => (target w).map fun j => (i, w, j)) with
  | none => d
  | some (i, w, j) =>
    let w := { w with hit := true, age := 0, alt := (d.buckets h t w.key).1 != j / 4 }
    (d.updTbl h t fun x => (x.setEntry (.way j) (some w)).setEntry (.stash i) none).showEntries h t

/-- An entry removed: its record page freed when unused, one stash entry moved, and the buckets of a disabled table freed once it is empty. -/
def Dev.removeEntry (d : Dev) (h t : Nat) (s : Slot) : Dev :=
  match (d.tbl h t).entry s with
  | none => d
  | some w =>
    let d := (d.updTbl h t fun x => x.setEntry s none).showEntries h t
    let d := (d.dropPage h t w.record).migrateStash h t
    if ¬ d.tblEn h t ∧ (d.tbl h t).all.isEmpty then d.freeBuckets h t else d

/-- A delete by key (R97). -/
def Dev.deleteKey (d : Dev) (h t : Nat) (key : List Byte) : Dev × Nat :=
  match d.findKey h t key with
  | none => (d, 4)
  | some s => (d.removeEntry h t s, 0)

/-! ### The insert engine and hits (R98, R131) -/

/-- Candidate buckets of a key as parcels, the second left out where it is the first. -/
def Dev.candidates (d : Dev) (h t : Nat) (key : List Byte) : List Nat :=
  let b := d.buckets h t key
  if b.1 = b.2 then [bucketId h t b.1] else [bucketId h t b.1, bucketId h t b.2]

/-- The parcels read for a key in some of its candidate buckets (R92, R368): the buckets, and the record pages of their ways whose tag matches; the one way that a direct-index key names needs no tag. -/
def Dev.parcelsRead (d : Dev) (h t : Nat) (key : List Byte) (ids : List Nat) : List Nat :=
  let pages := (d.slotsOf h t key).filterMap fun s => match s, (d.tbl h t).entry s with
    | .way i, some w =>
      if ids.contains (bucketId h t (i / 4)) && (d.tblKind h t == 2 || d.tagOf h t w.key == d.tagOf h t key) then some (recordId h t (d.recordPage h t w.record)) else none
    | _, _ => none
  ids ++ pages.eraseDups

/-- An engine's access to the parcels of a key (R368). -/
def Dev.touchKey (d : Dev) (h t r : Nat) (key : List Byte) : Dev :=
  d.each (d.parcelsRead h t key (d.candidates h t key)) fun b d => d.touch b r

/-- One request carried out: an INSERT (true) or a DELETE. -/
def Dev.engineOp (d : Dev) (h t : Nat) (ins : Bool) (key : List Byte) (action adata : Nat) : Dev × Nat :=
  if ins then d.insertKey h t key action adata else d.deleteKey h t key

/-- The requests of a cycle, the lowest rank first (R98). -/
def byRank (l : List (Nat × Bool × List Byte × Nat × Nat)) : List (Nat × Bool × List Byte × Nat × Nat) :=
  l.foldl (fun a x => a.takeWhile (fun y => decide (x.1 ≤ y.1)) ++ x :: a.dropWhile fun y => decide (x.1 ≤ y.1)) []

/-- A request of a rank to a table's insert engine, with its status (R98): requests of one cycle are performed lowest rank first, so a request that comes after higher-ranked ones of its cycle is answered as one before them, and their results stand. Statuses already returned in the cycle stay. DESIGN CHOICE, entry 199. -/
def Dev.tableReq (d : Dev) (h t rank : Nat) (ins : Bool) (key : List Byte) (action adata : Nat) : Dev × Nat :=
  let x : TblWas := (d.wasTbl h t).getD {}
  let lower := x.reqs.filter fun q => decide (q.1 < rank)
  let d := (d.keepTbl h t fun x => { x with reqs := x.reqs ++ [(rank, ins, key, action, adata)] }).touchKey h t h key
  if lower.isEmpty then d.engineOp h t ins key action adata
  else
    let run (d : Dev) (l : List (Nat × Bool × List Byte × Nat × Nat)) : Dev := d.each (byRank l) fun q d => (d.engineOp h t q.2.1 q.2.2.1 q.2.2.2.1 q.2.2.2.2).1
    let (e, st) := (run (d.before h t) (x.reqs.filter fun q => decide (rank ≤ q.1))).engineOp h t ins key action adata
    let e := run e lower
    ({ e with cnt := if st = 3 then (d.bump .CLS_CNT h 5).cnt else d.cnt }, st)

/-- A removal by the sweeper in the present cycle is cancelled (R131): the entry stays with HIT set and count 0. When the table has changed since the visit the entry is inserted again. -/
def Dev.unage (d : Dev) (h t : Nat) (key : List Byte) : Dev :=
  match (d.wasTbl h t).bind fun x => x.aged.find? fun a => a.1 == key with
  | none => d
  | some (_, was, left) =>
    let d := d.keepTbl h t fun x => { x with aged := x.aged.filter fun a => a.1 != key }
    let d := (d.setCounter .FWD_CNT 0 7 (d.counter .FWD_CNT 0 7 - 1))
    let d := { d with tly := d.tly.set 0 0x18 (d.tly.at 0 0x18 - 1) }
    let old := was.all.find? fun w => w.key == key
    match old with
    | none => d
    | some w =>
      if d.tbl h t = left then
        ((d.updTbl h t fun _ => was).needPage h t w.record).showEntries h t
      else (d.insertKey h t key w.action w.adata).1

/-- A hit of a lookup or of a learn lookup (R91, R131): HIT is set on the entry where it now stands. -/
def Dev.hitKey (d : Dev) (h t : Nat) (key : List Byte) : Dev :=
  let d := d.unage h t key
  match d.findKey h t key with
  | none => d
  | some s => d.updTbl h t fun x => x.setEntry s ((x.entry s).map fun (w : Way) => { w with hit := true, age := 0, hitAt := d.clk.now + 1 })

/-! ### The next hops of longest prefixes (R111 to R115, R119) -/

/-- What the slot of a node holds: the last run that begins at or before it (R112). -/
def TrieNode.slot (x : TrieNode) (i : Nat) : TrieSlot :=
  x.runs.foldl (fun a e => if e.1 ≤ i then e.2 else a) (.leaf none)

/-- A lookup from trie memory 16 − n on (R113): it reads the memory that holds its next node, passes the others by, and ends at the first leaf. -/
def Trie.walk (x : Trie) (addr : Nat) : Nat → TrieSlot → Option Nat
  | 0, .leaf nh => nh
  | 0, .child _ => none
  | _ + 1, .leaf nh => nh
  | n + 1, .child i =>
    let nd := x.nodes.at {} i
    if nd.mem + n = 15 then x.walk addr n (nd.slot (addr / 2 ^ nd.below % 2 ^ nd.stride)) else x.walk addr n (.child i)

/-- The next hop that an address finds in a VRF: from its root pointer through the 16 memories (R113). -/
def Trie.lookup (x : Trie) (v6 : Bool) (vrf addr : Nat) : Option Nat :=
  match x.roots.at none (2 * vrf + natOf v6) with
  | none => none
  | some i => x.walk addr 16 (.child i)

/-- Action program and ADATA of a next-hop entry (R115). -/
def Trie.nh (x : Trie) (i : Nat) : Nat × Nat := x.nhs.at (0, 0) i

/-- The next hop that an LPM table's key finds: 16-bit VRF, then the address (R110, R111). -/
def Trie.find (x : Trie) (key : List Byte) : Option (Nat × Nat) :=
  let v6 := key.length != 8
  let vrf := beVal (key.take 2)
  if 4096 ≤ vrf then none
  else (x.lookup v6 vrf (beVal (sliceB key 2 (if v6 then 16 else 4)))).map x.nh

/-- The trie that a lookup reads which enters memory 0 in a cycle: the one before the first commit at or after that cycle (R119). -/
def Dev.trieFor (d : Dev) (e : Nat) : Trie :=
  match d.trieFree.find? fun x => decide (e + 128 ≤ x.1) with
  | some x => x.2
  | none => d.trie

/-! ### Table configuration (R91, R489) -/

/-- CLS_TBL: values in range, and no change of KIND, KEY_WORDS, SEED or NB_K while the table holds entries; buckets are created, re-created and freed with EN. -/
def tblEffect (k : RegKey) (w : Write) (d : Dev) : Dev :=
  let v := d.wouldBe k w.value
  let r := k.n
  let t := k.i
  let h := d.homeOf r t
  let held := d.fld F.CLS_TBL_ENTRIES h t ≠ 0
  let old := d.word k
  let bad : Bool := match k.w with
    | 0 => F.CLS_TBL_KIND.ofWord v == 3 || decide (11 < F.CLS_TBL_STAGE.ofWord v) ||
        decide (F.CLS_TBL_KEY_WORDS.ofWord v < 1 ∨ 16 < F.CLS_TBL_KEY_WORDS.ofWord v)
    | 2 => decide (F.CLS_TBL_NB_K.ofWord v < 1 ∨ 16384 < F.CLS_TBL_NB_K.ofWord v)
    | _ => false
  let shape : Bool := match k.w with
    | 0 => F.CLS_TBL_KIND.ofWord v != F.CLS_TBL_KIND.ofWord old || F.CLS_TBL_KEY_WORDS.ofWord v != F.CLS_TBL_KEY_WORDS.ofWord old
    | 1 => v != old
    | 2 => v != old
    | _ => false
  if bad then d
  else if shape ∧ held then d.setFld F.CLS_TBL_HELDCFG r t 1
  else
    let was := (d.tblPlaces.at none (64 * r + t)).isSome
    let d := d.setWord k v
    let want := h == r && (d.tblEn r t || held) && d.tblKind r t != 1
    let d := if was ∧ (¬ want ∨ (shape ∧ k.w ≠ 1)) then d.freeBuckets r t else d
    let d := if want ∧ (d.tblPlaces.at none (64 * r + t)).isNone then d.createBuckets r t else d
    d.showAllBad

/-- CLS_KEX: the extracts of a table change, and with them its BADCFG. -/
def kexEffect (k : RegKey) (w : Write) (d : Dev) : Dev := (d.plainWrite k w.value).showBad k.n

/-- TABLE_CFG_WRITE (R91). -/
def execTableCfgWrite (region : Fin 4) (table : Fin 64) (word : Fin 6) (ws : List Write) (s : State) : Out := s.on fun d =>
  d.writeReg ⟨.CLS_TBL, region.val, table.val, word.val⟩ ws tblEffect

/-! ### The table command interface (R99, R105, R106) -/

/-- The key held in CLS_TKEY for a table. -/
def Dev.tkey (d : Dev) (r n : Nat) : List Byte :=
  ((List.range n).map fun i => beBytes 4 (d.fld F.CLS_TKEY_DATA r i)).flatten

/-- The 64 template bytes held in CLS_TKEY, the lowest in bits 7:0. -/
def Dev.tkeyBytes (d : Dev) (r : Nat) : List Byte :=
  ((List.range 16).map fun i => leBytes 4 (d.fld F.CLS_TKEY_DATA r i)).flatten

def Dev.tmpl (d : Dev) (r x : Nat) : Tmpl := d.tmpls.at {} (4096 * r + x)

/-- Bytes that a fix-up kind reaches: a two-byte field at its offset. -/
def fixBad (len f : Nat) : Bool := bitOf f 15 && decide (len < f % 128 + 2)

/-- The fix-ups and the length in CLS_TMPL_HDR. -/
def Dev.tmplHdr (d : Dev) (r : Nat) : Nat × List Nat :=
  (d.fld F.CLS_TMPL_HDR_LEN r, [d.fld F.CLS_TMPL_HDR_FIX0 r, d.fld F.CLS_TMPL_HDR_FIX1 r, d.fld F.CLS_TMPL_HDR_FIX2 r, d.fld F.CLS_TMPL_HDR_FIX3 r])

/-- OP 3 TMPL (R105): HALF = 1 stages the upper half; HALF = 0 replaces the whole template and empties the staging buffer. -/
def Dev.tmplCmd (d : Dev) (r index : Nat) : Dev × Nat :=
  if bitOf index 16 then ({ d with staged := d.staged.set [] r (d.tkeyBytes r) }, 0)
  else
    let (len, fixes) := d.tmplHdr r
    let up := d.staged.at [] r
    let d' := { d with staged := d.staged.set [] r [] }
    if len < 1 ∨ 128 < len ∨ fixes.any (fixBad len) then (d', 5)
    else
      let bytes := d.tkeyBytes r ++ sliceB up 0 64
      ({ d' with tmpls := d.tmpls.set {} (4096 * r + index % 4096) { bytes := bytes.take len, len := len, fixes := fixes } }, 0)

/-- OP 5 TREAD (R105): the named half, with the length and fix-ups, in the same registers. -/
def Dev.treadCmd (d : Dev) (r index : Nat) : Dev :=
  let x := d.tmpl r (index % 4096)
  let o := if bitOf index 16 then 64 else 0
  let d := d.each (List.range 16) fun i d => d.setFld F.CLS_TKEY_DATA r i (leVal (sliceB x.bytes (o + 4 * i) 4))
  let d := d.setFld F.CLS_TMPL_HDR_LEN r 0 x.len
  let d := d.setFld F.CLS_TMPL_HDR_FIX0 r 0 (x.fixes.getD 0 0)
  let d := d.setFld F.CLS_TMPL_HDR_FIX1 r 0 (x.fixes.getD 1 0)
  let d := d.setFld F.CLS_TMPL_HDR_FIX2 r 0 (x.fixes.getD 2 0)
  d.setFld F.CLS_TMPL_HDR_FIX3 r 0 (x.fixes.getD 3 0)

/-- OP 4 CREAD (R106): a flow-count pair read and cleared atomically. -/
def Dev.creadCmd (d : Dev) (r index : Nat) : Dev :=
  let p := d.flowCnt.at (0, 0) (262144 * r + index)
  let d := { d with flowCnt := d.flowCnt.set (0, 0) (262144 * r + index) (0, 0) }
  let d := (d.setFld F.CLS_TDATA_LO r 0 p.1).setFld F.CLS_TDATA_HI r 0 (p.1 / 2 ^ 32)
  d.setCounter .CLS_TBYTES r 0 p.2

/-- A table that an engine can work on: its buckets exist (R91). DEDUCED, entry 12. -/
def Dev.hasBuckets (d : Dev) (h t : Nat) : Bool := (d.tblPlaces.at none (64 * h + t)).isSome

/-- Status, and for LOOKUP the ACTION and ADATA, of a table operation by a requester of a rank: 0 LOOKUP, 1 INSERT, 2 DELETE (R92 to R99); a LOOKUP of an LPM table goes to the trie (R111); a cascade member changes no table by itself (R460). -/
def Dev.tableOp (d : Dev) (r t op : Nat) (key : List Byte) (action adata rank : Nat) : Dev × Nat × Nat × Nat :=
  let h := d.homeOf r t
  if op = 0 ∧ d.tblKind r t = 1 ∧ d.tblLive r t then
    match (d.trieFor d.clk.now).find key with
    | some (act, ad) => (d, 0, act, ad)
    | none => (d, 4, 0, 0)
  else if ¬ d.hasBuckets h t ∨ (op ≠ 0 ∧ d.member) then (d, 6, 0, 0)
  else
    match op with
    | 0 =>
      let d := (d.touchKey h t r key).hitKey h t key
      match (d.findKey h t key).bind (d.tbl h t).entry with
      | some w => (d, 0, w.action, w.adata)
      | none => (d, 4, 0, 0)
    | 1 =>
      let (d, st) := d.tableReq h t rank true key action adata
      (d, st, action, adata)
    | _ =>
      let (d, st) := d.tableReq h t rank false key 0 0
      (d, st, 0, 0)

/-- The command in CLS_TCMD carried out, with its STATUS (R99). -/
def Dev.runTcmd (d : Dev) (r op t index rank : Nat) : Dev :=
  let setSt (x : Dev × Nat) : Dev := x.1.setFld F.CLS_TCMD_STATUS r 0 x.2
  match op with
  | 3 => setSt (if d.member then (d, 6) else d.tmplCmd r index)
  | 4 => setSt (d.creadCmd r index, 0)
  | 5 => setSt (d.treadCmd r index, 0)
  | _ =>
    let adata := d.fld F.CLS_TDATA_HI r * 2 ^ 32 + d.fld F.CLS_TDATA_LO r
    let (d, st, act, ad) := d.tableOp r t op (d.tkey r (d.keyWords (d.homeOf r t) t)) (d.fld F.CLS_TACT_ACTION r) adata rank
    let d := if op = 0 ∧ st = 0 then
        ((d.setFld F.CLS_TACT_ACTION r 0 act).setFld F.CLS_TDATA_LO r 0 ad).setFld F.CLS_TDATA_HI r 0 (ad / 2 ^ 32)
      else d
    setSt (d, st)

/-- CLS_TCMD: operations 6 and 7 are discarded, and GO starts the command. Commands complete in their commit cycle. DESIGN CHOICE, entry 13. -/
def tcmdEffect (k : RegKey) (w : Write) (d : Dev) : Dev :=
  let v := d.wouldBe k w.value
  let op := F.CLS_TCMD_OP.ofWord v
  let go := bitOf w.value.toNat 31
  if 5 < op ∨ (go ∧ d.flag F.CLS_TCMD_BUSY k.n) then d
  else
    let d := d.setWord k v
    if go then d.runTcmd k.n op (F.CLS_TCMD_TBL.ofWord v) (F.CLS_TCMD_INDEX.ofWord v) (d.rank w.writer) else d

/-- A write of CLS_TCMD. -/
def Dev.writeTcmd (d : Dev) (r : Nat) (ws : List Write) : Dev := d.writeReg ⟨.CLS_TCMD, r, 0, 0⟩ ws tcmdEffect

/-- LOOKUP (R92, R99): table command OP 0. -/
def execLookup (region : Fin 4) (ws : List Write) (s : State) : Out := s.on fun d => d.writeTcmd region.val ws

/-- INSERT (R95): table command OP 1. -/
def execInsert (region : Fin 4) (ws : List Write) (s : State) : Out := s.on fun d => d.writeTcmd region.val ws

/-- DELETE (R97): table command OP 2. -/
def execDelete (region : Fin 4) (ws : List Write) (s : State) : Out := s.on fun d => d.writeTcmd region.val ws

/-- TMPL (R105): table command OP 3. -/
def execTmpl (region : Fin 4) (ws : List Write) (s : State) : Out := s.on fun d => d.writeTcmd region.val ws

/-- CREAD (R106): table command OP 4. -/
def execCread (region : Fin 4) (ws : List Write) (s : State) : Out := s.on fun d => d.writeTcmd region.val ws

/-- TREAD (R105): table command OP 5. -/
def execTread (region : Fin 4) (ws : List Write) (s : State) : Out := s.on fun d => d.writeTcmd region.val ws

end Sys2Proof.Machine
end

