-- ==== Sys2Proof/Machine/Forwarding.lean ====
section
/-! DEFINITION. The longest-prefix-match trie and its update queue, learning, and the sweeper (R110 to R135). -/

namespace Sys2Proof.Machine

open Sys2Proof

/-! ### The trie (R112, R113) -/

/-- Address bits of a family. -/
def famBits (v6 : Bool) : Nat := if v6 then 128 else 32

/-- Address bits that a level ends at, those that it starts at, and its stride: 16, then 8 each (R112). -/
def levelEnd (l : Nat) : Nat := 16 + 8 * l
def levelStart (l : Nat) : Nat := if l = 0 then 0 else 8 + 8 * l
def levelStride (l : Nat) : Nat := levelEnd l - levelStart l

/-- The number that names a node: by its address bits so far, level, VRF and family. -/
def nodeId (v6 : Bool) (vrf l path : Nat) : Nat := ((path * 16 + l) * 4096 + vrf) * 2 + natOf v6

/-- A slot of a level, by the address bits up to its end: a child where a longer prefix goes on, else the leaf of the longest prefix that covers it (R112). -/
def slotFor (rs : List (Prefix × Nat)) (v6 : Bool) (vrf l a : Nat) : TrieSlot :=
  let e := levelEnd l
  if rs.any fun x => decide (e < x.1.len) && x.1.bits / 2 ^ (x.1.len - e) == a then .child (nodeId v6 vrf (l + 1) a)
  else
    let best := rs.foldl (fun (b : Option (Prefix × Nat)) x =>
      if x.1.len ≤ e ∧ a / 2 ^ (e - x.1.len) = x.1.bits then
        match b with
        | none => some x
        | some y => if y.1.len < x.1.len then some x else b
      else b) none
    .leaf (best.map (·.2))

/-- A number put into a rising list without repeats. -/
def putRising (n : Nat) : List Nat → List Nat
  | [] => [n]
  | m :: t => if n < m then n :: m :: t else if n = m then m :: t else m :: putRising n t

/-- Adjacent runs of equal slots joined. -/
def joinRuns (l : List (Nat × TrieSlot)) : List (Nat × TrieSlot) :=
  l.foldr (fun x acc => x :: (match acc with
    | y :: t => if x.2 = y.2 then t else y :: t
    | [] => [])) []

/-- Where the contents of a node may change: at the slots that its prefixes begin and end at. -/
def cutsOf (rs : List (Prefix × Nat)) (l path : Nat) : List Nat :=
  let s := levelStart l
  let e := levelEnd l
  let cuts := rs.flatMap fun x =>
    if x.1.len ≤ s ∨ x.1.bits / 2 ^ (x.1.len - s) ≠ path then []
    else if e < x.1.len then
      let i := x.1.bits / 2 ^ (x.1.len - e) % 2 ^ levelStride l
      [i, i + 1]
    else
      let i := x.1.bits % 2 ^ (x.1.len - s) * 2 ^ (e - x.1.len)
      [i, i + 2 ^ (e - x.1.len)]
  (cuts.foldr putRising [0]).filter fun i => decide (i < 2 ^ levelStride l)

/-- A node as a list of runs of equal adjacent slots, in the memory of its level. DESIGN CHOICE, entry 200. -/
def nodeFor (rs : List (Prefix × Nat)) (v6 : Bool) (vrf l path : Nat) : TrieNode :=
  { mem := l, below := famBits v6 - levelEnd l, stride := levelStride l
    runs := joinRuns ((cutsOf rs l path).map fun i => (i, slotFor rs v6 vrf l (path * 2 ^ levelStride l + i))) }

/-- The nodes and the root pointer of a VRF and family made anew from its prefixes. -/
def Trie.rebuild (x : Trie) (v6 : Bool) (vrf : Nat) : Trie :=
  let rs := x.routes.filter fun e => e.1.v6 == v6 && e.1.vrf == vrf
  let root : Option Nat := if rs.isEmpty then none else some (nodeId v6 vrf 0 0)
  let old := x.nodes.filter fun e => !(e.1 % 8192 == 2 * vrf + natOf v6)
  let nodes := (List.range (if v6 then 15 else 3)).foldl (fun (m : NMap TrieNode) l =>
    let paths := (rs.filter fun e => l == 0 || decide (levelStart l < e.1.len)).foldl (fun a e => putRising (e.1.bits / 2 ^ (e.1.len - levelStart l) * natOf (l != 0)) a) []
    paths.foldl (fun m p => m.set {} (nodeId v6 vrf l p) (nodeFor rs v6 vrf l p)) m) old
  { x with roots := x.roots.set none (2 * vrf + natOf v6) root, nodes := nodes }

/-- A prefix added, given another next hop, or withdrawn. -/
def Trie.put (x : Trie) (p : Prefix) (nh : Option Nat) : Trie :=
  let routes := match nh with
    | none => x.routes.filter fun e => e.1 != p
    | some n =>
      if x.routes.any fun e => e.1 == p then x.routes.map fun (e : Prefix × Nat) => if e.1 = p then (p, n) else e
      else x.routes ++ [(p, n)]
  ({ x with routes := routes } : Trie).rebuild p.v6 p.vrf

/-! ### The trie update queue (R116 to R120) -/

/-- Base address and size of the ring. -/
def Dev.tuqBase (d : Dev) : Nat := d.fld F.FWD_TUQ_BASE_ADDR_HI * 2 ^ 32 + d.fld F.FWD_TUQ_BASE_ADDR_LO * 2 ^ 5
def Dev.tuqSize (d : Dev) : Nat := 2 ^ d.fld F.FWD_TUQ_CTL_LOG2_SIZE

/-- The 32 bytes of the next entry, when the builder has one to read (R116). -/
def Dev.tuqEntry (d : Dev) : Option (List Byte) :=
  if d.flag F.FWD_TUQ_CTL_EN ∧ d.fld F.FWD_TUQ_CI_CI % d.tuqSize ≠ d.fld F.FWD_TUQ_PI_PI % d.tuqSize then
    some (d.memBytes (d.tuqBase + 32 * (d.fld F.FWD_TUQ_CI_CI % d.tuqSize)) 32)
  else none

/-- An entry completed: its STATUS byte with DONE, then the consumer index; a failure counts in TUQ_FAIL (R116, R118). -/
def Dev.tuqDone (d : Dev) (st : Nat) : Dev :=
  let ci := d.fld F.FWD_TUQ_CI_CI % d.tuqSize
  let d := d.store (d.tuqBase + 32 * ci + 5) [BitVec.ofNat 8 (0x80 + st)]
  let d := d.setChip F.FWD_TUQ_CI_CI ((ci + 1) % d.tuqSize)
  d.onlyIf (decide (1 < st)) fun d => d.bump .FWD_CNT 0 6

/-- The prefix of an entry, if its VRF and length are in range (R118). -/
def tuqPrefix (e : List Byte) : Option Prefix :=
  let v6 := bitOf (e.getD 1 0).toNat 0
  let vrf := leVal (sliceB e 2 2)
  let len := (e.getD 4 0).toNat
  if 4095 < vrf ∨ famBits v6 < len then none
  else some { v6 := v6, vrf := vrf, len := len, bits := beVal (sliceB e 8 (if v6 then 16 else 4)) / 2 ^ (famBits v6 - len) }

/-- Prefixes of a family. -/
def Trie.count (x : Trie) (v6 : Bool) : Nat := (x.routes.filter fun e => e.1.v6 == v6).length

/-- USED_KIB after a change: a free value within its range. -/
def Dev.showTrieUse (d : Dev) : Dev :=
  ({ d with draws := d.draws + 1 }).setChip F.FWD_TRIE_STAT_USED_KIB (Config.trieUsedKib d.draws % 12289)

/-- ADD (R118): replacement of a present prefix's next hop, or a new prefix; beyond the capacity that is guaranteed for both families together an ADD may find no shadow space (R114). -/
def Dev.tuqAdd (d : Dev) (e : List Byte) : Dev :=
  match tuqPrefix e with
  | none => d.tuqDone 5
  | some p =>
    let nh := leVal (sliceB e 6 2)
    if d.shadow.routes.any fun x => x.1 == p then
      ({ d with shadow := d.shadow.put p (some nh) }).tuqDone 1
    else
      let past := decide (786432 < d.shadow.count false + natOf (!p.v6) ∨ 393216 < d.shadow.count true + natOf p.v6)
      let d' := { d with draws := d.draws + 1 }
      if past && Config.trieFull d.draws then d'.tuqDone 3
      else (({ d' with shadow := d.shadow.put p (some nh) }).showTrieUse).tuqDone 0

/-- DEL (R118). -/
def Dev.tuqDel (d : Dev) (e : List Byte) : Dev :=
  match tuqPrefix e with
  | none => d.tuqDone 5
  | some p =>
    if d.shadow.routes.any fun x => x.1 == p then
      (({ d with shadow := d.shadow.put p none }).showTrieUse).tuqDone 0
    else d.tuqDone 4

/-- SETNH (R115, R118). -/
def Dev.tuqSetnh (d : Dev) (e : List Byte) : Dev :=
  let nh := leVal (sliceB e 6 2)
  ({ d with shadow := { d.shadow with nhs := d.shadow.nhs.set (0, 0) nh ((e.getD 4 0).toNat, leVal (sliceB e 24 8)) } }).tuqDone 0

/-- COMMIT (R119, R134): every prepared change is published in all four regions at once; the nodes replaced are freed 128 cycles later. -/
def Dev.tuqCommit (d : Dev) : Dev :=
  let d := { d with trie := d.shadow, trieFree := d.trieFree ++ [(d.clk.now + 128, d.trie)] }
  let d := d.setChip F.FWD_TRIE_STAT_V4_PFX (d.trie.count false)
  let d := d.setChip F.FWD_TRIE_STAT_V6_PFX (d.trie.count true)
  (d.tally 0x20 1).tuqDone 0

/-- The next entry processed if its OP is the one a command stands for. -/
def Dev.tuqStep (d : Dev) (ok : Nat → Bool) (f : List Byte → Dev → Dev) : Dev :=
  match d.tuqEntry with
  | none => d
  | some e => d.onlyIf (ok (e.headD 0).toNat) (f e)

/-- TUQ_DOORBELL (R116): a write of FWD_TUQ_PI. -/
def execTuqDoorbell (ws : List Write) (s : State) : Out := s.on fun d =>
  d.writeReg ⟨.FWD_TUQ_PI, 0, 0, 0⟩ ws fun k w d => d.plainWrite k w.value

/-- TUQ_NOP (R117): the next entry is a NOP and completes; an OP above 4 ends with BADKEY. -/
def execTuqNop (s : State) : Out := s.on fun d =>
  d.tuqStep (fun op => op == 0 || decide (4 < op)) fun e d => d.tuqDone (if e.headD 0 = 0 then 0 else 5)

/-- TUQ_ADD (R118). -/
def execTuqAdd (s : State) : Out := s.on fun d => d.tuqStep (· == 1) fun e d => d.tuqAdd e

/-- TUQ_DEL (R118). -/
def execTuqDel (s : State) : Out := s.on fun d => d.tuqStep (· == 2) fun e d => d.tuqDel e

/-- TUQ_COMMIT (R119, R120): a COMMIT reached while a region is rebuilt waits. -/
def execTuqCommit (s : State) : Out := s.on fun d =>
  d.onlyIf d.rebuilding.isEmpty fun d => d.tuqStep (· == 3) fun _ d => d.tuqCommit

/-- TUQ_SETNH (R118). -/
def execTuqSetnh (s : State) : Out := s.on fun d => d.tuqStep (· == 4) fun e d => d.tuqSetnh e

/-- TRIE_NODE_FREE (R119): 128 cycles after a commit the replaced nodes are freed. -/
def execTrieNodeFree (s : State) : Out := s.on fun d =>
  match d.trieFree with
  | [] => d
  | x :: rest => ({ d.advanceTo x.1 with trieFree := rest }).showTrieUse

/-- FWD_TUQ_CTL (R489): LOG2_SIZE in 4 to 16 and unchanged while EN = 1. -/
def tuqCtlEffect (k : RegKey) (w : Write) (d : Dev) : Dev :=
  let v := d.wouldBe k w.value
  let n := F.FWD_TUQ_CTL_LOG2_SIZE.ofWord v
  if n < 4 ∨ 16 < n ∨ (d.flag F.FWD_TUQ_CTL_EN ∧ n ≠ d.fld F.FWD_TUQ_CTL_LOG2_SIZE) then d else d.setWord k v

/-- FWD_BRT: a second entry naming the same table is discarded. -/
def brtEffect (k : RegKey) (w : Write) (d : Dev) : Dev :=
  let v := d.wouldBe k w.value
  let twice := bitOf v.toNat 31 && (List.range 4).any fun j => j != k.i && d.flag F.FWD_BRT_EN 0 j && d.fld F.FWD_BRT_TBL 0 j == F.FWD_BRT_TBL.ofWord v
  if twice then d else (d.setWord k v).showAllBad

/-! ### Learning (R122 to R126) -/

/-- STATIC and BPORT of a bridge entry's ADATA (R122). -/
def adStatic (ad : Nat) : Bool := bitOf ad 63
def adBport (ad : Nat) : Nat := ad % 1024

/-- The arrival bridge port of a packet (R122, R123): an Ethernet port, or 16 plus the sending function; core-originated packets have none. -/
def Pkt.bport (k : Pkt) : Option Nat :=
  match k.fn with
  | some f => some (16 + f)
  | none => if k.source < 16 then some k.source else none

/-- A learn insert queued for the home region, merged with one already queued for the same key, or discarded when 4,096 wait (R124). -/
def Dev.queueLearn (d : Dev) (x : Learn) : Dev :=
  let q := d.learnIns.at [] x.home
  if q.any fun y => y.table == x.table && y.key == x.key then
    { d with learnIns := d.learnIns.set [] x.home (q.map fun y => if y.table = x.table ∧ y.key = x.key then { y with bport := x.bport } else y) }
  else if 4096 ≤ q.length then d.bump .FWD_CNT 0 3
  else { d with learnIns := d.learnIns.set [] x.home (q ++ [x]) }

/-- LEARN_REQUEST (R124): the region's learn engine looks up its oldest request in the shared table. -/
def execLearnRequest (region : Fin 4) (s : State) : Out := s.on fun d =>
  match d.learnReqs.at [] region.val with
  | [] => d
  | x :: rest =>
    let d := { d with learnReqs := d.learnReqs.set [] region.val rest }
    let e := d.before x.home x.table
    match (e.findKey x.home x.table x.key).bind (e.tbl x.home x.table).entry with
    | none => d.queueLearn { x with action := none }
    | some w =>
        if adBport w.adata = x.bport then d.hitKey x.home x.table x.key
        else if adStatic w.adata then d.bump .FWD_CNT 0 4
        else (d.bump .FWD_CNT 0 1).queueLearn { x with action := some w.action }

/-- The tallies and event of a failed learn (R126). -/
def Dev.learnFail (d : Dev) : Dev :=
  let d := (d.bump .FWD_CNT 0 2).tally 0x10 1
  let n := d.tly.at 0 0x10
  if d.fld F.FWD_LEARN_CFG_FAIL_LIMIT < n ∧ ¬ d.failRaised then ({ d with failRaised := true }).chipEvent 0x0D n else d

/-- The entry under a key is STATIC: nothing is learned over it (R122). -/
def Dev.staticAt (d : Dev) (h t : Nat) (key : List Byte) : Bool :=
  ((d.findKey h t key).bind (d.tbl h t).entry).any fun w => adStatic w.adata

/-- LEARN_INSERT (R122, R124, R126): the oldest queued insert runs on the home region's engine with the rank of learning (R98); an entry that software has installed as STATIC since the request was looked up stays. -/
def execLearnInsert (region : Fin 4) (s : State) : Out := s.on fun d =>
  match d.learnIns.at [] region.val with
  | [] => d
  | x :: rest =>
    let d := { d with learnIns := d.learnIns.set [] region.val rest }
    if ¬ d.hasBuckets x.home x.table then d
    else if d.staticAt x.home x.table x.key then d.bump .FWD_CNT 0 4
    else
      let (d, st) := d.tableReq x.home x.table 5000 true x.key (x.action.getD (d.fld F.FWD_LEARN_CFG_ACT)) x.bport
      match st with
      | 3 => d.learnFail
      | 1 => d
      | _ => (d.bump .FWD_CNT 0 0).tally 0x08 1

/-! ### The sweeper (R129 to R133) -/

/-- Positions of a table: its ways, then its stash. -/
def Dev.positions (d : Dev) (h t : Nat) : Nat := 4 * d.tblNb h t + 32

/-- A region's sweeper ages a table: an exact-match table with EN = 1 whose home is this region (R129). -/
def Dev.aged (d : Dev) (r t : Nat) : Bool := d.flag F.FWD_AGE_EN r t && d.homeOf r t == r && d.tblKind r t == 0

/-- Tables that a region's sweeper ages. -/
def Dev.agedTables (d : Dev) (r : Nat) : List Nat :=
  (List.range 64).filter fun t => d.aged r t

/-- The length of a round that starts now, and whether it is stretched: 16 visits per µs bound the region's aged tables together (R129). -/
def Dev.roundLen (d : Dev) (r t : Nat) : Nat × Bool :=
  let need := ((d.agedTables r).map fun u => ceilDiv (d.positions r u) (d.fld F.FWD_AGE_PERIOD_S r u)).sum
  let len := d.fld F.FWD_AGE_PERIOD_S r t * 1650000000
  if 16000000 < need then (ceilDiv (len * need) 16000000, true) else (len, false)

/-- A sweep round starts, with the PERIOD_S then in force (R129, R133). -/
def Dev.startRound (d : Dev) (r t at_ : Nat) : Dev :=
  let (len, slow) := d.roundLen r t
  let d := { d with sweeps := d.sweeps.set none (64 * r + t) (some { start := at_, len := len, pos := 0 }) }
  if slow then d.each (d.agedTables r) fun u d => d.setFld F.FWD_AGE_SLOW r u 1 else d.setFld F.FWD_AGE_SLOW r t 0

/-- FWD_AGE (R129, R133): PERIOD_S of 0 is discarded; EN starts the rounds. -/
def ageEffect (k : RegKey) (w : Write) (d : Dev) : Dev :=
  let v := d.wouldBe k w.value
  if F.FWD_AGE_PERIOD_S.ofWord v = 0 then d
  else
    let was := d.flag F.FWD_AGE_EN k.n k.i
    let d := d.setWord k v
    if d.flag F.FWD_AGE_EN k.n k.i then
      if was then d else d.startRound k.n k.i d.clk.now
    else { d with sweeps := d.sweeps.set none (64 * k.n + k.i) none }.setFld F.FWD_AGE_SLOW k.n k.i 0

/-- One visit of a position (R130): an entry with HIT is cleared; one without is counted, and removed at the second. A hit of the same cycle is taken after the visit (R131). -/
def Dev.visit (d : Dev) (h t pos : Nat) : Dev :=
  let nw := 4 * d.tblNb h t
  let sl := if pos < nw then Slot.way pos else Slot.stash (pos - nw)
  match (d.tbl h t).entry sl with
  | none => d
  | some w =>
    let d := d.onlyIf (decide (pos < nw)) fun d => d.touch (bucketId h t (pos / 4)) h
    if d.isBridge t ∧ adStatic w.adata then d
    else if w.hitAt = d.clk.now + 1 then d.updTbl h t fun x => x.setEntry sl (some { w with age := 0 })
    else if w.hit then d.updTbl h t fun x => x.setEntry sl (some { w with hit := false, age := 0 })
    else if w.age + 1 < 2 then d.updTbl h t fun x => x.setEntry sl (some { w with age := w.age + 1 })
    else
      let was : Tbl := (d.tbl h t).setEntry sl (some { w with hit := true, age := 0 })
      let d := (d.keepTbl h t id).removeEntry h t sl
      let d := d.keepTbl h t fun x => { x with aged := x.aged ++ [(w.key, was, d.tbl h t)] }
      (d.bump .FWD_CNT 0 7).tally 0x18 1

/-- SWEEPER_VISIT (R129, R130): the next position of the round, at its time. -/
def execSweeperVisit (region : Fin 4) (table : Fin 64) (s : State) : Out := s.on fun d =>
  let r := region.val
  let t := table.val
  match d.sweeps.at none (64 * r + t) with
  | none => d
  | some x =>
    let n := d.positions r t
    d.onlyIf (decide (x.pos < n) && d.aged r t) fun d =>
      let d := d.advanceTo (x.start + x.pos * x.len / n)
      let d := { d with sweeps := d.sweeps.set none (64 * r + t) (some { x with pos := x.pos + 1 }) }
      d.visit r t x.pos

/-- SWEEP_ROUND_START (R129, R133): the next round follows without a gap, once every position has been visited. -/
def execSweepRoundStart (region : Fin 4) (table : Fin 64) (s : State) : Out := s.on fun d =>
  let r := region.val
  let t := table.val
  match d.sweeps.at none (64 * r + t) with
  | none => d
  | some x => if d.aged r t ∧ x.pos < d.positions r t then d else (d.advanceTo (x.start + x.len)).startRound r t (x.start + x.len)

end Sys2Proof.Machine
end

