-- ==== Sys2Proof/Machine/Primitives.lean ====
section
/-! DEFINITION. Policers, primitives, action programs, and the lookup stages with their deferrals (R100 to R106, R123, R127, R152, R153, R332 to R334, R374). -/

namespace Sys2Proof.Machine

open Sys2Proof

/-! ### Policers (R149, R152) -/

/-- Units of 2^-40 bytes that a bucket gains per CLK_PIPE cycle at a rate in Mb/s (R149). -/
def gainPerCycle (mbps : Nat) : Nat := mbps * 2 ^ 40 / 13200

/-- A frame of `n` bytes metered: MODE 1 is RFC 2697, MODE 2 RFC 2698 (R152). `pre` is the pre-colour, green where the policer is colour-blind; the answer is the colour and the two buckets. -/
def meter (mode pre n : Nat) (c e : Nat) : Nat × Nat × Nat :=
  if mode = 1 then
    if pre = 0 ∧ n ≤ c then (0, c - n, e)
    else if pre ≤ 1 ∧ n ≤ e then (1, c, e - n)
    else (2, c, e)
  else
    if 2 ≤ pre ∨ e < n then (2, c, e)
    else if pre = 1 ∨ c < n then (1, c, e - n)
    else (0, c - n, e - n)

/-- A policer's buckets filled up to the present cycle. -/
def Dev.polFill (d : Dev) (r i : Nat) : Nat × Nat :=
  let (c, e, t) := d.pols.at (0, 0, 0) (65536 * r + i)
  let n := d.clk.now - t
  let cbs := d.fld F.SCH_POL_CBS r i * 2 ^ 40
  let ebs := d.fld F.SCH_POL_EBS_PBS r i * 2 ^ 40
  let g := c + n * gainPerCycle (d.fld F.SCH_POL_CIR r i)
  if d.fld F.SCH_POL_MODE r i = 2 then (min cbs g, min ebs (e + n * gainPerCycle (d.fld F.SCH_POL_PIR r i)))
  else (min cbs g, min ebs (e + (g - cbs)))

/-- The policer as a POLICE of the present cycle meets it: before a write of this cycle (R153). -/
def Dev.beforeWrite (d : Dev) (r i : Nat) : Option (Dev × PolWas) :=
  match d.polWas.at none (65536 * r + i) with
  | none => none
  | some x =>
    if x.cycle ≠ d.clk.now then none
    else
      let old := (List.range 4).foldl (fun (e : Dev) w => e.setWord ⟨.SCH_POL, r, i, w⟩ (x.words.getD w 0)) d
      some ({ old with pols := old.pols.set (0, 0, 0) (65536 * r + i) x.bucket }, x)

/-- POLICE of a packet of `len` bytes of colour `col`: the device with the policer charged, and the new colour (R152). -/
def Dev.meterNow (d : Dev) (r i len col : Nat) : Dev × Nat :=
  let mode := d.fld F.SCH_POL_MODE r i
  if mode = 0 then (d, col)
  else
    let (c, e) := d.polFill r i
    let pre := if d.flag F.SCH_POL_AWARE r i then col else 0
    let (col', c', e') := meter mode pre (len * 2 ^ 40) c e
    ({ d with pols := d.pols.set (0, 0, 0) (65536 * r + i) (c', e', d.clk.now) }, col')

/-- POLICE (R152, R153): in the commit cycle of a write of the policer the packet is metered against the state before the write, whose new buckets stand from then on. -/
def Dev.police (d : Dev) (r i len col : Nat) : Dev × Nat :=
  match d.beforeWrite r i with
  | none => d.meterNow r i len col
  | some (old, x) =>
    let (old', col') := old.meterNow r i len col
    ({ d with polWas := d.polWas.set none (65536 * r + i) (some { x with bucket := old'.pols.at (0, 0, 0) (65536 * r + i) }) }, col')

/-! ### Primitives (R103, R104) -/

/-- A disposition replaces the one before it, except that DROP stands (R104). -/
def Pkt.dispose (k : Pkt) (disp arg : Nat) (f : Pkt → Pkt) : Pkt :=
  if k.disp = 2 then k else f { k with disp := disp, dispArg := arg }

/-- User metadata bytes written; a write that leaves bytes 16 to 63 does nothing. -/
def Pkt.writeMd (k : Pkt) (byte n v : Nat) : Pkt :=
  if 16 ≤ byte ∧ byte + n ≤ 64 then { k with user := overB k.user (byte - 16) (leBytes n v) } else k

def Dev.primFwd (d : Dev) (id op : Nat) : Dev :=
  d.updPkt id fun k => k.dispose 1 (op % 4096) fun k => { k with cls := op / 256 % 16 }

def Dev.primDrop (d : Dev) (id op : Nat) : Dev := d.updPkt id fun k => k.dispose 2 (op % 256) fun k => k

def Dev.primMirror (d : Dev) (id op : Nat) : Dev :=
  let k := d.pkt id
  let m := op % 64
  if ¬ d.flag F.CLS_MIRROR_EN k.region m then d
  else if k.mirrors.length < 2 then d.setPkt id { k with mirrors := k.mirrors ++ [m] }
  else d.bump .CLS_CNT k.region 4

def Dev.primSetmd (d : Dev) (id op : Nat) : Dev :=
  d.updPkt id fun k => k.writeMd (op % 64) (2 ^ (op / 64 % 4)) (op / 2 ^ 32 % 2 ^ 32)

def Dev.primPolice (d : Dev) (id op : Nat) : Dev :=
  let k := d.pkt id
  let (d, col) := d.police k.region (op % 65536) k.frameLen k.colour
  d.updPkt id fun k => { k with colour := col, policed := k.policed + 1 }

def Dev.primCount (d : Dev) (id op : Nat) : Dev :=
  let k := d.pkt id
  let i := 262144 * k.region + op % 262144
  let x := d.flowCnt.at (0, 0) i
  { d with flowCnt := d.flowCnt.set (0, 0) i ((x.1 + 1) % 2 ^ 64, (x.2 + k.frameLen) % 2 ^ 64) }

def Dev.primEncap (d : Dev) (id op : Nat) : Dev := d.updPkt id fun k => { k with encaps := k.encaps ++ [op % 4096] }

def Dev.primDecap (d : Dev) (id op : Nat) : Dev :=
  let n := op % 16
  if 1 ≤ n ∧ n ≤ 11 then d.updPkt id fun k => { k with decap := k.decap + n } else d

def Dev.primAttachSa (d : Dev) (id op : Nat) : Dev := d.updPkt id fun k => { k with sa := some (op % 2 ^ 24) }

def Dev.primDeliverHost (d : Dev) (id op : Nat) : Dev :=
  d.updPkt id fun k => k.dispose 3 (op % 512) fun k =>
    { k with qbase := bitsOf op 24 16, qcount := bitsOf op 29 25 + 1, rss := bitOf op 30 }

def Dev.primDeliverPool (d : Dev) (id op : Nat) : Dev :=
  d.updPkt id fun k => k.dispose 4 (op % 64) fun k => { k with byFlow := bitOf op 6 }

def Dev.primRecirc (d : Dev) (id : Nat) : Dev := d.updPkt id fun k => k.dispose 5 0 fun k => k

def Dev.primNext (d : Dev) (id op : Nat) : Dev := d.updPkt id fun k => { k with nextTbl := op % 256 }

def Dev.primSetctx (d : Dev) (id op : Nat) : Dev :=
  d.updPkt id fun k =>
    let k := if bitOf op 31 then { k with bd := op % 4096 } else k
    if bitOf op 30 then { k with tenant := bitsOf op 24 16 } else k

/-- The primitive of a code on a packet (R103). -/
def Dev.prim (d : Dev) (id code op : Nat) : Dev :=
  match code with
  | 1 => d.primFwd id op
  | 2 => d.primDrop id op
  | 3 => d.primMirror id op
  | 4 => d.primSetmd id op
  | 5 => d.primPolice id op
  | 6 => d.primCount id op
  | 7 => d.primEncap id op
  | 8 => d.primDecap id op
  | 9 => d.primAttachSa id op
  | 10 => d.primDeliverHost id op
  | 11 => d.primDeliverPool id op
  | 12 => d.primRecirc id
  | 13 => d.primNext id op
  | 14 => d.primSetctx id op
  | _ => d

/-- A packet in a stage of its pipeline, whose action program may act on it. -/
def Dev.inStage (d : Dev) (id : Nat) : Bool :=
  d.hasPkt id && (match (d.pkt id).place with
    | .stage _ => true
    | _ => false)

/-- A packet that entered the pipeline before another has not yet reached the exit of stage 11. -/
def Dev.olderAhead (d : Dev) (id : Nat) : Bool :=
  ((d.pipeQ.at [] (d.pkt id).region).takeWhile (· != id)).any fun j => (d.pkt j).place != .stage 12

/-- A primitive as a command: the packet must be in a stage. -/
def Dev.primOn (d : Dev) (id code : Nat) (operand : DWord) : Dev := d.onlyIf (d.inStage id) fun d => d.prim id code operand.toNat

/-- FWD (R103, R104, R127). -/
def execFwd (packet : Nat) (operand : DWord) (s : State) : Out := s.on fun d => d.primOn packet 1 operand

/-- DROP (R103, R104). -/
def execDrop (packet : Nat) (operand : DWord) (s : State) : Out := s.on fun d => d.primOn packet 2 operand

/-- MIRROR (R103, R104). -/
def execMirror (packet : Nat) (operand : DWord) (s : State) : Out := s.on fun d => d.primOn packet 3 operand

/-- SETMD (R103). -/
def execSetmd (packet : Nat) (operand : DWord) (s : State) : Out := s.on fun d => d.primOn packet 4 operand

/-- POLICE (R103, R152): in the order of pipeline entry, so not while an older packet is still in the stages (R153). -/
def execPolice (packet : Nat) (operand : DWord) (s : State) : Out := s.on fun d => d.onlyIf (!d.olderAhead packet) fun d => d.primOn packet 5 operand

/-- COUNT (R103, R106). -/
def execCount (packet : Nat) (operand : DWord) (s : State) : Out := s.on fun d => d.primOn packet 6 operand

/-- ENCAP (R103, R105). -/
def execEncap (packet : Nat) (operand : DWord) (s : State) : Out := s.on fun d => d.primOn packet 7 operand

/-- DECAP (R103). -/
def execDecap (packet : Nat) (operand : DWord) (s : State) : Out := s.on fun d => d.primOn packet 8 operand

/-- ATTACH_SA (R103). -/
def execAttachSa (packet : Nat) (operand : DWord) (s : State) : Out := s.on fun d => d.primOn packet 9 operand

/-- DELIVER_HOST (R103). -/
def execDeliverHost (packet : Nat) (operand : DWord) (s : State) : Out := s.on fun d => d.primOn packet 10 operand

/-- DELIVER_POOL (R103). -/
def execDeliverPool (packet : Nat) (operand : DWord) (s : State) : Out := s.on fun d => d.primOn packet 11 operand

/-- RECIRC (R103). -/
def execRecirc (packet : Nat) (operand : DWord) (s : State) : Out := s.on fun d => d.primOn packet 12 operand

/-- NEXT (R103). -/
def execNext (packet : Nat) (operand : DWord) (s : State) : Out := s.on fun d => d.primOn packet 13 operand

/-- SETCTX (R103). -/
def execSetctx (packet : Nat) (operand : DWord) (s : State) : Out := s.on fun d => d.primOn packet 14 operand

/-! ### Action programs (R332, R334) -/

/-- A general register: g0 reads as zero (R302). -/
def gget (g : List DWord) (i : Fin 32) : DWord := if i = 0 then 0 else g.getD i.val 0

/-- A general register written; g0 discards (R302). -/
def gset (g : List DWord) (i : Fin 32) (v : DWord) : List DWord := if i = 0 then g else g.set i.val v

/-- Bytes of a packet's window as a big-endian number; bytes at or beyond the window length read as zero (R319). -/
def windowVal (bs : List Byte) (o n : Nat) : Nat :=
  (List.range n).foldl (fun a j => 256 * a + (if o + j < min 256 bs.length then (bs.getD (o + j) 0).toNat else 0)) 0

/-- Metadata bytes as a little-endian number (R319). -/
def Pkt.mdVal (k : Pkt) (o n : Nat) : Nat := (List.range n).foldr (fun j a => k.mdByte (o + j) + 256 * a) 0

/-- The byte offset of a layer by LAYER_ID and occurrence, all ones when it was not recorded (R319). -/
def Pkt.layerOff (k : Pkt) (xarg : Nat) : DWord :=
  match (k.layers.filter fun l => l.1 == xarg % 256)[xarg / 256]? with
  | some l => BitVec.ofNat 64 l.2
  | none => BitVec.allOnes 64

/-- The result of an instruction that only writes a register: the destination and its value. -/
def SOp.compute (i : SOp) (g : List DWord) : Option (Fin 32 × DWord) :=
  match i with
  | .alu op rd rs1 rs2 => some (rd, op.eval (gget g rs1) (gget g rs2))
  | .imm op rd rs1 v => some (rd, op.eval (gget g rs1) v)
  | .shi kd rd rs1 a => some (rd, (shiOp kd).eval (gget g rs1) (BitVec.ofNat 64 a.val))
  | .bfx sg rd rs1 lsb wm => some (rd, bfxEval sg (gget g rs1) lsb.val wm.val)
  | .bfi rd rs1 lsb wm => some (rd, bfiEval (gget g rd) (gget g rs1) lsb.val wm.val)
  | .crc ieee n rd rs1 rs2 => some (rd, crcEval ieee n.val (gget g rs1) (gget g rs2))
  | .mix rd rs1 rs2 => some (rd, mixEval (gget g rs1) (gget g rs2))
  | _ => none

/-- The result of a packet load on the current packet (R319). -/
def SOp.readPkt (i : SOp) (g : List DWord) (k : Pkt) : Option (Fin 32 × DWord) :=
  match i with
  | .pktld sz rd rs1 off => some (rd, BitVec.ofNat 64 (windowVal k.bytes (((gget g rs1).toNat + off.val) % 2 ^ 64) (2 ^ sz.val)))
  | .pktldm sz rd b => some (rd, BitVec.ofNat 64 (k.mdVal b.val (2 ^ sz.val)))
  | .pktlay rd l => some (rd, k.layerOff l.val)
  | _ => none

/-- An action program from an index on, within its fuel of 32 instructions (R332). -/
def Dev.runProgram (d : Dev) (id : Nat) (prog : List Nat) : Nat → Nat → List DWord → Dev
  | 0, _, _ => d
  | fuel + 1, pc, g =>
    match (prog[pc]?).bind SOp.decode with
    | none => d
    | some i =>
      match i.compute g with
      | some (rd, v) => d.runProgram id prog fuel (pc + 1) (gset g rd v)
      | none =>
        match i.readPkt g (d.pkt id) with
        | some (rd, v) => d.runProgram id prog fuel (pc + 1) (gset g rd v)
        | none =>
          match i with
          | .branch op rs1 rs2 o =>
            d.runProgram id prog fuel (if op.holds (gget g rs1) (gget g rs2) then pc + o.toNat else pc + 1) g
          | .jump o => d.runProgram id prog fuel (pc + o.toNat) g
          | .pktstm sz rs b =>
            (d.updPkt id fun k => k.writeMd b.val (2 ^ sz.val) (gget g rs).toNat).runProgram id prog fuel (pc + 1) g
          | .prim rs1 c => (d.prim id c.val (gget g rs1).toNat).runProgram id prog fuel (pc + 1) g
          | _ => d

/-- The slot whose program serves an entry that names `action` (R384). -/
def Dev.progSlot (d : Dev) (r action : Nat) (k : Pkt) : Nat :=
  if d.flag F.CRU_SWAP_ACTIVE r ∧ d.swapKind r = 0 ∧ d.swapOld r = action ∧ k.newProg then
    d.swapNew r
  else action

/-- What stands in a program slot for the learned-entry program of the factory (R128), whose words the manual does not give: one number above 32 bits, which no installed program holds. -/
def factoryProgram : List Nat := [2 ^ 32]

/-- The learned-entry program of the factory (R122, R128): a frame whose BPORT is its arrival port is discarded; an Ethernet BPORT is forwarded to, in class 0, and a host BPORT delivered to by RSS over the function's queues, of which QCOUNT names 32 at most. DESIGN CHOICE, entry 186. -/
def Dev.factoryAction (d : Dev) (id adata : Nat) : Dev :=
  let b := adata % 1024
  if (d.pkt id).bport = some b ∨ 527 < b then d.primDrop id 0
  else if b < 16 then d.primFwd id b
  else d.primDeliverHost id (b - 16 + (min 32 (max 1 (d.res (b - 16)).qpCnt) - 1) * 2 ^ 25 + 2 ^ 30)

/-- The action program of an entry run on a packet with g1 = ADATA (R103, R332). -/
def Dev.runAction (d : Dev) (r id action adata : Nat) : Dev :=
  let p := d.progs.at [] (256 * r + d.progSlot r action (d.pkt id))
  if p = factoryProgram then d.factoryAction id adata
  else d.runProgram id p 32 0 (BitVec.ofNat 64 0 :: BitVec.ofNat 64 adata :: List.replicate 30 0)

/-! ### Learning and flooding marks (R123, R127) -/

/-- The extract that supplies a bit of a table's key, counted from the first. -/
def Dev.extractAt (d : Dev) (r t bit : Nat) : Option Nat :=
  (((List.range 16).filter fun i => d.flag F.CLS_KEX_VALID r (16 * t + i)).foldl (fun (a : Nat × Option Nat) i =>
    let e := a.1 + d.fld F.CLS_KEX_WIDTH r (16 * t + i) + 1
    (e, if a.1 ≤ bit ∧ bit < e then some (16 * t + i) else a.2)) (0, none)).2

/-- The byte offset of the Ethernet layer that supplied a key's destination address, which begins at bit 16 of the key (R123, R491). -/
def Dev.destLayer (d : Dev) (r t : Nat) (k : Pkt) : Option Nat :=
  match d.extractAt r t 16 with
  | none => none
  | some i =>
    if d.flag F.CLS_KEX_META r i ∨ d.fld F.CLS_KEX_LAYER_ID r i ≠ 1 then none
    else ((k.layers.filter fun l => l.1 == 1)[d.fld F.CLS_KEX_OCC r i]?).map (·.2)

/-- The learn request of a lookup in a bridge table (R123). -/
def Dev.learnFrom (d : Dev) (r t id : Nat) (key : List Byte) : Dev :=
  let k := d.pkt id
  let bd := beVal (key.take 2)
  if ¬ d.isBridge t ∨ 4096 ≤ bd ∨ ¬ d.flag F.FWD_BD_LEARN_EN 0 bd then d
  else
    match d.destLayer r t k, k.bport with
    | some o, some bp =>
      let src := (List.range 6).map fun j => BitVec.ofNat 8 (pbyte k.bytes (o + 6 + j))
      if bitOf (src.headD 0).toNat 0 ∨ beVal src = 0 then d
      else { d with learnReqs := d.learnReqs.upd [] r (· ++ [{ home := d.homeOf r t, table := t, key := key.take 2 ++ src, bport := bp }]) }
    | _, _ => d

/-- A miss (R103, R127): in a bridge table the flood mark, then the miss action with argument 0. -/
def Dev.tableMiss (d : Dev) (r t id : Nat) (key : List Byte) : Dev :=
  let d := d.onlyIf (d.isBridge t) fun d => d.updPkt id fun k =>
    k.dispose 1 0xFFFF fun k => { k with floodBd := beVal (key.take 2) }
  d.runAction r id (d.fld F.CLS_TBL_MISS r t) 0

/-! ### Deferral (R100 to R102, R374) -/
/-- The entries of a key's candidate ways and of the stash. -/
def Dev.candidateWays (d : Dev) (h t : Nat) (key : List Byte) : List Way :=
  (d.slotsOf h t key).filterMap (d.tbl h t).entry

/-- A record lies in tier D. -/
def Dev.recordInD (d : Dev) (h t : Nat) (w : Way) : Bool := d.inTierD (recordId h t (d.recordPage h t w.record))

/-- A slot answers on chip: the stash always, a way when its bucket and its record lie in tier N or F (R92). -/
def Dev.onChip (d : Dev) (h t : Nat) (w : Way) : Slot → Bool
  | .stash _ => true
  | .way i => !d.inTierD (bucketId h t (i / 4)) && !d.recordInD h t w

/-- The slot of the entry that a key matches on chip (R92, R100). -/
def Dev.findOnChip (d : Dev) (h t : Nat) (key : List Byte) : Option Slot :=
  match d.findKey h t key with
  | none => none
  | some s =>
    match (d.tbl h t).entry s with
    | some w => if d.onChip h t w s then some s else none
    | none => none

/-- A candidate bucket that a lookup without an on-chip match waits for (R100): it lies in tier D, or the record of one of its ways whose tag matched does; the one way that a direct-index key names needs no tag. -/
def Dev.bucketDefers (d : Dev) (h t : Nat) (key : List Byte) (b : Nat) : Bool :=
  d.inTierD b ||
  (d.slotsOf h t key).any fun s => match s, (d.tbl h t).entry s with
    | .way i, some w => bucketId h t (i / 4) == b && (d.tblKind h t == 2 || d.tagOf h t w.key == d.tagOf h t key) && d.recordInD h t w
    | _, _ => false

/-- A lookup without an on-chip match defers (R100). -/
def Dev.mustDefer (d : Dev) (h t : Nat) (key : List Byte) : Bool := (d.candidates h t key).any (d.bucketDefers h t key)

/-- Packets parked in a region (R102). -/
def Dev.parked (d : Dev) (r : Nat) : Nat := (d.pkts.filter fun e => e.2.place == .parked && e.2.region == r).length

/-- A deferred packet joins the recirculation queue with PASS incremented and its copy of the candidates (R100). -/
def Dev.unpark (d : Dev) (id : Nat) (copy : List Way) : Dev :=
  let k := d.pkt id
  (d.setPkt id { k with pass := k.pass + 1, resumed := true, held := some copy }).joinRecirc id k.region

/-- Every outstanding fetch changed. -/
def Dev.mapFetch (d : Dev) (f : Fetch → Fetch) : Dev := { d with fetches := d.fetches.map f }

/-- A parked packet may re-enter: every fetch on whose list it stands has arrived, and it is the first there (R101). -/
def Dev.mayRejoin (d : Dev) (id : Nat) : Bool :=
  d.fetches.all fun f => !f.waiting.contains id || (f.arrived && f.waiting.head? == some id)

/-- The first packet that may re-enter, with its fetch. -/
def Dev.nextRejoin (d : Dev) : Option (Nat × Fetch) :=
  d.fetches.findSome? fun f => (f.waiting.head?).bind fun id => if d.mayRejoin id then some (id, f) else none

/-- Packets re-enter as long as one may, in the order of their lookups (R100, R101). -/
def Dev.rejoin (d : Dev) : Nat → Dev
  | 0 => d
  | n + 1 =>
    match d.nextRejoin with
    | none => d
    | some (id, f) => ((d.mapFetch fun g => { g with waiting := g.waiting.erase id }).unpark id (d.candidateWays f.home f.table (d.pkt id).pkey)).rejoin n

/-- Packets that stand on a list of a fetch, each counted once for each list. -/
def Dev.waiters (d : Dev) : Nat := (d.fetches.map fun f => f.waiting.length).sum

/-- Fetches of a region that a lookup in some buckets of a table joins (R101). -/
def Dev.fetchesFor (d : Dev) (r h t : Nat) (ids : List Nat) : List Fetch :=
  d.fetches.filter fun f => f.region == r && f.home == h && f.table == t && f.buckets.any ids.contains

/-- A packet leaves the pipeline and parks for a lookup at stage `k` (R100 to R102): it joins every fetch of its buckets, and what no fetch brings is fetched for it, which counts toward the heat of what the fetch names (R368). A fifth pass is refused, though its fetch completes, and a 4,097th packet discarded. -/
def Dev.defer (d : Dev) (r k id h t : Nat) (key : List Byte) : Dev :=
  let ids := d.candidates h t key
  let fs := d.fetchesFor r h t ids
  let rest := ids.filter fun b => !(fs.any fun f => f.buckets.contains b) && (fs.isEmpty || d.bucketDefers h t key b)
  let fetch (l : List Nat) (d : Dev) : Dev :=
    if rest.isEmpty then d
    else
      let d := d.each (d.parcelsRead h t key rest) fun b d => d.touch b r
      { d with fetches := d.fetches ++ [{ region := r, home := h, table := t, buckets := rest, issued := d.clk.now, waiting := l, members := l }] }
  let d := { d with pipeQ := d.pipeQ.upd [] r (·.erase id) }
  if (d.pkt id).pass = 3 then fetch [] ((d.bump .CLS_CNT r 0).freePkt id)
  else if 4096 ≤ d.parked r then (d.bump .CLS_CNT r 2).freePkt id
  else
    let d := d.updPkt id fun x => { x with resume := k, place := .parked, since := d.clk.now, pkey := key }
    let d := (d.tally (tlyRgn r + 0x20) 1).tallyMax (tlyRgn r + 0x90) (d.parked r)
    let d := d.mapFetch fun g => if fs.contains g then { g with members := g.members ++ [id], waiting := g.waiting ++ [id] } else g
    let d := fetch [id] d
    d.rejoin 1

/-- The end of a lookup (R103): HIT and the action program of the entry found, or the miss action; a bridge table's learn request. -/
def Dev.lookupResult (d : Dev) (r t id : Nat) (key : List Byte) (found : Option Way) : Dev :=
  let d := d.learnFrom r t id key
  match found with
  | none => d.tableMiss r t id key
  | some w => (d.hitKey (d.homeOf r t) t key).runAction r id w.action w.adata

/-- A deferred lookup repeated against the held copy (R100): the entry it holds decides, wherever it lies by now. -/
def Dev.repeatLookup (d : Dev) (r t id : Nat) (key : List Byte) (copy : List Way) : Dev :=
  let h := d.homeOf r t
  let d := (d.updPkt id fun k => { k with held := none, resumed := false }).leaveFetch id
  d.lookupResult r t id key (copy.find? fun w => d.tblKind h t == 2 || w.key == key)

/-- A lookup in an exact-match or direct-index table (R92, R96, R100, R101, R374). -/
def Dev.bucketLookup (d : Dev) (r k t id : Nat) (key : List Byte) : Dev :=
  let h := d.homeOf r t
  match (d.pkt id).held with
  | some copy => d.repeatLookup r t id key copy
  | none =>
    let ids := d.candidates h t key
    let d := d.each ((d.parcelsRead h t key ids).filter fun b => !d.inTierD b) fun b d => d.touch b r
    if ¬ (d.fetchesFor r h t ids).isEmpty then d.defer r k id h t key
    else
      let e := d.before h t
      match (e.findOnChip h t key).bind (e.tbl h t).entry with
      | some w => d.lookupResult r t id key (some w)
      | none => if e.mustDefer h t key then d.defer r k id h t key else d.lookupResult r t id key none

/-- A lookup of a packet in a table of its stage: a partial key under REQ_FULL is not looked up (R90). -/
def Dev.stageLookup (d : Dev) (r k t id : Nat) : Dev :=
  let (key, part) := if (d.pkt id).held.isSome then ((d.pkt id).pkey, false) else d.buildKey r t (d.pkt id)
  let d := d.onlyIf (d.pkt id).held.isNone fun d => d.updPkt id fun x => { x with partialKey := part }
  if part ∧ d.flag F.CLS_TBL_REQ_FULL r t then d.tableMiss r t id key
  else if d.tblKind r t = 1 then
    match (d.trieFor ((d.pkt id).slot + 96 + 128 * k)).find key with
    | some (act, ad) => d.runAction r id act ad
    | none => d.tableMiss r t id key
  else d.bucketLookup r k t id key

/-- A held copy whose lookup is no longer made, because the table is not live when its packet is back in the stage, is given up (R100). -/
def Dev.dropHeld (d : Dev) (id k : Nat) : Dev :=
  if d.hasPkt id ∧ (d.pkt id).place = .stage k ∧ (d.pkt id).held.isSome then
    (d.updPkt id fun x => { x with held := none, resumed := false }).leaveFetch id
  else d

/-- A packet that is still in its stage passes on to the next. -/
def Dev.nextStage (d : Dev) (id k : Nat) : Dev :=
  if d.hasPkt id ∧ (d.pkt id).place = .stage k then d.updPkt id fun x => { x with place := .stage (k + 1) } else d

/-- STAGE_LOOKUP (R103): the oldest packet of the pipeline that has reached the stage, 96 + 128 × stage cycles after its slot; the stage looks up the table that NEXT_TBL names when it is bound to it, and passes the packet on untouched otherwise. An action program that polices waits for the older packets of the pipeline (R153). -/
def execStageLookup (region : Fin 4) (stage : Fin 12) (s : State) : Out := s.on fun d0 =>
  let d := d0
  let r := region.val
  let k := stage.val
  match (d.pipeQ.at [] r).find? fun id => (d.pkt id).place == .stage k with
  | none => d
  | some id =>
    let d := d.advanceTo ((d.pkt id).slot + 96 + 128 * k)
    let t := (d.pkt id).nextTbl
    let e := if t < 64 ∧ d.tblLive r t ∧ d.fld F.CLS_TBL_STAGE r t = k then d.stageLookup r k t id else d
    if e.hasPkt id ∧ (e.pkt id).policed ≠ (d.pkt id).policed ∧ d.olderAhead id then d0
    else (e.dropHeld id k).nextStage id k

/-- DEFER_FETCH_COMPLETE (R100, R101): the oldest outstanding fetch of the region arrives, and the packets on its list that wait for no other re-enter in the order of their lookups. -/
def execDeferFetchComplete (region : Fin 4) (s : State) : Out := s.on fun d =>
  match d.fetches.find? fun f => f.region == region.val && !f.arrived with
  | none => d
  | some f =>
    let d := d.mapFetch fun g => if g = f then { g with arrived := true } else g
    let d := d.rejoin d.waiters
    let l := d.fetches.filter fun (g : Fetch) => !(g.arrived && g.members.isEmpty)
    { d with fetches := l }

end Sys2Proof.Machine
end

