-- ==== Sys2Proof/Machine/Spans.lean ====
section
/-! DEFINITION. Spans, the time counter and PPS (chapter 01, R28 to R38; chapter 02, R69 and R71; chapter 18, R487). -/

namespace Sys2Proof.Machine

open Sys2Proof

/-! ### Where boundaries fall (R29 to R31) -/

/-- The aligned rule governs: ALIGN = 1 while the time counter is PTP-synchronised (R29). -/
def Dev.aligned (d : Dev) : Bool := d.flag F.SPAN_CFG_ALIGN && d.flag F.MAC_TC_CTL_SYNC

/-- The span length in ns and in CLK_PIPE cycles (R28). -/
def Dev.spanNs (d : Dev) : Nat := d.fld F.SPAN_CFG_LEN_US * 1000
def Dev.spanCycles (d : Dev) : Nat := d.fld F.SPAN_CFG_LEN_US * 1650

/-- The first multiple of `len` at or after `t`. -/
def multipleFrom (len t : Nat) : Nat := ceilDiv t len * len

/-- The first point of the grid `a + k × len` at or after `t`. -/
def gridFrom (a len t : Nat) : Nat := a + multipleFrom len (t - a)

/-- SPAN_STATUS.SYNC shows whether the span in progress ends on a PTP-aligned boundary. DEDUCED, entry 5. -/
def Dev.showSync (d : Dev) : Dev :=
  d.setChip F.SPAN_STATUS_SYNC (match d.span.due with
    | .ptp _ => 1
    | .cycle _ => 0)

/-- The PTP time of a boundary: the multiple it falls on, or the time counter at it. -/
def Dev.boundPtp (d : Dev) : Nat :=
  match d.span.due with
  | .ptp ns => ns
  | .cycle _ => d.ptpNs

/-- The span that begins at the boundary just reached: an ordinary span under R29, or the transitional span of R30 when new settings were waiting. -/
def Dev.nextSpan (d : Dev) : Dev :=
  let b := d.boundPtp
  let wait := d.span.cfgWait
  let due : Bound × Nat :=
    if d.aligned then
      if wait = 1 then (.ptp (multipleFrom d.spanNs (b + 10000)), d.span.anchor)
      else (.ptp (multipleFrom d.spanNs (b + 1)), d.span.anchor)
    else if wait = 1 then (.cycle (d.clk.now + d.spanCycles), d.clk.now)
    else (.cycle (gridFrom d.span.anchor d.spanCycles (d.clk.now + 1)), d.span.anchor)
  let d := { d with span := { start := d.clk.now, due := due.1, anchor := due.2, trans := wait == 1, cfgWait := if wait = 1 then 2 else 0 } }
  (d.setChip F.SPAN_STATUS_PENDING (if wait = 1 then 1 else 0)).showSync

/-- New settings that the active sampled at the last boundary govern the span in progress of its standby (R451): its end is what R30 gives from that boundary. -/
def Dev.retimeSpan (d : Dev) : Dev :=
  let b := d.span.start
  let due : Bound × Nat :=
    if d.aligned then (.ptp (multipleFrom d.spanNs (d.ptpNs - nsOfCycles (d.clk.now - b) + 10000)), d.span.anchor)
    else (.cycle (b + d.spanCycles), b)
  let d := { d with span := { d.span with due := due.1, anchor := due.2, trans := true, cfgWait := 2 } }
  (d.setChip F.SPAN_STATUS_PENDING 1).showSync

/-- A step of the time counter, or synchronisation gained or lost (R31). `before`: the aligned rule governed the span in progress. A SPAN_CFG write that still waits counts for the new boundary: DESIGN CHOICE, entry 201. -/
def Dev.spanEvent (d : Dev) (before : Bool) : Dev :=
  if d.aligned then
    ({ d with span := { d.span with due := .ptp (multipleFrom d.spanNs (d.ptpNs + 10000)), trans := true } }).showSync
  else if before then
    let a := d.span.start
    ({ d with span := { d.span with due := .cycle (gridFrom a d.spanCycles (d.clk.now + 16500)), anchor := a, trans := true } }).showSync
  else d

/-- The aligned rule governs the span in progress. -/
def Dev.spanIsAligned (d : Dev) : Bool :=
  match d.span.due with
  | .ptp _ => true
  | .cycle _ => false

/-- The clock runs to the boundary due. -/
def Dev.toBoundary (d : Dev) : Dev :=
  match d.span.due with
  | .cycle c => d.advanceTo c
  | .ptp ns => d.advanceToPtp ns

/-! ### Step 1 of a boundary: tallies latch (R33, R35, R38, R487, R488) -/

/-- Base address of the tally bank. -/
def Dev.tlyBase (d : Dev) : Nat := d.fld F.TLY_BASE_BASE_HI * 2 ^ 32 + d.fld F.TLY_BASE_BASE_LO * 2 ^ 27

/-- The live tallies copied into a bank slot, header last with FILLING = 0. The copy, which may take up to 1 µs, is complete in the cycle of the boundary, so that no reader finds FILLING = 1: DESIGN CHOICE, entry 202. -/
def Dev.writeSlot (d : Dev) (seq : Nat) : Dev :=
  let base := d.tlyBase + 0x800000 * (seq % 16)
  let tallies := d.tly
  let d := (d.clearMem base (base + 0x800000)).storeVal base 4 (2 ^ 31 + seq % 2 ^ 31)
  let d := d.each tallies fun e d => d.storeVal (base + e.1) (if tlyIs32 e.1 then 4 else 8) e.2
  d.storeVal base 4 (seq % 2 ^ 31)

/-- The record of the span just completed, its sequence number and slot (R28, R35), and the latch of the tallies. -/
def Dev.latchSpan (d : Dev) : Dev :=
  let seq := (d.fld F.SPAN_SEQ_SEQ + 1) % 2 ^ 32
  let d := d.setChip F.SPAN_SEQ_SEQ seq
  let d := d.setChip F.SPAN_STATUS_SLOT (seq % 16)
  let d := d.setWord ⟨.SPAN_REC, 0, seq % 16, 0⟩
    (BitVec.ofNat 32 (natOf d.span.trans * 2 ^ 31 + natOf d.spanIsAligned * 2 ^ 30 + (d.clk.now - d.span.start) % 2 ^ 22))
  let d := d.onlyIf (d.flag F.TLY_BASE_EN) fun d => d.writeSlot seq
  { d with tly := [] }

/-! ### Register effects -/

/-- SPAN_CFG (R30, R34): a length outside 10 to 1,000 is discarded with BADCFG; otherwise the value waits for the boundary already due. -/
def spanCfgEffect (k : RegKey) (w : Write) (d : Dev) : Dev :=
  let len := F.SPAN_CFG_LEN_US.ofWord w.value
  if len < 10 ∨ 1000 < len then d.setChip F.SPAN_STATUS_BADCFG 1
  else
    let d := d.plainWrite k w.value
    ({ d with span := { d.span with cfgWait := 1 } }).setChip F.SPAN_STATUS_PENDING 1

/-- The time counter stepped by a signed number of ns (R69, R31); `restart` is what the step does to the gates (R65). -/
def Dev.stepClock (d : Dev) (restart : Dev → Dev) (step : Int) : Dev :=
  let before := d.spanIsAligned
  let tc := ((d.clk.tc : Int) + step * 2 ^ 32) % (tcModulus : Int)
  let d := { d with clk := { d.clk with tc := tc.toNat } }
  restart ((d.setChip F.MAC_TC_CTL_STEPPED 1).spanEvent before)

/-- MAC_TC_ADJ (R69): word +0x0 holds OFS_LO until a write of word +0x4 applies the signed 64-bit step. -/
def tcAdjEffect (restart : Dev → Dev) (k : RegKey) (w : Write) (d : Dev) : Dev :=
  if k.w = 0 then { d with tcOfsLo := w.value.toNat }
  else { d with tcOfsLo := 0 }.stepClock restart (toSigned64 (w.value.toNat * 2 ^ 32 + d.tcOfsLo))

/-- MAC_TC_CTL (R69, R71, R31): a change of SYNC ends the span in progress under R31; clearing PPS_OUT_EN ends the pulse on PTP_PPS_OUT (R77). -/
def tcCtlEffect (k : RegKey) (w : Write) (d : Dev) : Dev :=
  let before := d.spanIsAligned
  let sync := d.flag F.MAC_TC_CTL_SYNC
  let d := d.plainWrite k w.value
  let d := d.onlyIf (d.ppsOut && !d.flag F.MAC_TC_CTL_PPS_OUT_EN) fun d => { d.emit (.pin "PTP_PPS_OUT" false) with ppsOut := false }
  if d.flag F.MAC_TC_CTL_SYNC == sync then d else d.spanEvent before

/-- TLY_BASE (R487): BASE does not change while EN = 1, and a bank that would be written must lie in populated DRAM. -/
def tlyBaseEffect (k : RegKey) (w : Write) (d : Dev) : Dev :=
  let d' := d.plainWrite k w.value
  if d.flag F.TLY_BASE_EN ∧ d'.tlyBase ≠ d.tlyBase then d
  else if d'.flag F.TLY_BASE_EN ∧ ¬ d'.inDram d'.tlyBase 0x8000000 then d
  else d'

/-! ### Commands -/

/-- PPS_IN_EDGE (R77): the edge is captured into MAC_TC_TIME[1]. -/
def execPpsInEdge (s : State) : Out := s.on fun d =>
  d.onlyIf (d.flag F.MAC_TC_CTL_PPS_IN_EN) fun d =>
    let t := d.ptpNs
    let d := d.setFld F.MAC_TC_TIME_NS 0 1 (t % 10 ^ 9)
    let d := d.setFld F.MAC_TC_TIME_SEC_LO 0 1 (t / 10 ^ 9)
    d.setFld F.MAC_TC_TIME_SEC_HI 0 1 (t / 10 ^ 9 / 2 ^ 32)

/-- PPS_OUT_SECOND (R77): PTP_PPS_OUT is high for the first 100 ms of each second; the edge that falls due next is driven. -/
def execPpsOutSecond (s : State) : Out := s.on fun d =>
  d.onlyIf (d.flag F.MAC_TC_CTL_PPS_OUT_EN) fun d =>
    if d.ppsOut then
      let d := d.advanceToPtp (d.ptpNs / 10 ^ 9 * 10 ^ 9 + 100000000)
      { d.emit (.pin "PTP_PPS_OUT" false) with ppsOut := false }
    else
      let d := d.advanceToPtp ((d.ptpNs / 10 ^ 9 + 1) * 10 ^ 9)
      { d.emit (.pin "PTP_PPS_OUT" true) with ppsOut := true }

/-- SPAN_CFG_WRITE (R30, R34). -/
def execSpanCfgWrite (ws : List Write) (s : State) : Out := s.on fun d =>
  d.writeReg ⟨.SPAN_CFG, 0, 0, 0⟩ ws spanCfgEffect

/-- TALLY_BASE_WRITE (R487). -/
def execTallyBaseWrite (word : Fin 2) (ws : List Write) (s : State) : Out := s.on fun d =>
  d.writeReg ⟨.TLY_BASE, 0, 0, word.val⟩ ws tlyBaseEffect

end Sys2Proof.Machine
end

