-- ==== Sys2Proof/Machine/Gates.lean ====
section
/-! DEFINITION. Time-aware gates and kerf (R62 to R68). -/

namespace Sys2Proof.Machine

open Sys2Proof

/-- The limits of R62: 1 to 1,024 entries of 64 ns to 1 s, a cycle of 1 µs to 1 s. -/
def GateList.valid (g : GateList) : Bool :=
  decide (1 ≤ g.entries.length ∧ g.entries.length ≤ 1024) &&
  g.entries.all (fun e => decide (64 ≤ e.1 ∧ e.1 ≤ 1000000000)) &&
  decide (1000 ≤ g.cycle ∧ g.cycle ≤ 1000000000)

/-- The first instant `base + N × cycle` at or after `t`. -/
def firstCycle (base cycle t : Nat) : Nat := if t ≤ base then base else base + ceilDiv (t - base) cycle * cycle

/-- The admin list of a port as COMMIT captures it (R63), with its ConfigChangeTime at least 1 µs after the commit. -/
def Dev.adminList (d : Dev) (p : Nat) : GateList :=
  let n := d.fld F.MAC_GCL_CTL_LEN p
  let sec := d.ptpNs / 10 ^ 9 / 2 ^ 32 * 2 ^ 32 + d.fld F.MAC_GCL_BASE_SEC_SEC p
  let base := sec * 10 ^ 9 + d.fld F.MAC_GCL_BASE_NS_NS p
  let cycle := d.fld F.MAC_GCL_CYCLE_NS p
  { entries := (List.range n).map fun i => (d.fld F.MAC_GCL_INTERVAL p i, d.fld F.MAC_GCL_GATES p i)
    cycle := cycle
    base := base
    start := firstCycle base cycle (d.ptpNs + 1000) }

/-- The first entry of the operational list takes effect at the PTP instant `t`, where a cycle starts. -/
def Dev.startCycle (d : Dev) (p t : Nat) : Dev :=
  match (d.port p).gateOper with
  | none => d
  | some g =>
    let e := g.entries.headD (0, 255)
    d.updPort p fun s => { s with gateIdx := 0, gates := e.2, gateNext := t + e.1, gateCycle := t + g.cycle }

/-- MAC_GCL_CTL (R62, R63): LEN in 1 to 1,024; COMMIT captures the admin list and replaces a pending one. -/
def gclCtlEffect (k : RegKey) (w : Write) (d : Dev) : Dev :=
  let v := d.wouldBe k w.value
  let len := F.MAC_GCL_CTL_LEN.ofWord v
  let p := k.n
  if len < 1 ∨ 1024 < len then d
  else
    let d := d.setWord k v
    if bitOf w.value.toNat 31 then
      (d.setFld F.MAC_GCL_CTL_PENDING p 0 1).updPort p fun s => { s with gatePend := some (d.adminList p) }
    else d

/-- GCL_COMMIT (R63). -/
def execGclCommit (port : Fin 16) (ws : List Write) (s : State) : Out := s.on fun d =>
  d.onlyIf (d.isPort port.val) fun d => d.writeReg ⟨.MAC_GCL_CTL, port.val, 0, 0⟩ ws gclCtlEffect

/-- GCL_CONFIG_CHANGE (R63): at the ConfigChangeTime the captured list becomes operational, or BADLIST is set; a captured list that breaks a limit has taken the place of a pending one until then: DESIGN CHOICE, entry 209. -/
def execGclConfigChange (port : Fin 16) (s : State) : Out := s.on fun d =>
  let p := port.val
  match (d.port p).gatePend with
  | none => d
  | some g =>
    let d := d.advanceToPtp g.start
    let d := (d.setFld F.MAC_GCL_CTL_PENDING p 0 0).updPort p fun s => { s with gatePend := none }
    if g.valid then (d.updPort p fun s => { s with gateOper := some g }).startCycle p g.start
    else d.setFld F.MAC_GCL_CTL_BADLIST p 0 1

/-- GATE_ENTRY_CHANGE (R62, R64): the entry's interval expires before the cycle ends; after the last entry its states hold. -/
def execGateEntryChange (port : Fin 16) (s : State) : Out := s.on fun d =>
  let p := port.val
  let st := d.port p
  match st.gateOper with
  | none => d
  | some g =>
    match g.entries[st.gateIdx + 1]? with
    | none => d
    | some e =>
      d.onlyIf (decide (st.gateNext < st.gateCycle)) fun d =>
        (d.advanceToPtp st.gateNext).updPort p fun s =>
          { s with gateIdx := st.gateIdx + 1, gates := e.2, gateNext := st.gateNext + e.1 }

/-- GATE_CYCLE_START (R64): the cycle ends, cutting the list off, and the list restarts. -/
def execGateCycleStart (port : Fin 16) (s : State) : Out := s.on fun d =>
  let p := port.val
  d.onlyIf (d.port p).gateOper.isSome fun d =>
    let t := (d.port p).gateCycle
    (d.advanceToPtp t).startCycle p t

/-- A step of the time counter (R65): every gate keeps the states in effect, and each list restarts at its first cycle start under the new time. -/
def Dev.restartGates (d : Dev) : Dev :=
  d.each (List.range 16) fun p d =>
    match (d.port p).gateOper with
    | none => d
    | some g =>
      let t := firstCycle g.base g.cycle d.ptpNs
      d.updPort p fun s => { s with gateIdx := g.entries.length, gateNext := t, gateCycle := t }

/-- TIME_COUNTER_STEP (R69, R65, R31): a write of word +0x4 of MAC_TC_ADJ. -/
def execTimeCounterStep (ws : List Write) (s : State) : Out := s.on fun d =>
  d.writeReg ⟨.MAC_TC_ADJ, 0, 0, 1⟩ ws (tcAdjEffect Dev.restartGates)

/-! ### Gate states and kerf -/

/-- The gates follow the operational list (R62); a port that has had none yet keeps its gates open. DESIGN CHOICE, entry 191. -/
def Dev.gated (d : Dev) (p : Nat) : Bool := d.flag F.MAC_GCL_CTL_ENABLE p && (d.port p).gateOper.isSome

/-- The gate of a class is open. -/
def Dev.gateOpen (d : Dev) (p c : Nat) : Bool := !d.gated p || bitOf (d.port p).gates c

/-- Changes of a gate list from entry `i` on, starting at PTP instant `t`, up to `stop`. -/
def gateChanges (es : List (Nat × Nat)) (t stop : Nat) : List (Nat × Nat) :=
  match es with
  | [] => []
  | e :: rest => if t < stop then (t, e.2) :: gateChanges rest (t + e.1) stop else []

/-- The changes of the operational list's gates to come: the rest of the cycle and the next two cycles. -/
def PortSt.ownChanges (st : PortSt) : List (Nat × Nat) :=
  match st.gateOper with
  | none => []
  | some g =>
    gateChanges (g.entries.drop (st.gateIdx + 1)) st.gateNext st.gateCycle ++
      gateChanges g.entries st.gateCycle (st.gateCycle + g.cycle) ++
      gateChanges g.entries (st.gateCycle + g.cycle) (st.gateCycle + 2 * g.cycle)

/-- The changes of a port's gates to come, in order: those of the operational list, and those of the pending list from its ConfigChangeTime on (R66). -/
def Dev.gatesToCome (d : Dev) (p : Nat) : List (Nat × Nat) :=
  let st := d.port p
  match st.gatePend with
  | some n =>
    if n.valid then st.ownChanges.filter (fun e => decide (e.1 < n.start)) ++ gateChanges n.entries n.start (n.start + n.cycle) else st.ownChanges
  | none => st.ownChanges

/-- The PTP instant of the next closing of a class's gate (R66): its first change to closed. -/
def Dev.nextClosing (d : Dev) (p c : Nat) : Option Nat :=
  ((d.gatesToCome p).find? fun e => !bitOf e.2 c).map (·.1)

/-- The maximum frame of a class (R67). -/
def Dev.maxFrame (d : Dev) (p c : Nat) : Nat :=
  let m := d.fld F.MAC_QMAXF_MAXF p c
  if m = 0 then d.fld F.MAC_PORT_CFG_MAX_LEN p else m

/-- The present instant lies within the kerf of a class before its next closing (R66, R67). -/
def Dev.inKerf (d : Dev) (p c : Nat) : Bool :=
  d.flag F.MAC_GCL_CTL_ENABLE p && (match d.nextClosing p c with
    | none => false
    | some t =>
      let left := t * 2 ^ 32 - d.clk.tc
      if d.flag F.MAC_KERF_AUTO p c then decide (left * d.portSpeed p < (d.maxFrame p c + 20) * 8 * 2 ^ 32)
      else decide (left < d.fld F.MAC_KERF_NS p c * 2 ^ 32))

end Sys2Proof.Machine
end

