-- ==== Sys2Proof/Machine/TimeSync.lean ====
section
/-! DEFINITION. Synchronisation of the time counter: writes of SYNC, and the time-aware system of the factory image (R31, R71). -/

namespace Sys2Proof.Machine

open Sys2Proof

/-- The image in the bank that runs is the one of manufacture (R39, R71). -/
def Dev.factoryRuns (d : Dev) : Bool := d.released && !d.boot.programmed.contains (d.fld F.BOOT_STAT_BANK)

/-- The EUI-64 formed from the base MAC address (R71): FF-FE between its halves. PRESUMED (IEEE), entry 195. -/
def Dev.clockIdentity (d : Dev) : Nat := d.board.baseMac / 2 ^ 24 * 2 ^ 40 + 0xFFFE * 2 ^ 24 + d.board.baseMac % 2 ^ 24

/-- The device's own vector as a grandmaster candidate. -/
def Dev.ownVector (d : Dev) : SyncVector := ⟨248, Config.clockQuality % 2 ^ 32, 248, d.clockIdentity, 0⟩

/-- A vector as the number by which vectors are compared, the lowest being the best. -/
def vectorValue (v : SyncVector) : Nat :=
  ((((v.priority1 * 2 ^ 32 + v.quality) * 256 + v.priority2) * 2 ^ 64) + v.identity) * 65536 + v.steps

/-- SYNC set or cleared by the servo: the span in progress follows R31. -/
def Dev.setSync (d : Dev) (b : Bool) : Dev :=
  if d.flag F.MAC_TC_CTL_SYNC == b then d
  else let before := d.spanIsAligned; (d.setChip F.MAC_TC_CTL_SYNC (natOf b)).spanEvent before

/-- The master chosen among the device and the announce messages received (R71): the lowest vector. A message from the port of the present master replaces what that port said before. -/
def Dev.announced (d : Dev) (p : Nat) (v : SyncVector) : Dev :=
  let cur := match d.timeAware.best with
    | some (q, b) => if q = p then vectorValue d.ownVector else vectorValue b
    | none => vectorValue d.ownVector
  if vectorValue v < cur then { d with timeAware := { d.timeAware with best := some (p, v) } }
  else if d.timeAware.best.any fun b => b.1 == p then { d with timeAware := {} }
  else d

/-- One sync interval of the factory servo (R71): an offset above 1 µs steps the counter and clears SYNC; otherwise the counter is slewed, by an increment that the manual does not give, and 16 intervals in a row within 100 ns set SYNC. -/
def Dev.servo (d : Dev) (offset : Int) : Dev :=
  if 1000 < offset.natAbs then
    ({ d with timeAware := { d.timeAware with run := 0 } }.stepClock Dev.restartGates (-offset)).setSync false
  else
    let n := if offset.natAbs ≤ 100 then d.timeAware.run + 1 else 0
    let x := d.draws
    let d := { d with draws := x + 1, timeAware := { d.timeAware with run := min n 16 } }
    (d.setChip F.MAC_TC_INC_FRAC (Config.servoIncrement x % 2 ^ 32)).onlyIf (decide (16 ≤ n)) fun d => d.setSync true

/-- SYNC_CHANGE (R31, R71): writes of MAC_TC_CTL; or, while the factory image runs, what its time-aware system meets: a sync interval from the master chosen, an announce message on a port that is UP, or an announce-receipt timeout, after which the device is a candidate again. -/
def execSyncChange (cause : SyncCause) (s : State) : Out := s.on fun d =>
  match cause with
  | .write ws => d.writeReg ⟨.MAC_TC_CTL, 0, 0, 0⟩ ws tcCtlEffect
  | .interval offset => d.onlyIf (d.factoryRuns && d.timeAware.best.isSome) fun d => d.servo offset
  | .announce port v => d.onlyIf (d.factoryRuns && d.portUp port.val) fun d => d.announced port.val v
  | .announceTimeout => d.onlyIf (d.factoryRuns && d.timeAware.best.isSome) fun d => { d with timeAware := {} }.setSync false

end Sys2Proof.Machine
end

