-- ==== Sys2Proof/Machine/Scheduler.lean ====
section
/-! DEFINITION. The egress hierarchy: mapping and admission, fair queueing, shapers, latency samples, frames starting and ending on a wire and at the end of reception (R66 to R70, R72, R136 to R160, R492). -/

namespace Sys2Proof.Machine

open Sys2Proof

/-! ### Nodes -/

def Dev.node (d : Dev) (r n : Nat) : SchNode := d.sched.at {} (32768 * r + n)

def Dev.updNode (d : Dev) (r n : Nat) (f : SchNode → SchNode) : Dev := { d with sched := d.sched.upd {} (32768 * r + n) f }

/-- Node numbers: a port position, a class node, a tenant node, a queue. -/
def classNode (lp c : Nat) : Nat := 4 + 8 * lp + c
def tenantNode (j : Nat) : Nat := 36 + j
def queueNode (q : Nat) : Nat := 4132 + q

/-- The frames of a queue, oldest first. -/
def Dev.queueOf (d : Dev) (r q : Nat) : List Nat := d.egressQ.at [] (16384 * r + q)

/-- Cells that a queue holds (R141). -/
def Dev.queueCells (d : Dev) (r q : Nat) : Nat := ((d.queueOf r q).map fun id => cellsFor (d.pkt id).frameLen).sum

/-! ### Shapers (R149, R150) -/

/-- A node's buckets filled up to the present cycle, capped at their bursts. -/
def Dev.schFill (d : Dev) (r n : Nat) : Dev :=
  let x := d.node r n
  let dt := d.clk.now - x.t
  let c := min (((d.fld F.SCH_SHAPE_CBS r n * 2 ^ 40 : Nat)) : Int) (x.c + ((dt * gainPerCycle (d.fld F.SCH_SHAPE_CIR r n) : Nat) : Int))
  let pir := d.fld F.SCH_SHAPE_PIR r n
  let p := if pir = 0 then x.p
    else min (((d.fld F.SCH_SHAPE_PBS r n * 2 ^ 40 : Nat)) : Int) (x.p + ((dt * gainPerCycle pir : Nat) : Int))
  d.updNode r n fun x => { x with c := c, p := p, t := d.clk.now }

/-- The committed state of a node whose buckets are filled (R145). -/
def Dev.committed (d : Dev) (r n : Nat) : Bool := d.fld F.SCH_SHAPE_CIR r n != 0 && decide (0 ≤ (d.node r n).c)

/-- The peak bucket of a node admits a frame (R144). -/
def Dev.peakOk (d : Dev) (r n : Nat) : Bool := d.fld F.SCH_SHAPE_PIR r n == 0 || decide (0 ≤ (d.node r n).p)

/-- L bytes taken from both of a node's buckets as a frame starts; a peak bucket without PIR is not kept (R149). -/
def Dev.schCharge (d : Dev) (r n l : Nat) : Dev :=
  let amount : Int := ((l * 2 ^ 40 : Nat) : Int)
  let pir := d.fld F.SCH_SHAPE_PIR r n
  d.updNode r n fun x => { x with c := x.c - amount, p := if pir = 0 then x.p else x.p - amount }

/-- SCH_SHAPE (R149, R150): a rate above 1,600,000 is discarded; the buckets keep their content, cut to the new burst. -/
def shapeEffect (k : RegKey) (w : Write) (d : Dev) : Dev :=
  let v := d.wouldBe k w.value
  if (k.w = 0 ∨ k.w = 2) ∧ 1600000 < bitsOf v.toNat 20 0 then d
  else ((d.schFill k.n k.i).setWord k v).schFill k.n k.i

/-! ### Tags (R144 to R148) -/

/-- L: the frame as protected and 20 bytes of preamble and minimum IPG (R146, R278). -/
def Dev.schLen (d : Dev) (id : Nat) : Nat := let k := d.pkt id; d.wireLen k.outPort k + 20

/-- A frame that has become a child's head is stamped from F_prev and V (R146). -/
def Dev.stampHead (d : Dev) (r n parent w id : Nat) : Dev :=
  if (d.node r n).head = some id ∧ (d.node r n).parent = parent then d
  else
    let inc := d.schLen id * 65536 / w
    d.updNode r n fun x => { x with head := some id, parent := parent, tag := x.fprev + inc }

/-- The child with the smallest tag, equal tags to the lowest number; the list rises in number. -/
def Dev.smallest (d : Dev) (r : Nat) (l : List (Nat × Nat)) : Option (Nat × Nat) :=
  l.foldl (fun a x => match a with
    | none => some x
    | some b => if (d.node r x.1).tag < (d.node r b.1).tag then some x else a) none

/-- The choice among eligible children, each with its head frame: committed first, then the rest (R145 steps 2 and 3); with whether step 3 made it. -/
def Dev.pickChild (d : Dev) (r : Nat) (l : List (Nat × Nat)) : Option (Nat × Nat × Bool) :=
  match d.smallest r (l.filter fun x => d.committed r x.1) with
  | some x => some (x.1, x.2, false)
  | none => (d.smallest r l).map fun x => (x.1, x.2, true)

/-- V of a parent moves to the tag of a child served under step 3, and every stored tag and F_prev that it reaches becomes equal to V (R147). -/
def Dev.advanceV (d : Dev) (r parent child : Nat) : Dev :=
  let dv := (d.node r child).tag
  let d := d.updNode r parent fun x => { x with v := (x.v + dv) % 2 ^ 32 }
  let kids := d.sched.filter fun e => e.1 / 32768 == r && e.2.parent == parent && e.2.head.isSome || e.1 / 32768 == r && e.2.parent == parent && e.2.fprev != 0
  d.each kids fun e d => d.updNode r (e.1 % 32768) fun x => { x with tag := x.tag - dv, fprev := x.fprev - dv }

/-- A child has been served: under step 3 V advances and F_prev becomes its tag; its next head is stamped anew. -/
def Dev.servedChild (d : Dev) (r parent child : Nat) (step3 : Bool) : Dev :=
  let d := d.onlyIf step3 fun d => d.advanceV r parent child
  d.updNode r child fun x => { x with head := none, tag := 0, fprev := if step3 then 0 else x.fprev }

/-! ### Choosing (R144, R145, R151) -/

/-- Queues of a region that hold frames for a port's class, rising, each with its head. -/
def Dev.liveQueues (d : Dev) (p c : Nat) : List (Nat × Nat) :=
  let r := p / 4
  d.egressQ.filterMap fun e =>
    match e.2 with
    | [] => none
    | id :: _ => if e.1 / 16384 = r ∧ (d.pkt id).outPort = p ∧ (d.pkt id).cls = c then some (e.1 % 16384, id) else none

/-- What a tenant node would send next: the queue, its head. Queues have no shapers (R144). -/
def Dev.pickQueue (d : Dev) (r : Nat) (qs : List (Nat × Nat)) : Option (Nat × Nat) :=
  d.smallest r (qs.map fun x => (queueNode x.1, x.2))

/-- A number placed in a rising list without repeats. -/
def insertNum (x : Nat) : List Nat → List Nat
  | [] => [x]
  | y :: t => if x < y then x :: y :: t else if x = y then y :: t else y :: insertNum x t

/-- The heads of a class's queues and tenant nodes stamped, and the class node's own head. -/
def Dev.refreshClass (d : Dev) (p c : Nat) : Dev × List (Nat × Nat) :=
  let r := p / 4
  let qs := d.liveQueues p c
  let d := d.each qs fun x d =>
    d.stampHead r (queueNode x.1) (tenantNode (d.pkt x.2).tnode) (d.fld F.SCH_QUEUE_WEIGHT r x.1) x.2
  let js := qs.foldl (fun a x => insertNum (d.pkt x.2).tnode a) []
  let heads := js.filterMap fun j => (d.pickQueue r (qs.filter fun x => (d.pkt x.2).tnode == j)).map fun x => (j, x.2)
  let d := d.each heads fun x d =>
    (d.stampHead r (tenantNode x.1) (classNode (p % 4) c) (d.fld F.SCH_TNODE_WEIGHT r x.1) x.2).schFill r (tenantNode x.1)
  (d, (heads.map fun x => (tenantNode x.1, x.2)).filter fun x => d.peakOk r x.1)

/-- The class node's state: the device with tags stamped, and the tenant node that would send, its frame, and whether step 3 chose it. -/
def Dev.classHead (d : Dev) (p c : Nat) : Dev × Option (Nat × Nat × Bool) :=
  let r := p / 4
  let (d, ts) := d.refreshClass p c
  match d.pickChild r ts with
  | none => (d, none)
  | some x =>
    let n := classNode (p % 4) c
    ((d.stampHead r n (p % 4) (d.fld F.SCH_CLASS_WEIGHT r (8 * (p % 4) + c)) x.2.1).schFill r n, some x)

/-- A class may start a frame now: gate, kerf and received pause (R144). -/
def Dev.classFree (d : Dev) (p c : Nat) : Bool := d.gateOpen p c && !d.inKerf p c && (d.pauseOf p c).hold.isNone

/-- The heads of every class of a port. -/
def Dev.allHeads (d : Dev) (p : Nat) : Dev × List (Nat × Nat × Nat × Bool) :=
  (List.range 8).foldl (fun a c =>
    match a.1.classHead p c with
    | (d, none) => (d, a.2)
    | (d, some x) => (d, a.2 ++ [(c, x)])) (d, [])

/-- What a port would send now (R145): class, tenant node, frame, and whether step 3 made the choice at the port and at the class. -/
def Dev.portChoice (d : Dev) (p : Nat) : Dev × Option (Nat × Nat × Nat × Bool × Bool) :=
  let r := p / 4
  let (d, hs) := d.allHeads p
  let d := d.schFill r (p % 4)
  let ok := hs.filter fun h => d.peakOk r (classNode (p % 4) h.1) && d.classFree p h.1
  if ¬ d.peakOk r (p % 4) then (d, none)
  else
    match (ok.filter fun h => d.flag F.SCH_CLASS_SP r (8 * (p % 4) + h.1)).getLast? with
    | some h => (d, some (h.1, h.2.1, h.2.2.1, false, h.2.2.2))
    | none =>
      match d.pickChild r (ok.map fun h => (classNode (p % 4) h.1, h.2.2.1)) with
      | none => (d, none)
      | some x =>
        match ok.find? fun h => classNode (p % 4) h.1 == x.1 with
        | none => (d, none)
        | some h => (d, some (h.1, h.2.1, h.2.2.1, x.2.2, h.2.2.2))

/-! ### Mapping and admission (R138, R139, R143) -/

/-- A frame refused at enqueue: its region counter and its release. -/
def Dev.refuse (d : Dev) (r k id : Nat) : Dev := (d.bump .SCH_CNT r k).freePkt id

/-- A frame admitted to a queue (R143), or discarded for colour or limit. -/
def Dev.takeIn (d : Dev) (r q id : Nat) : Dev :=
  let k := d.pkt id
  let depth := d.queueCells r q
  if k.colour = 2 ∧ d.flag F.SCH_QUEUE_DROP_RED r q then (d.bump .SCH_Q_CNT r (4 * q + 3)).freePkt id
  else if k.colour = 1 ∧ d.fld F.SCH_QUEUE_YLIMIT r q ≤ depth then (d.bump .SCH_Q_CNT r (4 * q + 2)).freePkt id
  else if d.fld F.SCH_QUEUE_LIMIT r q < depth + cellsFor k.frameLen then (d.bump .SCH_Q_CNT r (4 * q + 2)).freePkt id
  else
    let d := d.setPkt id { k with place := .queue r q, since := d.clk.now }
    let d := { d with egressQ := d.egressQ.upd [] (16384 * r + q) (· ++ [id]) }
    let d := d.setFld F.SCH_QDEPTH_BYTES r q (d.fld F.SCH_QDEPTH_BYTES r q + k.frameLen)
    (d.allHeads k.outPort).1

/-- A frame for a port and class enqueued from a pipeline (R138, R139). A map entry that names an enabled node of another class node counts as none: DESIGN CHOICE, entry 196. -/
def Dev.enqueue (d : Dev) (id port cls : Nat) : Dev :=
  let k := d.pkt id
  if 7 < cls then d.refuse k.region 0 id
  else if ¬ d.isPort port then d.refuse k.region 2 id
  else if ¬ d.portUp port then d.refuse (port / 4) 3 id
  else
    let r := port / 4
    let cn := 8 * (port % 4) + cls
    let i := 512 * cn + k.tenant
    let j := d.fld F.SCH_TMAP_NODE r i
    if ¬ d.flag F.SCH_TMAP_VALID r i ∨ ¬ d.flag F.SCH_TNODE_EN r j ∨ d.fld F.SCH_TNODE_CLASS r j ≠ cn then d.refuse r 1 id
    else
      let q := d.fld F.SCH_TNODE_QBASE r j + k.flowHash * (d.fld F.SCH_TNODE_QCNT_M1 r j + 1) / 2 ^ 32
      (d.setPkt id { k with outPort := port, cls := cls, tnode := j }).takeIn r q id

/-! ### Leaving a queue (R155, R156) -/

/-- The histogram bucket of a delay in ns (R156). -/
def Dev.histBucket (d : Dev) (r ns : Nat) : Nat :=
  let u := 2 ^ d.latS.at 10 r
  ((List.range 7).find? fun k => decide (ns < u * 4 ^ k)).getD 7

/-- The samples of a frame that leaves a queue. -/
def Dev.sample (d : Dev) (r q id : Nat) : Dev :=
  let depth := d.fld F.SCH_QDEPTH_BYTES r q
  let ns := min (nsOfCycles (d.clk.now - (d.pkt id).since)) (2 ^ 32 - 1)
  let b := tlyQueue r q
  let d := ((d.tallyMax b depth).tallyMax (b + 8) ns).tally (b + 12 + 4 * d.histBucket r ns) 1
  { d with depthSum := d.depthSum.upd (0, 0) (16384 * r + q) fun x => (x.1 + depth, x.2 + 1) }

/-- The queue that a frame heads. -/
def Dev.queueWith (d : Dev) (id : Nat) : Nat :=
  match (d.pkt id).place with
  | .queue _ q => q
  | _ => 0

/-- The head frame of a queue leaves it. -/
def Dev.dequeue (d : Dev) (r q id : Nat) : Dev :=
  let d := d.sample r q id
  let d := { d with egressQ := d.egressQ.upd [] (16384 * r + q) (·.erase id) }
  d.setFld F.SCH_QDEPTH_BYTES r q (d.fld F.SCH_QDEPTH_BYTES r q - (d.pkt id).frameLen)

/-! ### Transmission -/

/-- The frame would end after its gate closes (R68). -/
def Dev.overruns (d : Dev) (p c len : Nat) : Bool :=
  d.flag F.MAC_GCL_CTL_ENABLE p && (match d.nextClosing p c with
    | none => false
    | some t => decide (t * 2 ^ 32 * d.portSpeed p < d.clk.tc * d.portSpeed p + (len + 8) * 8 * 2 ^ 32))

/-- Size bin of RMON (R72). -/
def sizeBin (n : Nat) : Nat :=
  if n ≤ 64 then 14 else if n < 128 then 15 else if n < 256 then 16 else if n < 512 then 17 else if n < 1024 then 18
  else if n < 1519 then 19 else 20

/-- A frame that is not sent leaves its queue and is freed, and the next heads are stamped as they become so (R146); nothing is charged (R151). -/
def Dev.dropHead (d : Dev) (r p q id : Nat) : Dev := (((d.dequeue r q id).freePkt id).allHeads p).1

/-- The same, counted in a discarding counter of the port. -/
def Dev.discardHead (d : Dev) (r p q id k : Nat) : Dev := (d.portDrop p k).dropHead r p q id

/-- The message timestamp point of a frame that starts now: the end of its 8 bytes of preamble and delimiter (R70), in units of 2^-32 ns. -/
def Dev.stampPoint (d : Dev) (p : Nat) : Nat := (d.clk.tc + 64 * 2 ^ 32 / max 1 (d.portSpeed p)) % tcModulus

/-- The chosen frame starts on the wire: its node's buckets are charged, its tags served, and it is protected and timestamped. -/
def Dev.startFrame (d : Dev) (p c tn id : Nat) (portStep3 classStep3 : Bool) (bytes : List Byte) : Dev :=
  let r := p / 4
  let q := d.queueWith id
  let l := d.schLen id
  let cn := classNode (p % 4) c
  let d := ((d.schCharge r (p % 4) l).schCharge r cn l).schCharge r tn l
  let d := d.servedChild r tn (queueNode q) true
  let d := d.servedChild r cn tn classStep3
  let d := d.servedChild r (p % 4) cn portStep3
  let d := d.dequeue r q id
  let bytes := if (ptpAt bytes).isSome then oneStep bytes (d.stampPoint p) else bytes
  let bad := !(d.pkt id).marks.isEmpty
  let f := bytes ++ (if bad then (fcsOf bytes).map (~~~ ·) else fcsOf bytes)
  let d := d.onlyIf bad fun d => d.bump .HIF_CNT 0 4
  let d := d.onlyIf (d.overruns p c f.length) fun d => d.portCount p 48
  let d := match (d.pkt id).tsJob with
    | some j => { d with txStamps := d.txStamps.set 0 j (if d.txStamps.at 0 j = 0 then d.stampPoint p / 2 ^ 32 else d.txStamps.at 0 j) }
    | none => d
  let d := match (d.pkt id).qpn with
    | some q => if d.qpctxs.any fun e => e.1 == q then { d with qpctxs := d.qpctxs.upd {} q fun c => { c with port := some p } } else d
    | none => d
  let d := (d.updPkt id fun k => { k with place := .wire p }).emit (.frame p f)
  let busy := d.clk.now + cyclesOfBits ((f.length + 20) * 8) (d.portSpeed p)
  let d := d.updPort p fun s => { s with txPkt := some id, txBytes := f, txQueue := q, wireBusy := busy }
  (d.allHeads p).1

/-- FRAME_TRANSMIT_START (R145, R139, R144, R151, R67, R105): at a frame boundary of a port that is UP with no control frame waiting, the scheduler's choice starts; a frame of a class in storm state, beyond its maximum, or that MACsec refuses, is taken from its queue instead. -/
def execFrameTransmitStart (port : Fin 16) (s : State) : Out := s.on fun d0 =>
  let p := port.val
  if ¬ d0.isPort p ∨ ¬ d0.portUp p ∨ d0.mute ∨ (d0.port p).txPkt.isSome ∨ ¬ (d0.port p).control.isEmpty ∨ (d0.dueFrame p (d0.pfcMode p)).isSome then d0
  else
    let d := d0.advanceTo (d0.port p).wireBusy
    let d := d.each (List.range 8) fun q d => (d.settleHold p q).stormTest p q
    match d.portChoice p with
    | (_, none) => d0
    | (d, some (c, tn, id, s3p, s3c)) =>
      let k := d.pkt id
      let q := d.queueWith id
      if (d.pauseOf p c).storm then d.discardHead (p / 4) p q id (40 + c)
      else if d.maxFrame p c < d.wireLen p k ∨ (¬ k.encaps.isEmpty ∧ d.fld F.MAC_PORT_CFG_MAX_LEN p < k.frameLen) then d.discardHead (p / 4) p q id 49
      else
        match d.protectTx p k with
        | (d, none) => d.dropHead (p / 4) p q id
        | (d, some b) => d.startFrame p c tn id s3p s3c b

/-- FRAME_TRANSMIT_END (R141, R72, R157): the frame on the wire ends, is counted, and its cells are released. -/
def execFrameTransmitEnd (port : Fin 16) (s : State) : Out := s.on fun d =>
  let p := port.val
  match (d.port p).txPkt with
  | none => d
  | some id =>
    let st := d.port p
    let d := d.advanceTo (st.wireBusy - cyclesOfBits (12 * 8) (d.portSpeed p))
    let n := st.txBytes.length
    let d := ((d.portCount p 2 n).portCount p 3).onlyIf (bitOf (st.txBytes.headD 0).toNat 0) fun d =>
      d.portCount p (if be st.txBytes 0 6 = 2 ^ 48 - 1 then 12 else 13)
    let d := (d.tally (tlyPort p + 0x08) n).tally (tlyPort p + 0x18) 1
    let d := (d.bump .SCH_Q_CNT (p / 4) (4 * st.txQueue)).bump .SCH_Q_CNT (p / 4) (4 * st.txQueue + 1) n
    (d.updPort p fun s => { s with txPkt := none, txBytes := [] }).freePkt id

/-! ### The end of reception (R72, R73, R279, R492) -/

/-- The Length/Type field is a length that differs from the data field, padding excluded (R492). -/
def lenErr (f : List Byte) : Bool :=
  let t := be f 12 2
  let n := f.length - 18
  decide (t < 1536) && (if f.length = 64 then decide (46 < t) else t != n)

/-- A good frame counted (RX_BYTES and RX_FRAMES of R73 take good frames alone: DESIGN CHOICE, entry 194): octets, frame, kind of address, size bin, length error, tallies. -/
def Dev.countRx (d : Dev) (p : Nat) (f : List Byte) : Dev :=
  let n := f.length
  let d := (d.portCount p 0 n).portCount p 1
  let d := d.onlyIf (bitOf (f.headD 0).toNat 0) fun d => d.portCount p (if be f 0 6 = 2 ^ 48 - 1 then 10 else 11)
  let d := (d.portCount p (sizeBin n)).onlyIf (lenErr f) fun d => d.portCount p 9
  (d.tally (tlyPort p) n).tally (tlyPort p + 0x10) 1

/-- FRAME_RECEIVE_END (R492): the discarding counter whose reason is found first, or a good frame, MACsec, and the pipeline's input queue; the FEC codewords corrected and uncorrectable since the frame before are counted (R72). -/
def execFrameReceiveEnd (frame : FrameEnd) (s : State) : Out := s.on fun d =>
  let p := frame.port.val
  let d := d.onlyIf (d.portUp p) fun d => (d.portCount p 50 frame.corrected).portCount p 51 frame.uncorrectable
  match d.rx.at none p with
  | none => d
  | some x =>
    let d := { d with rx := d.rx.set none p none }
    if x.dead then d
    else
      let n := x.bytes.length
      let good := fcsGood x.bytes
      if d.fld F.MAC_PORT_CFG_MAX_LEN p < n then (d.portDrop p (if good then 7 else 8)).freePkt x.pkt
      else if n < 64 then (d.portDrop p (if good then 5 else 6)).freePkt x.pkt
      else if ¬ good then (d.portDrop p 4).freePkt x.pkt
      else
        match (d.countRx p x.bytes).macsecRx p (x.bytes.take (n - 4)) with
        | (d, none) => d.freePkt x.pkt
        | (d, some f) => (d.updPkt x.pkt fun k => { k with bytes := f }).joinInput x.pkt (d.pkt x.pkt).region 0

/-! ### Changing the hierarchy (R153, R158, R489) -/

/-- Queues of a tenant node by its settings. -/
def Dev.nodeQueues (d : Dev) (r j : Nat) : Nat × Nat := (d.fld F.SCH_TNODE_QBASE r j, d.fld F.SCH_TNODE_QBASE r j + d.fld F.SCH_TNODE_QCNT_M1 r j)

/-- A queue of a tenant node holds a frame: one of those that it owns while it is enabled (R137), or one that still drains under it (R158). -/
def Dev.nodeBusy (d : Dev) (r j : Nat) : Bool :=
  let (lo, hi) := d.nodeQueues r j
  d.egressQ.any fun e => e.1 / 16384 == r && (d.flag F.SCH_TNODE_EN r j && decide (lo ≤ e.1 % 16384 ∧ e.1 % 16384 ≤ hi) && !e.2.isEmpty ||
    e.2.any fun id => (d.pkt id).tnode == j)

/-- Another enabled tenant node shares a queue with node `j`. -/
def Dev.nodeOverlaps (d : Dev) (r j : Nat) : Bool :=
  let (lo, hi) := d.nodeQueues r j
  (List.range 4096).any fun i => i != j && d.flag F.SCH_TNODE_EN r i &&
    (let (a, b) := d.nodeQueues r i; decide (a ≤ hi ∧ lo ≤ b))

/-- The class node of `j` has 512 other enabled tenant nodes. -/
def Dev.classFull (d : Dev) (r j : Nat) : Bool :=
  decide (512 ≤ ((List.range 4096).filter fun i => i != j && d.flag F.SCH_TNODE_EN r i &&
    d.fld F.SCH_TNODE_CLASS r i == d.fld F.SCH_TNODE_CLASS r j).length)

/-- SCH_TNODE (R158). -/
def tnodeEffect (k : RegKey) (w : Write) (d : Dev) : Dev :=
  let v := d.wouldBe k w.value
  let d' := d.setWord k v
  let r := k.n
  let j := k.i
  let shape := d'.fld F.SCH_TNODE_CLASS r j ≠ d.fld F.SCH_TNODE_CLASS r j ∨ d'.nodeQueues r j ≠ d.nodeQueues r j
  let on := d'.flag F.SCH_TNODE_EN r j && (!d.flag F.SCH_TNODE_EN r j || decide shape)
  if d'.fld F.SCH_TNODE_WEIGHT r j = 0 ∨ 16383 < (d'.nodeQueues r j).2 then d
  else
    let busy := decide shape && d.nodeBusy r j
    let bad := on && (d'.nodeOverlaps r j || d'.classFull r j)
    if busy ∨ bad then
      (d.onlyIf busy fun d => d.setFld F.SCH_STAT_BUSYCFG r 0 1).onlyIf bad fun d => d.setFld F.SCH_STAT_BADCFG r 0 1
    else d'

/-- A policer as it stands before a write of the present cycle, for the POLICE operations of that cycle (R153). -/
def Dev.keepPolicer (d : Dev) (r i : Nat) : Dev :=
  let n := 65536 * r + i
  if (d.polWas.at none n).any fun x => x.cycle == d.clk.now then d
  else
    let words := (List.range 4).map fun w => d.word ⟨.SCH_POL, r, i, w⟩
    { d with polWas := d.polWas.set none n (some { cycle := d.clk.now, words := words, bucket := d.pols.at (0, 0, 0) n }) }

/-- SCH_POL (R152, R153): a parameter write fills both buckets to their new bursts; both rates follow the range of R149. DEDUCED for PIR, entry 197. -/
def polEffect (k : RegKey) (w : Write) (d : Dev) : Dev :=
  let v := d.wouldBe k w.value
  if (k.w = 0 ∧ (bitsOf v.toNat 31 30 = 3 ∨ 1600000 < bitsOf v.toNat 20 0)) ∨ (k.w = 2 ∧ 1600000 < bitsOf v.toNat 20 0) then d
  else
    let d := (d.keepPolicer k.n k.i).setWord k v
    let full := (d.fld F.SCH_POL_CBS k.n k.i * 2 ^ 40, d.fld F.SCH_POL_EBS_PBS k.n k.i * 2 ^ 40, d.clk.now)
    { d with pols := d.pols.set (0, 0, 0) (65536 * k.n + k.i) full }

/-- TNODE_WRITE (R158). -/
def execTnodeWrite (region : Fin 4) (node : Fin 4096) (word : Fin 2) (ws : List Write) (s : State) : Out := s.on fun d =>
  d.writeReg ⟨.SCH_TNODE, region.val, node.val, word.val⟩ ws tnodeEffect

/-- POLICER_WRITE (R153). -/
def execPolicerWrite (region : Fin 4) (policer : Fin 65536) (word : Fin 4) (ws : List Write) (s : State) : Out := s.on fun d =>
  d.writeReg ⟨.SCH_POL, region.val, policer.val, word.val⟩ ws polEffect

/-- MEAN_DEPTH of every queue fixed for the latch, and SCH_LAT_CFG taken over for the next span (R156). -/
def Dev.fixDepths (d : Dev) : Dev :=
  let d := d.each d.depthSum fun e d => d.tally (tlyQueue (e.1 / 16384) (e.1 % 16384) + 4) (e.2.1 / e.2.2)
  { d with depthSum := [], latS := (List.range 4).foldl (fun m r => NMap.set m 10 r (d.fld F.SCH_LAT_CFG_S r)) d.latS }

end Sys2Proof.Machine
end

