-- ==== Sys2Proof/Machine/PassExit.lean ====
section
/-! DEFINITION. The exit of stage 11: headers removed and prepended, mirror copies, security associations, and the disposition carried out (R94, R104, R105, R107, R127, R207, R274, R280 to R283, R347, R375, R461). -/

namespace Sys2Proof.Machine

open Sys2Proof

/-! ### Headers removed and prepended (R103, R105) -/

/-- Bytes that DECAP removes: the recorded layers named, or all of them. -/
def Pkt.decapBytes (k : Pkt) : Nat :=
  if k.decap = 0 then 0 else if k.decap < k.layers.length then (k.layers.getD k.decap (0, 0)).2 else k.layersEnd

/-- One fix-up of a template that has just been prepended (R105); the IPv4 checksum covers the header that the fix-up lies in. -/
def applyFix (flow : Nat) (bs : List Byte) (f : Nat) : List Byte :=
  if ¬ bitOf f 15 then bs
  else
    let o := f % 128
    match bitsOf f 14 12 with
    | 1 => putBe bs o 2 (bs.length - (o - 2))
    | 2 => fixIpSum bs (o - 10)
    | 3 => putBe bs o 2 (bs.length - (o - 4))
    | 4 => putBe bs o 2 (bs.length - (o + 36))
    | 5 => putBe bs o 2 (49152 + flow % 16384)
    | _ => bs

/-- The checksum fix-ups come after the others, so that a checksum covers the lengths filled in beside it. -/
def fixOrder (l : List Nat) : List Nat :=
  (l.filter fun f => bitsOf f 14 12 != 2) ++ l.filter fun f => bitsOf f 14 12 == 2

/-- A template prepended to a packet's bytes. -/
def prepend (t : Tmpl) (flow : Nat) (bs : List Byte) : List Byte :=
  (fixOrder t.fixes).foldl (applyFix flow) (sliceB t.bytes 0 t.len ++ bs)

/-- A packet's bytes after its DECAP and ENCAP primitives. -/
def Dev.reframed (d : Dev) (r : Nat) (k : Pkt) : List Byte :=
  k.encaps.foldl (fun bs x => prepend (d.tmpl r x) k.flowHash bs) (k.bytes.drop k.decapBytes)

/-! ### Deliveries -/

/-- The bits of the Toeplitz hash of an input under a key, most significant input bit first (R94). -/
def toeplitz (key : Nat) (bs : List Byte) : Nat :=
  (List.range (8 * bs.length)).foldl (fun h i =>
    if bitOf (bs.getD (i / 8) 0).toNat (7 - i % 8) then h ^^^ (key / 2 ^ (288 - i) % 2 ^ 32) else h) 0

/-- The 40-byte key of a region as a number, its first byte most significant. -/
def Dev.rssKey (d : Dev) (r : Nat) : Nat := (List.range 10).foldl (fun a i => a * 2 ^ 32 + d.fld F.CLS_RSS_KEY_KEY r i) 0

/-- The input of the Toeplitz hash: outermost IP addresses, and ports when the packet is no fragment and the layer was recorded; nothing without an IP layer. -/
def rssInput (k : Pkt) : List Byte :=
  let raw (o n : Nat) : List Byte := (List.range n).map fun j => BitVec.ofNat 8 (pbyte k.bytes (o + j))
  match k.layers.findIdx? fun l => l.1 == 3 || l.1 == 4 with
  | none => []
  | some x =>
    let l := k.layers.getD x (0, 0)
    let addrs := if l.1 = 3 then raw (l.2 + 12) 8 else raw (l.2 + 8) 32
    let ports := if k.frag then [] else
      match (k.layers.drop (x + 1)).find? fun l => l.1 == 8 || l.1 == 9 with
      | some u => raw u.2 4
      | none => []
    addrs ++ ports

/-- The host queue of a packet (R94, R103). -/
def Dev.rssQueue (d : Dev) (r : Nat) (k : Pkt) : Nat :=
  if k.rss then k.qbase + toeplitz (d.rssKey r) (rssInput k) * k.qcount / 2 ^ 32 else k.qbase

/-- A packet waits for its host queue (R207). -/
def Dev.toHost (d : Dev) (id f q : Nat) : Dev :=
  let d := d.updPkt id fun k => { k with place := .host f q, since := d.clk.now }
  { d with hostQ := d.hostQ.upd [] (512 * f + q) (· ++ [id]) }

/-- Packets that a region holds for its pools and for flow buckets on the move (R347, R375). -/
def Dev.poolTotal (d : Dev) (r : Nat) : Nat :=
  ((d.poolQ.filter fun e => e.1 / 64 == r).map fun e => e.2.length).sum +
  ((d.fbHold.filter fun e => e.1 / 65536 == r).map fun e => e.2.length).sum

/-- `PCB_POOLCFG.QUEUED` shows the length of a pool's queue. -/
def Dev.showPool (d : Dev) (r p : Nat) : Dev :=
  if p < 63 then d.setFld F.PCB_POOLCFG_QUEUED r p (d.poolQ.at [] (64 * r + p)).length else d

/-- A packet joins the queue of a pool, or is discarded at one of its limits (R347); pool 63, the transport engine, has no limit of its own. -/
def Dev.joinPool (d : Dev) (id r p : Nat) : Dev :=
  let n := (d.poolQ.at [] (64 * r + p)).length
  if 8192 ≤ d.poolTotal r ∨ (p < 63 ∧ d.fld F.PCB_POOLCFG_QMAX r p ≤ n) then (d.bump .PCB_CNT r 0).freePkt id
  else
    let d := d.updPkt id fun k => { k with place := .pool p, region := r, since := d.clk.now }
    let d := { d with poolQ := d.poolQ.upd [] (64 * r + p) (· ++ [id]) }
    (d.showPool r p).tallyMax (tlyRgn r + 0x98) (d.poolTotal r)

/-- A packet for a pool; by flow bucket, the bucket's pool, and held in order while the bucket moves (R347, R375). -/
def Dev.toPool (d : Dev) (id r p : Nat) (byFlow : Bool) : Dev :=
  if ¬ byFlow then d.joinPool id r p
  else
    let b := (d.pkt id).flowHash / 65536
    if d.fbMoving r b then
      if 8192 ≤ d.poolTotal r then (d.bump .PCB_CNT r 0).freePkt id
      else
        let d := d.updPkt id fun k => { k with place := .held, since := d.clk.now }
        { d with fbHold := d.fbHold.upd [] (65536 * r + b) (· ++ [id]) }
    else d.joinPool id r (d.fld F.CRU_FBMAP_POOL r b)

/-- Another pass of a packet: a fifth is refused (R107). -/
def Dev.nextPass (d : Dev) (id r counter : Nat) (reg : Reg) : Dev :=
  if (d.pkt id).pass = 3 then (d.bump reg r counter).freePkt id
  else (d.updPkt id fun k => { k with pass := k.pass + 1, resumed := false }).joinRecirc id r

/-! ### Copies (R103, R127) -/

/-- A copy of a packet that shares its cells. -/
def Dev.copyPkt (d : Dev) (id : Nat) (f : Pkt → Pkt) : Dev × Nat :=
  let k := d.pkt id
  (d.shareCells k.buf).newPkt { f k with tsJob := none, qpn := none }

/-- The copy of a mirror session (R103). -/
def Dev.mirror (d : Dev) (r id m : Nat) : Dev :=
  let tr := d.fld F.CLS_MIRROR_TRUNC r m
  let (d, c) := d.copyPkt id fun k => { k with bytes := if tr = 0 then k.bytes else k.bytes.take tr, sa := none }
  if d.flag F.CLS_MIRROR_HOST r m then d.toHost c (d.fld F.CLS_MIRROR_FUNC r m) 0
  else d.enqueue c (d.fld F.CLS_MIRROR_PORT r m) (d.fld F.CLS_MIRROR_CLASS r m)

/-- Flooding (R127): a copy to every member of the domain's flood set but the arrival bridge port. -/
def Dev.flood (d : Dev) (id : Nat) : Dev :=
  let k := d.pkt id
  let bd := k.floodBd
  let d := d.bump .FWD_CNT 0 5
  if 4096 ≤ bd then d.freePkt id
  else
    let cls := d.fld F.FWD_BD_FLOOD_CLASS 0 bd
    let ports := (List.range 16).filter fun p => bitOf (d.fld F.FWD_BD_FLOOD_PORTS 0 bd) p && k.bport != some p
    let d := d.each ports fun p d =>
      let (d, c) := d.copyPkt id fun k => k
      d.enqueue c p cls
    let f := d.fld F.FWD_BD_FLOOD_FUNC 0 bd
    let d := d.onlyIf (d.flag F.FWD_BD_FLOOD_HOST 0 bd && k.bport != some (16 + f)) fun d =>
      let (d, c) := d.copyPkt id fun k => k
      d.toHost c f (d.fld F.FWD_BD_FLOOD_QUEUE 0 bd)
    d.freePkt id

/-! ### Cascade destinations (R461) -/

/-- The Flume port by which a member is reached: the shorter way, ties to FL0, the other way round when that link is down. -/
def Dev.ringPort (d : Dev) (m : Nat) : Nat :=
  let n := ((List.range 8).filter fun i => bitOf (d.fld F.CAS_STAT_KNOWN) i).length
  let h := (m + n - d.board.cascId) % n
  let k := if 2 * h ≤ n then 0 else 1
  if d.flag F.FLM_STAT_UP 0 k then k else 1 - k

/-- A packet sent to another member. -/
def Dev.sendRemote (d : Dev) (id m : Nat) : Dev :=
  let k := d.pkt id
  if ¬ bitOf (d.fld F.CAS_STAT_LIVE) m then (d.bump .PAIR_CNT 0 7).freePkt id
  else (d.emit (.ringPacket (d.ringPort m) m (k.dispArg % 16) k.cls ((List.range 64).map fun i => BitVec.ofNat 8 (k.mdByte i)) k.bytes)).freePkt id

/-- FWD carried out (R104, R461). -/
def Dev.forward (d : Dev) (id : Nat) : Dev :=
  let k := d.pkt id
  let m := k.dispArg / 16 % 8
  if d.inCascade ∧ bitOf k.dispArg 7 ∧ m ≠ d.board.cascId then d.sendRemote id m
  else d.enqueue id (k.dispArg % 16) k.cls

/-- The disposition carried out (R104). -/
def Dev.dispose (d : Dev) (r id : Nat) : Dev :=
  let k := d.pkt id
  match k.disp with
  | 1 => if k.dispArg = 0xFFFF then d.flood id else d.forward id
  | 2 => d.freePkt id
  | 3 => d.toHost id k.dispArg (d.rssQueue r { k with bytes := k.rssBytes })
  | 4 => d.toPool id r k.dispArg k.byFlow
  | 5 => d.nextPass id r 0 .CLS_CNT
  | _ => (d.bump .CLS_CNT r 3).freePkt id

/-! ### Security associations at the exit (R274, R277, R280 to R283) -/

/-- A packet discarded under a crypto counter of the region that carries it. -/
def Dev.cryDrop (d : Dev) (r k id : Nat) : Dev := (d.cryCount r k).freePkt id

/-- Outbound ESP (R280, R286): then the disposition. -/
def Dev.espOut (d : Dev) (r id sid : Nat) (x : Sa) : Dev :=
  let k := d.pkt id
  match ipAt k.bytes with
  | none => d.cryDrop r 0 id
  | some ip =>
    match d.takeNext sid x with
    | none => d.cryDrop r 1 id
    | some (d, seq) =>
      let out := espSeal x seq (!k.encaps.isEmpty) k.bytes ip
      let d := d.tally (tlyRgn (saHome sid) + 0x58) (ipEnd k.bytes ip - (ipPayload k.bytes ip).1)
      (d.updPkt id fun k => { k with bytes := out, sa := none }).dispose r id

/-- Inbound ESP (R281): the packet recirculates deciphered, or is discarded; a disposition of DROP comes first. -/
def Dev.espIn (d : Dev) (r id sid : Nat) (x : Sa) : Dev :=
  let k := d.pkt id
  if k.disp = 2 then d.freePkt id
  else if k.pass = 3 then d.cryDrop r 9 id
  else
    match ipAt k.bytes with
    | none => d.cryDrop r 0 id
    | some ip =>
      match espOpen x k.bytes ip with
      | .drop c => d.cryDrop r c id
      | .ok x' bs n =>
        let d := (d.setSa sid (some x')).tally (tlyRgn (saHome sid) + 0x60) n
        (d.updPkt id fun k => { k with bytes := bs, sa := none }).nextPass id r 9 .CRY_CNT

/-- A packet that carries an ATTACH_SA (R274, R277, R283). -/
def Dev.withSa (d : Dev) (r id sid : Nat) : Dev :=
  let k := d.pkt id
  if ¬ saIdOk sid then d.cryDrop r 0 id
  else if saMacsec sid then
    let own := k.disp == 1 && k.dispArg != 0xFFFF && k.dispArg % 16 == saPort sid && !saRx sid && (d.sa sid).isSome
    if own then d.dispose r id else d.cryDrop r 0 id
  else if d.fenced (saHome sid) then d.cryDrop r 10 id
  else
    match d.sa sid with
    | none => d.cryDrop r 0 id
    | some x =>
      match x.kind with
      | 1 => d.espOut r id sid x
      | 2 => d.espIn r id sid x
      | _ => d.cryDrop r 0 id

/-- The oldest packet of a pipeline, when it is at the exit of stage 11: packets leave in the order in which they entered (R80). -/
def Dev.exiting (d : Dev) (r : Nat) : Option Nat := ((d.pipeQ.at [] r).head?).filter fun id => (d.pkt id).place == .stage 12

/-- PASS_EXIT (R80, R104): the oldest packet of the pipeline at the exit of stage 11, 1,632 cycles after its slot. -/
def execPassExit (region : Fin 4) (s : State) : Out := s.on fun d =>
  let r := region.val
  match d.exiting r with
  | none => d
  | some id =>
    let d := d.advanceTo ((d.pkt id).slot + 1632)
    let d := { d with pipeQ := d.pipeQ.upd [] r (·.erase id) }
    let k := d.pkt id
    let out := d.reframed r k
    let d := d.setPkt id { k with bytes := out, rssBytes := k.bytes }
    let d := d.each k.mirrors fun m d => d.mirror r id m
    match k.sa with
    | some sid => d.withSa r id sid
    | none => d.dispose r id

end Sys2Proof.Machine
end

