-- ==== Sys2Proof/Machine/HostFns.lean ====
section
/-! DEFINITION. Host functions: their resources, discovery tables, interrupts, and the reads and writes of host memory that the device makes for them (R161 to R189, R202). -/

namespace Sys2Proof.Machine

open Sys2Proof

/-! ### Functions -/

/-- A VF exists while its PF's VF Enable is set and its number is within NumVFs; a PF while it is placed (R166). -/
def Dev.fnExists (d : Dev) (f : Nat) : Bool :=
  if f < 16 then (d.pfs.at {} f).present
  else
    let p := d.pfOf f
    decide (p < 16) && d.cfg p .vfEnable == 1 && decide (f - (d.pfs.at {} p).vfBase < d.cfg p .numVfs)

/-- The link that carries a function: host port and link number (R162, R165). -/
def Dev.linkOf (d : Dev) (f : Nat) : Nat × Nat := let x := d.pfs.at {} (d.pfOf f); (x.port, x.link)

/-- A link's data link layer is up. -/
def Dev.linkUp (d : Dev) (h k : Nat) : Bool := d.flag F.HIF_LINK_STAT_UP 0 (4 * h + k)

/-- A function may send requests (R164, R171, R182, R405, R417, R452, R454): released, on an active device, enabled, not in reset, Bus Master Enable set, not in D3hot. -/
def Dev.canIssue (d : Dev) (f : Nat) : Bool :=
  d.released && !d.quiet && !d.offHost && (d.fn f).enabled && (d.fn f).inReset.isNone && d.cfg f .busMasterEnable == 1 && d.cfg f .powerState != 3

/-- A function's engines run: it may send requests but for its own Bus Master Enable and power state, whose lack makes them fail (R182). -/
def Dev.working (d : Dev) (f : Nat) : Bool := d.released && !d.quiet && !d.offHost && (d.fn f).enabled && (d.fn f).inReset.isNone

/-- Tally offset of a host port's received and sent TLP bytes and of its longest read latency (R198, R488). -/
def tlyHostRx (h : Nat) : Nat := 0x40 + 16 * h
def tlyHostTx (h : Nat) : Nat := 0x48 + 16 * h
def tlyHostLat (h : Nat) : Nat := 0x68 + 4 * h

/-- What a request of an engine carries: the Routing ID of its function and a PASID (R180). -/
def Dev.tlpOf (d : Dev) (f : Nat) (pasid : Option Nat) : TlpAttr := { requester := d.routingId f, pasid := pasid }

/-- A write of host memory for a function (R180, R192): bytes counted, EP and POISON_TX on marked data. -/
def Dev.dmaWriteAs (d : Dev) (f addr : Nat) (tlp : TlpAttr) (bs : List Byte) (mark : Bool) : Dev :=
  if bs.isEmpty then d
  else
    let d := (d.tally (tlyHostTx (d.hostOf f)) bs.length).onlyIf mark fun d => d.bump .HIF_CNT 0 3
    d.emit (.hostWrite f addr tlp mark bs)

/-- A write of an engine, with the untranslated address that its ring, descriptor or context holds (R180). -/
def Dev.dmaWrite (d : Dev) (f addr : Nat) (pasid : Option Nat) (bs : List Byte) (mark : Bool) : Dev :=
  d.dmaWriteAs f addr (d.tlpOf f pasid) bs mark

/-- A write of data some of whose 32-byte flits are marked: cut at their boundaries, so that only the TLPs of marked flits carry EP (R192). -/
def Dev.dmaMarked (d : Dev) (f addr : Nat) (pasid : Option Nat) (bs : List Byte) (marks : List Nat) : Dev :=
  if marks.isEmpty then d.dmaWrite f addr pasid bs false
  else d.each (List.range (ceilDiv bs.length 32)) fun i d => d.dmaWrite f (addr + 32 * i) pasid ((bs.drop (32 * i)).take 32) (marks.contains i)

/-! ### Reads of host memory (R180, R185, R190, R198) -/

/-- Non-posted requests that the link of a function may have outstanding (R185), and those that it has. -/
def Dev.readLimit (d : Dev) (f : Nat) : Nat := if d.cfg f .tagRequesterEnable = 1 then 768 else 256
def Dev.readsOut (d : Dev) (f : Nat) : Nat :=
  (d.reads.filter fun e => match e.2 with
    | some r => d.linkOf r.fn == d.linkOf f
    | none => false).length

/-- The link of a function has room for one more non-posted request. -/
def Dev.readRoom (d : Dev) (f : Nat) : Bool := decide (d.readsOut f < d.readLimit f)

/-- The largest read that a function sends: its Max_Read_Request_Size. -/
def Dev.readMax (d : Dev) (f : Nat) : Nat := 128 * 2 ^ min 5 (d.cfg f .maxReadRequestSize)

/-- A read of host memory sent, and recorded as outstanding. -/
def Dev.sendRead (d : Dev) (f addr len : Nat) (tlp : TlpAttr) (who : ReadFor) : Dev :=
  let t := d.nextTag
  let r : HostRead := { fn := f, len := len, at_ := d.clk.now, who := who }
  { d with reads := d.reads.set none t (some r), nextTag := t + 1 }.emit (.hostRead f t addr len tlp)

/-- Data of host memory comes in (R190, R198): its bytes counted, and poison or a timeout counted and reported. -/
def Dev.readIn (d : Dev) (f len : Nat) (ends : ReadEnd) : Dev :=
  match ends with
  | .good => d.tally (tlyHostRx (d.hostOf f)) len
  | .poisoned => ((d.tally (tlyHostRx (d.hostOf f)) len).bump .HIF_CNT 0 2).report f aerPoisoned
  | .timedOut => (d.bump .HIF_CNT 0 6).report f aerTimeout

/-- A read whose data the command that makes it brings with it: sent and ended in one cycle. DESIGN CHOICE, entry 206. -/
def Dev.fetchNow (d : Dev) (f addr len : Nat) (pasid : Option Nat) (ends : ReadEnd := .good) : Dev :=
  if len = 0 then d
  else ({ d with nextTag := d.nextTag + 1 }.emit (.hostRead f d.nextTag addr len (d.tlpOf f pasid))).readIn f len ends

/-- The bytes that a read gives: those of the host, or free values where it timed out (R190). -/
def Dev.readBytes (d : Dev) (len : Nat) (host : List Byte) (ends : ReadEnd) : Dev × List Byte :=
  match ends with
  | .timedOut => ({ d with draws := d.draws + 1 }, (List.range len).map fun i => BitVec.ofNat 8 (Config.timedOutByte d.draws i))
  | _ => (d, sliceB host 0 len)

/-- Outstanding reads that one waits for end together. -/
def Dev.endReads (d : Dev) (who : ReadFor) (ends : ReadEnd) : Dev :=
  let l := d.reads.filterMap fun e => match e.2 with
    | some r => if r.who = who then some (e.1, r) else none
    | none => none
  d.each l fun (x : Nat × HostRead) d =>
    let d := { d with reads := d.reads.set none x.1 none }.readIn x.2.fn x.2.len ends
    if ends = .timedOut then d else d.tallyMax (tlyHostLat (d.hostOf x.2.fn)) (nsOfCycles (d.clk.now - x.2.at_))

/-- Outstanding reads that one waits for end without data. -/
def Dev.dropReads (d : Dev) (who : ReadFor) : Dev :=
  { d with reads := d.reads.filter fun e => match e.2 with
      | some r => r.who != who
      | none => true }

/-- A read is outstanding for one. -/
def Dev.waitsRead (d : Dev) (who : ReadFor) : Bool := d.reads.any fun e => match e.2 with
  | some r => r.who == who
  | none => false

/-! ### Interrupts (R186 to R189) -/

def Dev.pendBit (d : Dev) (f i : Nat) : Bool :=
  bitOf (d.fld (if i % 64 < 32 then F.MSIX_PBA_LO else F.MSIX_PBA_HI) f (i / 64)) (i % 32)

def Dev.setPend (d : Dev) (f i : Nat) (b : Bool) : Dev :=
  let fl := if i % 64 < 32 then F.MSIX_PBA_LO else F.MSIX_PBA_HI
  d.setFld fl f (i / 64) (withBit (d.fld fl f (i / 64)) (i % 32) b)

/-- Any vector of a function is pending. -/
def Dev.anyPend (d : Dev) (f : Nat) : Bool :=
  (List.range 32).any fun k => d.fld F.MSIX_PBA_LO f k != 0 || d.fld F.MSIX_PBA_HI f k != 0

/-- INTA of a PF follows its pending vectors while neither MSI-X nor MSI is enabled, Interrupt Disable is clear and it is not in D3hot (R171, R189). -/
def Dev.showIntx (d : Dev) (f : Nat) : Dev :=
  let lvl := decide (f < 16) && (d.fn f).enabled && d.cfg f .msixEnable == 0 && d.cfg f .msiEnable == 0 &&
    d.cfg f .interruptDisable == 0 && d.cfg f .powerState != 3 && d.anyPend f
  if lvl = (d.fn f).intx then d else (d.updFn f fun x => { x with intx := lvl }).emit (.intx f lvl)

/-- The MSI vector that carries vector i (R189). -/
def Dev.msiVector (d : Dev) (f i : Nat) : Nat := if i < 2 ^ d.cfg f .multipleMessageEnable then i else 0

/-- A vector is masked under the kind of interrupt in use. -/
def Dev.vecMasked (d : Dev) (f i : Nat) : Bool :=
  if d.cfg f .msixEnable = 1 then d.cfg f .functionMask == 1 || d.flag F.MSIX_TBL_MASK f i
  else bitOf (d.cfg f .msiMask) (d.msiVector f i)

/-- The message of a vector, as the table stands (R188). -/
def Dev.sendVec (d : Dev) (f i : Nat) : Dev :=
  let d := d.tally (tlyHostTx (d.hostOf f)) 4
  if d.cfg f .msixEnable = 1 then
    d.emit (.message f (d.fld F.MSIX_TBL_ADDR_HI f i * 2 ^ 32 + d.fld F.MSIX_TBL_ADDR_LO f i) (d.fld F.MSIX_TBL_DATA f i))
  else
    let n := 2 ^ d.cfg f .multipleMessageEnable
    let v := d.cfg f .msiData
    d.emit (.message f (d.cfg f .msiAddress) (v - v % n + d.msiVector f i))

/-- A vector of a function triggered (R187, R189, R215): a message, or its pending bit; a VF without MSI-X raises nothing, and a function in D3hot or without Bus Master Enable sends no message. -/
def Dev.trigger (d : Dev) (f i : Nat) : Dev :=
  if ¬ (d.fn f).enabled ∨ (d.res f).vecCnt ≤ i then d
  else if d.cfg f .msixEnable = 1 ∨ (f < 16 ∧ d.cfg f .msiEnable = 1) then
    if d.vecMasked f i ∨ ¬ d.canIssue f then d.setPend f i true else d.sendVec f i
  else if f < 16 then (d.setPend f i true).showIntx f
  else d

/-- A completion or event entry written to the host, and the vector that it triggers. -/
def Dev.landEntry (d : Dev) (f addr : Nat) (pasid : Option Nat) (bs : List Byte) (vector : Option Nat) : Dev :=
  let d := d.dmaWrite f addr pasid bs false
  match vector with
  | some v => d.trigger f v
  | none => d

/-- An entry goes to its ring: at once, or behind its intent record while the peer mirrors (R450). -/
def Dev.postEntry (d : Dev) (f ring number index addr : Nat) (pasid : Option Nat) (bs : List Byte) (vector : Option Nat) : Dev :=
  if d.peerWaits then d.queueIntent (.entry f ring number index addr pasid bs vector) else d.landEntry f addr pasid bs vector

/-- A function uses messages: MSI-X, or on a PF MSI (R189). -/
def Dev.usesMessages (d : Dev) (f : Nat) : Bool := d.cfg f .msixEnable == 1 || (decide (f < 16) && d.cfg f .msiEnable == 1)

/-- MSIX_UNMASK (R187, R189): a pending vector that is no longer masked sends its message and clears its bit. -/
def execMsixUnmask (fn : Fin 512) (vector : Fin 2048) (s : State) : Out := s.on fun d =>
  let f := fn.val
  let i := vector.val
  if d.pendBit f i ∧ d.usesMessages f ∧ ¬ d.vecMasked f i ∧ d.canIssue f then ((d.sendVec f i).setPend f i false).showIntx f
  else d

/-! ### Discovery (R173 to R176) -/

/-- Check-value units that a function owns, rising (R173, R294). -/
def Dev.cvusOf (d : Dev) (f : Nat) : List Nat := (List.range 64).filter fun u => d.cvuOwn.at (0, 0) u == (1, f)

/-- Every register of a check-value unit at its reset value. -/
def Dev.resetCvu (d : Dev) (u : Nat) : Dev :=
  { d.resetRegs (fun k => k.reg.layout.kind == .cvu && k.n == u) with cvus := d.cvus.set {} u {} }

/-- Assignments to a function take effect as its reset ends (R294); a unit that changes hands is reset. -/
def Dev.takeCvus (d : Dev) (f : Nat) : Dev :=
  d.each (List.range 64) fun u d =>
    let now := (d.fld F.CVU_ASSIGN_OWNER 0 u, d.fld F.CVU_ASSIGN_ID 0 u)
    if now = (1, f) ∧ d.cvuOwn.at (0, 0) u ≠ now then { d.resetCvu u with cvuOwn := d.cvuOwn.set (0, 0) u now } else d

/-- The entries of a function's discovery table: type, BAR, offset, unit size and count. -/
def Dev.discEntries (d : Dev) (f : Nat) : List (Nat × Nat × Nat × Nat × Nat) :=
  let x := d.res f
  let cvu := (d.cvusOf f).length
  let all := [(1, 2, 0, 4096, ceilDiv (2 * x.qpCnt + x.eqCnt) 64), (2, 0, 0x100000, 4096, x.qpCnt), (3, 0, 0xA000, 4096, x.eqCnt),
    (4, 0, 0x20000, 4096, cvu), (5, 0, 0x60000, 16384, natOf x.nvme), (6, 0, 0x64000, 4096, natOf x.cbf),
    (7, 0, 0x70000, 65536, if x.qpnCnt = 0 then 0 else 1), (8, 0, 0x1000, 16, x.vecCnt), (9, 0, 0x9000, 8, ceilDiv x.vecCnt 64)]
  all.filter fun e => e.2.2.2.2 != 0

/-- A function's discovery table. -/
def Dev.discTable (d : Dev) (f : Nat) : List Byte :=
  let es := d.discEntries f
  leBytes 4 0x4E4B4C45 ++ leBytes 2 1 ++ leBytes 2 es.length ++ leBytes 2 f ++ leBytes 2 (d.res f).tenant ++ leBytes 4 0 ++
  (es.map fun e => leBytes 1 e.1 ++ leBytes 1 1 ++ leBytes 1 e.2.1 ++ leBytes 1 0 ++ leBytes 4 e.2.2.1 ++ leBytes 4 e.2.2.2.1 ++
    leBytes 4 e.2.2.2.2).flatten

/-- One device-owned window of a function (R176): entry, BAR code, size and internal base. -/
def Dev.ownWindow (d : Dev) (f i bar log2 base : Nat) : Dev :=
  let d := (d.setWord ⟨.HIF_ITT, 0, i, 0⟩ (BitVec.ofNat 32 (bar * 64 + log2))).setWord ⟨.HIF_ITT, 0, i, 1⟩ (BitVec.ofNat 32 base)
  let d := d.setWord ⟨.HIF_ITT, 0, i, 2⟩ (BitVec.ofNat 32 (7 * 2 ^ 29 + base / 2 ^ 32 % 65536))
  d.setWord ⟨.HIF_ITT, 0, i, 3⟩ (BitVec.ofNat 32 f)

/-- A function becomes enabled: its windows and its discovery table are written (R174, R176). -/
def Dev.buildFn (d : Dev) (f : Nat) : Dev :=
  let d := d.takeCvus f
  let t := d.discTable f
  let d := d.updFn f fun x => { x with enabled := true, built := true, inReset := none, disc := t }
  (d.ownWindow f (2 * f) 0 21 (0x280000000 + 0x200000 * f)).ownWindow f (2 * f + 1) 1 16 (0x2C0000000 + 0x10000 * f)

/-- FUNCTION_ENABLE (R174): a function that exists and is not in reset becomes enabled. -/
def execFunctionEnable (fn : Fin 512) (s : State) : Out := s.on fun d =>
  if d.fnExists fn.val ∧ ¬ (d.fn fn.val).built ∧ (d.fn fn.val).inReset.isNone then d.buildFn fn.val else d

/-! ### Resource registers (R168, R169) -/

/-- Two half-open ranges overlap; an empty one overlaps nothing. -/
def overlap (a n b m : Nat) : Bool := n != 0 && m != 0 && decide (a < b + m ∧ b < a + n)

/-- Functions whose resources may not be empty: those with stored register words or values kept. -/
def Dev.resFns (d : Dev) : List Nat :=
  let l := (d.csr.filterMap fun e => if e.1.reg = Reg.HIF_FUNC_RES ∨ e.1.reg = Reg.RMA_FUNC ∨ e.1.reg = Reg.STO_FUNC then some e.1.i else none)
  (l ++ d.fns.map (·.1)).foldl (fun a x => insertNum x a) [0]

/-- Resources of a function that break a limit or meet those of another, in effect or pending (R168). -/
def Dev.resBad (d : Dev) (f : Nat) (x : Res) : Bool :=
  decide (256 < x.qpCnt ∨ (if f < 16 then 2048 else 256) < x.vecCnt ∨ 16 < x.eqCnt ∨ 65536 < x.qpBase + x.qpCnt ∨ 32768 < x.vecBase + x.vecCnt) ||
  decide (x.qpnCnt ≠ 0 ∧ x.qpnBase < 2 ∨ x.keyCnt ≠ 0 ∧ x.keyBase < 1 ∨ 2 ^ 24 < x.qpnBase + x.qpnCnt ∨ 2 ^ 24 < x.keyBase + x.keyCnt) ||
  d.resFns.any fun g => g != f && [d.res g, d.resWritten g].any fun y =>
    overlap x.qpBase x.qpCnt y.qpBase y.qpCnt || overlap x.vecBase x.vecCnt y.vecBase y.vecCnt ||
    overlap x.qpnBase x.qpnCnt y.qpnBase y.qpnCnt || overlap x.keyBase x.keyCnt y.keyBase y.keyCnt

/-- Storage interfaces beyond the chip's limits: 128 NVMe controllers, 16,384 I/O queue pairs, 64 compact block functions (R257, R259, R262). -/
def Dev.stoBad (d : Dev) (f : Nat) (x : Res) : Bool :=
  let l := (d.resFns.filter (· != f)).map d.resWritten ++ [x]
  decide (1024 < x.ioqMax ∨ 128 < (l.filter (·.nvme)).length ∨ 64 < (l.filter (·.cbf)).length ∨ 16384 < ((l.filter (·.nvme)).map (·.ioqMax)).sum)

/-- A write of HIF_FUNC_RES, RMA_FUNC or STO_FUNC (R168, R169, R271): discarded with BADCFG, held for an enabled function, else in effect at once. -/
def funcResEffect (k : RegKey) (w : Write) (d : Dev) : Dev :=
  let f := k.i
  let d' := d.plainWrite k w.value
  if k.reg = Reg.STO_FUNC ∧ d.stoBad f (d'.resWritten f) then d.setChip F.STO_STAT_BADCFG 1
  else if d.resBad f (d'.resWritten f) then d.setChip F.HIF_STAT_BADCFG 1
  else if (d.fn f).enabled then
    let old := d.res f
    (d'.updFn f fun x => { x with held := some old }).setFld F.HIF_FUNC_RES_PENDING 0 f 1
  else d'

/-- FUNC_RES_WRITE (R169). -/
def execFuncResWrite (fn : Fin 512) (word : Fin 3) (ws : List Write) (s : State) : Out := s.on fun d =>
  d.writeReg ⟨.HIF_FUNC_RES, 0, fn.val, word.val⟩ ws funcResEffect

/-- Pending resources take effect (R169). -/
def Dev.applyRes (d : Dev) (f : Nat) : Dev := (d.updFn f fun x => { x with held := none }).setFld F.HIF_FUNC_RES_PENDING 0 f 0

/-! ### Placement and windows (R162 to R166, R177, R178) -/

/-- HIF_PF_CFG (R166, R489): VF ranges of enabled PFs disjoint and within 16 to 511, and every field in its range; otherwise discarded, what breaks R166 with BADCFG. -/
def pfCfgEffect (k : RegKey) (w : Write) (d : Dev) : Dev :=
  let d' := d.plainWrite k w.value
  let size (x lo hi : Nat) : Bool := decide (lo ≤ x ∧ x ≤ hi)
  let okSize := size (d'.fld F.HIF_PF_CFG_BAR0_LOG2 0 k.i) 21 30 && size (d'.fld F.HIF_PF_CFG_VF_BAR0_LOG2 0 k.i) 21 30 &&
    (d'.fld F.HIF_PF_CFG_BAR4_LOG2 0 k.i == 0 || size (d'.fld F.HIF_PF_CFG_BAR4_LOG2 0 k.i) 21 36) &&
    (d'.fld F.HIF_PF_CFG_VF_BAR4_LOG2 0 k.i == 0 || size (d'.fld F.HIF_PF_CFG_VF_BAR4_LOG2 0 k.i) 21 36)
  let base (p : Nat) : Nat := d'.fld F.HIF_PF_CFG_VF_BASE 0 p
  let cnt (p : Nat) : Nat := d'.fld F.HIF_PF_CFG_TOTALVFS 0 p
  let on (p : Nat) : Bool := d'.flag F.HIF_PF_CFG_EN 0 p
  let okVfs := !on k.i || (decide (cnt k.i = 0 ∨ 16 ≤ base k.i ∧ base k.i + cnt k.i ≤ 512) && decide (cnt k.i ≤ 496) &&
    (List.range 16).all fun p => p == k.i || !on p || !overlap (base k.i) (cnt k.i) (base p) (cnt p))
  if ¬ okSize then d
  else if ¬ okVfs then d.setChip F.HIF_STAT_BADCFG 1
  else if base k.i < 16 ∨ 496 < cnt k.i then d
  else d'

/-- The size of a BAR of a function as log2; 0 when it is absent (R172). -/
def Dev.barLog2 (d : Dev) (f bar : Nat) : Nat :=
  let p := d.pfOf f
  match bar with
  | 0 => d.fld (if f < 16 then F.HIF_PF_CFG_BAR0_LOG2 else F.HIF_PF_CFG_VF_BAR0_LOG2) 0 p
  | 1 => 16
  | 2 => d.fld (if f < 16 then F.HIF_PF_CFG_BAR4_LOG2 else F.HIF_PF_CFG_VF_BAR4_LOG2) 0 p
  | _ => 0

def Dev.ittBase (d : Dev) (i : Nat) : Nat := d.fld F.HIF_ITT_IBASE_HI 0 i * 2 ^ 32 + d.fld F.HIF_ITT_IBASE_LO 0 i
def Dev.ittOff (d : Dev) (i : Nat) : Nat := d.fld F.HIF_ITT_WBASE 0 i * 4096

/-- The internal range of a window lies in a populated part of region shared SRAM that software may reach, or in DRAM (R177). -/
def Dev.ittTarget (d : Dev) (a n : Nat) : Bool :=
  d.inDram a n || (decide (0x100000000 ≤ a ∧ a + n ≤ 0x200000000 ∧ (a - 0x100000000) % 0x40000000 + n ≤ 40 * 2 ^ 20) && d.sramClear a n)

/-- A window's FUNC after a write is still a function on the port of the host that writes it (R199). -/
def Dev.keepsPort (d : Dev) (w : Writer) (f : Nat) : Bool :=
  match functionW w with
  | some g => d.samePort f g
  | none => true

/-- HIF_ITT (R177, R199, R489): a window with VALID = 1 that breaks a rule is discarded with BADCFG, a reserved BAR or a size out of its range in any case. -/
def ittEffect (k : RegKey) (w : Write) (d : Dev) : Dev :=
  let d' := d.plainWrite k w.value
  if ¬ d'.keepsPort w.writer (d'.fld F.HIF_ITT_FUNC 0 k.i) then d.status w.writer k.addr 5
  else
  let i := k.i
  let n := 2 ^ d'.fld F.HIF_ITT_LOG2 0 i
  let bar := d'.fld F.HIF_ITT_BAR 0 i
  let f := d'.fld F.HIF_ITT_FUNC 0 i
  let size := d'.barLog2 f bar
  let lg := d'.fld F.HIF_ITT_LOG2 0 i
  let ok := decide (12 ≤ lg ∧ lg ≤ 30) && decide (d'.ittOff i % n = 0 ∧ d'.ittBase i % n = 0) &&
    (bar == 2 || (bar == 0 && decide (2 ^ 21 ≤ d'.ittOff i))) && size != 0 && decide (d'.ittOff i + n ≤ 2 ^ size) && d'.ittTarget (d'.ittBase i) n
  if i < 1024 then d
  else if d'.flag F.HIF_ITT_VALID 0 i ∧ ¬ ok then d.setChip F.HIF_STAT_BADCFG 1
  else if bar = 3 ∨ lg < 12 ∨ 30 < lg then d
  else d'

/-- HIF_ITT entries with a stored word, rising. -/
def Dev.ittList (d : Dev) : List Nat :=
  d.csr.foldl (fun a e => if e.1.reg = Reg.HIF_ITT ∧ e.1.w = 2 then insertNum e.1.i a else a) []

/-- Windows of a function and BAR that cover an offset, lowest first (R178). -/
def Dev.windows (d : Dev) (f bar o : Nat) : List Nat :=
  d.ittList.filter fun i => d.flag F.HIF_ITT_VALID 0 i && d.fld F.HIF_ITT_FUNC 0 i == f && d.fld F.HIF_ITT_BAR 0 i == bar &&
    decide (d.ittOff i ≤ o ∧ o < d.ittOff i + 2 ^ d.fld F.HIF_ITT_LOG2 0 i)

/-- The window that serves an offset, ITT_OVLP being set when several match (R178). -/
def Dev.window (d : Dev) (f bar o : Nat) : Dev × Option Nat :=
  match d.windows f bar o with
  | [] => (d, none)
  | [i] => (d, some i)
  | i :: _ => (d.setChip F.HIF_STAT_ITT_OVLP 1, some i)

/-! ### Outbound windows and translation (R181 to R184) -/

/-- HIF_OTT entries with a stored word, rising. -/
def Dev.ottList (d : Dev) : List Nat :=
  d.csr.foldl (fun a e => if e.1.reg = Reg.HIF_OTT ∧ e.1.w = 0 then insertNum e.1.i a else a) []

/-- The first outbound entry that covers an offset of a function's internal host window (R181). -/
def Dev.ottFor (d : Dev) (f o : Nat) : Option Nat :=
  d.ottList.find? fun i =>
    let b := d.fld F.HIF_OTT_OBASE_HI 0 i * 2 ^ 32 + d.fld F.HIF_OTT_OBASE_LO 0 i * 4096
    d.flag F.HIF_OTT_VALID 0 i && d.fld F.HIF_OTT_FUNC 0 i == f && decide (b ≤ o ∧ o < b + 2 ^ d.fld F.HIF_OTT_LOG2 0 i)

/-- A PASID as the translation cache numbers it: plus one, 0 without. -/
def pasidKey : Option Nat → Nat
  | some p => p + 1
  | none => 0

/-- A translation of the cache. -/
def Dev.atcFind (d : Dev) (f page pasid : Nat) : Option XlateTo :=
  (d.atc.find? fun e => e.fn == f && e.page == page && e.pasid == pasid).map (·.to_)

/-- A translation joins the cache of 8,192 entries, from which the oldest gives way (R183). -/
def Dev.atcPut (d : Dev) (e : AtcEntry) : Dev :=
  let l := d.atc.filter fun x => !(x.fn == e.fn && x.page == e.page && x.pasid == e.pasid)
  { d with atc := l.drop (l.length - 8191) ++ [e] }

/-- Where an access of host memory goes: nowhere (R182), to an address, or to a page of which the host has yet to be asked. -/
inductive HostTo where
  | fails
  | asks (f page : Nat) (pasid : Option Nat)
  | goes (f addr : Nat) (tlp : TlpAttr)
  deriving DecidableEq, Repr

/-- A host address under a function and PASID, by its translation where one is asked for and the function's ATS Enable is set (R183). -/
def Dev.hostAddress (d : Dev) (f ha : Nat) (tlp : TlpAttr) (at_ wr : Bool) : HostTo :=
  if ¬ at_ ∨ d.cfg f .atsEnable ≠ 1 then .goes f ha tlp
  else
    match d.atcFind f (ha / 4096) (pasidKey tlp.pasid) with
    | none => .asks f (ha / 4096) tlp.pasid
    | some .denied => .fails
    | some .raw => .goes f ha tlp
    | some (.to_ p r w) => if (if wr then w else r) then .goes f (p * 4096 + ha % 4096) { tlp with translated := true } else .fails

/-- An access of an internal host window (R180 to R183). -/
def Dev.hostTo (d : Dev) (a : Nat) (wr : Bool) : HostTo :=
  if a < 0x80000000000 ∨ 0x80000000000 + 512 * 0x400000000 ≤ a then .fails
  else
    let f := (a - 0x80000000000) / 0x400000000
    let o := (a - 0x80000000000) % 0x400000000
    match d.ottFor f o with
    | none => .fails
    | some i =>
      if ¬ d.canIssue f then .fails
      else
        let b := d.fld F.HIF_OTT_OBASE_HI 0 i * 2 ^ 32 + d.fld F.HIF_OTT_OBASE_LO 0 i * 4096
        let ha := d.fld F.HIF_OTT_HADDR_HI 0 i * 2 ^ 32 + d.fld F.HIF_OTT_HADDR_LO 0 i * 4096 + (o - b)
        let tlp : TlpAttr :=
          { d.tlpOf f (if d.flag F.HIF_OTT_PV 0 i then some (d.fld F.HIF_OTT_PASID 0 i) else none) with
            pmr := d.flag F.HIF_OTT_PMR 0 i, ns := d.flag F.HIF_OTT_NS 0 i, rlx := d.flag F.HIF_OTT_RLX 0 i }
        d.hostAddress f ha tlp (d.flag F.HIF_OTT_AT 0 i) wr

/-- A page that a Translation Request or a page request is out for. -/
def Dev.pageAsked (d : Dev) (f page : Nat) (pasid : Option Nat) : Bool :=
  d.pageReqs.contains (f, page, pasid.getD 0) || d.reads.any fun e => match e.2 with
    | some r => r.fn == f && r.who == .page page (pasidKey pasid)
    | none => false

/-- A Translation Request for a page sent (R183), once, when the link has room. -/
def Dev.askPage (d : Dev) (f page : Nat) (pasid : Option Nat) : Dev :=
  if d.pageAsked f page pasid ∨ ¬ d.readRoom f then d
  else
    let t := d.nextTag
    let r : HostRead := { fn := f, len := 8, at_ := d.clk.now, who := .page page (pasidKey pasid) }
    { d with reads := d.reads.set none t (some r), nextTag := t + 1 }.emit (.translationRequest f t page pasid)

/-- What a translation completion of 8 bytes says: the translated address in bits 63:12, the size flag S, untranslated access only (U), and write and read permission. PRESUMED (Base Specification), entry 207. -/
def xlateOf (page v : Nat) : XlateTo :=
  if v % 4 = 0 then .denied
  else if bitOf v 2 then .raw
  else
    let t := v / 4096
    let ones := ((List.range 52).findIdx fun i => !bitOf t i) + 1
    let p := if bitOf v 11 then t / 2 ^ ones * 2 ^ ones + page % 2 ^ ones else t
    .to_ p (bitOf v 0) (bitOf v 1)

/-- ATS_INVALIDATE (R183): cached translations of a range of pages are removed; the invalidation completes once the requests now outstanding for the function have ended, whoever waits for them. -/
def execAtsInvalidate (fn : Fin 512) (itag page pages : Nat) (s : State) : Out := s.on fun d =>
  let f := fn.val
  let d := { d with atc := d.atc.filter fun e => !(e.fn == f && decide (page ≤ e.page ∧ e.page < page + pages)) }
  let tags := d.reads.filterMap fun e => match e.2 with
    | some x => if x.fn = f then some e.1 else none
    | none => none
  { d with invals := d.invals ++ [(f, itag, tags)] }

/-- ATS_INVALIDATE_COMPLETE (R183). -/
def execAtsInvalidateComplete (fn : Fin 512) (s : State) : Out := s.on fun d =>
  match d.invals.find? fun x => x.1 == fn.val with
  | none => d
  | some x =>
    if x.2.2.any fun t => (d.reads.at none t).isSome then d
    else { d with invals := d.invals.erase x }.emit (.invalDone fn.val x.2.1)

/-- Page requests that a PF reports as its Outstanding Page Request Capacity (R184). -/
def pageCapacity : Nat := 512

/-- A page request sent for a function, within the PF's capacity and the chip's 4,096 (R184). -/
def Dev.requestPage (d : Dev) (f page pasid : Nat) : Dev :=
  let p := d.pfOf f
  let mine := (d.pageReqs.filter fun x => d.pfOf x.1 == p).length
  if d.cfg p .priEnable = 0 ∨ pageCapacity ≤ mine ∨ 4096 ≤ d.pageReqs.length ∨ d.pageReqs.contains (f, page, pasid) then d
  else { d with pageReqs := d.pageReqs ++ [(f, page, pasid)] }.emit (.pageRequest f page pasid)

/-- A translation completion (R183, R184): the translation joins the cache; where the host gives no access, the page is requested if page requests are enabled, else the requests that wait for it fail. -/
def Dev.xlateIn (d : Dev) (f page pasid v : Nat) : Dev :=
  let x := xlateOf page v
  if x = .denied ∧ d.cfg (d.pfOf f) .priEnable = 1 then d.requestPage f page (pasid - 1)
  else d.atcPut { fn := f, page := page, pasid := pasid, to_ := x }

/-- The requests that wait for a page fail (R182, R184). -/
def Dev.denyPage (d : Dev) (f page pasid : Nat) : Dev :=
  ((d.atcPut { fn := f, page := page, pasid := pasid + 1, to_ := .denied }).onlyIf (pasid == 0) fun d => d.atcPut { fn := f, page := page, pasid := 0, to_ := .denied })

/-- An access of a function's host window has failed: what the host denied is asked again next time. -/
def Dev.forgetDenied (d : Dev) (a : Nat) : Dev :=
  let f := (a - 0x80000000000) / 0x400000000
  if a < 0x80000000000 then d else { d with atc := d.atc.filter fun e => !(e.fn == f && e.to_ == .denied) }

/-! ### Links (R161 to R165) -/

/-- Links that a bifurcation code gives a port. -/
def linksOf (bifurc : Nat) : Nat := 2 ^ bifurc

/-- The shape of a port as sampled, at first that of the reset values (R162). -/
def Dev.shape (d : Dev) (h : Nat) : Nat × Nat := d.hifShape.at (0, 7) h

/-- BIFURC and MAX_GEN of a port sampled (R162). -/
def Dev.samplePort (d : Dev) (h : Nat) : Dev :=
  { d with hifShape := d.hifShape.set (0, 7) h (d.fld F.HIF_PORT_CFG_BIFURC 0 h, d.fld F.HIF_PORT_CFG_MAX_GEN 0 h) }

/-- A link shown in Detect (R163). -/
def Dev.toDetect (d : Dev) (h k : Nat) : Dev := d.setWord ⟨.HIF_LINK_STAT, 0, 4 * h + k, 0⟩ 0

/-- HOST_LINK_UP (R161, R164, R165): a link of an enabled port that carries a placed PF comes up, but not in the wait after a failed boot attempt, at the highest rate common to the host and MAX_GEN. -/
def execHostLinkUp (host : Fin 2) (link : Fin 4) (gen : Fin 8) (s : State) : Out := s.on fun d =>
  let h := host.val
  let k := link.val
  let (split, maxGen) := d.shape h
  let g := min gen.val maxGen
  if ¬ d.flag F.HIF_PORT_CFG_EN 0 h ∨ d.perst.at false h ∨ d.boot.waitFrom.isSome ∨ linksOf split ≤ k ∨ (d.pfsOn h k).isEmpty ∨ g = 0 then d
  else
    let d := (d.setFld F.HIF_LINK_STAT_UP 0 (4 * h + k) 1).setFld F.HIF_LINK_STAT_GEN 0 (4 * h + k) g
    let d := (d.setFld F.HIF_LINK_STAT_WIDTH 0 (4 * h + k) (16 / linksOf split)).setFld F.HIF_LINK_STAT_LTSSM 0 (4 * h + k) 4
    d.setFld F.HIF_LINK_STAT_FLIT 0 (4 * h + k) (if 6 ≤ g then 1 else 0)

end Sys2Proof.Machine
end

