-- ==== Sys2Proof/Machine/Rings.lean ====
section
/-! DEFINITION. Queue pairs, descriptors, doorbells, jobs, completions and event queues (R200 to R220). A queue pair is named by its page, 256 × function + i. -/

namespace Sys2Proof.Machine

open Sys2Proof

/-! ### Rings (R200, R201, R213) -/

def Dev.ringBase (d : Dev) (n k : Nat) : Nat := d.fld F.QCP_RING_ADDR_HI n k * 2 ^ 32 + d.fld F.QCP_RING_ADDR_LO n k * 4096
def Dev.ringSize (d : Dev) (n k : Nat) : Nat := 2 ^ d.fld F.QCP_RING_LOG2 n k

/-- The distance between free-running 16-bit indices (R201). -/
def idxDist (a b : Nat) : Nat := (a + 65536 - b % 65536) % 65536

def Dev.qp (d : Dev) (n : Nat) : Qp := d.qps.at {} n
def Dev.updQp (d : Dev) (n : Nat) (f : Qp → Qp) : Dev := { d with qps := d.qps.upd {} n f }

/-- The page names a queue pair that its function has been given (R200). -/
def Dev.hasQp (d : Dev) (n : Nat) : Bool := (d.fn (n / 256)).enabled && decide (n % 256 < (d.res (n / 256)).qpCnt)

/-- The PASID that a queue pair attaches (R202). -/
def Dev.qpPasid (d : Dev) (n : Nat) : Option Nat := if d.flag F.QCP_CTL_PV n then some (d.fld F.QCP_CTL_PASID n) else none

/-- The completion queue has no room (R214). -/
def Dev.cqFull (d : Dev) (n : Nat) : Bool :=
  decide (d.ringSize n 2 ≤ idxDist (d.fld F.QCP_STAT_CQ_PI n) (d.fld F.QCP_CQ_ARM_CI n))

/-- A host queue pair is a channel while a transport QP not in RESET names it (R230). -/
def Dev.isChannel (d : Dev) (n : Nat) : Bool :=
  d.qpctxs.any fun e => e.2.fn == n / 256 && (e.2.img.getD 0 0) != 0 && (e.2.img.getD 1 0).toNat == n % 256

/-- PHASE of the entry at an index of a ring of 2^log2 entries (R213). -/
def phaseBit (x log2 : Nat) : Nat := 1 - x / 2 ^ log2 % 2

/-- A 32-byte entry written at the CQ's producer index (R213 to R215): PHASE in bit 7 of byte 3; an armed CQ triggers its vector. -/
def Dev.writeCqe (d : Dev) (n : Nat) (e : List Byte) : Dev :=
  let f := n / 256
  let x := d.fld F.QCP_STAT_CQ_PI n
  let fl := (e.getD 3 0).toNat % 128 + 128 * phaseBit x (d.fld F.QCP_RING_LOG2 n 2)
  let vec := if d.flag F.QCP_CQ_ARM_ARM n then some (d.fld F.QCP_CQ_ARM_VEC n) else none
  let d := (d.setFld F.QCP_STAT_CQ_PI n 0 (x + 1)).setFld F.QCP_CQ_ARM_ARM n 0 0
  d.postEntry f 0 n ((x + 1) % 65536) (d.ringBase n 2 + 32 * (x % d.ringSize n 2)) (d.qpPasid n) (e.set 3 (BitVec.ofNat 8 fl)) vec

/-! ### Descriptors and jobs (R203 to R206) -/

def Job.op (j : Job) : Nat := leVal (sliceB j.desc 0 1)
def Job.flag (j : Job) (b : Nat) : Bool := bitOf (leVal (sliceB j.desc 1 1)) b
def Job.hdrLen (j : Job) : Nat := leVal (sliceB j.desc 2 1)
def Job.segHdr (j : Job) : Nat := leVal (sliceB j.desc 3 1)
def Job.len (j : Job) : Nat := leVal (sliceB j.desc 4 4)
def Job.addr (j : Job) : Nat := leVal (sliceB j.desc 8 8)
def Job.mss (j : Job) : Nat := leVal (sliceB j.desc 16 2)
def Job.addr2 (j : Job) : Nat := leVal (sliceB j.desc 24 8)
def Job.page (j : Job) : Nat := 256 * j.fn + j.qp

/-- Any flit of a job's data is marked (R190); any of its bytes from an offset on. -/
def Job.poison (j : Job) : Bool := !j.marks.isEmpty
def Job.markedIn (j : Job) (o n : Nat) : Bool := n != 0 && j.marks.any fun i => decide (32 * i < o + n ∧ o < 32 * i + 32)

def Dev.job (d : Dev) (j : Nat) : Job := d.jobs.at {} j
def Dev.updJob (d : Dev) (j : Nat) (f : Job → Job) : Dev := { d with jobs := d.jobs.set {} j (f (d.job j)) }

/-- A job finished with a status. -/
def Dev.endJob (d : Dev) (j status bytes : Nat) : Dev := d.updJob j fun x => { x with state := .done, status := status, bytes := bytes }

/-- Jobs of a queue, oldest first. -/
def Dev.jobsOf (d : Dev) (n : Nat) (rq : Bool) : List (Nat × Job) :=
  d.jobs.filter fun e => e.2.page == n && e.2.rq == rq

/-- An opcode that a send queue accepts (R204, R230, R233, R284). -/
def Dev.sqAccepts (d : Dev) (n op : Nat) : Bool :=
  if d.isChannel n then decide (0x20 ≤ op ∧ op ≤ 0x28) else [1, 2, 4, 5, 0x30, 0x31].contains op

/-- A descriptor field out of its range (R205, R233). -/
def Job.badLength (j : Job) : Bool :=
  decide (1048576 < j.len ∨ 32 < j.hdrLen) ||
  (match j.op with
  | 1 => decide (16383 < j.hdrLen + j.len + 4)
  | 2 => decide (j.segHdr < 14 ∨ j.mss < 64 ∨ 9216 < j.mss ∨ j.len < j.segHdr ∨ j.len < j.mss)
  | 0x25 => j.len != 8
  | 0x26 => j.len != 8
  | 0x27 => j.len != 0
  | _ => false)

/-- A descriptor read from a ring becomes a job; one that its queue does not accept, or whose lengths are out of range, is finished at once. -/
def Dev.newJob (d : Dev) (n : Nat) (rq : Bool) (index : Nat) (desc : List Byte) : Dev :=
  let j : Job := { fn := n / 256, qp := n % 256, rq := rq, index := index, desc := sliceB desc 0 64 }
  let ok := if rq then j.op == 3 else d.sqAccepts n j.op
  let bad := j.badLength || (rq && j.hdrLen != 0)
  let j : Job := if ¬ ok then { j with state := .done, status := 5 } else if bad then { j with state := .done, status := 4 } else j
  { d with jobs := d.jobs.set {} d.nextJob j, nextJob := d.nextJob + 1 }

/-! ### Doorbells (R208 to R210, R217) -/

/-- A doorbell value that a running queue accepts (R209). -/
def Dev.ringAccepts (d : Dev) (n : Nat) (rq : Bool) (p : Nat) : Bool :=
  let ci := if rq then d.fld F.QCP_IDX_RQ_CI n else d.fld F.QCP_IDX_SQ_CI n
  let pi := if rq then (d.qp n).rqPi else (d.qp n).sqPi
  let dp := idxDist p ci
  decide (idxDist pi ci ≤ dp ∧ dp ≤ d.ringSize n (if rq then 1 else 0))

/-- A send or receive queue doorbell takes effect (R209). -/
def Dev.ringDoorbell (d : Dev) (n : Nat) (rq : Bool) (p : Nat) : Dev :=
  if ¬ d.hasQp n ∨ ¬ d.flag F.QCP_CTL_EN n then d
  else if d.ringAccepts n rq p then d.updQp n fun q => if rq then { q with rqPi := p } else { q with sqPi := p }
  else d.bump .QCP_CNT n 1

/-- A doorbell arrives: one that is accepted waits for its intent record (R450); a passive device discards it (R452). -/
def Dev.ringDoorbellIn (d : Dev) (n : Nat) (rq : Bool) (p : Nat) : Dev :=
  if d.passive then d.standbyDrop
  else if d.peerWaits && d.hasQp n && d.flag F.QCP_CTL_EN n && d.ringAccepts n rq p then d.queueIntent (.doorbell n rq p)
  else d.ringDoorbell n rq p

/-- An event queue that its function has been given. -/
def Dev.hasEq (d : Dev) (f e : Nat) : Bool := (d.fn f).enabled && decide (e < (d.res f).eqCnt)

def Dev.eqSize (d : Dev) (n : Nat) : Nat := 2 ^ d.fld F.EQC_RING_LOG2 n

/-- An event-queue doorbell (R217, R215). -/
def Dev.eqDoorbell (d : Dev) (f e v : Nat) : Dev :=
  let n := 16 * f + e
  if ¬ d.hasEq f e ∨ ¬ d.flag F.EQC_CTL_EN n then d
  else
    let ci := d.fld F.EQC_STAT_CI n
    let pi := d.fld F.EQC_STAT_PI n
    let c := v % 65536
    if idxDist pi ci < idxDist c ci then d.bump .EQC_DB_BAD n 0
    else
      let d := d.setFld F.EQC_STAT_CI n 0 c
      let arm := bitOf v 31
      if arm ∧ pi ≠ c then { d with eqArm := d.eqArm.set false n false }.trigger f (d.fld F.EQC_CTL_VEC n)
      else { d with eqArm := d.eqArm.set false n arm }

/-- An event-queue doorbell arrives (R450, R452). -/
def Dev.eqDoorbellIn (d : Dev) (f e v : Nat) : Dev :=
  let n := 16 * f + e
  if d.passive then d.standbyDrop
  else if d.peerWaits && d.hasEq f e && d.flag F.EQC_CTL_EN n &&
      decide (idxDist (v % 65536) (d.fld F.EQC_STAT_CI n) ≤ idxDist (d.fld F.EQC_STAT_PI n) (d.fld F.EQC_STAT_CI n)) then d.queueIntent (.eqDoorbell f e v)
  else d.eqDoorbell f e v

/-- DOORBELL (R209): a send or receive queue's new producer index. -/
def execDoorbell (fn : Fin 512) (qp : Fin 256) (rq : Bool) (value : Word) (s : State) : Out := s.on fun d =>
  d.ringDoorbellIn (256 * fn.val + qp.val) rq (value.toNat % 65536)

/-- EQ_DOORBELL (R217). -/
def execEqDoorbell (fn : Fin 512) (eq : Fin 16) (value : Word) (s : State) : Out := s.on fun d =>
  d.eqDoorbellIn fn.val eq.val value.toNat

/-- A write to a doorbell slot (R208): slot 2i is the SQ of QP i, 2i + 1 its RQ, and slots from 2 × QP_CNT on the event queues. -/
def Dev.slotDoorbell (d : Dev) (f slot v : Nat) : Dev :=
  let n := (d.res f).qpCnt
  if slot < 2 * n then d.ringDoorbellIn (256 * f + slot / 2) (slot % 2 == 1) (v % 65536) else d.eqDoorbellIn f (slot - 2 * n) v

/-! ### Queue pair registers (R214, R215, R220) -/

/-- QCP_RING and EQC_RING: sizes of 6 to 15; a QP's rings stay while it runs (R220). -/
def ringEffect (k : RegKey) (w : Write) (d : Dev) : Dev :=
  let lg := w.value.toNat % 16
  if k.w = 2 ∧ lg < 6 then d
  else if k.reg = Reg.QCP_RING ∧ d.flag F.QCP_CTL_EN k.n then d
  else d.plainWrite k w.value

/-- STOPPED shows that no job of a QP is pending and EN = 0 (R220). -/
def Dev.showStopped (d : Dev) (n : Nat) : Dev :=
  let q := d.qp n
  if q.stopping ∧ (d.jobsOf n false).isEmpty ∧ (d.jobsOf n true).isEmpty ∧
      q.sqPi = d.fld F.QCP_IDX_SQ_CI n ∧ q.rqPi = d.fld F.QCP_IDX_RQ_CI n then
    (d.updQp n fun q => { q with stopping := false }).setFld F.QCP_STAT_STOPPED n 0 1
  else d

/-- QCP_CTL (R220, R489): EN = 0 stops the queue pair, EN = 1 starts it with every index 0; a write that changes PV or PASID while it runs is discarded whole, and a start waits until a stop has ended. -/
def qcpCtlEffect (k : RegKey) (w : Write) (d : Dev) : Dev :=
  let n := k.n
  let on := d.flag F.QCP_CTL_EN n
  let new := bitOf w.value.toNat 31
  if on then
    if new ∨ F.QCP_CTL_PV.ofWord (d.wouldBe k w.value) ≠ d.fld F.QCP_CTL_PV n ∨ F.QCP_CTL_PASID.ofWord (d.wouldBe k w.value) ≠ d.fld F.QCP_CTL_PASID n then d
    else ((d.setFld F.QCP_CTL_EN n 0 0).updQp n fun q => { q with stopping := true }).showStopped n
  else if ¬ new then d.plainWrite k w.value
  else if (d.qp n).stopping then d
  else
    let d := (d.plainWrite k w.value).updQp n fun _ => {}
    (((d.setWord ⟨.QCP_IDX, n, 0, 0⟩ 0).setWord ⟨.QCP_STAT, n, 0, 0⟩ 0).setFld F.QCP_CQ_ARM_CI n 0 0).setFld F.QCP_CQ_ARM_ARM n 0 0

/-- QCP_SCHED: a weight of 1 to 255 and a burst of 1 to 64. -/
def qcpSchedEffect (k : RegKey) (w : Write) (d : Dev) : Dev :=
  let v := w.value.toNat
  if bitsOf v 15 8 = 0 ∨ v % 128 = 0 ∨ 64 < v % 128 then d else d.plainWrite k w.value

/-- QCP_CQ_ARM takes effect (R215). -/
def Dev.cqIndexWrite (d : Dev) (n v : Nat) : Dev :=
  let arm := bitOf v 31
  let d := d.plainWrite ⟨.QCP_CQ_ARM, n, 0, 0⟩ (BitVec.ofNat 32 v)
  if arm ∧ d.fld F.QCP_STAT_CQ_PI n ≠ d.fld F.QCP_CQ_ARM_CI n then
    (d.setFld F.QCP_CQ_ARM_ARM n 0 0).trigger (n / 256) (d.fld F.QCP_CQ_ARM_VEC n)
  else d

/-- QCP_CQ_ARM (R215), behind its intent record while the peer mirrors (R450). -/
def cqArmEffect (k : RegKey) (w : Write) (d : Dev) : Dev :=
  if d.peerWaits then d.queueIntent (.cqIndex k.n w.value.toNat) else d.cqIndexWrite k.n w.value.toNat

/-- EQC_CTL: EN from 0 to 1 starts the queue with its indices at 0. -/
def eqcCtlEffect (k : RegKey) (w : Write) (d : Dev) : Dev :=
  let on := d.flag F.EQC_CTL_EN k.n
  let d := d.plainWrite k w.value
  if ¬ on ∧ bitOf w.value.toNat 31 then
    { d.setWord ⟨.EQC_STAT, k.n, 0, 0⟩ 0 with eqArm := d.eqArm.set false k.n false, eqLost := d.eqLost.set false k.n false }
  else d

/-- CQ_ARM_WRITE (R215). -/
def execCqArmWrite (fn : Fin 512) (qp : Fin 256) (ws : List Write) (s : State) : Out := s.on fun d =>
  d.writeReg ⟨.QCP_CQ_ARM, 256 * fn.val + qp.val, 0, 0⟩ ws cqArmEffect

/-- QP_STOP (R220): a write of QCP_CTL. -/
def execQpStop (fn : Fin 512) (qp : Fin 256) (ws : List Write) (s : State) : Out := s.on fun d =>
  d.writeReg ⟨.QCP_CTL, 256 * fn.val + qp.val, 0, 0⟩ ws qcpCtlEffect

/-! ### Service (R210, R211) -/

/-- Pages of the queue pairs of enabled functions, rising. -/
def Dev.qpPages (d : Dev) : List Nat :=
  (d.fns.filter fun e => e.2.enabled).flatMap fun e => (List.range (d.res e.1).qpCnt).map (256 * e.1 + ·)

/-- Send queues of a port that a turn may go to: page, chip QP number, weight. -/
def Dev.sqReady (d : Dev) (h : Nat) : List (Nat × Nat × Nat) :=
  d.qpPages.filterMap fun n =>
    let f := n / 256
    if d.flag F.QCP_CTL_EN n ∧ d.hostOf f = h ∧ d.working f ∧ (d.qp n).sqPi ≠ d.fld F.QCP_IDX_SQ_CI n ∧ (d.qp n).replaySq = 0 ∧ ¬ d.cqFull n then
      some (n, (d.res f).qpBase + n % 256, d.fld F.QCP_SCHED_WEIGHT n)
    else none

/-- The entry with the lowest chip QP number. -/
def lowestQp (l : List (Nat × Nat × Nat)) : Option (Nat × Nat × Nat) :=
  l.foldl (fun a x => match a with
    | none => some x
    | some b => if x.2.1 < b.2.1 then some x else a) none

/-- The queue whose turn it is, and the round it falls in: on in the round in progress, else the next round that a queue takes part in, else round 1. -/
def nextTurn (t : Turn) (l : List (Nat × Nat × Nat)) : Option (Nat × Turn) :=
  let here := l.filter fun x => decide (t.round ≤ x.2.2) && (match t.last with
    | none => true
    | some q => decide (q < x.2.1))
  match lowestQp here with
  | some x => some (x.1, { round := t.round, last := some x.2.1 })
  | none =>
    let up := l.filter fun x => decide (t.round < x.2.2)
    match lowestQp up with
    | some x => some (x.1, { round := t.round + 1, last := some x.2.1 })
    | none => (lowestQp l).map fun x => (x.1, { round := 1, last := some x.2.1 })

/-- A descriptor of a ring read from host memory (R202): nothing is sent when the function may not issue. -/
def Dev.readDesc (d : Dev) (n : Nat) (rq : Bool) (x : Nat) : Dev :=
  let k := natOf rq
  if d.canIssue (n / 256) then d.fetchNow (n / 256) (d.ringBase n k + 64 * (x % d.ringSize n k)) 64 (d.qpPasid n) else d

/-- A descriptor read becomes a job; one whose read fails ends with ACCESS, nothing of it being known (R202). -/
def Dev.takeDesc (d : Dev) (n : Nat) (rq : Bool) (x : Nat) (desc : List Byte) : Dev :=
  if d.canIssue (n / 256) then (d.readDesc n rq x).newJob n rq x desc
  else
    let j : Job := { fn := n / 256, qp := n % 256, rq := rq, index := x, state := .done, status := 5 }
    { d with jobs := d.jobs.set {} d.nextJob j, nextJob := d.nextJob + 1 }

/-- Descriptors of a turn read in ring order. -/
def Dev.readDescs (d : Dev) (n : Nat) (descs : List (List Byte)) : Nat → Nat → Dev
  | 0, _ => d
  | k + 1, i =>
    let x := d.fld F.QCP_IDX_SQ_CI n
    ((d.takeDesc n false x (descs.getD i [])).setFld F.QCP_IDX_SQ_CI n 0 (x + 1)).readDescs n descs k (i + 1)

/-- QUEUE_SERVICE_TURN (R202, R211): one turn of a port's queue engine; `descs` are the descriptors as host memory holds them from the queue's consumer index on. The turn waits while the link has no room for a read (R185). -/
def execQueueServiceTurn (host : Fin 2) (descs : List (List Byte)) (s : State) : Out := s.on fun d =>
  match nextTurn (d.turns.at {} host.val) (d.sqReady host.val) with
  | none => { d with turns := d.turns.set {} host.val {} }
  | some (n, t) =>
    if ¬ d.readRoom (n / 256) then d else
    let d := { d with turns := d.turns.set {} host.val t }
    let posted := idxDist (d.qp n).sqPi (d.fld F.QCP_IDX_SQ_CI n)
    d.readDescs n descs (min posted (d.fld F.QCP_SCHED_BURST n)) 0

/-- The next job of a send queue that has not begun: with its number, once FENCE lets it (R203). -/
def Dev.nextFetched (d : Dev) (n : Nat) : Option (Nat × Job) :=
  let l := d.jobsOf n false
  match l.find? fun e => e.2.state == .fetched || e.2.state == .ready with
  | none => none
  | some e => if e.2.flag 3 ∧ (l.headD e).1 ≠ e.1 then none else some e

/-- Reads of a job's buffer sent as far as the link has room (R185), each up to the next multiple of Max_Read_Request_Size; at most as many as a link may have. -/
def Dev.askMore (d : Dev) (j : Nat) : Nat → Dev
  | 0 => d
  | k + 1 =>
    let x := d.job j
    if x.len ≤ x.want ∨ ¬ d.readRoom x.fn then d
    else
      let a := x.addr + x.want
      let n := min (x.len - x.want) (d.readMax x.fn - a % d.readMax x.fn)
      let d := d.sendRead x.fn a n (d.tlpOf x.fn (d.qpPasid x.page)) (.job j x.want)
      (d.updJob j fun x => { x with want := x.want + n, state := .reading }).askMore j k

/-- The read of a job's buffer from host memory (R185, R202): it begins when the link has room, and fails when the function may not issue. -/
def Dev.startRead (d : Dev) (j : Nat) : Dev :=
  let x := d.job j
  if ¬ d.canIssue x.fn then d.endJob j 5 0
  else if ¬ d.readRoom x.fn then d
  else (d.updJob j fun x => { x with data := List.replicate x.len 0 }).askMore j 768

/-- What the reads of a job bring no longer concerns it. -/
def Dev.orphanReads (d : Dev) (j : Nat) : Dev :=
  let mine : ReadFor → Bool
    | .job k _ => k == j
    | _ => false
  { d with reads := d.reads.map fun (e : Nat × Option HostRead) => (e.1, e.2.map fun (r : HostRead) => if mine r.who then { r with who := .job 0 0 } else r) }

/-- Jobs whose buffers have not been asked for to their end go on as a link gets room, oldest first; one of a function that may no longer issue fails (R182), on a channel with its transport QP (R240). -/
def Dev.pumpReads (d : Dev) : Dev :=
  d.each ((d.jobs.filter fun e => e.2.state == .reading && decide (e.2.want < e.2.len)).map (·.1)) fun j d =>
    if d.canIssue (d.job j).fn then d.askMore j 768
    else if (d.job j).op / 16 = 2 then (d.orphanReads j).updJob j fun x => { x with state := .fetched, want := 0, got := 0, marks := [] }
    else d.endJob j 5 0

/-! ### Frames from a host (R167, R205, R206) -/

/-- A packet that function `f` sends enters a pipeline (R78, R123, R167); `marks` as in `Pkt`. -/
def Dev.hostPacket (d : Dev) (f r : Nat) (bytes : List Byte) (ts : Option Nat) (marks : List (Nat × Nat)) : Dev :=
  let k : Pkt := { bytes := bytes, region := r, buf := d.nextPkt, source := 16 + d.hostOf f, tenant := (d.res f).tenant,
                   fn := some f, rxNs := d.ptpNs, tsJob := ts, marks := marks }
  let (d, id) := d.newPkt k
  let d := { d with bufs := d.bufs.set {} id { region := r, refs := 1 } }
  (d.takeCells id (cellsFor (bytes.length + 4))).joinInput id r 2

/-- CSUM (R205): the outermost IPv4 header checksum and the checksum of the first TCP or UDP layer, wherever it stands, filled in. -/
def fillSums (bs : List Byte) : List Byte :=
  let l := ipsOf bs
  let b := match l with
    | ip :: _ => if ip.2 = 4 then fixIpSum bs ip.1 else bs
    | [] => bs
  match l.find? fun ip => [6, 17].contains (ipPayload bs ip).2.1 with
  | some ip => fixL4Sum b ip
  | none => b

/-- The fields of one IP header of a segment, and of the UDP or TCP header behind it (R206): identification, lengths, sequence number and flags. -/
def segHeader (i mss count : Nat) (b : List Byte) (ip : Nat × Nat) : List Byte :=
  let (o, proto, _) := ipPayload b ip
  let b := if ip.2 = 4 then putBe b (ip.1 + 4) 2 (be b (ip.1 + 4) 2 + i) else b
  let b := fixIpLen b ip b.length
  if proto = 17 then putBe b (o + 4) 2 (b.length - o)
  else if proto = 6 then
    let b := putBe b (o + 4) 4 (be b (o + 4) 4 + i * mss)
    if i + 1 < count then putBe b (o + 13) 1 ((be b (o + 13) 1) &&& 0xF6) else b
  else b

/-- Frame `i` of a segmented buffer (R206): every IP header of its headers with what follows it, and then the checksums, innermost first. -/
def segFrame (hdr payload : List Byte) (mss i count : Nat) : List Byte :=
  let b := hdr ++ sliceB payload (i * mss) (min mss (payload.length - i * mss))
  let l := (ipsOf b).filter fun ip => decide (ip.1 < hdr.length)
  l.reverse.foldl (fun b ip => fixL4Sum (if ip.2 = 4 then fixIpSum b ip.1 else b) ip) (l.foldl (segHeader i mss count) b)

/-- Marked parts of a frame that takes bytes `o` to `o + n` of a job's data from its byte `to_` on, as `Pkt` holds them (R190, R192). -/
def Job.marksFrom (j : Job) (size to_ o n : Nat) : List (Nat × Nat) :=
  (j.marks.filter fun i => decide (32 * i < o + n ∧ o < 32 * i + 32)).map fun i =>
    let s := max o (32 * i)
    (size - (to_ + (s - o)), min (o + n) (32 * i + 32) - s)

/-- The frames of a TX or TX_SEG job, each with its marks. -/
def Job.frames (j : Job) : List (List Byte × List (Nat × Nat)) :=
  if j.op = 1 then
    let b := sliceB j.desc 32 j.hdrLen ++ j.data
    [(if j.flag 2 then fillSums b else b, j.marksFrom b.length j.hdrLen 0 j.data.length)]
  else
    let payload := j.data.drop j.segHdr
    let n := ceilDiv payload.length j.mss
    (List.range n).map fun i =>
      let b := segFrame (j.data.take j.segHdr) payload j.mss i n
      (b, j.marksFrom b.length 0 0 j.segHdr ++ j.marksFrom b.length j.segHdr (j.segHdr + i * j.mss) (b.length - j.segHdr))

/-- The frames of a job enter a pipeline, when the region's buffer has room for them (R142); a job that waits for a timestamp waits on. -/
def Dev.sendFrames (d : Dev) (j : Nat) : Dev :=
  let x := d.job j
  let fs := x.frames
  let r := Config.hostRegion d.draws % 4
  let d := { d with draws := d.draws + 1 }
  if 65536 < d.fld F.SCH_BUF_STAT_USED r + (fs.map fun f => cellsFor (f.1.length + 4)).sum then d.updJob j fun x => { x with state := .ready }
  else
    let d := d.each fs fun (f : List Byte × List (Nat × Nat)) d => d.hostPacket x.fn r f.1 (if x.flag 1 then some j else none) f.2
    d.updJob j fun x =>
      { x with state := if x.flag 1 then .sent else .done, status := if x.poison then 3 else 0, bytes := x.hdrLen + x.len, hash := if x.op = 2 then fs.length else 0 }

/-- A job's next action on its queue, when it has the opcode of the command. -/
def Dev.runJob (d : Dev) (n op : Nat) (go : Nat → Job → Dev → Dev) : Dev :=
  match d.nextFetched n with
  | none => d
  | some (j, x) => if x.op = op then go j x d else d

/-- TX and TX_SEG: the buffer is read; once it is here, or when it is empty, its frames enter the pipeline. -/
def Dev.txJob (j : Nat) (x : Job) (d : Dev) : Dev :=
  if x.state = .ready ∨ x.len = 0 then d.sendFrames j else d.startRead j

/-- TX (R205). -/
def execTx (fn : Fin 512) (qp : Fin 256) (s : State) : Out := s.on fun d =>
  d.runJob (256 * fn.val + qp.val) 1 Dev.txJob

/-- TX_SEG (R206). -/
def execTxSeg (fn : Fin 512) (qp : Fin 256) (s : State) : Out := s.on fun d =>
  d.runJob (256 * fn.val + qp.val) 2 Dev.txJob

/-- The data of a COPY written at its destination (R204). -/
def Dev.copyDone (d : Dev) (j : Nat) : Dev :=
  let x := d.job j
  if ¬ d.canIssue x.fn then d.endJob j 5 0
  else (d.dmaMarked x.fn x.addr2 (d.qpPasid x.page) x.data x.marks).endJob j (if x.poison then 3 else 0) x.len

/-- COPY (R204). -/
def execCopy (fn : Fin 512) (qp : Fin 256) (s : State) : Out := s.on fun d =>
  d.runJob (256 * fn.val + qp.val) 4 fun j x d => if x.len = 0 then d.endJob j 0 0 else d.startRead j

/-- A pattern of 8 bytes repeated over a length. -/
def fillBytes (pat n : Nat) : List Byte := let p := leBytes 8 pat; (List.range n).map fun i => p.getD (i % 8) 0

/-- FILL (R204). -/
def execFill (fn : Fin 512) (qp : Fin 256) (s : State) : Out := s.on fun d =>
  d.runJob (256 * fn.val + qp.val) 5 fun j x d =>
    if ¬ d.canIssue x.fn then d.endJob j 5 0
    else (d.dmaWrite x.fn x.addr (d.qpPasid x.page) (fillBytes x.addr2 x.len) false).endJob j 0 x.len

/-! ### Receive (R207) -/

/-- The receive job that the next frame takes. -/
def Dev.rxNext (d : Dev) (n : Nat) : Option Nat := ((d.jobsOf n true).find? fun e => e.2.state == .fetched).map (·.1)

/-- The index of the next receive descriptor to be read: behind those read and not yet taken. -/
def Dev.rqRead (d : Dev) (n : Nat) : Nat :=
  match d.rxNext n, (d.jobsOf n true).getLast? with
  | some _, some e => (e.2.index + 1) % 65536
  | _, _ => d.fld F.QCP_IDX_RQ_CI n

/-- RQ_CI moves to the first receive job that still waits, or behind the last descriptor read when none does: the descriptors before it have been taken or have ended. -/
def Dev.rqMove (d : Dev) (n : Nat) : Dev :=
  match d.rxNext n, (d.jobsOf n true).getLast? with
  | some j, _ => d.setFld F.QCP_IDX_RQ_CI n 0 (d.job j).index
  | none, some e => d.setFld F.QCP_IDX_RQ_CI n 0 (e.2.index + 1)
  | none, none => d

/-- RX (R202, R207, R210): the device reads the next posted receive descriptor, which `desc` gives as host memory holds it. -/
def execRx (fn : Fin 512) (qp : Fin 256) (desc : List Byte) (s : State) : Out := s.on fun d =>
  let n := 256 * fn.val + qp.val
  let x := d.rqRead n
  if d.hasQp n ∧ d.flag F.QCP_CTL_EN n ∧ d.working fn.val ∧ d.readRoom fn.val ∧ (d.qp n).replayRq = 0 ∧
      idxDist x (d.fld F.QCP_IDX_RQ_CI n) < idxDist (d.qp n).rqPi (d.fld F.QCP_IDX_RQ_CI n) then
    (d.takeDesc n true x desc).rqMove n
  else d

/-- Nothing is posted on a receive queue. -/
def Dev.rqEmpty (d : Dev) (n : Nat) : Bool := (d.qp n).rqPi == d.fld F.QCP_IDX_RQ_CI n

/-- A receive job taken by a frame or a message: it no longer waits. -/
def Dev.takeRx (d : Dev) (n j : Nat) (st : JobAt) : Dev := (d.updJob j fun x => { x with state := st }).rqMove n

/-- Data of a frame came from marked flits. -/
def Pkt.poison (k : Pkt) : Bool := !k.marks.isEmpty

/-- The marked 32-byte flits of a frame's first `n` bytes (R190, R192). -/
def Pkt.flits (k : Pkt) (n : Nat) : List Nat :=
  (List.range (ceilDiv n 32)).filter fun i => k.marks.any fun m => decide (k.bytes.length < 32 * i + 32 + m.1 ∧ 32 * i + m.1 < k.bytes.length + m.2)

/-- A frame written to a receive buffer, and its completion (R192, R207, R212). -/
def Dev.rxWrite (d : Dev) (n j id : Nat) : Dev :=
  let x := d.job j
  let k := d.pkt id
  let d := (d.takeRx n j .done).dmaMarked x.fn x.addr (d.qpPasid n) (k.bytes.take x.len) (k.flits (min x.len k.bytes.length))
  let src := k.bport.getD (Config.noBridgePort d.draws % 528)
  let d := if k.bport.isSome then d else { d with draws := d.draws + 1 }
  let st := if x.len < k.bytes.length then 4 else if k.poison then 3 else 0
  let ts := x.flag 1
  let fl := natOf ts * 32 + natOf (sumsGood k.bytes) * 16 + natOf k.malformed * 8
  (d.updJob j fun x =>
    { x with state := .done, status := st, bytes := k.bytes.length, hash := k.flowHash, src := src, malclass := k.malclass
             ns := if ts then some k.rxNs else none, flags := fl }).freePkt id

/-- RX_FRAME_DELIVERY (R207, R230): the first frame that waits for a host queue takes the next receive descriptor, or is discarded and counted; it waits while a posted descriptor has yet to be read. -/
def execRxFrameDelivery (fn : Fin 512) (queue : Fin 512) (s : State) : Out := s.on fun d =>
  let key := 512 * fn.val + queue.val
  match d.hostQ.at [] key with
  | [] => d
  | id :: rest =>
    let n := 256 * fn.val + queue.val
    let drop (f : Dev → Dev) : Dev := (f { d with hostQ := d.hostQ.set [] key rest }).freePkt id
    if 256 ≤ queue.val ∨ ¬ d.hasQp n ∨ ¬ d.flag F.QCP_CTL_EN n then drop fun d => d.bump .QUE_NO_QP 0 0
    else if d.isChannel n then drop fun d => d.bump .RMA_CNT (d.pkt id).region 11
    else if d.rqEmpty n ∨ d.cqFull n then drop fun d => d.bump .QCP_CNT n 0
    else if ¬ d.canIssue fn.val then d
    else
      match d.rxNext n with
      | none => d
      | some j => { d with hostQ := d.hostQ.set [] key rest }.rxWrite n j id

/-! ### Completions (R212 to R214, R220, R238) -/

/-- The completion entry of a job, its PHASE still clear. -/
def Job.cqe (j : Job) (channel : Bool) : List Byte :=
  let ns := j.ns.getD 0
  let head := leBytes 2 j.index ++ leBytes 1 j.status ++ leBytes 1 (j.flags % 64 + natOf j.rq * 64) ++ leBytes 4 j.bytes ++ sliceB j.desc 20 4
  if channel then head ++ (if j.detail.isEmpty then leBytes 4 0 ++ (if j.rq then leBytes 3 0 else sliceB j.desc 32 3) ++ leBytes 1 j.op ++ leBytes 12 0 else j.detail)
  else head ++ leBytes 4 j.hash ++ leBytes 4 (ns % 10 ^ 9) ++ leBytes 4 (ns / 10 ^ 9) ++ leBytes 2 j.src ++ leBytes 1 (if j.rq then j.malclass else 0) ++ leBytes 5 0

/-- A job that waits for a timestamp finishes with it, or without one when none of its frames is left to send (R205). -/
def Dev.settleStamp (d : Dev) (j : Nat) : Dev :=
  let x := d.job j
  if x.state ≠ .sent then d
  else
    let t := d.txStamps.at 0 j
    if t ≠ 0 then { d.updJob j fun x => { x with state := .done, ns := some t, flags := 32 } with txStamps := d.txStamps.set 0 j 0 }
    else if d.pkts.any fun e => e.2.tsJob == some j then d
    else d.updJob j fun x => { x with state := .done }

/-- A finished job leaves its queue, with an entry unless it is a success that asked for none (R214). -/
def Dev.completeJob (d : Dev) (n j : Nat) : Dev :=
  let x := d.job j
  let silent := x.status == 0 && !x.flag 0
  if silent then { d with jobs := d.jobs.set {} j {} }
  else if d.cqFull n ∨ ¬ d.canIssue x.fn then d
  else { d.writeCqe n (x.cqe (d.isChannel n)) with jobs := d.jobs.set {} j {} }

/-- A descriptor that a stop finds between the device's and the accepted producer index completes with QUEUE_STOPPED (R220), one of a replay set with FAILOVER_REPLAY (R455). -/
def Dev.stopDesc (d : Dev) (n : Nat) (rq : Bool) (desc : List Byte) (status : Nat := 6) : Dev :=
  let ci := if rq then d.fld F.QCP_IDX_RQ_CI n else d.fld F.QCP_IDX_SQ_CI n
  let pi := if rq then (d.qp n).rqPi else (d.qp n).sqPi
  if ci = pi ∨ d.cqFull n ∨ ¬ d.canIssue (n / 256) then d
  else
    let pre := if rq then d.rxNext n else none
    let j : Job := { fn := n / 256, qp := n % 256, rq := rq, index := ci, status := status, desc := match pre with
      | some j => (d.job j).desc
      | none => sliceB desc 0 64 }
    let d := (d.onlyIf pre.isNone fun d => d.readDesc n rq ci).writeCqe n (j.cqe (d.isChannel n))
    match pre with
    | some j => { (d.updJob j fun x => { x with state := .done }).rqMove n with jobs := d.jobs.set {} j {} }
    | none => d.setFld (if rq then F.QCP_IDX_RQ_CI else F.QCP_IDX_SQ_CI) n 0 (ci + 1)

/-- The next job of a replay set gets its entry, once the CQ has room (R455, R214). -/
def Dev.replayDesc (d : Dev) (n : Nat) (rq : Bool) (desc : List Byte) : Dev :=
  let idx (d : Dev) : Nat := if rq then d.fld F.QCP_IDX_RQ_CI n else d.fld F.QCP_IDX_SQ_CI n
  let d' := d.stopDesc n rq desc 2
  if idx d' = idx d then d
  else d'.updQp n fun q => if rq then { q with replayRq := q.replayRq - 1 } else { q with replaySq := q.replaySq - 1 }

/-- JOB_COMPLETION (R213, R214, R220, R455): the oldest job of a queue writes its entry once it has finished and the CQ has room; on a queue being stopped, the next descriptor that never started follows, read from host memory as `desc` gives it. -/
def execJobCompletion (fn : Fin 512) (qp : Fin 256) (rq : Bool) (desc : List Byte) (s : State) : Out := s.on fun d =>
  let n := 256 * fn.val + qp.val
  let l := d.jobsOf n rq
  let d : Dev := match l with
    | [] =>
      if (if rq then (d.qp n).replayRq else (d.qp n).replaySq) ≠ 0 then d.replayDesc n rq desc
      else if (d.qp n).stopping then d.stopDesc n rq desc else d
    | e :: _ =>
      let d := d.settleStamp e.1
      if (d.job e.1).state = .done then d.completeJob n e.1
      else if (d.qp n).stopping ∧ rq ∧ e.2.state = .fetched then d.stopDesc n rq desc
      else d
  d.showStopped n

/-! ### Events (R217 to R219) -/

/-- A 32-byte event entry. -/
def Event.entry (e : Event) (flags : Nat) : List Byte :=
  leBytes 1 e.code ++ leBytes 1 flags ++ leBytes 2 0 ++ leBytes 4 e.arg0 ++ leBytes 8 e.arg1 ++ leBytes 4 e.ns ++ leBytes 4 e.sec ++ leBytes 8 0

/-- An event written to one event queue, or lost (R219). -/
def Dev.writeEq (d : Dev) (f e : Nat) (ev : Event) : Dev :=
  let n := 16 * f + e
  let pi := d.fld F.EQC_STAT_PI n
  if d.eqSize n ≤ idxDist pi (d.fld F.EQC_STAT_CI n) ∨ ¬ d.canIssue f then
    { d.bump .EQC_LOST n 0 with eqLost := d.eqLost.set false n true }
  else
    let fl := 128 * phaseBit pi (d.fld F.EQC_RING_LOG2 n) + 64 * natOf (d.eqLost.at false n)
    let base := d.fld F.EQC_RING_ADDR_HI n * 2 ^ 32 + d.fld F.EQC_RING_ADDR_LO n * 4096
    let vec := if d.eqArm.at false n then some (d.fld F.EQC_CTL_VEC n) else none
    let d := { d.setFld F.EQC_STAT_PI n 0 (pi + 1) with eqLost := d.eqLost.set false n false, eqArm := d.eqArm.set false n false }
    d.postEntry f 1 n ((pi + 1) % 65536) (base + 32 * (pi % d.eqSize n)) none (ev.entry fl) vec

/-- Event queues that an event goes to (R218): enabled, and with the code in their mask. -/
def Dev.eqsFor (d : Dev) (ev : Event) : List (Nat × Nat) :=
  let fs : List Nat := match ev.fn with
    | some f => [f]
    | none => d.fns.map (·.1)
  (fs.map fun f => (List.range (d.res f).eqCnt).filterMap fun e =>
    if d.hasEq f e ∧ d.flag F.EQC_CTL_EN (16 * f + e) ∧ bitOf (d.fld F.EQC_MASK_CODES (16 * f + e)) (ev.code - 1) then some (f, e) else none).flatten

/-- EVENT_WRITE (R219): the oldest raised event is written to the event queues it goes to. -/
def execEventWrite (s : State) : Out := s.on fun d =>
  match d.raised with
  | [] => d
  | ev :: rest =>
    let d : Dev := { d with raised := rest }
    d.each (d.eqsFor ev) fun (x : Nat × Nat) d => d.writeEq x.1 x.2 ev

end Sys2Proof.Machine
end

