-- ==== Sys2Proof/Machine/CheckUnits.lean ====
section
/-! DEFINITION. Check-value units: CRC registers, alive counters and their classification (R294 to R298). -/

namespace Sys2Proof.Machine

open Sys2Proof

def Dev.cvu (d : Dev) (u : Nat) : Cvu := d.cvus.at {} u

def Dev.updCvu (d : Dev) (u : Nat) (f : Cvu → Cvu) : Dev := { d with cvus := d.cvus.set {} u (f (d.cvu u)) }

/-! ### The CRC register (R295) -/

def Cvu.width (c : Cvu) : Nat := c.cfg % 128
def Cvu.refIn (c : Cvu) : Bool := bitOf c.cfg 30
def Cvu.refOut (c : Cvu) : Bool := bitOf c.cfg 29

/-- The low `w` bits of a number in reverse order. -/
def revBits (w x : Nat) : Nat := (List.range w).foldl (fun a i => 2 * a + x / 2 ^ i % 2) 0

/-- One bit entering the register. -/
def Cvu.feedBit (c : Cvu) (b : Nat) : Cvu :=
  let w := c.width
  let top := c.reg / 2 ^ (w - 1) % 2
  let r := 2 * c.reg % 2 ^ w
  { c with reg := if top = b then r else r ^^^ (c.poly % 2 ^ w) }

/-- One byte entering the register, most significant bit first, or least with REFIN. -/
def Cvu.feedByte (c : Cvu) (b : Byte) : Cvu :=
  (List.range 8).foldl (fun c i => c.feedBit (b.toNat / 2 ^ (if c.refIn then i else 7 - i) % 2)) c

def Cvu.feed (c : Cvu) (bs : List Byte) : Cvu := bs.foldl Cvu.feedByte c

/-- The result of the register. -/
def Cvu.result (c : Cvu) : Nat :=
  let w := c.width
  ((if c.refOut then revBits w c.reg else c.reg) ^^^ c.xorout) % 2 ^ w

/-- A 64-bit register of a unit. -/
def Dev.cvu64 (d : Dev) (u : Nat) (lo hi : Fld) : Nat := d.fld hi u * 2 ^ 32 + d.fld lo u

/-- INIT loaded, the settings sampled (R295). -/
def Dev.cvuLoad (d : Dev) (u : Nat) : Dev :=
  let cfg := (d.word ⟨.CVU_CFG, u, 0, 0⟩).toNat
  d.updCvu u fun c =>
    { c with cfg := cfg, poly := d.cvu64 u F.CVU_POLY_LO F.CVU_POLY_HI, xorout := d.cvu64 u F.CVU_XOROUT_LO F.CVU_XOROUT_HI
             reg := d.cvu64 u F.CVU_INIT_LO F.CVU_INIT_HI % 2 ^ (cfg % 128), latched := false }

/-- CVU_RESULT shows the result, unless SEAL has latched one. -/
def Dev.cvuShow (d : Dev) (u : Nat) : Dev :=
  let c := d.cvu u
  if c.latched then d
  else (d.setFld F.CVU_RESULT_LO u 0 c.result).setFld F.CVU_RESULT_HI u 0 (c.result / 2 ^ 32)

def Dev.cvuFeed (d : Dev) (u : Nat) (bs : List Byte) : Dev := (d.updCvu u fun c => c.feed bs).cvuShow u

/-! ### Alive counters (R297, R298) -/

def Dev.cvuAw (d : Dev) (u : Nat) : Nat := 2 ^ d.fld F.CVU_CFG_AW u

/-- The counter that the next message carries: COUNTER in send mode, the received one in check mode. -/
def Dev.cvuCounter (d : Dev) (u : Nat) : Nat :=
  (if d.flag F.CVU_CFG_MODE u then (d.cvu u).rx else d.fld F.CVU_ALIVE_CTR_COUNTER u) % d.cvuAw u

/-- RESET: INIT loaded. -/
def Dev.cvuReset (d : Dev) (u : Nat) : Dev := (d.cvuLoad u).cvuShow u

/-- MSG: INIT loaded, then the identifier and the counter fed (R297). -/
def Dev.cvuMsg (d : Dev) (u : Nat) : Dev :=
  let d := d.cvuReset u
  if d.flag F.CVU_CFG_ALIVE_EN u then d.cvuFeed u (leBytes 2 (d.fld F.CVU_ALIVE_DID u) ++ leBytes 2 (d.cvuCounter u)) else d

/-- SEAL in send mode: the result latched and the counter advanced (R297). -/
def Dev.cvuSeal (d : Dev) (u : Nat) : Dev :=
  if d.flag F.CVU_CFG_MODE u ∨ ¬ d.flag F.CVU_CFG_ALIVE_EN u then d
  else
    let d := (d.cvuShow u).updCvu u fun c => { c with latched := true }
    d.setFld F.CVU_ALIVE_CTR_COUNTER u 0 ((d.cvuCounter u + 1) % d.cvuAw u)

/-- The function told of a unit's faults (R298). -/
def Dev.cvuEventFn (d : Dev) (u : Nat) : Nat :=
  let o := d.cvuOwn.at (0, 0) u
  if o.1 = 1 then o.2 else d.fld F.CVU_ASSIGN_EVFUNC 0 u

/-- An outcome recorded: 1 OK, 2 CRC_ERR, 3 REPEAT, 4 LOSS, with LAST and the consecutive faults. -/
def Dev.cvuOutcome (d : Dev) (u out : Nat) (last : Option Nat) : Dev :=
  let d := d.setFld F.CVU_STAT_OUTCOME u 0 out
  let d : Dev := match last with
    | none => d
    | some x => ((d.updCvu u fun c => { c with last := x }).setFld F.CVU_ALIVE_CTR_COUNTER u 0 x).setFld F.CVU_ALIVE_CTR_SEEN u 0 1
  if out = 1 then (d.setFld F.CVU_STAT_CONSEC u 0 0).updCvu u fun c => { c with faulted := false }
  else
    let n := min 255 (d.fld F.CVU_STAT_CONSEC u + 1)
    let d := (d.bump .CVU_CNT u (out - 1)).setFld F.CVU_STAT_CONSEC u 0 n
    if d.fld F.CVU_CFG_FAULT_LIMIT u ≤ n ∧ ¬ (d.cvu u).faulted then
      ((d.updCvu u fun c => { c with faulted := true }).setFld F.CVU_STAT_AFAULT u 0 1).fnEvent (d.cvuEventFn u) 0x10 u
    else d

/-- CHECK in check mode (R298). -/
def Dev.cvuCheck (d : Dev) (u : Nat) : Dev :=
  if ¬ d.flag F.CVU_CFG_MODE u ∨ ¬ d.flag F.CVU_CFG_ALIVE_EN u then d
  else
    let c := d.cvu u
    let d := d.bump .CVU_CNT u 0
    let rx := d.cvuCounter u
    let x := (rx + d.cvuAw u - c.last % d.cvuAw u) % d.cvuAw u
    let crc := d.cvu64 u F.CVU_RXCRC_LO F.CVU_RXCRC_HI % 2 ^ c.width
    if c.result ≠ crc then d.cvuOutcome u 2 none
    else if ¬ d.flag F.CVU_ALIVE_CTR_SEEN u then d.cvuOutcome u 1 (some rx)
    else if x = 0 then d.cvuOutcome u 3 none
    else if x ≤ d.fld F.CVU_ALIVE_WINDOW u then d.cvuOutcome u 1 (some rx)
    else d.cvuOutcome u 4 (some rx)

/-! ### Registers -/

/-- CVU_CFG: a write with a field out of range is discarded whole; EN from 0 to 1 starts the unit with INIT loaded and no message accepted. -/
def cvuCfgEffect (k : RegKey) (w : Write) (d : Dev) : Dev :=
  let v := w.value.toNat
  let aw := bitsOf v 21 17
  if aw < 4 ∨ 16 < aw ∨ bitsOf v 15 8 = 0 ∨ v % 128 < 3 ∨ 64 < v % 128 then d
  else
    let was := d.flag F.CVU_CFG_EN k.n
    let d := d.plainWrite k w.value
    if ¬ was ∧ bitOf v 31 then
      ((d.cvuReset k.n).setFld F.CVU_ALIVE_CTR_SEEN k.n 0 0).updCvu k.n fun c => { c with faulted := false }
    else d

/-- CVU_CTL: the actions of a write, in the order RESET, MSG, SEAL, CHECK. -/
def cvuCtlEffect (k : RegKey) (w : Write) (d : Dev) : Dev :=
  let v := w.value.toNat
  let u := k.n
  if ¬ d.flag F.CVU_CFG_EN u then d
  else
    (((d.onlyIf (bitOf v 31) fun d => d.cvuReset u).onlyIf (bitOf v 30) fun d => d.cvuMsg u).onlyIf (bitOf v 29) fun d =>
      d.cvuSeal u).onlyIf (bitOf v 28) fun d => d.cvuCheck u

/-- CVU_ALIVE: a WINDOW of 1 to 2^AW − 1. -/
def cvuAliveEffect (k : RegKey) (w : Write) (d : Dev) : Dev :=
  let win := w.value.toNat % 65536
  if win = 0 ∨ d.cvuAw k.n ≤ win then d else d.plainWrite k w.value

/-- CVU_ALIVE_CTR: the next counter in send mode; in check mode the received counter, while reads show LAST. -/
def cvuCtrEffect (k : RegKey) (w : Write) (d : Dev) : Dev :=
  if d.flag F.CVU_CFG_MODE k.n then d.updCvu k.n fun c => { c with rx := w.value.toNat % 65536 } else d.plainWrite k w.value

/-- CVU_FEED: `n` bytes of a write fed in ascending address order (R296). -/
def cvuFeedEffect (n : Nat) (k : RegKey) (w : Write) (d : Dev) : Dev :=
  if d.flag F.CVU_CFG_EN k.n then d.cvuFeed k.n (leBytes n w.value.toNat) else d

/-- CVU_ASSIGN (R294): a core, or no owner, at once; a function at its next reset. -/
def cvuAssignEffect (k : RegKey) (w : Write) (d : Dev) : Dev :=
  let d := d.plainWrite k w.value
  let now := (d.fld F.CVU_ASSIGN_OWNER 0 k.i, d.fld F.CVU_ASSIGN_ID 0 k.i)
  let now := if now.1 = 0 then (0, 0) else now
  if now.1 = 1 ∨ d.cvuOwn.at (0, 0) k.i = now then d
  else { d.resetCvu k.i with cvuOwn := d.cvuOwn.set (0, 0) k.i now }

/-- CVU_ASSIGN_WRITE (R294). -/
def execCvuAssignWrite (unit : Fin 64) (ws : List Write) (s : State) : Out := s.on fun d =>
  d.writeReg ⟨.CVU_ASSIGN, 0, unit.val, 0⟩ ws cvuAssignEffect

/-- CVU_FEED (R296): a write of 1, 2 or 4 bytes, `size` giving the number as a power of two. -/
def execCvuFeed (unit : Fin 64) (size : Fin 3) (ws : List Write) (s : State) : Out := s.on fun d =>
  d.writeReg ⟨.CVU_FEED, unit.val, 0, 0⟩ ws (cvuFeedEffect (2 ^ size.val))

/-- A write of CVU_CTL by a command that stands for one of its bits. -/
def Dev.cvuCommand (d : Dev) (u bit : Nat) (ws : List Write) : Dev :=
  d.writeReg ⟨.CVU_CTL, u, 0, 0⟩ (ws.filter fun w => bitOf w.value.toNat bit) cvuCtlEffect

/-- CVU_RESET (R295): CVU_CTL.RESET. -/
def execCvuReset (unit : Fin 64) (ws : List Write) (s : State) : Out := s.on fun d => d.cvuCommand unit.val 31 ws

/-- CVU_MSG (R297): CVU_CTL.MSG. -/
def execCvuMsg (unit : Fin 64) (ws : List Write) (s : State) : Out := s.on fun d => d.cvuCommand unit.val 30 ws

/-- SEAL (R297): CVU_CTL.SEAL. -/
def execSeal (unit : Fin 64) (ws : List Write) (s : State) : Out := s.on fun d => d.cvuCommand unit.val 29 ws

/-- CHECK (R298): CVU_CTL.CHECK. -/
def execCheck (unit : Fin 64) (ws : List Write) (s : State) : Out := s.on fun d => d.cvuCommand unit.val 28 ws

end Sys2Proof.Machine
end

