-- ==== Sys2Proof/Machine/ModuleBus.lean ====
section
/-! DEFINITION. Module management buses (R74 to R76). -/

namespace Sys2Proof.Machine

open Sys2Proof

/-- The command held in MAC_MOD_CMD goes out on the bus. -/
def Dev.startModCmd (d : Dev) (b : Nat) : Dev :=
  let len := d.fld F.MAC_MOD_CMD_LEN b
  let rd := d.flag F.MAC_MOD_CMD_READ b
  let data := leBytes 4 (d.word ⟨.MAC_MOD_DATA, b, 0, 0⟩).toNat ++ leBytes 4 (d.word ⟨.MAC_MOD_DATA, b, 1, 0⟩).toNat
  let d := d.emit (.moduleBus b (d.fld F.MAC_MOD_CMD_DEV b) (d.fld F.MAC_MOD_CMD_OFFSET b) rd (if rd then [] else data.take len) len)
  d.updMod b fun s => { s with phase := .command, queued := false }

/-- A command ends: DONE is set and the causes of its end are shown. -/
def Dev.endModCmd (d : Dev) (b : Nat) (nack stuck timeout : Bool) : Dev :=
  let d := d.setFld F.MAC_MOD_STAT_BUSY b 0 0
  let d := d.setFld F.MAC_MOD_STAT_DONE b 0 1
  let d := d.setFld F.MAC_MOD_STAT_NACK b 0 (natOf nack)
  let d := d.setFld F.MAC_MOD_STAT_STUCK b 0 (natOf stuck)
  let d := d.setFld F.MAC_MOD_STAT_TIMEOUT b 0 (natOf timeout)
  d.updMod b fun s => { s with phase := .idle, queued := false }

/-- SDA was found high: STOP is sent, the bus is ready, and the command that waited starts (R75, R76). -/
def Dev.modReady (d : Dev) (b : Nat) : Dev :=
  let d := d.setFld F.MAC_MOD_STAT_UNAVAIL b 0 0
  let d := d.updMod b fun s => { s with phase := .idle, recovered := true }
  if (d.modBus b).queued then d.startModCmd b else d.setFld F.MAC_MOD_STAT_BUSY b 0 0

/-- MAC_MOD_CMD (R74 to R76): LEN in 1 to 8, GO discarded while BUSY = 1. GO starts the command, or recovery first on the first command after a reset, while SDA is low or while the bus is unavailable. -/
def modCmdEffect (sdaLow : Bool) (k : RegKey) (w : Write) (d : Dev) : Dev :=
  let v := d.wouldBe k w.value
  let b := k.n
  let len := F.MAC_MOD_CMD_LEN.ofWord v
  let go := bitOf w.value.toNat 31
  if len < 1 ∨ 8 < len ∨ (go ∧ d.flag F.MAC_MOD_STAT_BUSY b) then d
  else
    let d := d.setWord k v
    if ¬ go then d
    else
      let d := d.setFld F.MAC_MOD_STAT_BUSY b 0 1
      if (d.modBus b).recovered ∧ ¬ sdaLow ∧ ¬ d.flag F.MAC_MOD_STAT_UNAVAIL b then d.startModCmd b
      else d.updMod b fun s => { s with phase := .recover d.clk.now, queued := true }

/-- MOD_CMD_GO (R74). -/
def execModCmdGo (bus : Fin 16) (sdaLow : Bool) (ws : List Write) (s : State) : Out := s.on fun d =>
  d.writeReg ⟨.MAC_MOD_CMD, bus.val, 0, 0⟩ ws (modCmdEffect sdaLow)

/-- MOD_CMD_DONE (R74): the command ends; bytes read are placed least significant first. -/
def execModCmdDone (bus : Fin 16) (nack : Bool) (data : List Byte) (s : State) : Out := s.on fun d =>
  let b := bus.val
  d.onlyIf ((d.modBus b).phase == .command) fun d =>
    let d := if d.flag F.MAC_MOD_CMD_READ b ∧ ¬ nack then
        let v := leVal (data.take (d.fld F.MAC_MOD_CMD_LEN b))
        (d.setFld F.MAC_MOD_DATA_DATA b 0 v).setFld F.MAC_MOD_DATA_DATA b 1 (v / 2 ^ 32)
      else d
    d.endModCmd b nack false false

/-- MOD_STRETCH_TIMEOUT (R74): a target has stretched the clock beyond 25 ms. -/
def execModStretchTimeout (bus : Fin 16) (s : State) : Out := s.on fun d =>
  d.onlyIf ((d.modBus bus.val).phase == .command) fun d => d.endModCmd bus.val false false true

/-- MOD_BUS_RECOVERY (R75): at most 9 pulses of 10 µs from t0, SDA sampled after each; still low after them, the bus waits 35 ms. On an idle bus the recovery starts here, but on one that is unavailable, which only a command retries (R76). -/
def execModBusRecovery (bus : Fin 16) (highAfter : Option (Fin 9)) (s : State) : Out := s.on fun d =>
  let b := bus.val
  let run (t0 : Nat) (d : Dev) : Dev :=
    match highAfter with
    | some k => (d.advanceTo (t0 + cyclesOfUs (10 * (k.val + 1)))).modReady b
    | none => (d.advanceTo (t0 + cyclesOfUs 90)).updMod b fun s => { s with phase := .wait t0 }
  match (d.modBus b).phase with
  | .recover t0 => run t0 d
  | .idle => if d.flag F.MAC_MOD_STAT_UNAVAIL b then d else run d.clk.now (d.setFld F.MAC_MOD_STAT_BUSY b 0 1)
  | _ => d

/-- MOD_RECOVERY_WAIT_EXPIRY (R75, R76): 35.09 ms after t0 a second run of pulses; SDA still low makes the bus unavailable, with one event, and a pending command ends with STUCK. -/
def execModRecoveryWaitExpiry (bus : Fin 16) (highAfter : Option (Fin 9)) (s : State) : Out := s.on fun d =>
  let b := bus.val
  match (d.modBus b).phase with
  | .wait t0 =>
    match highAfter with
    | some k => (d.advanceTo (t0 + cyclesOfUs (35090 + 10 * (k.val + 1)))).modReady b
    | none =>
      let d := d.advanceTo (t0 + cyclesOfUs 35180)
      let d := d.onlyIf (!d.flag F.MAC_MOD_STAT_UNAVAIL b) fun d => (d.setFld F.MAC_MOD_STAT_UNAVAIL b 0 1).chipEvent 0x0C b
      let d := d.updMod b fun s => { s with recovered := true }
      if (d.modBus b).queued then d.endModCmd b false true false
      else (d.setFld F.MAC_MOD_STAT_BUSY b 0 0).updMod b fun s => { s with phase := .idle }
  | _ => d

end Sys2Proof.Machine
end

