-- ==== Sys2Proof/Machine/Tls.lean ====
section
/-! DEFINITION. TLS 1.3 record protection as jobs of a queue pair and as chain entries (R284, R283, R286). -/

namespace Sys2Proof.Machine

open Sys2Proof

/-- The nonce of a record: the static IV XOR the 64-bit sequence number. -/
def tlsNonce (x : Sa) (seq : Nat) : List Byte := xorB (sliceB x.salt 0 12) (beBytes 12 seq)

/-- The header of a protected record whose fragment has a length. -/
def tlsHeader (n : Nat) : List Byte := beBytes 1 23 ++ beBytes 2 0x0303 ++ beBytes 2 n

/-- A record sealed: header, ciphertext and tag. -/
def tlsSealed (x : Sa) (seq : Nat) (pt : List Byte) : List Byte :=
  let h := tlsHeader (pt.length + 16)
  let ct := gcmCrypt x.key (tlsNonce x seq) pt
  h ++ ct ++ gcmTag x.key (tlsNonce x seq) h ct

/-- A record opened with a sequence number; none when its type is not 23 or its tag fails. -/
def tlsOpened (x : Sa) (seq : Nat) (rec : List Byte) : Option (List Byte) :=
  let h := rec.take 5
  let ct := sliceB rec 5 (rec.length - 21)
  if be rec 0 1 = 23 ∧ rec.drop (rec.length - 16) = gcmTag x.key (tlsNonce x seq) h ct then some (gcmCrypt x.key (tlsNonce x seq) ct) else none

/-- The length of a job is in its range. -/
def tlsLenOk (sealing : Bool) (n : Nat) : Bool := if sealing then decide (1 ≤ n ∧ n ≤ 16624) else decide (22 ≤ n ∧ n ≤ 16645)

/-- The SA that a job names, when it may use it: a TLS SA of the right kind, of its function (a chain entry serves any), with a status otherwise. -/
def Dev.tlsSa (d : Dev) (sealing : Bool) (id : Nat) (f : Option Nat) : Nat ⊕ Sa :=
  if ¬ saIdOk id ∨ saMacsec id ∨ 2 ^ 24 ≤ id then .inl 5
  else if d.fenced (saHome id) then .inl 1
  else
    match d.sa id with
    | none => .inl 5
    | some x =>
      if x.kind ≠ (if sealing then 3 else 4) then .inl 5
      else
        match f with
        | none => .inr x
        | some f => if x.fn = f then .inr x else .inl 5

/-- A record opened under an SA (R284): the counter moves on success, a failure is counted. -/
def Dev.tlsOpen (d : Dev) (id : Nat) (x : Sa) (rec : List Byte) : Dev × Option (List Byte) :=
  match tlsOpened x x.next rec with
  | none => (d.cryCount (saHome id) 8, none)
  | some pt => ((d.setSa id (some { x with next := x.next + 1 })).tally (tlyRgn (saHome id) + 0x60) pt.length, some pt)

/-- The SA identifier of a job's descriptor. -/
def Job.saId (j : Job) : Nat := leVal (sliceB j.desc 32 4)

/-- A TLS job begins: checks, the sequence number of a seal, and the read of its buffer; an open waits while another of its SA is in progress. -/
def Dev.tlsStart (sealing : Bool) (j : Nat) (x : Job) (d : Dev) : Dev :=
  if ¬ tlsLenOk sealing x.len then d.endJob j 4 0
  else
    match d.tlsSa sealing x.saId (some x.fn) with
    | .inl st => d.endJob j st 0
    | .inr sa =>
      if sealing then
        if ¬ d.canIssue x.fn then d.endJob j 5 0
        else
          match d.takeNext x.saId sa with
          | none => d.endJob j 5 0
          | some (d', seq) =>
            let d'' := (d'.updJob j fun x => { x with seq := seq }).startRead j
            if (d''.job j).state = .reading then d'' else d
      else if d.jobs.any fun e => e.2.state == .reading && e.2.op == 0x31 && e.2.saId == x.saId then d
      else d.startRead j

/-- Marks of a record that is sealed or opened: all of it, when any of its input is marked. -/
def Job.outMarks (j : Job) (out : List Byte) : List Nat := if j.poison then List.range (ceilDiv out.length 32) else []

/-- What a failed TLS_OPEN may leave at ADDR2: bytes that are void. -/
def voidBytes (draw n : Nat) : List Byte := (List.range n).map fun i => BitVec.ofNat 8 (Config.voidByte draw i)

/-- A TLS job whose buffer has been read writes its result (R284). -/
def Dev.tlsFinish (d : Dev) (j : Nat) : Dev :=
  let x := d.job j
  let sealing := x.op == 0x30
  let st := if x.poison then 3 else 0
  match d.tlsSa sealing x.saId (some x.fn) with
  | .inl s => d.endJob j s 0
  | .inr sa =>
    if ¬ d.canIssue x.fn then d.endJob j 5 0
    else if sealing then
      let out := tlsSealed sa x.seq x.data
      let d := d.tally (tlyRgn (saHome x.saId) + 0x58) x.data.length
      (d.dmaMarked x.fn x.addr2 (d.qpPasid x.page) out (x.outMarks out)).endJob j st out.length
    else
      match d.tlsOpen x.saId sa x.data with
      | (d, none) => (({ d with draws := d.draws + 1 }).dmaMarked x.fn x.addr2 (d.qpPasid x.page) (voidBytes d.draws (x.len - 21)) []).endJob j 5 0
      | (d, some pt) => (d.dmaMarked x.fn x.addr2 (d.qpPasid x.page) pt (x.outMarks pt)).endJob j st pt.length

/-- TLS_SEAL (R284). -/
def execTlsSeal (fn : Fin 512) (qp : Fin 256) (s : State) : Out := s.on fun d =>
  d.runJob (256 * fn.val + qp.val) 0x30 (Dev.tlsStart true)

/-- TLS_OPEN (R284). -/
def execTlsOpen (fn : Fin 512) (qp : Fin 256) (s : State) : Out := s.on fun d =>
  d.runJob (256 * fn.val + qp.val) 0x31 (Dev.tlsStart false)

end Sys2Proof.Machine
end

