-- ==== Sys2Proof/Machine/Access.lean ====
section
/-! DEFINITION. The accesses that engines and cores make of the internal address space: memory that they may reach, host windows, and the poison mark carried along (R180 to R183, R190 to R192, R364, R390, R482, R483). -/

namespace Sys2Proof.Machine

open Sys2Proof

/-- A page of placed space that holds an address (R364). -/
def placedPage (a : Nat) : Nat := (a - 0x400000000) / 4096

/-- An address of placed space lies in an allocated page. -/
def Dev.pageOpen (d : Dev) (a : Nat) : Bool :=
  decide (0x400000000 ≤ a ∧ a < 0x1000000000) && (d.parcel (fwpageId (placedPage a))).isSome

/-- Memory that an agent other than the Keystone and the loader may read (`wr` clear) or write: shared SRAM, allocated placed pages, DRAM, and flash by reads alone (R391, R483). -/
def Dev.openAt (d : Dev) (a : Nat) (wr : Bool) : Bool :=
  ((sramRegion a).isSome && d.sramClear a 1) || d.pageOpen a || d.inDram a 1 || (decide (a < 0x1000000) && !wr)

/-- Every byte of a range of memory may be accessed. A range is judged at its ends and at every page boundary in it. -/
def Dev.openRange (d : Dev) (a n : Nat) (wr : Bool) : Bool :=
  n == 0 || (d.openAt a wr && d.openAt (a + n - 1) wr && d.sramClear a n &&
    (List.range (n / 4096)).all fun i => d.openAt (a + n - 1 - 4096 * i) wr && d.openAt (a + 4096 * i) wr)

/-- An address lies in an internal host window. -/
def inHostWindow (a : Nat) : Bool := decide (0x80000000000 ≤ a ∧ a < 0x100000000000)

/-- Pieces of a range cut at 4 KiB boundaries: address and length. -/
def pieces4k (a n : Nat) : List (Nat × Nat) := piecesAt 4096 a n

/-- An internal access may be made: of memory, or of a host window that R182 admits throughout. -/
def Dev.reaches (d : Dev) (a n : Nat) (wr : Bool) : Bool :=
  if inHostWindow a then (pieces4k a n).all fun p => d.hostTo p.1 wr != .fails else d.openRange a n wr

/-- Every page of a range, if it lies in a host window, has its host address: none waits for a translation (R183). -/
def Dev.hostReady (d : Dev) (a n : Nat) (wr : Bool) : Bool :=
  !inHostWindow a || (pieces4k a n).all fun p => match d.hostTo p.1 wr with
    | .asks _ _ _ => false
    | _ => true

/-- The translations that a range of a host window waits for are requested (R183). -/
def Dev.askPages (d : Dev) (a n : Nat) (wr : Bool) : Dev :=
  if ¬ inHostWindow a then d
  else d.each (pieces4k a n) fun (p : Nat × Nat) d => match d.hostTo p.1 wr with
    | .asks f page pasid => d.askPage f page pasid
    | _ => d

/-- Accesses of a region to the placed pages of a range: one for each page (R368). -/
def Dev.touchPages (d : Dev) (r a n : Nat) : Dev :=
  if a < 0x400000000 ∨ 0x1000000000 ≤ a then d else d.each (pieces4k a n) fun (p : Nat × Nat) d => d.touch (fwpageId (placedPage p.1)) r

/-- Marks of a range byte by byte; nothing when no flit is marked. -/
def Dev.byteMarks (d : Dev) (a n : Nat) : List Bool := if d.marked a n then (List.range n).map fun i => d.marks.at false ((a + i) / 32) else []

/-- The reads that a range of a host window takes: function, host address, TLP and length of each, none across a multiple of Max_Read_Request_Size. -/
def Dev.windowReads (d : Dev) (a n : Nat) : List (Nat × Nat × TlpAttr × Nat) :=
  (piecesAt (d.readMax ((a - 0x80000000000) / 0x400000000)) a n).filterMap fun p => match d.hostTo p.1 false with
    | .goes f ha tlp => some (f, ha, tlp, p.2)
    | _ => none

/-- The reads of a range of a host window sent, as many as the link has room for (R185). -/
def Dev.askWindow (d : Dev) (a n : Nat) (who : ReadFor) : Dev :=
  d.each (d.windowReads a n) fun (x : Nat × Nat × TlpAttr × Nat) d => d.onlyIf (d.readRoom x.1) fun d => d.sendRead x.1 x.2.1 x.2.2.2 x.2.2.1 who

/-- The reads of a range of a host window end: those sent, and those that followed as the first came back. -/
def Dev.endWindow (d : Dev) (a n : Nat) (who : ReadFor) (ends : ReadEnd) : Dev :=
  let sent := (d.reads.filter fun e => match e.2 with
    | some r => r.who == who
    | none => false).length
  let d := d.each ((d.windowReads a n).drop sent) fun (x : Nat × Nat × TlpAttr × Nat) d =>
    ({ d with nextTag := d.nextTag + 1 }.emit (.hostRead x.1 d.nextTag x.2.1 x.2.2.2 x.2.2.1)).readIn x.1 x.2.2.2 ends
  d.endReads who ends

/-- An internal read made for one: bytes and marks. What a host window returns is `host`; all of it is marked when its TLP is, or its read times out (R190). -/
def Dev.intRead (d : Dev) (a n : Nat) (host : List Byte) (ends : ReadEnd) (who : ReadFor) : Dev × List Byte × List Bool :=
  if inHostWindow a then
    let (d, bs) := (d.endWindow a n who ends).readBytes n host ends
    (d, bs, if ends = .good then [] else List.replicate n true)
  else (d, d.memBytes a n, d.byteMarks a n)

/-- Marked bytes of memory mark their flits. -/
def Dev.putMarks (d : Dev) (a : Nat) (ms : List Bool) : Dev :=
  d.each ((List.range ms.length).filter fun i => ms.getD i false) fun i d =>
    if d.protected (a + i) 1 then d else { d with marks := d.marks.set false ((a + i) / 32) true }

/-- An internal write of bytes with marks: into memory, or by DMA writes of a host window, cut at 32-byte boundaries when any byte is marked (R192). -/
def Dev.intWrite (d : Dev) (a : Nat) (bs : List Byte) (ms : List Bool) : Dev :=
  if inHostWindow a then
    let ps := if ms.any id then piecesAt 32 a bs.length else pieces4k a bs.length
    d.each ps fun (p : Nat × Nat) d =>
      match d.hostTo p.1 true with
      | .goes f ha tlp => d.dmaWriteAs f ha tlp (sliceB bs (p.1 - a) p.2) (((ms.drop (p.1 - a)).take p.2).any id)
      | _ => d
  else (d.store a bs).putMarks a ms

end Sys2Proof.Machine
end

