-- ==== Sys2Proof/Machine/Hash.lean ====
section
/-! DEFINITION. The hash functions that the manual names by their standards: SHA-512 and SHA-384 (FIPS 180-4), SHA-3 and SHAKE (FIPS 202). PRESUMED from those standards, entry 20. -/

namespace Sys2Proof.Machine

open Sys2Proof

/-! ### SHA-512 and SHA-384 -/

/-- The integer `k`-th root of a number, its bits tried from bit `b` − 1 down. -/
def rootOf (k n : Nat) : Nat → Nat → Nat
  | 0, r => r
  | b + 1, r => if (r + 2 ^ b) ^ k ≤ n then rootOf k n b (r + 2 ^ b) else rootOf k n b r

/-- The first 64 bits of the fraction of a number's `k`-th root. -/
def rootFraction (k p : Nat) : Nat := rootOf k (p * 2 ^ (64 * k)) 72 0 % 2 ^ 64

/-- The primes in rising order. -/
def primesFrom : Nat → Nat → List Nat
  | 0, _ => []
  | f + 1, n => if (List.range (n - 2)).all (fun i => n % (i + 2) != 0) then n :: primesFrom f (n + 1) else primesFrom f (n + 1)

def primes80 : List Nat := primesFrom 410 2

/-- Round constants, and the initial values of SHA-512 and SHA-384. -/
def sha512K : List Nat := primes80.map (rootFraction 3)
def sha512Init : List Nat := (primes80.take 8).map (rootFraction 2)
def sha384Init : List Nat := ((primes80.drop 8).take 8).map (rootFraction 2)

def rotr64 (x n : Nat) : Nat := x / 2 ^ n + x % 2 ^ n * 2 ^ (64 - n)
def add64 (a b : Nat) : Nat := (a + b) % 2 ^ 64

/-- The message schedule, newest word first, from the 16 words of a block. -/
def shaSchedule : Nat → List Nat → List Nat
  | 0, w => w
  | n + 1, w =>
    let a := w.getD 1 0
    let b := w.getD 14 0
    let s1 := rotr64 a 19 ^^^ rotr64 a 61 ^^^ a / 64
    let s0 := rotr64 b 1 ^^^ rotr64 b 8 ^^^ b / 128
    shaSchedule n ((s1 + w.getD 6 0 + s0 + w.getD 15 0) % 2 ^ 64 :: w)

/-- One round. -/
def shaRound (h : List Nat) (kw : Nat × Nat) : List Nat :=
  match h with
  | [a, b, c, d, e, f, g, x] =>
    let t1 := x + (rotr64 e 14 ^^^ rotr64 e 18 ^^^ rotr64 e 41) + ((e &&& f) ^^^ ((2 ^ 64 - 1 - e) &&& g)) + kw.1 + kw.2
    let t2 := (rotr64 a 28 ^^^ rotr64 a 34 ^^^ rotr64 a 39) + ((a &&& b) ^^^ (a &&& c) ^^^ (b &&& c))
    [(t1 + t2) % 2 ^ 64, a, b, c, add64 d t1, e, f, g]
  | _ => h

/-- One block of 128 bytes. -/
def shaBlock (h : List Nat) (blk : List Byte) : List Nat :=
  let w := ((List.range 16).map fun i => beVal (sliceB blk (8 * i) 8)).reverse
  List.zipWith add64 h ((sha512K.zip (shaSchedule 64 w).reverse).foldl shaRound h)

/-- SHA-512's compression over a padded message. -/
def shaRun (h : List Nat) (bs : List Byte) : List Byte :=
  let n := bs.length
  let m := bs ++ [0x80] ++ List.replicate ((239 - n % 128) % 128) 0 ++ beBytes 16 (8 * n)
  (((List.range (m.length / 128)).foldl (fun h i => shaBlock h (sliceB m (128 * i) 128)) h).map (beBytes 8)).flatten

def sha512 (bs : List Byte) : List Byte := shaRun sha512Init bs
def sha384 (bs : List Byte) : List Byte := (shaRun sha384Init bs).take 48

/-! ### Keccak -/

def rotl64 (x n : Nat) : Nat := x % 2 ^ (64 - n) * 2 ^ n + x / 2 ^ (64 - n)

/-- Rotations by lane 5y + x, and round constants. -/
def keccakRot : List Nat := [0, 1, 62, 28, 27, 36, 44, 6, 55, 20, 3, 10, 43, 25, 39, 41, 45, 15, 21, 8, 18, 2, 61, 56, 14]
def keccakRc : List Nat :=
  [0x1, 0x8082, 0x800000000000808A, 0x8000000080008000, 0x808B, 0x80000001, 0x8000000080008081, 0x8000000000008009] ++
  [0x8A, 0x88, 0x80008009, 0x8000000A, 0x8000808B, 0x800000000000008B, 0x8000000000008089, 0x8000000000008003] ++
  [0x8000000000008002, 0x8000000000000080, 0x800A, 0x800000008000000A, 0x8000000080008081, 0x8000000000008080, 0x80000001, 0x8000000080008008]

def keccakRound (a : Array Nat) (rc : Nat) : Array Nat :=
  let g (a : Array Nat) (i : Nat) : Nat := a.getD i 0
  let c := (Array.range 5).map fun x => g a x ^^^ g a (x + 5) ^^^ g a (x + 10) ^^^ g a (x + 15) ^^^ g a (x + 20)
  let t := (Array.range 25).map fun i => g a i ^^^ g c ((i + 4) % 5) ^^^ rotl64 (g c ((i + 1) % 5)) 1
  let b := (Array.range 25).map fun i =>
    let s := 5 * (i % 5) + (i % 5 + 3 * (i / 5)) % 5
    rotl64 (g t s) (keccakRot.getD s 0)
  ((Array.range 25).map fun i =>
    let y := 5 * (i / 5)
    let v := g b i ^^^ ((2 ^ 64 - 1 - g b (y + (i + 1) % 5)) &&& g b (y + (i + 2) % 5))
    if i = 0 then v ^^^ rc else v)

def keccakF (a : Array Nat) : Array Nat := keccakRc.foldl keccakRound a

/-- A block of the rate absorbed. -/
def keccakAbsorb (a : Array Nat) (blk : List Byte) : Array Nat :=
  keccakF (a.mapIdx fun i v => v ^^^ leVal (sliceB blk (8 * i) 8))

/-- Blocks of the rate squeezed. -/
def keccakSqueeze (rate : Nat) : Nat → Array Nat → List Byte
  | 0, _ => []
  | k + 1, a => ((a.toList.map (leBytes 8)).flatten.take rate) ++ keccakSqueeze rate k (keccakF a)

/-- The sponge: `n` bytes from a message under a rate and a domain byte. -/
def sponge (rate dom n : Nat) (bs : List Byte) : List Byte :=
  let pad := rate - bs.length % rate
  let m := bs ++ (if pad = 1 then leBytes 1 (dom + 128) else leBytes 1 dom ++ List.replicate (pad - 2) 0 ++ [0x80])
  let a := (List.range (m.length / rate)).foldl (fun a i => keccakAbsorb a (sliceB m (rate * i) rate)) (Array.replicate 25 0)
  (keccakSqueeze rate ((n + rate - 1) / rate) a).take n

def sha3_256 (bs : List Byte) : List Byte := sponge 136 6 32 bs
def sha3_512 (bs : List Byte) : List Byte := sponge 72 6 64 bs
def shake128 (n : Nat) (bs : List Byte) : List Byte := sponge 168 31 n bs
def shake256 (n : Nat) (bs : List Byte) : List Byte := sponge 136 31 n bs

end Sys2Proof.Machine
end

