-- ==== Sys2Proof/Machine/Curves.lean ====
section
/-! DEFINITION. Modular exponentiation, the curves P-256, P-384 and P-521 with ECDSA and ECDH (SP 800-186, FIPS 186-5), Ed25519 (RFC 8032) and X25519 (RFC 7748), which R289 names. PRESUMED from those standards, entry 20. -/

namespace Sys2Proof.Machine

open Sys2Proof

/-! ### Modular arithmetic -/

/-- `b ^ e mod m` by the bits of `e` above the lowest `n`. -/
def powMod (m b : Nat) : Nat → Nat → Nat
  | 0, _ => 1 % m
  | n + 1, e =>
    let r := powMod m b n (e / 2)
    let r := r * r % m
    if e % 2 = 1 then r * b % m else r

/-- `b ^ e mod m`. -/
def modExp (m b e : Nat) : Nat := powMod m b (e.log2 + 1) e

/-- The inverse modulo a prime. -/
def invMod (p a : Nat) : Nat := modExp p (a % p) (p - 2)

def subMod (p a b : Nat) : Nat := (a + p - b % p) % p

/-! ### Weierstrass curves with a = −3 -/

/-- A curve: prime, coefficient b, order, base point, field length in bytes. -/
structure Curve where
  p : Nat
  b : Nat
  n : Nat
  gx : Nat
  gy : Nat
  len : Nat
  deriving DecidableEq, Repr

def p256 : Curve where
  p := 2 ^ 256 - 2 ^ 224 + 2 ^ 192 + 2 ^ 96 - 1
  b := 0x5ac635d8aa3a93e7b3ebbd55769886bc651d06b0cc53b0f63bce3c3e27d2604b
  n := 0xffffffff00000000ffffffffffffffffbce6faada7179e84f3b9cac2fc632551
  gx := 0x6b17d1f2e12c4247f8bce6e563a440f277037d812deb33a0f4a13945d898c296
  gy := 0x4fe342e2fe1a7f9b8ee7eb4a7c0f9e162bce33576b315ececbb6406837bf51f5
  len := 32

def p384 : Curve where
  p := 2 ^ 384 - 2 ^ 128 - 2 ^ 96 + 2 ^ 32 - 1
  b := 0xb3312fa7e23ee7e4988e056be3f82d19181d9c6efe8141120314088f5013875ac656398d8a2ed19d2a85c8edd3ec2aef
  n := 0xffffffffffffffffffffffffffffffffffffffffffffffffc7634d81f4372ddf581a0db248b0a77aecec196accc52973
  gx := 0xaa87ca22be8b05378eb1c71ef320ad746e1d3b628ba79b9859f741e082542a385502f25dbf55296c3a545e3872760ab7
  gy := 0x3617de4a96262c6f5d9e98bf9292dc29f8f41dbd289a147ce9da3113b5f0b8c00a60b1ce1d7e819d7a431d7c90ea0e5f
  len := 48

def p521 : Curve where
  p := 2 ^ 521 - 1
  b := 0x051953eb9618e1c9a1f929a21a0b68540eea2da725b99b315f3b8b489918ef109e156193951ec7e937b1652c0bd3bb1bf073573df883d2c34f1ef451fd46b503f00
  n := 0x1fffffffffffffffffffffffffffffffffffffffffffffffffffffffffffffffffa51868783bf2f966b7fcc0148f709a5d03bb5c9b8899c47aebb6fb71e91386409
  gx := 0xc6858e06b70404e9cd9e3ecb662395b4429c648139053fb521f828af606b4d3dbaa14b5e77efe75928fe1dc127a2ffa8de3348b3c1856a429bf97e7e31c2e5bd66
  gy := 0x11839296a789a3bc0045c8a5fb42c7d1bd998f54449579b446817afbd17273e662c97ee72995ef42640c550b9013fad0761353c7086a272c24088be94769fd16650
  len := 66

/-- A point in affine coordinates; none is the point at infinity. -/
abbrev Pt := Option (Nat × Nat)

def Curve.onCurve (c : Curve) (x y : Nat) : Bool :=
  decide (x < c.p ∧ y < c.p) && y * y % c.p == subMod c.p (x * x * x + c.b) (3 * x)

def Curve.base (c : Curve) : Pt := some (c.gx, c.gy)

def Curve.add (c : Curve) : Pt → Pt → Pt
  | none, q => q
  | some a, none => some a
  | some (x1, y1), some (x2, y2) =>
    if x1 = x2 ∧ (y1 + y2) % c.p = 0 then none
    else
      let l := if x1 = x2 then subMod c.p (3 * x1 * x1) 3 * invMod c.p (2 * y1) else subMod c.p y2 y1 * invMod c.p (subMod c.p x2 x1)
      let x := subMod c.p (l * l) (x1 + x2)
      some (x, subMod c.p (l * subMod c.p x1 x) y1)

/-- A multiple of a point by the bits of `k`. -/
def Curve.mulBits (c : Curve) (a : Pt) : Nat → Nat → Pt
  | 0, _ => none
  | n + 1, k =>
    let r := c.mulBits a n (k / 2)
    let r := c.add r r
    if k % 2 = 1 then c.add r a else r

def Curve.mul (c : Curve) (k : Nat) (a : Pt) : Pt := c.mulBits a (k.log2 + 1) k

def Curve.ptBytes (c : Curve) (a : Pt) : List Byte :=
  match a with
  | none => List.replicate (2 * c.len) 0
  | some (x, y) => beBytes c.len x ++ beBytes c.len y

/-- ECDSA: r and s from a key, a hash and a nonce; none when either is 0. -/
def Curve.sign (c : Curve) (d h k : Nat) : Option (Nat × Nat) :=
  match c.mul k c.base with
  | none => none
  | some (x, _) =>
    let r := x % c.n
    let s := invMod c.n k * (h + r * d) % c.n
    if r = 0 ∨ s = 0 then none else some (r, s)

/-- ECDSA verification of a signature whose r and s are in range. -/
def Curve.verify (c : Curve) (qx qy h r s : Nat) : Bool :=
  let w := invMod c.n s
  match c.add (c.mul (h * w % c.n) c.base) (c.mul (r * w % c.n) (some (qx, qy))) with
  | none => false
  | some (x, _) => r != 0 && s != 0 && x % c.n == r

/-! ### Ed25519 -/

def p25519 : Nat := 2 ^ 255 - 19
def l25519 : Nat := 2 ^ 252 + 27742317777372353535851937790883648493
def d25519 : Nat := subMod p25519 0 (121665 * invMod p25519 121666)

/-- Addition on the Edwards curve in affine coordinates. -/
def edAdd (a b : Nat × Nat) : Nat × Nat :=
  let p := p25519
  let t := d25519 * (a.1 * b.1 % p) % p * (a.2 * b.2 % p) % p
  ((a.1 * b.2 + a.2 * b.1) * invMod p (1 + t) % p, (a.2 * b.2 + a.1 * b.1) * invMod p (subMod p 1 t) % p)

def edMulBits (a : Nat × Nat) : Nat → Nat → Nat × Nat
  | 0, _ => (0, 1)
  | n + 1, k =>
    let r := edMulBits a n (k / 2)
    let r := edAdd r r
    if k % 2 = 1 then edAdd r a else r

def edMul (k : Nat) (a : Nat × Nat) : Nat × Nat := edMulBits a (k.log2 + 1) k

/-- The x coordinate of a y coordinate with a sign bit (RFC 8032, 5.1.3). -/
def edRecover (y sign : Nat) : Option Nat :=
  let p := p25519
  let u := subMod p (y * y) 1
  let v := (d25519 * (y * y % p) + 1) % p
  let a := u * invMod p v % p
  let x := modExp p a ((p + 3) / 8)
  let x := if x * x % p = a then x else x * modExp p 2 ((p - 1) / 4) % p
  if p ≤ y ∨ x * x % p ≠ a ∨ (x = 0 ∧ sign = 1) then none
  else some (if x % 2 = sign then x else p - x)

def edBase : Nat × Nat :=
  let y := 4 * invMod p25519 5 % p25519
  ((edRecover y 0).getD 0, y)

def edEncode (a : Nat × Nat) : List Byte := leBytes 32 (a.2 + a.1 % 2 * 2 ^ 255)

def edDecode (bs : List Byte) : Option (Nat × Nat) :=
  let v := leVal (sliceB bs 0 32)
  (edRecover (v % 2 ^ 255) (v / 2 ^ 255)).map fun x => (x, v % 2 ^ 255)

/-- The scalar and the second half of a seed's hash. -/
def edSecret (seed : List Byte) : Nat × List Byte :=
  let h := sha512 seed
  let a := leVal (h.take 32)
  ((a % 2 ^ 254 - a % 8) + 2 ^ 254, h.drop 32)

def edPublic (seed : List Byte) : List Byte := edEncode (edMul (edSecret seed).1 edBase)

def edSign (seed msg : List Byte) : List Byte :=
  let (s, pre) := edSecret seed
  let a := edPublic seed
  let r := leVal (sha512 (pre ++ msg)) % l25519
  let rb := edEncode (edMul r edBase)
  let k := leVal (sha512 (rb ++ a ++ msg)) % l25519
  rb ++ leBytes 32 ((r + k * s) % l25519)

/-- The check with the cofactor, for points that decode and S below the order. -/
def edVerify (pub msg sig : List Byte) : Bool :=
  match edDecode pub, edDecode sig with
  | some a, some r =>
    let s := leVal (sliceB sig 32 32)
    let k := leVal (sha512 (sliceB sig 0 32 ++ pub ++ msg)) % l25519
    edMul (8 * s) edBase == edMul 8 (edAdd r (edMul k a))
  | _, _ => false

/-! ### X25519 -/

/-- One step of the ladder over bit `t` of the scalar. -/
def xLadder (u k : Nat) : Nat → Nat × Nat × Nat × Nat → Nat × Nat × Nat × Nat
  | 0, s => s
  | t + 1, (x2, z2, x3, z3) =>
    let p := p25519
    let bit := k / 2 ^ t % 2 = 1
    let (x2, z2, x3, z3) := if bit then (x3, z3, x2, z2) else (x2, z2, x3, z3)
    let a := (x2 + z2) % p
    let aa := a * a % p
    let b := subMod p x2 z2
    let bb := b * b % p
    let e := subMod p aa bb
    let da := subMod p x3 z3 * a % p
    let cb := (x3 + z3) * b % p
    let y3 := (da + cb) % p
    let w := subMod p da cb
    let n2 := aa * bb % p
    let m2 := e * ((aa + 121665 * e) % p) % p
    let n3 := y3 * y3 % p
    let m3 := u * (w * w % p) % p
    xLadder u k t (if bit then (n3, m3, n2, m2) else (n2, m2, n3, m3))

/-- X25519 of a scalar's bytes and a reduced u. -/
def x25519 (scalar : List Byte) (u : Nat) : Nat :=
  let v := leVal (sliceB scalar 0 32)
  let k := (v % 2 ^ 254 - v % 8) + 2 ^ 254
  let (x, z, _, _) := xLadder u k 255 (1, 0, u, 1)
  x * invMod p25519 z % p25519

end Sys2Proof.Machine
end

