-- ==== Sys2Proof/Machine/Lattice.lean ====
section
/-! DEFINITION. ML-KEM (FIPS 203) and ML-DSA (FIPS 204), which R289 names. Polynomials are lists of 256 coefficients. PRESUMED from those standards, entry 20. -/

namespace Sys2Proof.Machine

open Sys2Proof

abbrev Poly := List Nat

/-! ### Bits and transforms -/

/-- Bits of bytes, least significant first. -/
def bitsLsb (bs : List Byte) : List Nat := (bs.map fun b => (List.range 8).map fun i => b.toNat / 2 ^ i % 2).flatten

/-- Bytes of bits, least significant first. -/
def bytesLsb (bits : List Nat) : List Byte :=
  (List.range (bits.length / 8)).map fun i => BitVec.ofNat 8 (((bits.drop (8 * i)).take 8).foldr (fun b a => b + 2 * a) 0)

/-- A polynomial packed with `w` bits a coefficient, and unpacked. -/
def packBits (w : Nat) (f : Poly) : List Byte := bytesLsb ((f.map fun x => (List.range w).map fun i => x / 2 ^ i % 2).flatten)
def unpackBits (w n : Nat) (bs : List Byte) : Poly :=
  let v := leVal bs
  (List.range n).map fun i => v / 2 ^ (w * i) % 2 ^ w

def bitRev (w x : Nat) : Nat := (List.range w).foldl (fun a i => 2 * a + x / 2 ^ i % 2) 0

/-- The value of a polynomial at a point. -/
def evalAt (q x : Nat) (f : Poly) : Nat := f.foldr (fun c a => (c + x * a) % q) 0

/-- Coefficients from the values at the points whose inverses are given: `n` of them, scaled. -/
def interpolate (q scale : Nat) (vals inv : List Nat) : Nat → List Nat → Poly
  | 0, _ => []
  | n + 1, ps => (List.zipWith (· * ·) vals ps).sum % q * scale % q :: interpolate q scale vals inv n (List.zipWith (fun a b => a * b % q) ps inv)

def polyAdd (q : Nat) (a b : Poly) : Poly := List.zipWith (fun x y => (x + y) % q) a b
def polySub (q : Nat) (a b : Poly) : Poly := List.zipWith (subMod q) a b
def polyZero : Poly := List.replicate 256 0

/-! ### ML-KEM -/

def kq : Nat := 3329
def kRoots : List Nat := (List.range 128).map fun i => modExp kq 17 (2 * bitRev 7 i + 1)
def kRootsInv : List Nat := kRoots.map (invMod kq)

def evens (f : Poly) : Poly := (List.range 128).map fun i => f.getD (2 * i) 0
def odds (f : Poly) : Poly := (List.range 128).map fun i => f.getD (2 * i + 1) 0
def weave (a b : List Nat) : Poly := (List.zipWith (fun x y => [x, y]) a b).flatten

def kNtt (f : Poly) : Poly := weave (kRoots.map fun r => evalAt kq r (evens f)) (kRoots.map fun r => evalAt kq r (odds f))
def kInv (f : Poly) : Poly :=
  let back (v : List Nat) : List Nat := interpolate kq (invMod kq 128) v kRootsInv 128 (List.replicate 128 1)
  weave (back (evens f)) (back (odds f))

/-- Products of pairs modulo X² − root. -/
def kMul (f g : Poly) : Poly :=
  let z := (((evens f).zip (odds f)).zip ((evens g).zip (odds g))).zip kRoots
  (z.map fun ((a, b), r) => [(a.1 * b.1 + a.2 * b.2 % kq * r) % kq, (a.1 * b.2 + a.2 * b.1) % kq]).flatten

def kDot (a b : List Poly) : Poly := (List.zipWith kMul a b).foldl (polyAdd kq) polyZero

/-- Candidates below q from three bytes each, the first 256. -/
def kReject : List Byte → List Nat
  | a :: b :: c :: t =>
    let x := a.toNat + 256 * (b.toNat % 16)
    let y := b.toNat / 16 + 16 * c.toNat
    [x, y].filter (· < kq) ++ kReject t
  | _ => []

def kSampleNtt (seed : List Byte) : Poly := (kReject (shake128 1344 seed)).take 256

def kCbd (seed : List Byte) (n : Nat) : Poly :=
  let b := bitsLsb (shake256 128 (seed ++ leBytes 1 n))
  (List.range 256).map fun i => subMod kq (b.getD (4 * i) 0 + b.getD (4 * i + 1) 0) (b.getD (4 * i + 2) 0 + b.getD (4 * i + 3) 0)

def kCompress (d x : Nat) : Nat := (2 * 2 ^ d * x + kq) / (2 * kq) % 2 ^ d
def kExpand (d y : Nat) : Nat := (kq * y + 2 ^ (d - 1)) / 2 ^ d

/-- The matrix of a seed, row i and column j, or its transpose. -/
def kMatrix (k : Nat) (rho : List Byte) (tr : Bool) : List (List Poly) :=
  (List.range k).map fun i => (List.range k).map fun j =>
    if tr then kSampleNtt (rho ++ leBytes 1 i ++ leBytes 1 j) else kSampleNtt (rho ++ leBytes 1 j ++ leBytes 1 i)

def kPolys (k : Nat) (bs : List Byte) : List Poly := (List.range k).map fun i => unpackBits 12 256 (sliceB bs (384 * i) 384)

/-- Every coefficient of an encapsulation key is below q. -/
def kKeyOk (k : Nat) (ek : List Byte) : Bool := (kPolys k ek).all fun f => f.all (· < kq)

/-- KEYGEN from its two seeds: encapsulation key and decapsulation key. -/
def kKeygen (k : Nat) (seed z : List Byte) : List Byte × List Byte :=
  let g := sha3_512 (seed ++ leBytes 1 k)
  let rho := g.take 32
  let sig := g.drop 32
  let s := (List.range k).map fun i => kNtt (kCbd sig i)
  let e := (List.range k).map fun i => kNtt (kCbd sig (k + i))
  let t := List.zipWith (fun row e => polyAdd kq (kDot row s) e) (kMatrix k rho false) e
  let ek := (t.map (packBits 12)).flatten ++ rho
  (ek, (s.map (packBits 12)).flatten ++ ek ++ sha3_256 ek ++ z)

/-- Encryption of a message of 32 bytes with given coins. -/
def kEncrypt (k du dv : Nat) (ek m r : List Byte) : List Byte :=
  let t := kPolys k ek
  let rho := sliceB ek (384 * k) 32
  let y := (List.range k).map fun i => kNtt (kCbd r i)
  let u := List.zipWith (fun row i => polyAdd kq (kInv (kDot row y)) (kCbd r (k + i))) (kMatrix k rho true) (List.range k)
  let mu := (bitsLsb m).map (kExpand 1)
  let v := polyAdd kq (polyAdd kq (kInv (kDot t y)) (kCbd r (2 * k))) mu
  (u.map fun f => packBits du (f.map (kCompress du))).flatten ++ packBits dv (v.map (kCompress dv))

def kDecrypt (k du dv : Nat) (dk c : List Byte) : List Byte :=
  let u := (List.range k).map fun i => (unpackBits du 256 (sliceB c (32 * du * i) (32 * du))).map (kExpand du)
  let v := (unpackBits dv 256 (sliceB c (32 * du * k) (32 * dv))).map (kExpand dv)
  let w := polySub kq v (kInv (kDot (kPolys k dk) (u.map kNtt)))
  bytesLsb (w.map (kCompress 1))

/-- ENCAPS of a random message: shared key and ciphertext. -/
def kEncaps (k du dv : Nat) (ek m : List Byte) : List Byte × List Byte :=
  let g := sha3_512 (m ++ sha3_256 ek)
  (g.take 32, kEncrypt k du dv ek m (g.drop 32))

/-- DECAPS, with implicit rejection. -/
def kDecaps (k du dv : Nat) (dk c : List Byte) : List Byte :=
  let ek := sliceB dk (384 * k) (384 * k + 32)
  let h := sliceB dk (768 * k + 32) 32
  let z := sliceB dk (768 * k + 64) 32
  let m := kDecrypt k du dv dk c
  let g := sha3_512 (m ++ h)
  if kEncrypt k du dv ek m (g.drop 32) = c then g.take 32 else shake256 32 (z ++ c)

/-! ### ML-DSA -/

/-- A parameter set: k, l, η, τ, ω, bytes of the challenge. γ1 is 2^19 and γ2 is (q − 1) / 32 in both that the manual names. -/
structure DsaSet where
  k : Nat
  l : Nat
  eta : Nat
  tau : Nat
  omega : Nat
  clen : Nat
  deriving DecidableEq, Repr

def dsa65 : DsaSet := ⟨6, 5, 4, 49, 55, 48⟩
def dsa87 : DsaSet := ⟨8, 7, 2, 60, 75, 64⟩

def dq : Nat := 8380417
def dG1 : Nat := 2 ^ 19
def dG2 : Nat := (dq - 1) / 32
def DsaSet.beta (p : DsaSet) : Nat := p.tau * p.eta

def dRoots : List Nat := (List.range 256).map fun i => modExp dq 1753 (2 * bitRev 8 i + 1)
def dRootsInv : List Nat := dRoots.map (invMod dq)
def dNtt (f : Poly) : Poly := dRoots.map fun r => evalAt dq r f
def dInv (f : Poly) : Poly := interpolate dq (invMod dq 256) f dRootsInv 256 (List.replicate 256 1)
def dMul (a b : Poly) : Poly := List.zipWith (fun x y => x * y % dq) a b
def dDot (a b : List Poly) : Poly := (List.zipWith dMul a b).foldl (polyAdd dq) polyZero
def dVecAdd (a b : List Poly) : List Poly := List.zipWith (polyAdd dq) a b
def dVecSub (a b : List Poly) : List Poly := List.zipWith (polySub dq) a b

/-- The absolute value of a residue taken about 0. -/
def dAbs (x : Nat) : Nat := min x (dq - x)
def dNorm (v : List Poly) : Nat := (v.flatten.map dAbs).foldl max 0

def dReject : List Byte → List Nat
  | a :: b :: c :: t =>
    let x := a.toNat + 256 * b.toNat + 65536 * (c.toNat % 128)
    if x < dq then x :: dReject t else dReject t
  | _ => []

def dMatrix (p : DsaSet) (rho : List Byte) : List (List Poly) :=
  (List.range p.k).map fun r => (List.range p.l).map fun s => (dReject (shake128 1008 (rho ++ leBytes 1 s ++ leBytes 1 r))).take 256

/-- A polynomial with coefficients of at most η about 0. -/
def dBounded (p : DsaSet) (seed : List Byte) (r : Nat) : Poly :=
  let nibbles := ((shake256 544 (seed ++ leBytes 2 r)).map fun b => [b.toNat % 16, b.toNat / 16]).flatten
  let ok := if p.eta = 2 then nibbles.filter (· < 15) else nibbles.filter (· < 9)
  (ok.take 256).map fun b => if p.eta = 2 then subMod dq 2 (b % 5) else subMod dq 4 b

/-- Coefficients packed as `b` minus their value. -/
def dPack (w b : Nat) (f : Poly) : List Byte := packBits w (f.map (subMod dq b))
def dUnpack (w b : Nat) (bs : List Byte) : Poly := (unpackBits w 256 bs).map (subMod dq b)

/-- High and low part by 2^13. -/
def dPower2 (x : Nat) : Nat × Nat :=
  let r := x % 8192
  if r ≤ 4096 then (x / 8192, r) else (x / 8192 + 1, subMod dq r 8192)

/-- High and low part by 2 γ2. -/
def dDecompose (x : Nat) : Nat × Nat :=
  let a := 2 * dG2
  let r := x % a
  let (hi, lo) := if r ≤ dG2 then (x / a, r) else (x / a + 1, subMod dq r a)
  if hi = 16 then (0, subMod dq lo 1) else (hi, lo)

def dUseHint (h x : Nat) : Nat :=
  let (hi, lo) := dDecompose x
  if h = 0 then hi else if 0 < lo ∧ lo ≤ dq / 2 then (hi + 1) % 16 else (hi + 15) % 16

/-- The challenge polynomial. -/
def dBall (p : DsaSet) (seed : List Byte) : Poly :=
  let s := shake256 544 seed
  let signs := bitsLsb (s.take 8)
  let step (st : Poly × List Nat) (t : Nat) : Poly × List Nat :=
    let i := 256 - p.tau + t
    let rest := st.2.dropWhile (i < ·)
    let j := rest.headD 0
    let c := st.1.set i (st.1.getD j 0)
    (c.set j (if signs.getD t 0 = 1 then dq - 1 else 1), rest.drop 1)
  ((List.range p.tau).foldl step (polyZero, (s.drop 8).map (·.toNat))).1

def dEtaBits (p : DsaSet) : Nat := if p.eta = 2 then 3 else 4

/-- KEYGEN from its seed: public key and private key. -/
def dKeygen (p : DsaSet) (seed : List Byte) : List Byte × List Byte :=
  let h := shake256 128 (seed ++ leBytes 1 p.k ++ leBytes 1 p.l)
  let rho := h.take 32
  let rho' := sliceB h 32 64
  let s1 := (List.range p.l).map (dBounded p rho')
  let s2 := (List.range p.k).map fun r => dBounded p rho' (p.l + r)
  let s1h := s1.map dNtt
  let t := dVecAdd ((dMatrix p rho).map fun row => dInv (dDot row s1h)) s2
  let pk := rho ++ (t.map fun f => packBits 10 (f.map fun x => (dPower2 x).1)).flatten
  let w := dEtaBits p
  (pk, rho ++ h.drop 96 ++ shake256 64 pk ++ (s1.map (dPack w p.eta)).flatten ++ (s2.map (dPack w p.eta)).flatten ++
    (t.map fun f => dPack 13 4096 (f.map fun x => (dPower2 x).2)).flatten)

/-- The hint as bytes. -/
def dHintPack (p : DsaSet) (h : List Poly) : List Byte :=
  let idx := h.map fun f => (List.range 256).filter fun i => f.getD i 0 == 1
  let all := idx.flatten
  (all.map (BitVec.ofNat 8) ++ List.replicate (p.omega - all.length) 0) ++
    (List.range p.k).map fun i => BitVec.ofNat 8 (((idx.take (i + 1)).map List.length).sum)

/-- Numbers rise strictly. -/
def rising : List Nat → Bool
  | a :: b :: t => decide (a < b) && rising (b :: t)
  | _ => true

/-- The hint from bytes, when they are well formed. -/
def dHintUnpack (p : DsaSet) (bs : List Byte) : Option (List Poly) :=
  let at_ (i : Nat) : Nat := (bs.getD i 0).toNat
  let ends := (List.range p.k).map fun i => at_ (p.omega + i)
  let starts := 0 :: ends
  let ok := (List.zipWith (fun a b => decide (a ≤ b)) starts ends).all id && ends.all (· ≤ p.omega) &&
    ((List.range p.omega).drop (ends.getLastD 0)).all fun i => at_ i == 0
  let idx := List.zipWith (fun a b => (List.range (b - a)).map fun i => at_ (a + i)) starts ends
  if ok && idx.all rising then some (idx.map fun l => (List.range 256).map fun i => if l.contains i then 1 else 0) else none

/-- Candidate signatures from counter `kap` on: the first of `n` that is acceptable. -/
def dSignLoop (p : DsaSet) (a : List (List Poly)) (s1 s2 t0 : List Poly) (mu rho2 : List Byte) : Nat → Nat → Option (List Byte)
  | 0, _ => none
  | n + 1, kap =>
    let y := (List.range p.l).map fun r => dUnpack 20 dG1 (shake256 640 (rho2 ++ leBytes 2 (kap + r)))
    let yh := y.map dNtt
    let w := a.map fun row => dInv (dDot row yh)
    let w1 := (w.map fun f => packBits 4 (f.map fun x => (dDecompose x).1)).flatten
    let ct := shake256 p.clen (mu ++ w1)
    let c := dNtt (dBall p ct)
    let z := dVecAdd y (s1.map fun s => dInv (dMul c s))
    let ws := dVecSub w (s2.map fun s => dInv (dMul c s))
    let r0 := ws.map fun f => f.map fun x => (dDecompose x).2
    let c0 := t0.map fun t => dInv (dMul c t)
    let h := List.zipWith (fun f g => List.zipWith (fun x y => if (dDecompose ((x + y) % dq)).1 = (dDecompose x).1 then 0 else 1) f g) ws c0
    if dNorm z < dG1 - p.beta ∧ dNorm r0 < dG2 - p.beta ∧ dNorm c0 < dG2 ∧ (h.map List.sum).sum ≤ p.omega then
      some (ct ++ (z.map (dPack 20 dG1)).flatten ++ dHintPack p h)
    else dSignLoop p a s1 s2 t0 mu rho2 n (kap + p.l)

/-- SIGN of a 64-byte μ with 32 random bytes: one of 96 candidates (R293). -/
def dSign (p : DsaSet) (sk mu rnd : List Byte) : Option (List Byte) :=
  let w := dEtaBits p
  let eb := 32 * w
  let part (o b n i : Nat) : Poly := dUnpack w p.eta (sliceB sk (o + b * i) n)
  let s1 := (List.range p.l).map (part 128 eb eb)
  let s2 := (List.range p.k).map (part (128 + eb * p.l) eb eb)
  let t0 := (List.range p.k).map fun i => dUnpack 13 4096 (sliceB sk (128 + eb * (p.l + p.k) + 416 * i) 416)
  let rho2 := shake256 64 (sliceB sk 32 32 ++ rnd ++ mu)
  dSignLoop p (dMatrix p (sk.take 32)) (s1.map dNtt) (s2.map dNtt) (t0.map dNtt) mu rho2 96 0

/-- VERIFY of a signature over a 64-byte μ. -/
def dVerify (p : DsaSet) (pk mu sig : List Byte) : Bool :=
  let t1 := (List.range p.k).map fun i => unpackBits 10 256 (sliceB pk (32 + 320 * i) 320)
  let ct := sig.take p.clen
  let z := (List.range p.l).map fun i => dUnpack 20 dG1 (sliceB sig (p.clen + 640 * i) 640)
  match dHintUnpack p (sig.drop (p.clen + 640 * p.l)) with
  | none => false
  | some h =>
    let c := dNtt (dBall p ct)
    let zh := z.map dNtt
    let w := List.zipWith (fun row t => dInv (polySub dq (dDot row zh) (dMul c (dNtt (t.map fun x => x * 8192 % dq))))) (dMatrix p (pk.take 32)) t1
    let w1 := (List.zipWith (fun f g => packBits 4 (List.zipWith dUseHint f g)) h w).flatten
    decide (dNorm z < dG1 - p.beta) && ct == shake256 p.clen (mu ++ w1)

end Sys2Proof.Machine
end

