-- ==== Sys2Proof/Machine/PublicKey.lean ====
section
/-! DEFINITION. The operations of the public-key engine: operand lengths, times, checks and results (R289 to R293). -/

namespace Sys2Proof.Machine

open Sys2Proof

/-- `n` bytes of the random bit generator. -/
def randomBytes (draw n : Nat) : List Byte := (List.range n).map fun i => BitVec.ofNat 8 (Config.randomByte draw i)

def curveOf (param : Nat) : Option Curve :=
  match param with
  | 1 => some p256
  | 2 => some p384
  | 3 => some p521
  | _ => none

def dsaOf (param : Nat) : Option DsaSet :=
  match param with
  | 1 => some dsa65
  | 2 => some dsa87
  | _ => none

/-- k, du and dv of an ML-KEM parameter. -/
def kemOf (param : Nat) : Option (Nat × Nat × Nat) :=
  match param with
  | 1 => some (3, 10, 4)
  | 2 => some (4, 11, 5)
  | _ => none

/-- The column of a parameter. -/
def column (param : Nat) (l : List Nat) : Nat := l.getD (param - 1) 0

/-- Lengths of ML-DSA's public key, private key and signature. -/
def dsaPkLen (p : DsaSet) : Nat := 32 + 320 * p.k
def dsaSkLen (p : DsaSet) : Nat := 128 + 32 * dEtaBits p * (p.k + p.l) + 416 * p.k
def dsaSigLen (p : DsaSet) : Nat := p.clen + 640 * p.l + p.omega + p.k

/-- What an operation takes: least and greatest operand length, result length, time in µs (R290). none: an unsupported OP, PARAM or SIZE. -/
def pkShape (op param size : Nat) : Option (Nat × Nat × Nat × Nat) :=
  match op with
  | 0x01 =>
    let n := size / 8
    if size % 64 = 0 ∧ 1024 ≤ size ∧ size ≤ 8192 then
      some (3 * n, 3 * n, n, if size ≤ 2048 then 340 else if size ≤ 3072 then 1080 else if size ≤ 4096 then 2500 else 19000)
    else none
  | 0x10 => (curveOf param).map fun c => (c.len, c.len, 2 * c.len, column param [40, 100, 240])
  | 0x11 => (curveOf param).map fun c => (2 * c.len, 2 * c.len, 2 * c.len, column param [45, 110, 260])
  | 0x12 => (curveOf param).map fun c => (5 * c.len, 5 * c.len, 0, column param [90, 220, 520])
  | 0x13 => (curveOf param).map fun c => (3 * c.len, 3 * c.len, c.len, column param [40, 100, 240])
  | 0x20 => some (32, 32, 32, 25)
  | 0x21 => some (32, 32 + 4096, 64, 30)
  | 0x22 => some (96, 96 + 4096, 0, 70)
  | 0x23 => some (64, 64, 32, 28)
  | 0x30 => (kemOf param).map fun (k, _, _) => (0, 0, (384 * k + 32) + (768 * k + 96), column param [14, 20])
  | 0x31 => (kemOf param).map fun (k, du, dv) => (384 * k + 32, 384 * k + 32, 32 + 32 * (du * k + dv), column param [16, 23])
  | 0x32 => (kemOf param).map fun (k, du, dv) => (let n := 768 * k + 96 + 32 * (du * k + dv); (n, n, 32, column param [20, 28]))
  | 0x40 => (dsaOf param).map fun p => (0, 0, dsaPkLen p + dsaSkLen p, column param [60, 90])
  | 0x41 => (dsaOf param).map fun p => (dsaSkLen p + 64, dsaSkLen p + 64, dsaSigLen p, column param [580, 720])
  | 0x42 => (dsaOf param).map fun p => (let n := dsaPkLen p + 64 + dsaSigLen p; (n, n, 0, column param [70, 110]))
  | _ => none

/-- A nonce of 1 to n − 1 from random bytes. -/
def nonceOf (n draw i : Nat) : Nat := 1 + leVal (randomBytes draw (80 * (i + 1)) |>.drop (80 * i)) % (n - 1)

/-- ECDSA with the first nonce that gives no zero. -/
def signTries (c : Curve) (d h draw : Nat) : Nat → Nat → Nat × Nat
  | 0, _ => (0, 0)
  | k + 1, i =>
    match c.sign d h (nonceOf c.n draw i) with
    | some rs => rs
    | none => signTries c d h draw k (i + 1)

/-- MODEXP: outcome and result. -/
def pkModexp (n : Nat) (bs : List Byte) : Nat × List Byte :=
  let b := be bs 0 n
  let e := be bs n n
  let m := be bs (2 * n) n
  if m ≤ b ∨ m ≤ e ∨ m % 2 = 0 ∨ m < 3 then (1, [])
  else (0, beBytes n (if b = 0 then 0 else modExp m b e))
where
  be (bs : List Byte) (o n : Nat) : Nat := beVal (sliceB bs o n)

/-- The operations on a Weierstrass curve. -/
def pkCurve (op : Nat) (c : Curve) (bs : List Byte) (draw : Nat) : Nat × List Byte :=
  let x (i : Nat) : Nat := beVal (sliceB bs (c.len * i) c.len)
  match op with
  | 0x10 => if c.n ≤ x 0 then (1, []) else if x 0 = 0 then (3, []) else (0, c.ptBytes (c.mul (x 0) c.base))
  | 0x11 =>
    if c.n ≤ x 0 then (1, []) else if x 0 = 0 then (3, [])
    else let rs := signTries c (x 0) (x 1) draw 16 0; (0, beBytes c.len rs.1 ++ beBytes c.len rs.2)
  | 0x12 =>
    if ¬ c.onCurve (x 0) (x 1) then (2, []) else if c.n ≤ x 3 ∨ c.n ≤ x 4 then (1, [])
    else if x 3 = 0 ∨ x 4 = 0 ∨ ¬ c.verify (x 0) (x 1) (x 2) (x 3) (x 4) then (4, []) else (0, [])
  | _ =>
    if ¬ c.onCurve (x 1) (x 2) then (2, []) else if c.n ≤ x 0 then (1, []) else if x 0 = 0 then (3, [])
    else (0, (c.ptBytes (c.mul (x 0) (some (x 1, x 2)))).take c.len)

/-- The operations on Curve25519. -/
def pkEdwards (op : Nat) (bs : List Byte) : Nat × List Byte :=
  match op with
  | 0x20 => (0, edPublic bs)
  | 0x21 => (0, edSign (bs.take 32) (bs.drop 32))
  | 0x22 =>
    let sig := bs.drop (bs.length - 64)
    if (edDecode (bs.take 32)).isNone ∨ (edDecode sig).isNone then (2, [])
    else if l25519 ≤ leVal (sig.drop 32) then (1, [])
    else if edVerify (bs.take 32) ((bs.take (bs.length - 64)).drop 32) sig then (0, []) else (4, [])
  | _ =>
    let u := leVal (sliceB bs 32 32) % 2 ^ 255
    if p25519 ≤ u then (2, [])
    else
      let r := x25519 (bs.take 32) u
      if r = 0 then (2, []) else (0, leBytes 32 r)

/-- ML-KEM. -/
def pkKem (op : Nat) (k du dv : Nat) (bs : List Byte) (draw : Nat) : Nat × List Byte :=
  let rnd := randomBytes draw 64
  match op with
  | 0x30 => let (ek, dk) := kKeygen k (rnd.take 32) (rnd.drop 32); (0, ek ++ dk)
  | 0x31 => if ¬ kKeyOk k bs then (1, []) else let (ss, c) := kEncaps k du dv bs (rnd.take 32); (0, ss ++ c)
  | _ => (0, kDecaps k du dv (bs.take (768 * k + 96)) (bs.drop (768 * k + 96)))

/-- ML-DSA. -/
def pkDsa (op : Nat) (p : DsaSet) (bs : List Byte) (draw : Nat) : Nat × List Byte :=
  let rnd := randomBytes draw 32
  match op with
  | 0x40 => let (pk, sk) := dKeygen p rnd; (0, pk ++ sk)
  | 0x41 =>
    match dSign p (bs.take (dsaSkLen p)) (bs.drop (dsaSkLen p)) rnd with
    | some sig => (0, sig)
    | none => (5, [])
  | _ =>
    let n := dsaPkLen p
    if dVerify p (bs.take n) (sliceB bs n 64) (bs.drop (n + 64)) then (0, []) else (4, [])

/-- PKSTAT and result of an operation on an operand block of a right length (R290, R292). -/
def pkCompute (op param size : Nat) (bs : List Byte) (draw : Nat) : Nat × List Byte :=
  if op = 0x01 then pkModexp (size / 8) bs
  else if op < 0x20 then
    match curveOf param with
    | some c => pkCurve op c bs draw
    | none => (0, [])
  else if op < 0x30 then pkEdwards op bs
  else if op < 0x40 then
    match kemOf param with
    | some (k, du, dv) => pkKem op k du dv bs draw
    | none => (0, [])
  else
    match dsaOf param with
    | some p => pkDsa op p bs draw
    | none => (0, [])

end Sys2Proof.Machine
end

