-- ==== Sys2Proof/Machine/Paths.lean ====
section
/-! DEFINITION. Storage namespaces and backing paths: liveness, loss and the commands that it ends (R252 to R255). -/

namespace Sys2Proof.Machine

open Sys2Proof

/-- A backing path is live: its entry is VALID and it is not DOWN. -/
def Dev.pathLive (d : Dev) (p : Nat) : Bool := decide (p < 255) && d.flag F.STO_PATH_VALID 0 p && !d.flag F.STO_PATH_DOWN 0 p

/-- The paths that a namespace names, primary first. -/
def Dev.nsPaths (d : Dev) (n : Nat) : List Nat := [d.fld F.STO_NS_PATH0 0 n, d.fld F.STO_NS_PATH1 0 n].filter (· != 0xFF)

/-- The path that a new command takes (R254). -/
def Dev.nsPath (d : Dev) (n : Nat) : Option Nat := (d.nsPaths n).find? d.pathLive

/-- A namespace on a fabric target. -/
def Dev.nsFabric (d : Dev) (n : Nat) : Bool := d.flag F.STO_NS_VALID 0 n && d.fld F.STO_NS_KIND 0 n != 0

/-- A fabric namespace without a live path reports it, once until a path of it returns (R254). -/
def Dev.checkLost (d : Dev) (n : Nat) : Dev :=
  if d.nsFabric n ∧ (d.nsPath n).isNone ∧ ¬ d.nsLost.at false n then
    { d with nsLost := d.nsLost.set false n true }.fnEvent (d.fld F.STO_NS_FUNC 0 n) 0x11 n (d.fld F.STO_NS_PATH0 0 n + 256 * d.fld F.STO_NS_PATH1 0 n)
  else d

/-- Namespaces with a stored entry. -/
def Dev.nsList (d : Dev) : List Nat := d.csr.filterMap fun e => if e.1.reg = Reg.STO_NS ∧ e.1.w = 0 then some e.1.i else none

/-- Commands issued on a path end with a path error (R254). -/
def Dev.endPath (d : Dev) (p : Nat) : Dev :=
  let hit (c : StoCmd) : Bool := c.path == some p && c.outcome.isNone
  let n := (d.stoCmds.filter fun e => hit e.2).length
  let l : NMap StoCmd := d.stoCmds.map fun e => (e.1, if hit e.2 then { e.2 with outcome := some .pathLost } else e.2)
  { d with stoCmds := l }.bump .STO_CNT 0 1 n

/-- A path goes DOWN (R253, R254). -/
def Dev.pathDown (d : Dev) (p : Nat) : Dev :=
  let d := (d.setFld F.STO_PATH_DOWN 0 p 1).endPath p
  d.each (d.nsList.filter fun n => (d.nsPaths n).contains p) fun n d => d.checkLost n

/-- The RDMA paths that a transport QP carries go DOWN with it. -/
def Dev.qpPathsDown (d : Dev) (q : Nat) : Dev :=
  let l := d.csr.filterMap fun e => if e.1.reg = Reg.STO_PATH then some e.1.i else none
  d.each (l.filter fun p => d.pathLive p && d.fld F.STO_PATH_KIND 0 p == 0 && d.fld F.STO_PATH_HANDLE 0 p == q) fun p d => d.pathDown p

/-- STO_PATH: a path that firmware sets DOWN ends its commands; DOWN = 0 lets its namespaces report a loss again (R254). -/
def stoPathEffect (k : RegKey) (w : Write) (d : Dev) : Dev :=
  let was := d.pathLive k.i
  let d := d.plainWrite k w.value
  let d := if d.pathLive k.i then { d with nsLost := d.nsLost.filter fun e => !(d.nsPaths e.1).contains k.i } else d
  if was ∧ ¬ d.pathLive k.i then
    let d := d.endPath k.i
    d.each (d.nsList.filter fun n => (d.nsPaths n).contains k.i) fun n d => d.checkLost n
  else d

/-! ### DRAM namespaces (R255) -/

/-- Block size, blocks and first byte of a namespace. -/
def Dev.nsBlock (d : Dev) (n : Nat) : Nat := if d.flag F.STO_NS_BS4K 0 n then 4096 else 512
def Dev.nsSize (d : Dev) (n : Nat) : Nat := d.fld F.STO_NS_SIZE_HI 0 n * 2 ^ 32 + d.fld F.STO_NS_SIZE_LO 0 n
def Dev.nsBase (d : Dev) (n : Nat) : Nat := d.fld F.STO_NS_TARGET_HI 0 n * 2 ^ 32 + d.fld F.STO_NS_TARGET_LO 0 n / 4096 * 4096

/-- Every DRAM namespace zeroed, as a failover leaves it on the new active device (R255). -/
def Dev.zeroNamespaces (d : Dev) : Dev :=
  d.each (d.nsList.filter fun n => d.flag F.STO_NS_VALID 0 n && !d.nsFabric n) fun n d => d.zeroRange (d.nsBase n) (d.nsSize n * d.nsBlock n)

/-- STO_NS: a DRAM range outside DRAM is discarded with BADCFG; KIND 3 and NSID 0 are discarded (R255). A write that takes a namespace's last live path from it reports the loss, one that gives it a live path lets it report again (R254). -/
def stoNsEffect (k : RegKey) (w : Write) (d : Dev) : Dev :=
  let d' := d.plainWrite k w.value
  let n := k.i
  let base := d'.nsBase n
  let bytes := d'.nsSize n * d'.nsBlock n
  if d'.fld F.STO_NS_KIND 0 n = 3 ∨ d'.fld F.STO_NS_NSID 0 n = 0 then d
  else if d'.flag F.STO_NS_VALID 0 n ∧ d'.fld F.STO_NS_KIND 0 n = 0 ∧ ¬ d.inDram base bytes then d.setChip F.STO_STAT_BADCFG 1
  else if (d'.nsPath n).isSome ∨ ¬ d'.nsFabric n then { d' with nsLost := d'.nsLost.set false n false }
  else if d.nsFabric n ∧ (d.nsPath n).isSome then d'.checkLost n
  else d'

end Sys2Proof.Machine
end

