-- ==== Sys2Proof/Machine/Transport.lean ====
section
/-! DEFINITION. Transport QP contexts, memory keys, the frames that a transport engine sends, and a QP's fall into ERROR (R226 to R241, R243, R244, R248). -/

namespace Sys2Proof.Machine

open Sys2Proof

/-! ### Contexts -/

def Dev.qctx (d : Dev) (q : Nat) : QpCtx := d.qpctxs.at {} q
def Dev.updQctx (d : Dev) (q : Nat) (f : QpCtx → QpCtx) : Dev := { d with qpctxs := d.qpctxs.set {} q (f (d.qctx q)) }

/-- Fields of the QP image (R251), by byte offset and length. -/
def QpCtx.b (c : QpCtx) (o n : Nat) : Nat := leVal (sliceB c.img o n)
def QpCtx.state (c : QpCtx) : Nat := c.b 0 1
def QpCtx.chan (c : QpCtx) : Nat := c.b 1 1
def QpCtx.page (c : QpCtx) : Nat := 256 * c.fn + c.chan
def QpCtx.pmtu (c : QpCtx) : Nat := 128 * 2 ^ c.b 3 1
def QpCtx.mp (c : QpCtx) : Bool := bitOf (c.b 20 1) 0
def QpCtx.retry (c : QpCtx) : Nat := c.b 11 1 / 32
def QpCtx.ord (c : QpCtx) : Nat := c.b 19 1 % 16 + 1
def QpCtx.ird (c : QpCtx) : Nat := c.b 19 1 / 16 + 1
def QpCtx.path (c : QpCtx) (p : Nat) : RmPath := c.paths.getD p {}
def QpCtx.setPath (c : QpCtx) (p : Nat) (f : RmPath → RmPath) : QpCtx := { c with paths := c.paths.modify p f }

/-- When a local ACK timer started now runs out, if the timeout is enabled (R239): 4.096 µs × 2^TIMEOUT. -/
def QpCtx.deadline (c : QpCtx) (now : Nat) : Option Nat := let t := c.b 11 1 % 32; if t = 0 then none else some (now + cyclesOfNs (4096 * 2 ^ t))

/-- A byte range of the image replaced. -/
def QpCtx.put (c : QpCtx) (o n v : Nat) : QpCtx := { c with img := overB c.img o (leBytes n v) }

/-- The image as the context stands: SQ_PSN and RQ_PSN are the next PSNs that path 0 sends and expects (R251). -/
def QpCtx.shown (c : QpCtx) : List Byte :=
  let was := if c.img.isEmpty then List.replicate 128 0 else c.img
  if c.paths.isEmpty then was else overB (overB was 12 (leBytes 3 (c.path 0).next)) 16 (leBytes 3 (c.path 0).expect)

/-- PSNs and MSNs are compared modulo 2^24 (R239). -/
def psnDist (a b : Nat) : Nat := (a + 2 ^ 24 - b % 2 ^ 24) % 2 ^ 24
def psnAdd (a n : Nat) : Nat := (a + n) % 2 ^ 24

/-- The region whose engine serves a QP (R228, R365). -/
def Dev.qpRegion (d : Dev) (q : Nat) : Nat :=
  match d.parcel (qpctxId q) with
  | some p => p.sram.getD p.home
  | none => q % 4

def Dev.rmCount (d : Dev) (q k : Nat) : Dev := d.bump .RMA_CNT (d.qpRegion q) k
def Dev.rmTally (d : Dev) (q off n : Nat) : Dev := d.tally (tlyRgn (d.qpRegion q) + off) n

/-- A QP number is owned by a function, and the carve-out holds its context (R227, R234). -/
def Dev.ownsQpn (d : Dev) (f q : Nat) : Bool :=
  let x := d.res f
  decide (x.qpnBase ≤ q ∧ q < x.qpnBase + x.qpnCnt ∧ 2 ≤ q ∧ q < d.fld F.RMA_CTX_CFG_QP_MAX)

/-- A key index is owned by a function, and the carve-out holds its context (R227). -/
def Dev.ownsKey (d : Dev) (f i : Nat) : Bool :=
  let x := d.res f
  decide (x.keyBase ≤ i ∧ i < x.keyBase + x.keyCnt ∧ 1 ≤ i ∧ i < d.fld F.RMA_CTX_CFG_KEY_MAX)

/-! ### Frames (R226, R229, R243) -/

/-- A base transport header: opcode, pad count, destination QP, acknowledge request, PSN. -/
def bth (op pad dqpn : Nat) (ack : Bool) (psn : Nat) : List Byte :=
  beBytes 1 op ++ beBytes 1 (0x40 + pad * 16) ++ beBytes 2 0xFFFF ++ beBytes 1 0 ++ beBytes 3 dqpn ++ beBytes 1 (natOf ack * 128) ++ beBytes 3 psn

/-- Extended headers: RETH, AtomicETH, AETH, FETH. -/
def reth (va key len : Nat) : List Byte := beBytes 8 va ++ beBytes 4 key ++ beBytes 4 len
def atomicEth (va key swapAdd cmp : Nat) : List Byte := beBytes 8 va ++ beBytes 4 key ++ beBytes 8 swapAdd ++ beBytes 8 cmp
def aeth (syndrome msn : Nat) : List Byte := beBytes 1 syndrome ++ beBytes 3 msn
def feth (plt : Nat) : List Byte := beBytes 4 plt

/-- Payload padded to four bytes, with its pad count. -/
def padPayload (bs : List Byte) : List Byte × Nat := let p := (4 - bs.length % 4) % 4; (bs ++ List.replicate p 0, p)

/-- The headers of a QP's packets before the BTH: Ethernet, IP and UDP, for `n` bytes of transport packet with its ICRC, on a path. -/
def QpCtx.outer (c : QpCtx) (path n : Nat) : List Byte × List Byte × List Byte :=
  let tag := c.b 36 2
  let v6 := bitOf (c.b 38 1) 0
  let tc := c.b 38 1 / 4 * 4 + (if bitOf (c.b 38 1) 1 then 2 else 0)
  let eth := sliceB c.img 24 12 ++ (if bitOf tag 15 then beBytes 2 0x8100 ++ beBytes 2 (tag % 32768) else []) ++ beBytes 2 (if v6 then 0x86DD else 0x0800)
  let udp := beBytes 2 (c.b 76 2 + path) ++ beBytes 2 4791 ++ beBytes 2 (8 + n) ++ beBytes 2 0
  let ip := if v6 then beBytes 4 (6 * 2 ^ 28 + tc * 2 ^ 20 + c.b 72 3 % 2 ^ 20) ++ beBytes 2 (8 + n) ++ beBytes 1 17 ++ beBytes 1 (c.b 39 1) ++ sliceB c.img 40 16 ++ sliceB c.img 56 16
    else fixIpSum (beBytes 1 0x45 ++ beBytes 1 tc ++ beBytes 2 (28 + n) ++ beBytes 2 0 ++ beBytes 2 0x4000 ++ beBytes 1 (c.b 39 1) ++ beBytes 1 17 ++
      beBytes 2 0 ++ sliceB c.img 52 4 ++ sliceB c.img 68 4) 0
  (eth, ip, udp)

/-- The invariant CRC of a RoCEv2 packet: its IP header, UDP header and transport packet, the variant fields taken as ones. -/
def icrc (ip udp ib : List Byte) : List Byte :=
  let ones (bs : List Byte) (o n : Nat) : List Byte := overB bs o (List.replicate n 0xFF)
  let ip := if be ip 0 1 / 16 = 6 then putBe (ones (ones ip 7 1) 0 4) 0 1 0x6F else ones (ones (ones ip 1 1) 8 1) 10 2
  fcsOf (List.replicate 8 0xFF ++ ip ++ ones udp 6 2 ++ ones ib 4 1)

/-- The frame of a packet, without FCS; poisoned data stomps the ICRC (R192). -/
def Dev.rmFrame (d : Dev) (o : RmOut) : List Byte :=
  let (eth, ip, udp) := (d.qctx o.q).outer o.path (o.bytes.length + 4)
  let crc := icrc ip udp o.bytes
  eth ++ ip ++ udp ++ o.bytes ++ (if o.poison then crc.map (~~~ ·) else crc)

/-- A transport packet of a QP sent on a path as a host-originated packet of its function (R229), behind those of its engine that wait, once the region's buffer has room for it (R142). -/
def Dev.rmSend (d : Dev) (q path : Nat) (ib : List Byte) (poison : Bool) : Dev :=
  let o : RmOut := ⟨q, path, ib, poison⟩
  let r := d.qpRegion q
  let f := d.rmFrame o
  if 65536 < d.fld F.SCH_BUF_STAT_USED r + cellsFor (f.length + 4) ∨ d.rmOut.any (fun x => d.qpRegion x.q == r) then { d with rmOut := d.rmOut ++ [o] }
  else
    let id := d.nextPkt
    let d := d.onlyIf poison fun d => d.bump .HIF_CNT 0 5
    (d.hostPacket (d.qctx q).fn r f none []).updPkt id fun k => { k with qpn := some q }

/-- Packets that waited for room follow into it, in their order. -/
def Dev.rmDrain (d : Dev) : Dev := { d with rmOut := [] }.each d.rmOut fun (o : RmOut) d => d.rmSend o.q o.path o.bytes o.poison

/-- A received RoCEv2 packet: its transport packet without the ICRC, and whether ECN marked congestion. -/
def roceOf (bs : List Byte) : Option (List Byte × Bool) :=
  match ipAt bs with
  | none => none
  | some ip =>
    let (o, proto, _) := ipPayload bs ip
    let e := ipEnd bs ip
    let ib := sliceB bs (o + 8) (e - o - 12)
    let ce := (if ip.2 = 4 then be bs (ip.1 + 1) 1 else be bs ip.1 2 / 16) % 4 == 3
    let good := proto == 17 && be bs (o + 2) 2 == 4791 && decide (o + 24 ≤ e) &&
      sliceB bs (e - 4) 4 == icrc (sliceB bs ip.1 (o - ip.1)) (sliceB bs o 8) ib
    if good then some (ib, ce) else none

/-! ### Jobs of a transport QP -/

def Job.qpn (j : Job) : Nat := leVal (sliceB j.desc 32 3)
def Job.rkey (j : Job) : Nat := leVal (sliceB j.desc 36 4)
def Job.imm (j : Job) : Nat := leVal (sliceB j.desc 40 4)
def Job.opa (j : Job) : Nat := leVal (sliceB j.desc 44 8)
def Job.opb (j : Job) : Nat := leVal (sliceB j.desc 52 8)
def Job.plt (j : Job) : Nat := leVal (sliceB j.desc 60 1)

/-- Bytes 12 to 31 of a completion on a channel (R238). -/
def rmDetail (imm : Option Nat) (q op synd : Nat) (mp : Bool) : List Byte :=
  leBytes 4 (imm.getD 0) ++ leBytes 3 q ++ leBytes 1 op ++ leBytes 1 synd ++ leBytes 1 (natOf imm.isSome + 2 * natOf mp) ++ leBytes 10 0

/-- A remote-memory job ends with a status, bytes and a syndrome. -/
def Dev.endRm (d : Dev) (j q status bytes synd : Nat) : Dev :=
  let x := d.job j
  let mp := (d.qctx q).mp
  (d.updJob j fun x => { x with detail := rmDetail none q x.op synd mp }).endJob j status (if x.state = .done then x.bytes else bytes)

/-- Jobs of a channel that name a transport QP and have not finished, oldest first. -/
def Dev.qpJobs (d : Dev) (q : Nat) : List (Nat × Job) :=
  let c := d.qctx q
  (d.jobsOf c.page false).filter fun e => e.2.qpn == q && decide (0x20 ≤ e.2.op ∧ e.2.op ≤ 0x28) && e.2.state != .done

/-- Jobs forgotten without a completion (R240). -/
def Dev.dropJobs (d : Dev) (l : List Nat) : Dev := d.each l fun j d => { d with jobs := d.jobs.set {} j {} }

/-- Receive jobs bound to messages of a QP. -/
def QpCtx.boundJobs (c : QpCtx) : List Nat :=
  (c.trackers.filterMap fun t => if t.mop = 7 then none else t.job) ++ c.binds.map (·.2)

/-- The ERROR state of a context: nothing is sent, trackers, packets and answers are gone. -/
def QpCtx.toError (c : QpCtx) : QpCtx :=
  { c.put 0 1 4 with paths := c.paths.map fun p => { p with unacked := [], timer := none, rnrUntil := none, again := false }
                     trackers := [], binds := [], answers := [], capsules := [], stall := none }

/-- A QP's context moves to ERROR: its jobs are abandoned, its packets not yet sent are gone, and every storage path that it carries goes DOWN in the same cycle (R240, R253). -/
def Dev.qpToError (d : Dev) (q : Nat) : Dev :=
  let d := (d.dropJobs ((d.qpJobs q).map (·.1))).dropJobs (d.qctx q).boundJobs
  ({ d with rmOut := d.rmOut.filter fun o => o.q != q }.updQctx q QpCtx.toError).qpPathsDown q

/-- A QP enters ERROR (R240): the failing job ends with the status, or is abandoned without one; every other job is abandoned, and the event, which names the first of them, is raised to the function. -/
def Dev.qpError (d : Dev) (q synd : Nat) (job : Option Nat) (status : Option Nat) (code : Nat) : Dev :=
  let c := d.qctx q
  let l := d.qpJobs q
  let first := job.orElse fun _ => l.head?.map (·.1)
  let index := match l.head? with
    | some e => e.2.index
    | none => 0
  let d := match first, status with
    | some j, some st => d.endRm j q st 0 synd
    | _, _ => d
  (d.qpToError q).fnEvent c.fn code q (synd + 256 * c.chan + 65536 * index)

/-- The QPs of a function move to ERROR at its reset, without entries or events (R249). -/
def Dev.qpsOfFn (d : Dev) (f : Nat) : Dev :=
  d.each ((d.qpctxs.filter fun e => e.2.fn == f && e.2.state != 0).map (·.1)) fun q d => d.qpToError q

/-! ### Memory keys (R231, R232, R248) -/

def Dev.key (d : Dev) (i : Nat) : List Byte := d.keys.at [] i

def keyB (k : List Byte) (o n : Nat) : Nat := leVal (sliceB k o n)

/-- A key context targets device DRAM, maps pages that may not be present, asks for translated addresses; its PASID. -/
def keyDram (k : List Byte) : Bool := bitOf (keyB k 1 1) 7
def keyOdp (k : List Byte) : Bool := bitOf (keyB k 1 1) 6
def keyAt (k : List Byte) : Bool := bitOf (keyB k 5 1) 0
def keyPasid (k : List Byte) : Nat := keyB k 24 4 % 2 ^ 20

/-- The target address of a virtual address at its offset from the base. -/
def keyPlain (k : List Byte) (va : Nat) : Nat := keyB k 28 8 + (va - keyB k 8 8)

/-- The page that an ODP key is resolved by: of the host address, or with DRAM of the virtual address that the page table takes. -/
def keyPage (k : List Byte) (va : Nat) : Nat := if keyDram k then va / 4096 else keyPlain k va / 4096

/-- Pages that a range reaches. -/
def keyPages (k : List Byte) (va len : Nat) : List Nat :=
  if len = 0 then [] else (List.range (keyPage k (va + len - 1) + 1 - keyPage k va)).map (keyPage k va + ·)

/-- What the resolution of an ODP key's page has given: nothing yet, no page (none), or a page. -/
def Dev.odpPage (d : Dev) (i page : Nat) : Option (Option Nat) := (d.odpPages.find? fun e => e.1 == i && e.2.1 == page).map (·.2.2)

/-- Checks 1 to 5 of R232, which concern a key, in their order: the number of the first that fails, if any. `acc` is the access asked for: 0 read, 1 write, 2 atomic, 3 flush. A page that could not be resolved fails check 3 (R248). -/
def Dev.keyFails (d : Dev) (q key acc va len : Nat) (persist : Bool) : Option Nat :=
  let c := d.qctx q
  let k := d.key (key / 256)
  let fl := keyB k 1 1
  let failed := keyOdp k && (keyPages k va len).any fun p => d.odpPage (key / 256) p == some none
  if ¬ bitOf fl 0 ∨ ¬ d.ownsKey c.fn (key / 256) ∨ keyB k 0 1 ≠ key % 256 then some 1
  else if keyB k 2 3 ≠ c.b 4 3 then some 2
  else if ¬ bitOf fl (acc + 1) ∨ ¬ bitOf (c.b 2 1) acc ∨ failed then some 3
  else if va < keyB k 8 8 ∨ keyB k 8 8 + keyB k 16 8 < va + len then some 4
  else if (acc = 2 ∧ va % 8 ≠ 0) ∨ (persist ∧ ¬ bitOf fl 5) then some 5
  else none

/-- Pages of a range of an ODP key that are not present (check 7 of R232). -/
def Dev.missingPages (d : Dev) (key va len : Nat) : List Nat :=
  let k := d.key (key / 256)
  if keyOdp k then (keyPages k va len).filter fun p => (d.odpPage (key / 256) p).isNone else []

/-- Checks 1 to 5 and 7. -/
def Dev.keyRefuses (d : Dev) (q key acc va len : Nat) (persist : Bool) : Option Nat :=
  match d.keyFails q key acc va len persist with
  | some x => some x
  | none => if (d.missingPages key va len).isEmpty then none else some 7

/-- The address in device DRAM of a virtual address of a key context: in a resolved page of an ODP key, else at its offset from the base. -/
def Dev.keyAddr (d : Dev) (k : List Byte) (i va : Nat) : Nat :=
  if keyOdp k then
    match d.odpPage i (keyPage k va) with
    | some (some p) => p * 4096 + va % 4096
    | _ => keyPlain k va
  else keyPlain k va

/-- Bytes at an address cut at page boundaries: each piece with its address. -/
def pagePieces (va : Nat) (bs : List Byte) : List (Nat × List Byte) :=
  (List.range ((va % 4096 + bs.length + 4095) / 4096)).map fun i =>
    let a := if i = 0 then va else va - va % 4096 + 4096 * i
    (a, (bs.drop (a - va)).take (4096 - a % 4096))

/-- What placing bytes under a key comes to: done, waiting for a translation, or the number of the check that it fails. -/
inductive Placed where
  | done (d : Dev)
  | waits (d : Dev)
  | fails (check : Nat)
  deriving DecidableEq, Repr

/-- What a request of a host key carries (R180, R231). -/
def Dev.keyTlp (d : Dev) (q : Nat) (k : List Byte) : TlpAttr := d.tlpOf (d.qctx q).fn (some (keyPasid k))

/-- Bytes placed at a virtual address of a key context, page by page: in device DRAM, or by writes of host memory, translated when AT = 1 (R183, R231). A translation that the host denies fails check 3, a function that may not issue counts as check 8. -/
def Dev.keyPlace (d : Dev) (q : Nat) (k : List Byte) (i va : Nat) (bs : List Byte) (mark : Bool) : Placed :=
  let f := (d.qctx q).fn
  if bs.isEmpty then .done d
  else if keyDram k then .done (d.each (pagePieces va bs) fun (x : Nat × List Byte) d => d.storeMarked (d.keyAddr k i x.1) x.2 mark)
  else if ¬ d.canIssue f then .fails 8
  else
    let l := (pagePieces (keyPlain k va) bs).map fun x => (d.hostAddress f x.1 (d.keyTlp q k) (keyAt k) true, x.2)
    if l.any fun x => x.1 == .fails then .fails 3
    else
      let asked := l.filterMap fun x => match x.1 with
        | .asks g p pasid => some (g, p, pasid)
        | _ => none
      if asked.isEmpty then
        .done (d.each l fun (x : HostTo × List Byte) d => match x.1 with
          | .goes g a tlp => d.dmaWriteAs g a tlp x.2 mark
          | _ => d)
      else .waits (d.each asked fun (x : Nat × Nat × Option Nat) d => d.askPage x.1 x.2.1 x.2.2)

/-- Bytes of device DRAM at a virtual address of a key context, and the 32-byte flits of them that are marked. -/
def Dev.keyData (d : Dev) (k : List Byte) (i va n : Nat) : List Byte × List Nat :=
  ((List.range n).map fun x => d.memByte (d.keyAddr k i (va + x)),
    (List.range (ceilDiv n 32)).filter fun x => (List.range (min 32 (n - 32 * x))).any fun y => d.marked (d.keyAddr k i (va + 32 * x + y)) 1)

/-- Pages of an ODP key that are not present begin to be resolved (R248, R184). -/
def Dev.odpFault (d : Dev) (q key va len : Nat) : Dev :=
  let i := key / 256
  let d' := d.rmTally q 0x50 1
  d'.each (d.missingPages key va len) fun p d =>
    if d.odpWaits.any fun e => e.1 == i && e.2.1 == p then d
    else
      let d := { d with odpWaits := d.odpWaits ++ [(i, p, d.qpRegion q, d.clk.now)] }
      if keyDram (d.key i) then d else d.requestPage (d.qctx q).fn p (keyPasid (d.key i))

end Sys2Proof.Machine
end

