-- ==== Sys2Proof/Machine/Requester.lean ====
section
/-! DEFINITION. The requester of a transport QP: remote-memory jobs cut into packets, acknowledgements and responses, retransmission, timers and congestion (R233 to R243, R247, R249). -/

namespace Sys2Proof.Machine

open Sys2Proof

/-! ### Packets of a job -/

/-- Number of packets that a message of `n` bytes takes. -/
def packetsFor (n pmtu : Nat) : Nat := max 1 (ceilDiv n pmtu)

/-- Packets not yet acknowledged on every path. -/
def QpCtx.unackedAll (c : QpCtx) : List RmPkt := (c.paths.map (·.unacked)).flatten

/-- Outstanding READ and atomic requests of a QP (R239). -/
def Dev.outstanding (d : Dev) (q : Nat) : Nat :=
  ((d.qpJobs q).filter fun e => e.2.state == .waiting && [0x24, 0x25, 0x26, 0x27].contains e.2.op).length

/-- Packets of a job are not yet acknowledged. -/
def QpCtx.launched (c : QpCtx) (j : Nat) : Bool := c.unackedAll.any fun k => k.job == some j

/-- Messages in flight, from the oldest that is not acknowledged or answered on (R246); READ responses, marked by a response count of 0, are the peer's messages. -/
def Dev.inFlight (d : Dev) (q : Nat) : Nat :=
  let c := d.qctx q
  let sent := (c.unackedAll.filter fun k => k.responses != 0).map fun k => psnDist c.msn k.msn
  let open_ := ((d.qpJobs q).filter fun e => e.2.state == .waiting).map fun e => psnDist c.msn e.2.seq
  (sent ++ open_).foldl max 0

/-- The live path that the next packet takes, in round robin (R243); path 0 without multipath. -/
def QpCtx.nextPath (c : QpCtx) : Nat :=
  if ¬ c.mp then 0
  else
    let n := c.paths.length
    ((List.range n).map fun i => (c.rr + i) % n).find? (fun p => (c.path p).live) |>.getD 0

/-- A path that sends nothing now: in an RNR wait, or before marked data has been read again. -/
def RmPath.waits (x : RmPath) : Bool := x.rnrUntil.isSome || x.again

/-- A packet numbered on a path, remembered until acknowledged, and sent unless the path waits. `bytes` makes it from its PSN. -/
def Dev.rmPush (d : Dev) (q : Nat) (k : RmPkt) (bytes : Nat → List Byte) : Dev :=
  let c := d.qctx q
  let p := c.nextPath
  let psn := (c.path p).next
  let k := { k with psn := psn, bytes := bytes psn, sent := !(c.path p).waits }
  let step := if c.mp then 1 else k.responses
  let now := d.clk.now
  let d := d.updQctx q fun c =>
    { (c.setPath p fun x => { x with next := psnAdd x.next step, unacked := x.unacked ++ [k]
                                     timer := if x.unacked.isEmpty then c.deadline now else x.timer }) with
      rr := (p + 1) % (max 1 c.paths.length) }
  d.onlyIf k.sent fun d => d.rmSend q p k.bytes k.poison

/-- The opcode of a packet of a SEND or WRITE without multipath: first, middle, last or only. -/
def rcOpcode (write imm first last : Bool) : Nat :=
  let b := if write then 6 else 0
  if first && last then b + 4 + natOf imm
  else if first then b
  else if last then b + 2 + natOf imm
  else b + 1

/-- A message of data without multipath (R239): packet `i` of `n`. -/
def dataPacket (c : QpCtx) (x : Job) (n i psn : Nat) : List Byte :=
  let write := x.op == 0x22 || x.op == 0x23
  let imm := x.op == 0x21 || x.op == 0x23
  let (pay, pad) := padPayload (sliceB x.data (i * c.pmtu) (min c.pmtu (x.len - i * c.pmtu)))
  let last := i + 1 == n
  bth (rcOpcode write imm (i == 0) last) pad (c.b 8 3) last psn ++ (if write && i == 0 then reth x.addr2 x.rkey x.len else []) ++
    (if imm && last then beBytes 4 x.imm else []) ++ pay

/-- A placement header (R244). -/
def placement (mop path : Nat) (last first : Bool) (msn keysn place : Nat) : List Byte :=
  beBytes 1 (mop * 32 + path * 4 + natOf last * 2 + natOf first) ++ beBytes 3 msn ++ beBytes 4 keysn ++ beBytes 8 place

/-- A multipath packet of data (R244): packet `i` of `n` of a message. -/
def mpDataPacket (c : QpCtx) (x : Job) (path msn rsn n i psn : Nat) : List Byte :=
  let mop := x.op - 0x20
  let write := 2 ≤ mop
  let (pay, pad) := padPayload (sliceB x.data (i * c.pmtu) (min c.pmtu (x.len - i * c.pmtu)))
  let last := i + 1 == n
  let imm := last && mop % 2 == 1
  bth 0xE0 pad (c.b 8 3) true psn ++
    placement mop path last (i == 0) msn (if write then x.rkey else rsn) (if write then x.addr2 + i * c.pmtu else i * c.pmtu) ++
    (if imm then beBytes 4 x.imm ++ (if write then beBytes 4 rsn else []) else []) ++ pay

/-- A request of one packet: READ, atomic, ATOMIC WRITE or FLUSH, without multipath. -/
def requestPacket (c : QpCtx) (x : Job) (psn : Nat) : List Byte :=
  let dq := c.b 8 3
  match x.op with
  | 0x24 => bth 0x0C 0 dq true psn ++ reth x.addr2 x.rkey x.len
  | 0x25 => bth 0x13 0 dq true psn ++ atomicEth x.addr2 x.rkey x.opb x.opa
  | 0x26 => bth 0x14 0 dq true psn ++ atomicEth x.addr2 x.rkey x.opa 0
  | 0x27 => bth 0x1D 0 dq true psn ++ reth x.addr2 x.rkey 8 ++ leBytes 8 x.opa
  | _ => bth 0x1C 0 dq true psn ++ feth x.plt ++ reth x.addr2 x.rkey x.len

/-- The same request with multipath (R244). -/
def mpRequestPacket (c : QpCtx) (x : Job) (path msn psn : Nat) : List Byte :=
  let h := bth 0xE0 0 (c.b 8 3) true psn
  match x.op with
  | 0x24 => h ++ placement 4 path true true msn 0 0 ++ reth x.addr2 x.rkey x.len
  | 0x25 => h ++ placement 5 path true true msn 0 0 ++ atomicEth x.addr2 x.rkey x.opb x.opa
  | 0x26 => h ++ placement 5 path true true msn 1 0 ++ atomicEth x.addr2 x.rkey x.opa 0
  | 0x27 => h ++ placement 5 path true true msn 2 0 ++ atomicEth x.addr2 x.rkey x.opa 0
  | _ => h ++ placement 6 path true true msn 0 0 ++ feth x.plt ++ reth x.addr2 x.rkey x.len

/-- A message carries data from the local buffer. -/
def Job.carries (x : Job) : Bool := decide (x.op ≤ 0x23)

/-- A message consumes an RX descriptor of the peer, and so takes an RSN (R244). -/
def Job.takesRsn (x : Job) : Bool := x.op == 0x20 || x.op == 0x21 || x.op == 0x23

/-- A job that its windows keep from sending (R239, R246), or a probe that is out (R456). -/
def Dev.rmBlocked (d : Dev) (x : Job) : Bool :=
  let q := x.qpn
  let c := d.qctx q
  let n := if x.carries then packetsFor x.len c.pmtu else 1
  c.paths.any (·.probe) || decide (4096 < c.unackedAll.length + n) ||
    ([0x24, 0x25, 0x26, 0x27].contains x.op && decide (c.ord ≤ d.outstanding q)) || (c.mp && decide (c.b 22 1 ≤ d.inFlight q))

/-- The packets of a job sent (R239, R243, R244), when its windows allow; the job then waits for its acknowledgements and, if it asks for any, its answer (R235). -/
def Dev.rmLaunch (d : Dev) (j : Nat) : Dev :=
  let x := d.job j
  let q := x.qpn
  let c := d.qctx q
  let n := if x.carries then packetsFor x.len c.pmtu else 1
  let resp := if x.op = 0x24 then packetsFor x.len c.pmtu else 1
  if d.rmBlocked x then d.updJob j fun x => { x with state := .ready }
  else
    let msn := c.msn
    let rsn := c.rsn
    let d := d.updJob j fun x => { x with state := .waiting, seq := msn }
    let d := d.updQctx q fun c =>
      { c with msn := psnAdd c.msn 1, rsn := if x.takesRsn then psnAdd c.rsn 1 else c.rsn
               trackers := if c.mp ∧ [0x24, 0x25, 0x26, 0x28].contains x.op then c.trackers ++ [{ msn := msn, mop := 7, job := some j, base := some 0 }]
                 else c.trackers }
    let d := d.each (List.range n) fun i d =>
      let c := d.qctx q
      let path := c.nextPath
      let off := i * c.pmtu
      let size := if x.carries then min c.pmtu (x.len - off) else 0
      d.rmPush q { msn := msn, job := some j, last := i + 1 == n, responses := resp, off := off, size := size, poison := x.carries && x.markedIn off size } fun psn =>
        if c.mp then (if x.carries then mpDataPacket c x path msn rsn n i psn else mpRequestPacket c x path msn psn)
        else if x.carries then dataPacket c x n i psn
        else requestPacket c x psn
    d.rmTally q 0x38 1

/-- The next job of an opcode on a channel that may begin: no earlier job of its transport QP has still to begin (R234), FENCE is satisfied, and its QP's windows allow what it does next; one whose QP is stalled comes behind the others (R249). -/
def Dev.rmNext (d : Dev) (n op : Nat) : Option (Nat × Job) :=
  let l := d.jobsOf n false
  let idle (s : JobAt) : Bool := s == .fetched || s == .ready
  let able := l.filter fun e => e.2.op == op && idle e.2.state &&
    !(l.any fun y => decide (y.1 < e.1) && y.2.qpn == e.2.qpn && (idle y.2.state || y.2.state == .reading)) &&
    !(e.2.flag 3 && decide ((l.headD e).1 ≠ e.1)) && ((e.2.carries && e.2.state == .fetched && e.2.len != 0) || !d.rmBlocked e.2)
  (able.find? fun e => (d.qctx e.2.qpn).stall.isNone).orElse fun _ => able.head?

/-- A remote-memory job begins or goes on (R234, R249): a QP that is not the function's, or not in RTS, gives ACCESS and BAD_QP; a local buffer whose page is not present stalls its QP alone. -/
def Dev.runRm (d : Dev) (n op : Nat) (present : Bool) : Dev :=
  let d := d.rmDrain
  match d.rmNext n op with
  | none => d
  | some (j, x) =>
    let q := x.qpn
    let c := d.qctx q
    if ¬ d.ownsQpn (n / 256) q ∨ c.state ≠ 3 ∨ c.page ≠ n then d.endRm j q 5 0 1
    else if c.bad then d.qpError q 10 (some j) (some 3) 8
    else if x.op = 0x28 ∧ x.plt ≠ 1 ∧ x.plt ≠ 2 then d.endRm j q 5 0 0
    else if ¬ present then
      let d := d.requestPage (n / 256) (x.addr / 4096) ((d.qpPasid n).getD 0)
      if c.stall.isSome then d else d.updQctx q fun c => { c with stall := some (d.clk.now, j) }
    else
      let d := (d.updQctx q fun c => { c with stall := none }).touch (qpctxId q) (d.qpRegion q)
      if ¬ d.canIssue (n / 256) then d.qpError q 8 (some j) (some 5) 8
      else if x.carries ∧ x.state = .fetched ∧ x.len ≠ 0 then d.startRead j
      else d.rmLaunch j

/-- RM_SEND (R233). -/
def execRmSend (fn : Fin 512) (qp : Fin 256) (present : Bool) (s : State) : Out := s.on fun d => d.runRm (256 * fn.val + qp.val) 0x20 present

/-- RM_SEND_IMM (R233). -/
def execRmSendImm (fn : Fin 512) (qp : Fin 256) (present : Bool) (s : State) : Out := s.on fun d => d.runRm (256 * fn.val + qp.val) 0x21 present

/-- RM_WRITE (R233). -/
def execRmWrite (fn : Fin 512) (qp : Fin 256) (present : Bool) (s : State) : Out := s.on fun d => d.runRm (256 * fn.val + qp.val) 0x22 present

/-- RM_WRITE_IMM (R233). -/
def execRmWriteImm (fn : Fin 512) (qp : Fin 256) (present : Bool) (s : State) : Out := s.on fun d => d.runRm (256 * fn.val + qp.val) 0x23 present

/-- RM_READ (R233). -/
def execRmRead (fn : Fin 512) (qp : Fin 256) (present : Bool) (s : State) : Out := s.on fun d => d.runRm (256 * fn.val + qp.val) 0x24 present

/-- RM_CMP_SWAP (R233). -/
def execRmCmpSwap (fn : Fin 512) (qp : Fin 256) (present : Bool) (s : State) : Out := s.on fun d => d.runRm (256 * fn.val + qp.val) 0x25 present

/-- RM_FETCH_ADD (R233). -/
def execRmFetchAdd (fn : Fin 512) (qp : Fin 256) (present : Bool) (s : State) : Out := s.on fun d => d.runRm (256 * fn.val + qp.val) 0x26 present

/-- RM_ATOMIC_WRITE (R233). -/
def execRmAtomicWrite (fn : Fin 512) (qp : Fin 256) (s : State) : Out := s.on fun d => d.runRm (256 * fn.val + qp.val) 0x27 true

/-- RM_FLUSH (R233, R236). -/
def execRmFlush (fn : Fin 512) (qp : Fin 256) (s : State) : Out := s.on fun d => d.runRm (256 * fn.val + qp.val) 0x28 true

/-! ### Retransmission (R239, R241, R247) -/

/-- Every unacknowledged packet of a path sent from the oldest (go-back-N). -/
def Dev.resendNow (d : Dev) (q p : Nat) : Dev :=
  let l := ((d.qctx q).path p).unacked
  let d := d.rmTally q 0x48 (l.filter (·.sent)).length
  let now := d.clk.now
  let d := d.updQctx q fun c => c.setPath p fun x =>
    { x with timer := if l.isEmpty then none else c.deadline now, again := false, unacked := l.map fun (k : RmPkt) => { k with sent := true } }
  d.each l fun k d => d.rmSend q p k.bytes k.poison

/-- Jobs of marked data in a path's unacknowledged packets. -/
def QpCtx.markedJobs (c : QpCtx) (p : Nat) : List Nat :=
  (c.path p).unacked.foldl (fun a k => match k.job with
    | some j => if k.poison then insertNum j a else a
    | none => a) []

/-- The source of a job read again: the host may have overwritten what was marked (R241). -/
def Dev.rereadJob (d : Dev) (j : Nat) : Dev :=
  if (d.job j).state ≠ .waiting then d
  else (d.updJob j fun x => { x with state := .reading, want := 0, got := 0, marks := [] }).askMore j 768

/-- A go-back-N of a path: at once, or once the marked data in it has been read again. -/
def Dev.resend (d : Dev) (q p : Nat) : Dev :=
  let c := d.qctx q
  let js := c.markedJobs p
  if js.isEmpty ∨ ¬ d.canIssue c.fn then d.resendNow q p
  else d.updQctx q (fun c => c.setPath p fun x => { x with again := true, timer := none }) |>.each js fun j d => d.rereadJob j

/-- Paths whose marked data has been read again, or is no longer needed, go back. -/
def Dev.wakePaths (d : Dev) (q : Nat) : Dev :=
  d.each ((List.range (d.qctx q).paths.length).filter fun p => ((d.qctx q).path p).again &&
    !(((d.qctx q).path p).unacked.any fun k => match k.job with
      | some j => (d.job j).state == .reading
      | none => false)) fun p d => d.resendNow q p

/-- A packet of a job with its part of the data as it now stands. -/
def RmPkt.refresh (k : RmPkt) (x : Job) : RmPkt :=
  let h := k.bytes.length - (padPayload (List.replicate k.size 0)).1.length
  { k with bytes := k.bytes.take h ++ (padPayload (sliceB x.data k.off k.size)).1, poison := x.markedIn k.off k.size }

/-- The data of a remote-memory job is here: the job begins, or its packets are renewed and go out again. -/
def Dev.rmData (d : Dev) (j : Nat) : Dev :=
  let x := d.job j
  let q := x.qpn
  if ¬ (d.qctx q).launched j then (d.updJob j fun x => { x with state := .ready }).rmLaunch j
  else
    let d := d.updJob j fun x => { x with state := .waiting }
    (d.updQctx q fun c => { c with paths := c.paths.map fun (p : RmPath) =>
      { p with unacked := p.unacked.map fun (k : RmPkt) => if k.job = some j then k.refresh x else k } }).wakePaths q

/-- The packets of a retired path sent again on the live ones, each with a new PSN of the path it takes (R247). -/
def Dev.movePackets (d : Dev) (q p : Nat) : Dev :=
  let l := ((d.qctx q).path p).unacked
  let d := d.updQctx q fun c => c.setPath p fun x => { x with unacked := [], timer := none, rnrUntil := none, again := false, live := false }
  let d := d.rmTally q 0x48 (l.filter (·.sent)).length
  d.each l fun k d =>
    let path := (d.qctx q).nextPath
    d.rmPush q k fun psn =>
      let b0 := (be k.bytes 12 1) / 32 * 32 + path * 4 + be k.bytes 12 1 % 4
      putBe (putBe k.bytes 9 3 psn) 12 1 b0

/-- A path's retries are used up (R239, R247): it is retired while another lives; the QP fails with its last. -/
def Dev.pathLost (d : Dev) (q p : Nat) : Dev :=
  let c := d.qctx q
  if ¬ c.mp then d.qpError q 5 none none 8
  else
    let d := (d.rmCount q 8).updQctx q fun c => (c.setPath p fun x => { x with live := false }).put 21 1 (withBit (c.b 21 1) p false)
    if (d.qctx q).paths.any (·.live) then d.movePackets q p else d.qpError q 9 none none 8

/-- One retry used, and the path's packets sent again (R239). -/
def Dev.retryPath (d : Dev) (q p : Nat) : Dev :=
  let x := (d.qctx q).path p
  if x.retries = 0 then d.pathLost q p
  else (d.updQctx q fun c => c.setPath p fun x => { x with retries := x.retries - 1 }).resend q p

/-- ACK_TIMEOUT (R239): the local ACK timer of a path runs out. -/
def execAckTimeout (qpn : Fin 16777216) (path : Fin 8) (s : State) : Out := s.on fun d =>
  let c := d.qctx qpn.val
  let x := c.path path.val
  match x.timer with
  | some t => if (c.state = 2 ∨ c.state = 3) ∧ ¬ x.unacked.isEmpty ∧ ¬ x.waits then
      (((d.rmDrain.advanceTo t).rmCount qpn.val 4).retryPath qpn.val path.val) else d
  | none => d

/-- The time in cycles that an RNR NAK timer code names (InfiniBand, 10 µs units). -/
def rnrCycles (code : Nat) : Nat :=
  cyclesOfUs (10 * ([65536, 1, 2, 3, 4, 6, 8, 12, 16, 24, 32, 48, 64, 96, 128, 192, 256, 384, 512, 768, 1024, 1536, 2048, 3072, 4096, 6144, 8192,
    12288, 16384, 24576, 32768, 49152].getD (code % 32) 1))

/-- RNR_TIMER_EXPIRY (R239, R243): the first wait of a QP that an RNR NAK named ends, and the unacknowledged packets of its path are sent again. -/
def execRnrTimerExpiry (qpn : Fin 16777216) (s : State) : Out := s.on fun d =>
  let q := qpn.val
  let l := (d.qctx q).paths.filterMap (·.rnrUntil)
  match l with
  | [] => d
  | t :: rest =>
    let t := rest.foldl min t
    let d := d.rmDrain.advanceTo t
    let due := (List.range (d.qctx q).paths.length).filter fun p => match ((d.qctx q).path p).rnrUntil with
      | some u => decide (u ≤ t)
      | none => false
    d.each due fun p d => (d.updQctx q fun c => c.setPath p fun x => { x with rnrUntil := none }).resend q p

/-- LOCAL_PAGE_FAULT_TIMEOUT (R249): a stall on a local page has lasted 100 ms. -/
def execLocalPageFaultTimeout (qpn : Fin 16777216) (s : State) : Out := s.on fun d =>
  match (d.qctx qpn.val).stall with
  | none => d
  | some (t, j) => (d.advanceTo (t + cyclesOfMs 100)).qpError qpn.val 7 (some j) (some 5) 9

/-- The probe of R456 on each path: a zero-length WRITE, 2^22 beyond the last acknowledged PSN. -/
def Dev.probePaths (d : Dev) (q : Nat) : Dev :=
  let c := d.qctx q
  let now := d.clk.now
  d.each ((List.range c.paths.length).filter fun p => (c.path p).live) fun p d =>
    let psn := psnAdd ((c.path p).next + 2 ^ 24 - 1) (2 ^ 22)
    let bytes := if c.mp then bth 0xE0 0 (c.b 8 3) true psn ++ placement 2 p true true c.msn 0 0 else bth 0x0A 0 (c.b 8 3) true psn ++ reth 0 0 0
    let d := d.updQctx q fun c => c.setPath p fun x =>
      { x with unacked := [{ psn := psn, msn := c.msn, bytes := bytes, sent := true }], probe := true, timer := c.deadline now, retries := c.retry }
    d.rmSend q p bytes false

/-! ### Capsules of the storage engine (R253) -/

/-- A message of a capsule, as a SEND. -/
def capsuleJob (bs : List Byte) : Job := { desc := leBytes 1 0x20 ++ leBytes 3 0 ++ leBytes 4 bs.length ++ List.replicate 56 0, data := bs }

/-- Capsules that wait on a QP sent, as far as its windows allow: each one SEND message without a job. -/
def Dev.sendCapsules (d : Dev) (q : Nat) : Nat → Dev
  | 0 => d
  | k + 1 =>
    let c := d.qctx q
    match c.capsules with
    | [] => d
    | bs :: rest =>
      let x := capsuleJob bs
      let n := packetsFor bs.length c.pmtu
      if c.paths.any (·.probe) ∨ 4096 < c.unackedAll.length + n ∨ (c.mp ∧ c.b 22 1 ≤ d.inFlight q) then d
      else
        let msn := c.msn
        let rsn := c.rsn
        let d := d.updQctx q fun c => { c with capsules := rest, msn := psnAdd c.msn 1, rsn := psnAdd c.rsn 1 }
        let d := d.each (List.range n) fun i d =>
          let c := d.qctx q
          let path := c.nextPath
          d.rmPush q { msn := msn, last := i + 1 == n } fun psn => if c.mp then mpDataPacket c x path msn rsn n i psn else dataPacket c x n i psn
        (d.rmTally q 0x38 1).sendCapsules q k

/-- A capsule for a QP, behind those that wait. -/
def Dev.pushCapsule (d : Dev) (q : Nat) (bs : List Byte) : Dev :=
  (d.updQctx q fun c => { c with capsules := c.capsules ++ [bs] }).sendCapsules q ((d.qctx q).capsules.length + 1)

/-! ### Acknowledgements and responses (R235, R239, R240) -/

/-- A job of the QP is complete once none of its packets is unacknowledged and its data, if it asked for any, has arrived (R235). -/
def Dev.settleRm (d : Dev) (q j : Nat) : Dev :=
  let x := d.job j
  let c := d.qctx q
  let open_ := c.launched j || c.trackers.any fun t => t.mop == 7 && t.job == some j
  if (x.state = .waiting ∨ x.state = .reading) ∧ ¬ open_ then d.endRm j q 0 (if x.op = 0x27 then 8 else x.len) 0 else d

/-- Packets of a path up to a PSN are acknowledged (a READ or an atomic only by its own response): progress renews the retries, and the jobs they end are settled. -/
def Dev.ackUpTo (d : Dev) (q p psn : Nat) (incl : Bool) : Dev :=
  let c := d.qctx q
  let below (k : RmPkt) : Bool := let e := if incl then psnAdd psn 1 else psn; decide (psnDist e k.psn ≠ 0 ∧ psnDist e k.psn < 2 ^ 23)
  let answered (k : RmPkt) : Bool := !c.mp && match k.job with
    | some j => [0x24, 0x25, 0x26, 0x27, 0x28].contains (d.job j).op
    | none => false
  let now := d.clk.now
  let l := (c.path p).unacked
  let done := l.takeWhile fun k => below k && !answered k
  if done.isEmpty then d
  else
    let rest := l.drop done.length
    let d := d.updQctx q fun c => c.setPath p fun x =>
      { x with unacked := rest, retries := c.retry, rnrLeft := c.b 15 1 % 8, timer := if rest.isEmpty then none else c.deadline now }
    let d := (d.each (done.filterMap (·.job)) fun j d => d.settleRm q j).wakePaths q
    d.sendCapsules q (d.qctx q).capsules.length

/-- The job of the packet of a path that a NAK names, else of the oldest one that is not acknowledged. -/
def QpCtx.nakedJob (c : QpCtx) (p psn : Nat) : Option Nat :=
  (((c.path p).unacked.find? fun k => k.psn == psn).orElse fun _ => (c.path p).unacked.head?).bind (·.job)

/-- An AETH received for a path (R239, R240, R456): acknowledgement, RNR NAK or NAK; a sequence NAK that answers a probe gives the PSN to go on from. -/
def Dev.onAeth (d : Dev) (q p psn syndrome : Nat) : Dev :=
  match syndrome / 32 with
  | 0 => (d.updQctx q fun c => c.setPath p fun x => { x with probe := false }).ackUpTo q p psn true
  | 1 =>
    let d := (d.ackUpTo q p psn false).rmCount q 3
    let c := d.qctx q
    let x := c.path p
    if x.unacked.isEmpty then d
    else if c.b 15 1 % 8 ≠ 7 ∧ x.rnrLeft = 0 then d.qpError q 6 (x.unacked.head?.bind (·.job)) none 8
    else
      let until_ := d.clk.now + rnrCycles syndrome
      d.updQctx q fun c => c.setPath p fun x => { x with rnrLeft := x.rnrLeft - 1, rnrUntil := some until_ }
  | 3 =>
    if ((d.qctx q).path p).probe ∧ syndrome % 32 = 0 then
      d.updQctx q fun c => c.setPath p fun x => { x with probe := false, next := psn, unacked := [], timer := none, retries := c.retry }
    else
    let d := d.ackUpTo q p psn false
    let j := (d.qctx q).nakedJob p psn
    match syndrome % 32 with
    | 0 => if ((d.qctx q).path p).unacked.isEmpty then d else d.retryPath q p
    | 1 => d.qpError q 3 j (some 5) 8
    | 2 => d.qpError q 2 j (some 5) 8
    | _ => d.qpError q 4 j (some 5) 8
  | _ => d

/-- The oldest packet of path 0, which a response must answer. -/
def QpCtx.head (c : QpCtx) : Option RmPkt := (c.path 0).unacked.head?

/-- A response that answers the oldest request: it leaves the list, and its job is settled. -/
def Dev.answered (d : Dev) (q : Nat) (k : RmPkt) : Dev :=
  let rest := ((d.qctx q).path 0).unacked.drop 1
  let now := d.clk.now
  let d := d.updQctx q fun c => c.setPath 0 fun x =>
    { x with unacked := rest, retries := c.retry, rnrLeft := c.b 15 1 % 8, timer := if rest.isEmpty then none else c.deadline now }
  match k.job with
  | some j => let d := (d.settleRm q j).wakePaths q; d.sendCapsules q (d.qctx q).capsules.length
  | none => d

/-- Data of a response written to the job's local buffer (R235). -/
def Dev.localWrite (d : Dev) (q j off : Nat) (bs : List Byte) : Dev :=
  let x := d.job j
  if ¬ d.canIssue x.fn then d.qpError q 8 (some j) (some 5) 8 else d.dmaWrite x.fn (x.addr + off) (d.qpPasid x.page) bs false

/-- The payload of a transport packet from an offset on, its padding removed. -/
def ibPayload (ib : List Byte) (o : Nat) : List Byte := (ib.drop o).take (ib.length - o - be ib 1 1 / 16 % 4)

/-- A READ response packet (R235, R239): it must be the next that the oldest request expects; a gap means a lost packet. -/
def Dev.onReadResponse (d : Dev) (q psn op : Nat) (ib : List Byte) : Dev :=
  let c := d.qctx q
  match c.head with
  | none => d
  | some k =>
    let j := k.job.getD 0
    let x := d.job j
    let i := psnDist psn k.psn
    if 2 ^ 23 ≤ i then d
    else if i ≠ x.hash ∨ k.responses ≤ i then
      if x.op = 0x24 ∧ i < x.hash then d else (d.ackUpTo q 0 psn false).retryPath q 0
    else
      let bs := ibPayload ib (if op = 0x0E then 12 else 16)
      let d := if x.op = 0x24 then d.localWrite q j (i * c.pmtu) bs else d
      if (d.qctx q).state ≠ 3 then d
      else if i + 1 = k.responses then (d.updJob j fun x => { x with hash := 0 }).answered q k
      else d.updJob j fun x => { x with hash := i + 1 }

/-- The original value of an atomic (R235). -/
def Dev.onAtomicAck (d : Dev) (q psn : Nat) (ib : List Byte) : Dev :=
  match (d.qctx q).head with
  | none => d
  | some k =>
    if k.psn ≠ psn then (if psnDist psn k.psn < 2 ^ 23 then d.retryPath q 0 else d)
    else
      let d := d.localWrite q (k.job.getD 0) 0 (leBytes 8 (be ib 16 8))
      if (d.qctx q).state ≠ 3 then d else d.answered q k

/-- The class of a transport packet's opcode: 1 request, 2 response, 3 MP_DATA, 4 MP_ACK, 5 CNP, 0 none of them. -/
def opClass (op : Nat) : Nat :=
  if op = 0xE0 then 3 else if op = 0xE1 then 4 else if op = 0x81 then 5
  else if 0x0D ≤ op ∧ op ≤ 0x12 then 2
  else if op ≤ 0x0C ∨ op = 0x13 ∨ op = 0x14 ∨ op = 0x1C ∨ op = 0x1D then 1 else 0

/-- A QP that receives: in RTR or RTS. -/
def Dev.qpHears (d : Dev) (q : Nat) : Bool := let c := d.qctx q; c.state == 2 || c.state == 3

/-- The region whose engine takes a packet: that of the QP it names (R228), for one that names no QP in use the region of its queue. -/
def Dev.engineOf (d : Dev) (r id : Nat) : Nat :=
  match roceOf (d.pkt id).bytes with
  | some (ib, _) => if d.qpHears (be ib 5 3) then d.qpRegion (be ib 5 3) else r
  | none => r

/-- The first packet that a transport engine takes (R228, R229), with its transport packet if it is one: of its own region's queue, then of the others'. -/
def Dev.enginePacket (d : Dev) (r : Nat) : Option (Nat × Option (List Byte × Bool)) :=
  (([r] ++ (List.range 4).filter (· != r)).findSome? fun x => (d.poolQ.at [] (64 * x + 63)).find? fun id => d.engineOf x id == r).map fun id =>
    (id, roceOf (d.pkt id).bytes)

/-- It leaves its queue and is released. -/
def Dev.engineTake (d : Dev) (id : Nat) : Dev :=
  ({ d with poolQ := d.poolQ.upd [] (64 * (d.pkt id).region + 63) (·.erase id) }).freePkt id

/-- A packet that has to wait lets the other QPs' packets of its queue pass (R228): those of its QP go behind them, in their order. -/
def Dev.enginePass (d : Dev) (id q : Nat) : Dev :=
  let mine (i : Nat) : Bool := match roceOf (d.pkt i).bytes with
    | some (ib, _) => be ib 5 3 == q
    | none => false
  { d with poolQ := d.poolQ.upd [] (64 * (d.pkt id).region + 63) fun l => l.filter (fun i => !mine i) ++ l.filter mine }

/-! ### Congestion (R242) -/

/-- The rate of the port by which a QP's packets leave, in Mb/s; before the first has left, a free value. -/
def Dev.portMbps (d : Dev) (q : Nat) : Nat :=
  match (d.qctx q).port with
  | some p => d.portSpeed p * 1000
  | none => Config.startRate q

/-- A CNP sent for a packet that ECN marked, at most once per CNP_US, by a QP that may send (R240, R242). -/
def Dev.congestion (d : Dev) (q : Nat) (ce : Bool) : Dev :=
  let c := d.qctx q
  let due : Bool := match c.cnpAt with
    | none => true
    | some t => decide (t + cyclesOfUs (d.fld F.RMA_CC_CNP_US) ≤ d.clk.now)
  if ¬ ce ∨ ¬ due ∨ ¬ d.qpHears q then d
  else
    let now := d.clk.now
    ((d.updQctx q fun c => { c with cnpAt := some now }).rmCount q 9).rmSend q 0 (bth 0x81 0 (c.b 8 3) false 0 ++ List.replicate 16 0) false

/-- CNP_RECEIVE (R242): the send rate is halved, to no less than RATE_MIN. -/
def execCnpReceive (region : Fin 4) (s : State) : Out := s.on fun d =>
  match d.enginePacket region.val with
  | some (id, some (ib, _)) =>
    let q := be ib 5 3
    if opClass (be ib 0 1) ≠ 5 then d
    else
      let d := d.rmDrain.engineTake id
      if (d.qctx q).state ≠ 3 then d
      else
        let d := d.rmCount q 10
        if ¬ d.flag F.RMA_CC_EN then d
        else
          let c := d.qctx q
          let now := if c.rate = 0 then d.portMbps q else c.rate
          d.updQctx q fun c => { c with rate := max (d.fld F.RMA_CC_RATE_MIN) (now / 2), cnpSeen := true }
  | _ => d

/-- At a span boundary every QP that has heard no CNP gains RATE_AI, up to the port's rate, which a QP that has never been slowed keeps (R242). -/
def Dev.recoverRates (d : Dev) : Dev :=
  { d with qpctxs := d.qpctxs.map fun e =>
      (e.1, { e.2 with cnpSeen := false, rate := if e.2.cnpSeen ∨ e.2.rate = 0 then e.2.rate else min (d.portMbps e.1) (e.2.rate + d.fld F.RMA_CC_RATE_AI) }) }

/-! ### Responses received (R239, R243) -/

/-- RDMA_RESPONSE_RECEIVE (R239, R242, R243): the first packet of a transport engine, when it is an acknowledgement or a response; with multipath an acknowledgement names its path. -/
def execRdmaResponseReceive (region : Fin 4) (s : State) : Out := s.on fun d =>
  match d.enginePacket region.val with
  | some (id, some (ib, ce)) =>
    let op := be ib 0 1
    let q := be ib 5 3
    let psn := be ib 9 3
    if opClass op ≠ 2 ∧ opClass op ≠ 4 then d
    else
      let d := (d.rmDrain.engineTake id).touch (qpctxId q) (d.qpRegion q)
      let c := d.qctx q
      if ¬ d.qpHears q then d
      else if c.bad then d.qpError q 10 none (some 3) 8
      else
        let d := d.congestion q ce
        if c.mp then (if op = 0xE1 then d.onAeth q (be ib 8 1 % 8) psn (be ib 12 1) else d)
        else if c.state ≠ 3 then d
        else
          match op with
          | 0x11 => d.onAeth q 0 psn (be ib 12 1)
          | 0x12 => d.onAtomicAck q psn ib
          | 0xE1 => d
          | _ => d.onReadResponse q psn op ib
  | _ => d

end Sys2Proof.Machine
end

