-- ==== Sys2Proof/Machine/Responder.lean ====
section
/-! DEFINITION. The responder of a transport QP, with and without multipath, and on-demand paging (R226, R232, R236 to R248). -/

namespace Sys2Proof.Machine

open Sys2Proof

/-! ### Acknowledgements and refusals -/

/-- An acknowledgement or NAK sent for a path: opcode 0x11, or with multipath 0xE1 with the path in the reserved low bits of byte 8 of the BTH (R243). DESIGN CHOICE (the bits), entry 58. -/
def Dev.sendAckNow (d : Dev) (q p psn syndrome : Nat) : Dev :=
  let c := d.qctx q
  let h := bth (if c.mp then 0xE1 else 0x11) 0 (c.b 8 3) false psn
  d.rmSend q p ((if c.mp then putBe h 8 1 p else h) ++ aeth syndrome c.rmsn) false

/-- The same in its turn: behind the answers that a QP of the base transport still owes (R239); a positive one stands for those before it. -/
def Dev.sendAck (d : Dev) (q p psn syndrome : Nat) : Dev :=
  let c := d.qctx q
  if c.mp ∨ c.answers.isEmpty then d.sendAckNow q p psn syndrome
  else
    let positive : Option RmOwed → Bool
      | some (.ack _ s) => s == 0x1F
      | _ => false
    let l := if syndrome = 0x1F ∧ positive c.answers.getLast? then c.answers.dropLast else c.answers
    d.updQctx q fun c => { c with answers := l ++ [.ack psn syndrome] }

/-- Positive acknowledgement without a credit count. -/
def Dev.ackPsn (d : Dev) (q p psn : Nat) : Dev := d.sendAck q p psn 0x1F

/-- The outcome of a failed check of R232: which check, and what the requester is told. Check 8 stands for a target that the function may not reach (R182): a remote operational error. DEDUCED, entry 215. -/
def Dev.refuseNow (d : Dev) (q p psn check key va len : Nat) : Dev :=
  match check with
  | 5 => d.sendAckNow q p psn 0x61
  | 6 => d.sendAckNow q p psn 0x61
  | 7 => ((d.odpFault q key va len).rmCount q 2).sendAckNow q p psn (0x20 + max 1 (d.fld F.RMA_CFG_MIN_RNR))
  | 8 => d.sendAckNow q p psn 0x63
  | _ => (((d.rmCount q 1).qpToError q).sendAckNow q p psn 0x62).fnEvent (d.qctx q).fn 7 q (key + check * 2 ^ 32)

/-- The same in its turn. -/
def Dev.refuseRm (d : Dev) (q p psn check key va len : Nat) : Dev :=
  let c := d.qctx q
  if c.mp ∨ c.answers.isEmpty then d.refuseNow q p psn check key va len
  else d.updQctx q fun c => { c with answers := c.answers ++ [.refuse p psn check key va len] }

/-- The receive completion of a message (R237, R238): kind 0 SEND, 1 with immediate, 3 WRITE with immediate. -/
def Dev.rxMessage (d : Dev) (q j mop bytes : Nat) (imm : Option Nat) : Dev :=
  let mp := (d.qctx q).mp
  d.updJob j fun x => { x with state := .done, status := 0, bytes := bytes, detail := rmDetail imm q (0x20 + mop) 0 mp }

/-! ### Receive descriptors -/

/-- What a message finds on its channel's receive queue: a descriptor bound to it, none posted, or one posted and not yet read. -/
inductive RxBind where
  | bound (j : Nat)
  | empty
  | unread
  deriving DecidableEq, Repr

/-- The receive job that the next message takes, and is then kept for it. -/
def Dev.bindRx (d : Dev) (n : Nat) : Dev × RxBind :=
  match d.rxNext n with
  | some j => (d.takeRx n j .waiting, .bound j)
  | none => (d, if d.rqEmpty n then .empty else .unread)

/-- An RNR NAK for want of a descriptor. -/
def Dev.rnrNak (d : Dev) (q p psn : Nat) : Dev :=
  (d.rmCount q 2).sendAck q p psn (0x20 + max 1 (d.fld F.RMA_CFG_MIN_RNR))

/-- Bytes of a message placed in its receive buffer at an offset. -/
def Dev.rxPlace (d : Dev) (q j off : Nat) (bs : List Byte) : Dev :=
  let x := d.job j
  d.dmaWrite x.fn (x.addr + off) (d.qpPasid (d.qctx q).page) bs false

/-! ### READ, atomics and FLUSH (R226, R235, R236) -/

/-- A part of an answer's data has a marked flit. -/
def marksIn (marks : List Nat) (o n : Nat) : Bool := n != 0 && marks.any fun i => decide (32 * i < o + n ∧ o < 32 * i + 32)

/-- READ responses without multipath, as many as the data takes. -/
def Dev.sendReadResponses (d : Dev) (q psn : Nat) (bs : List Byte) (marks : List Nat) : Dev :=
  let c := d.qctx q
  let n := packetsFor bs.length c.pmtu
  d.each (List.range n) fun i d =>
    let size := min c.pmtu (bs.length - i * c.pmtu)
    let (pay, pad) := padPayload (sliceB bs (i * c.pmtu) size)
    let op := if n = 1 then 0x10 else if i = 0 then 0x0D else if i + 1 = n then 0x0F else 0x0E
    d.rmSend q 0 (bth op pad (c.b 8 3) false (psnAdd psn i) ++ (if op = 0x0E then [] else aeth 0x1F c.rmsn) ++ pay) (marksIn marks (i * c.pmtu) size)

/-- READ responses with multipath (R243, R244): each on the next live path. -/
def Dev.sendMpResponses (d : Dev) (q msn : Nat) (bs : List Byte) (marks : List Nat) : Dev :=
  let c := d.qctx q
  let n := packetsFor bs.length c.pmtu
  d.each (List.range n) fun i d =>
    let path := (d.qctx q).nextPath
    let size := min c.pmtu (bs.length - i * c.pmtu)
    let (pay, pad) := padPayload (sliceB bs (i * c.pmtu) size)
    d.rmPush q { msn := msn, responses := 0, poison := marksIn marks (i * c.pmtu) size } fun psn =>
      bth 0xE0 pad (c.b 8 3) true psn ++ placement 7 path (i + 1 == n) (i == 0) msn 0 (i * c.pmtu) ++ pay

/-- An atomic's answer without multipath. -/
def Dev.sendAtomicAck (d : Dev) (q psn : Nat) (bs : List Byte) (mark : Bool) : Dev :=
  let c := d.qctx q
  d.rmSend q 0 (bth 0x12 0 (c.b 8 3) false psn ++ aeth 0x1F c.rmsn ++ bs) mark

/-- The new value of an atomic: kind 0 compare and swap, 1 fetch and add, 2 atomic write. -/
def atomicNew (kind old swapAdd cmp : Nat) : Nat :=
  match kind with
  | 0 => if old = cmp then swapAdd else old
  | 1 => (old + swapAdd) % 2 ^ 64
  | _ => swapAdd

/-- What a request asks of a key: access, address, key, length, persistence. -/
structure RmAsk where
  acc : Nat
  va : Nat
  key : Nat
  len : Nat
  persist : Bool
  deriving DecidableEq, Repr

/-- The request in a transport packet from an offset on: kind 4 READ, 5 atomic, 6 FLUSH, 8 ATOMIC WRITE of the base transport. -/
def askOf (kind o : Nat) (ib : List Byte) : RmAsk :=
  match kind with
  | 4 => ⟨0, be ib o 8, be ib (o + 8) 4, be ib (o + 12) 4, false⟩
  | 5 => ⟨2, be ib o 8, be ib (o + 8) 4, 8, false⟩
  | 6 => ⟨3, be ib (o + 4) 8, be ib (o + 12) 4, be ib (o + 16) 4, be ib o 4 % 16 == 2⟩
  | _ => ⟨2, be ib o 8, be ib (o + 8) 4, 8, false⟩

def RmAns.at_ (a : RmAns) : Nat := if a.mp then 28 else 12
def RmAns.ask (a : RmAns) : RmAsk := askOf a.kind a.at_ a.ib

/-- What an answer comes to: sent, waiting for host memory, or the number of the check that it fails. -/
inductive Answered where
  | done (d : Dev)
  | waits (d : Dev)
  | fails (check : Nat)
  deriving DecidableEq, Repr

/-- The answer that a QP is at changed. -/
def Dev.updAns (d : Dev) (q : Nat) (f : RmAns → RmAns) : Dev :=
  d.updQctx q fun c => { c with answers := match c.answers with
    | .request a :: rest => .request (f a) :: rest
    | l => l }

/-- Reads of host memory for an answer, as far as the link has room (R185), each up to the next multiple of Max_Read_Request_Size; a translation that is not yet known is asked for (R183). The answer's data at the host address `ha` is `len` bytes long. -/
def Dev.askAns (d : Dev) (q ha len : Nat) (wr : Bool) (a : RmAns) : Nat → Answered
  | 0 => .waits (d.updAns q fun _ => a)
  | k + 1 =>
    let f := (d.qctx q).fn
    let w := ha + a.want
    let n := min (len - a.want) (d.readMax f - w % d.readMax f)
    if len ≤ a.want ∨ ¬ d.readRoom f then .waits (d.updAns q fun _ => a)
    else
      match d.hostAddress f w (d.keyTlp q a.image) (keyAt a.image) wr with
      | .fails => .fails 3
      | .asks g p pasid => .waits ((d.updAns q fun _ => a).askPage g p pasid)
      | .goes g x tlp => (d.sendRead g x n tlp (.answer q a.number a.want)).askAns q ha len wr { a with want := a.want + n } k

/-- Another QP's atomic is between its read and its write of the same host address. -/
def Dev.atomicBusy (d : Dev) (q : Nat) (a : RmAns) : Bool :=
  d.qpctxs.any fun e => e.1 != q && match e.2.answers.head? with
    | some (.request b) => b.kind == 5 && b.want != 0 && e.2.fn == (d.qctx q).fn && !keyDram b.image && keyPlain b.image b.ask.va == keyPlain a.image a.ask.va
    | _ => false

/-- The data that a READ or an atomic needs: there, with its marks, or on its way from host memory. -/
def Dev.ansData (d : Dev) (q : Nat) (a : RmAns) : Answered ⊕ (List Byte × List Nat) :=
  let x := a.ask
  if keyDram a.image then .inr (d.keyData a.image (x.key / 256) x.va x.len)
  else if x.len ≤ a.got then .inr (a.data, a.marks)
  else if ¬ d.canIssue (d.qctx q).fn then .inl (.fails 8)
  else if a.kind = 5 ∧ a.want = 0 ∧ d.atomicBusy q a then .inl (.waits d)
  else
    let a := if a.number = 0 then { a with number := d.nextJob, data := List.replicate x.len 0 } else a
    let d := if a.number = d.nextJob then { d with nextJob := d.nextJob + 1 } else d
    .inl (d.askAns q (keyPlain a.image x.va) x.len (a.kind == 5) a 768)

/-- A READ or atomic answered with data. -/
def Dev.ansSend (d : Dev) (q : Nat) (a : RmAns) (bs : List Byte) (marks : List Nat) : Answered :=
  let x := a.ask
  if a.kind = 4 then .done (if a.mp then d.sendMpResponses q a.msn bs marks else d.sendReadResponses q a.psn bs marks)
  else
    let v := leVal bs
    let o := a.at_
    let mark := !marks.isEmpty
    match d.keyPlace q a.image (x.key / 256) x.va (leBytes 8 (atomicNew a.sub v (be a.ib (o + 12) 8) (be a.ib (o + 20) 8))) mark with
    | .fails c => .fails c
    | .waits d => .waits d
    | .done d =>
      if a.mp then .done (d.sendMpResponses q a.msn (beBytes 8 v) marks)
      else
        let n := (d.qctx q).ird
        .done ((d.updQctx q fun c => { c with atomics := ((a.psn, v) :: c.atomics).take n }).sendAtomicAck q a.psn (beBytes 8 v) mark)

/-- A FLUSH performed: with host memory a zero-length read of the function follows its writes to the target, and the answer follows the read (R236). -/
def Dev.ansFlush (d : Dev) (q : Nat) (a : RmAns) : Answered :=
  let x := a.ask
  if keyDram a.image ∨ a.got ≠ 0 then .done (if a.mp then d.sendMpResponses q a.msn [] [] else d.sendReadResponses q a.psn [] [])
  else
    let f := (d.qctx q).fn
    if ¬ d.canIssue f then .fails 8
    else if a.number ≠ 0 ∨ ¬ d.readRoom f then .waits d
    else
      match d.hostAddress f (keyPlain a.image x.va) (d.keyTlp q a.image) (keyAt a.image) false with
      | .fails => .fails 3
      | .asks g p pasid => .waits (d.askPage g p pasid)
      | .goes g y tlp =>
        let n := d.nextJob
        .waits (({ d with nextJob := n + 1 }.updAns q fun a => { a with number := n }).sendRead g y 0 tlp (.answer q n 0))

/-- An ATOMIC WRITE performed: acknowledged without data on the base transport, by MP_ACK alone with multipath. -/
def Dev.ansWrite (d : Dev) (q : Nat) (a : RmAns) : Answered :=
  let x := a.ask
  let bs := if a.mp then leBytes 8 (be a.ib (a.at_ + 12) 8) else sliceB a.ib (a.at_ + 16) 8
  match d.keyPlace q a.image (x.key / 256) x.va bs false with
  | .fails c => .fails c
  | .waits d => .waits d
  | .done d => .done (if a.mp then d else d.sendReadResponses q a.psn [] [])

/-- The next step of an answer. Kind 7 answers a duplicate of an atomic once more with its result, or of an ATOMIC WRITE without data. -/
def Dev.answerStep (d : Dev) (q : Nat) (a : RmAns) : Answered :=
  match a.kind with
  | 6 => d.ansFlush q a
  | 7 => .done (if a.data.isEmpty then d.sendReadResponses q a.psn [] [] else d.sendAtomicAck q a.psn a.data false)
  | 8 => d.ansWrite q a
  | _ =>
    if a.kind = 5 ∧ a.sub = 2 then d.ansWrite q a
    else
      match d.ansData q a with
      | .inl r => r
      | .inr (bs, marks) => d.ansSend q a bs marks

/-- Kind of a request by opcode: 0 SEND, 2 WRITE, and as `askOf`; with immediate or not, first, last. -/
def rcKind (op : Nat) : Nat × Bool × Bool × Bool :=
  match op with
  | 0 => (0, false, true, false)
  | 1 => (0, false, false, false)
  | 2 => (0, false, false, true)
  | 3 => (0, true, false, true)
  | 4 => (0, false, true, true)
  | 5 => (0, true, true, true)
  | 6 => (2, false, true, false)
  | 7 => (2, false, false, false)
  | 8 => (2, false, false, true)
  | 9 => (2, true, false, true)
  | 10 => (2, false, true, true)
  | 11 => (2, true, true, true)
  | 12 => (4, false, true, true)
  | 0x13 => (5, false, true, true)
  | 0x14 => (5, false, true, true)
  | 0x1C => (6, false, true, true)
  | _ => (8, false, true, true)

/-- The expected PSN of path 0 moves past a request, and a message that ends raises the MSN. -/
def Dev.passPsn (d : Dev) (q step : Nat) (ends : Bool) : Dev :=
  d.updQctx q fun c =>
    { (c.setPath 0 fun x => { x with expect := psnAdd x.expect step, nakSent := false }) with rmsn := if ends then psnAdd c.rmsn 1 else c.rmsn }

/-- What a packet in order comes to: handled, with whether the path's sequence moves past it, or waiting for a descriptor to be read or a translation. -/
inductive RxStep where
  | done (d : Dev) (passes : Bool)
  | waits (d : Dev)
  deriving DecidableEq, Repr

/-- A SEND packet in order: the descriptor is bound with the first, checked for size, and completed with the last (R232 check 6, R237). -/
def Dev.rcSend (d : Dev) (q psn : Nat) (imm first last ack : Bool) (ib : List Byte) : RxStep :=
  let c := d.qctx q
  let n := c.page
  let bs := ibPayload ib (if imm then 16 else 12)
  let (d, b) : Dev × RxBind := if first then d.bindRx n else (d, match c.trackers.head?.bind (·.job) with
    | some j => .bound j
    | none => .empty)
  match b with
  | .unread => .waits d
  | .empty => .done (if first then d.rnrNak q 0 psn else d.refuseRm q 0 psn 6 0 0 0) false
  | .bound j =>
    let off := if first then 0 else (c.trackers.headD {}).bytes
    if (d.job j).len < off + bs.length then .done (((d.dropJobs [j]).updQctx q fun c => { c with trackers := [] }).refuseRm q 0 psn 6 0 0 0) false
    else if ¬ bs.isEmpty ∧ ¬ d.canIssue c.fn then .done (((d.dropJobs [j]).updQctx q fun c => { c with trackers := [] }).refuseRm q 0 psn 8 0 0 0) false
    else
      let d := d.rxPlace q j off bs
      let d := d.updQctx q fun c => { c with trackers := if last then [] else [{ mop := 0, job := some j, bytes := off + bs.length }] }
      let d := d.passPsn q 1 last
      let d := if last then (d.rxMessage q j (natOf imm) (off + bs.length) (if imm then some (be ib 12 4) else none)).rmTally q 0x40 1 else d
      .done (if ack then d.ackPsn q 0 psn else d) true

/-- A WRITE packet in order (R232, R237): checks 1 to 5, then for an immediate the descriptor, then the pages. The base transport tells that a WRITE takes a descriptor by its last packet alone, which binds it. DEDUCED, entry 216. -/
def Dev.rcWrite (d : Dev) (q psn : Nat) (imm first last ack : Bool) (ib : List Byte) : RxStep :=
  let c := d.qctx q
  let t := c.trackers.headD {}
  let o := (if first then 28 else 12)
  let bs := ibPayload ib (o + 4 * natOf imm)
  let va := if first then be ib 12 8 else t.va
  let key := if first then be ib 20 4 else t.key
  match d.keyFails q key 1 va bs.length false with
  | some k => .done (d.refuseRm q 0 psn k key va bs.length) false
  | none =>
    if imm ∧ (d.rxNext c.page).isNone then (if d.rqEmpty c.page then .done (d.rnrNak q 0 psn) false else .waits d)
    else if ¬ (d.missingPages key va bs.length).isEmpty then .done (d.refuseRm q 0 psn 7 key va bs.length) false
    else
      match d.keyPlace q (d.key (key / 256)) (key / 256) va bs false with
      | .fails k => .done (d.refuseRm q 0 psn k key va bs.length) false
      | .waits d => .waits d
      | .done d =>
        let (d, b) : Dev × RxBind := if imm then d.bindRx c.page else (d, .empty)
        let total := (if first then 0 else t.bytes) + bs.length
        let d := d.updQctx q fun c => { c with trackers := if last then [] else [{ mop := 2, va := va + bs.length, key := key, bytes := total }] }
        let d := d.passPsn q 1 last
        let d := match b with
          | .bound j => d.rxMessage q j 3 total (some (be ib o 4))
          | _ => d
        let d := d.onlyIf last fun d => d.rmTally q 0x40 1
        .done (if ack then d.ackPsn q 0 psn else d) true

/-! ### What a responder owes -/

def QpCtx.tracker (c : QpCtx) (msn : Nat) : Option Tracker := c.trackers.find? fun t => t.msn == msn && t.mop != 7

/-- A message is complete when its last packet and every one below it have arrived (R245). -/
def Tracker.full (t : Tracker) (pmtu : Nat) : Bool :=
  match t.base, t.stop with
  | some a, some b => decide (packetsFor (b - a) pmtu ≤ t.got.length)
  | _, _ => false

/-- The oldest unreleased message of a multipath QP passed (R245). -/
def Dev.passMsn (d : Dev) (q : Nat) (t : Tracker) : Dev :=
  (d.updQctx q fun c =>
    { c with rmsn := psnAdd c.rmsn 1, trackers := c.trackers.erase t, binds := c.binds.filter fun b => t.job.isNone || some b.2 != t.job }).rmTally q 0x40 1

/-- The oldest unreleased message of a multipath QP: released with its completion when it is complete; a READ, atomic or FLUSH begins to be performed then (R245). -/
def Dev.releaseHead (d : Dev) (q : Nat) : Option Dev :=
  let c := d.qctx q
  if ¬ c.mp then none
  else
    match c.tracker c.rmsn with
    | none => none
    | some t =>
      match t.request with
      | some a =>
        if t.begun then none
        else some (d.updQctx q fun c => { c with answers := c.answers ++ [.request a], trackers := c.trackers.map fun u => if u = t then { t with begun := true } else u })
      | none =>
        if ¬ t.full c.pmtu then none
        else
          let d := match t.job with
            | some j => d.rxMessage q j t.mop t.bytes t.imm
            | none => d
          some (d.passMsn q t)

/-- What a QP owes first is taken from its list. -/
def Dev.popAns (d : Dev) (q : Nat) : Dev := d.updQctx q fun c => { c with answers := c.answers.drop 1 }

/-- An answer has been sent: with multipath its message is released. -/
def Dev.ansDone (d : Dev) (q : Nat) (a : RmAns) : Dev :=
  let c := d.qctx q
  match (if a.mp then c.tracker c.rmsn else none) with
  | some t => (d.popAns q).passMsn q t
  | none => d.popAns q

/-- What a responder owes is sent in its order, as far as nothing has to be waited for; on a multipath QP messages are released in MSN order between (R245). -/
def Dev.pump (d : Dev) (q : Nat) : Nat → Dev
  | 0 => d
  | k + 1 =>
    match (d.qctx q).answers with
    | .ack psn syndrome :: _ => ((d.popAns q).sendAckNow q 0 psn syndrome).pump q k
    | .refuse p psn check key va len :: _ => ((d.popAns q).refuseNow q p psn check key va len).pump q k
    | .request a :: _ =>
      match d.answerStep q a with
      | .waits d => d
      | .fails check => ((d.popAns q).refuseNow q a.path a.psn check a.ask.key a.ask.va a.ask.len).pump q k
      | .done d => (d.ansDone q a).pump q k
    | [] =>
      match d.releaseHead q with
      | none => d
      | some d => d.pump q k

/-- As far as it goes. -/
def Dev.pumpQp (d : Dev) (q : Nat) : Dev := d.pump q (2 + 2 * ((d.qctx q).answers.length + (d.qctx q).trackers.length))

/-- QPs whose answers wait for host memory go on. -/
def Dev.pumpAnswers (d : Dev) : Dev := d.each ((d.qpctxs.filter fun e => !e.2.answers.isEmpty).map (·.1)) fun q d => d.pumpQp q

/-- A read for an answer ends (R190, R236): its bytes and their marks join the answer; a FLUSH whose read timed out is not performed: a remote operational error, as check 8. -/
def Dev.ansIn (d : Dev) (q number off : Nat) (bs : List Byte) (ends : ReadEnd) : Dev :=
  match (d.qctx q).answers with
  | .request a :: _ =>
    if a.number ≠ number ∨ number = 0 then d
    else if a.kind = 6 then
      if ends = .timedOut then ((d.popAns q).refuseNow q a.path a.psn 8 a.ask.key a.ask.va 0).pumpQp q
      else (d.updAns q fun a => { a with got := 1 }).pumpQp q
    else
      (d.updAns q fun a => { a with
        data := overB a.data off bs, got := a.got + bs.length
        marks := if ends = .good then a.marks else (flitsOf off bs.length).foldl (fun l i => insertNum i l) a.marks }).pumpQp q
  | _ => d

/-- Requests that a QP has accepted and not yet answered, against IRD (R239). -/
def QpCtx.accepted (c : QpCtx) : Nat :=
  (c.answers.filter fun x => match x with
    | .request a => !a.mp && a.kind != 6
    | _ => false).length +
  (c.trackers.filter fun t => match t.request with
    | some a => a.kind != 6
    | none => false).length

/-- Keys of requests that were checked and have not been performed. -/
def QpCtx.keysOut (c : QpCtx) : List Nat :=
  (c.answers.filterMap fun x => match x with
    | .request a => some (a.ask.key / 256)
    | _ => none) ++ c.trackers.filterMap fun t => t.request.map fun a => a.ask.key / 256

/-- A READ, atomic or FLUSH in order: checked, and answered in its turn; one beyond IRD is an invalid request. PRESUMED (InfiniBand), entry 217. -/
def Dev.rcRequest (d : Dev) (q psn kind op : Nat) (ib : List Byte) : RxStep :=
  let c := d.qctx q
  let x := askOf kind 12 ib
  match d.keyRefuses q x.key x.acc x.va x.len x.persist with
  | some k => .done (d.refuseRm q 0 psn k x.key x.va x.len) false
  | none =>
    if kind ≠ 6 ∧ c.ird ≤ c.accepted then .done (d.refuseRm q 0 psn 6 0 0 0) false
    else
      let a : RmAns := { psn := psn, kind := kind, sub := natOf (op != 0x13), ib := ib, image := d.key (x.key / 256) }
      let d := (d.passPsn q (if kind = 4 then packetsFor x.len c.pmtu else 1) true).rmTally q 0x40 1
      .done ((d.updQctx q fun c => { c with answers := c.answers ++ [.request a] }).pumpQp q) true

/-- A request seen before: acknowledged again, a READ or FLUSH performed again, an atomic answered with its first result. -/
def Dev.rcDuplicate (d : Dev) (q psn kind : Nat) (ib : List Byte) : Dev :=
  let c := d.qctx q
  let owe (a : RmAns) : Dev := (d.updQctx q fun c => { c with answers := c.answers ++ [.request a] }).pumpQp q
  let waits : Bool := c.answers.any fun x => match x with
    | .request a => a.psn == psn
    | _ => false
  if kind = 4 ∨ kind = 6 then
    let x := askOf kind 12 ib
    match d.keyRefuses q x.key x.acc x.va x.len x.persist with
    | some k => d.refuseRm q 0 psn k x.key x.va x.len
    | none => if waits then d else owe { psn := psn, kind := kind, ib := ib, image := d.key (x.key / 256) }
  else if kind = 5 then
    match c.atomics.find? fun e => e.1 == psn with
    | some e => owe { psn := psn, kind := 7, data := beBytes 8 e.2 }
    | none => d
  else if kind = 8 then (if waits then d else owe { psn := psn, kind := 7 })
  else d.ackPsn q 0 (psnAdd (c.path 0).expect (2 ^ 24 - 1))

/-- The responder's resynchronisation of a path after a promotion (R456): the expected PSN is accepted; the first other request is answered with a sequence NAK, and after it the first whose PSN is at or below the highest seen gives the expected PSN. -/
def Dev.resyncRx (d : Dev) (q p psn : Nat) : Dev :=
  let x := (d.qctx q).path p
  let put (f : RmPath → RmPath) : Dev := d.updQctx q fun c => c.setPath p f
  if x.resync = 0 then d
  else if psn = x.expect then put fun x => { x with resync := 0 }
  else if x.resync = 1 then put fun x => { x with resync := 2, highest := psn, nakSent := false }
  else if psnDist x.highest psn < 2 ^ 23 then put fun x => { x with resync := 0, expect := psn }
  else put fun x => { x with highest := psn }

/-- RDMA_REQUEST_RECEIVE (R226, R232, R239): the first packet of a transport engine, when it is a request of the base transport, one of an unsupported kind, which any QP answers as an invalid request, or no transport packet at all; `qpn` and `psn` name the packet. -/
def execRdmaRequestReceive (region : Fin 4) (qpn psn : Fin 16777216) (s : State) : Out := s.on fun d =>
  match d.enginePacket region.val with
  | none => d
  | some (id, none) => d.engineTake id
  | some (id, some (ib, ce)) =>
    let op := be ib 0 1
    let q := be ib 5 3
    let no := psn.val
    let psn := be ib 9 3
    if 1 < opClass op ∨ q ≠ qpn.val ∨ psn ≠ no then d
    else
      let d := d.rmDrain
      let c := d.qctx q
      let take (d : Dev) : Dev := d.engineTake id
      if ¬ d.qpHears q then take d
      else if c.bad then take (d.qpError q 10 none (some 3) 8)
      else if opClass op = 0 then take ((d.congestion q ce).sendAck q 0 psn 0x61)
      else if c.mp then take d
      else
        let d := (d.touch (qpctxId q) (d.qpRegion q)).resyncRx q 0 psn
        let c := d.qctx q
        let exp := (c.path 0).expect
        let (kind, imm, first, last) := rcKind op
        if psn = exp then
          let ack := bitOf (be ib 8 1) 7
          let go : RxStep := match kind with
            | 0 => d.rcSend q psn imm first last ack ib
            | 2 => d.rcWrite q psn imm first last ack ib
            | _ => d.rcRequest q psn kind op ib
          match go with
          | .waits d => d.enginePass id q
          | .done d _ => take (d.congestion q ce)
        else
          let d := d.congestion q ce
          if (c.path 0).resync ≠ 0 ∨ psnDist psn exp < 2 ^ 23 then
            if (c.path 0).nakSent then take d
            else take (((d.updQctx q fun c => c.setPath 0 fun x => { x with nakSent := true }).rmCount q 0).sendAck q 0 exp 0x60)
          else take (d.rcDuplicate q psn kind ib)

/-! ### Multipath (R243 to R246) -/

/-- A tracker replaced, or added in order of MSN distance from the oldest unreleased message. -/
def QpCtx.setTracker (c : QpCtx) (t : Tracker) : QpCtx :=
  let rest := c.trackers.filter fun u => !(u.msn == t.msn && (u.mop == 7) == (t.mop == 7))
  let lo := rest.filter fun u => decide (psnDist u.msn c.rmsn < psnDist t.msn c.rmsn)
  let hi := rest.filter fun u => !decide (psnDist u.msn c.rmsn < psnDist t.msn c.rmsn)
  { c with trackers := lo ++ [t] ++ hi }

/-- Trackers in use in a region (R246): those of messages being received from peers. DEDUCED, entry 218. -/
def Dev.trackersUsed (d : Dev) (r : Nat) : Nat :=
  ((d.qpctxs.filter fun e => d.qpRegion e.1 == r).map fun e => (e.2.trackers.filter fun t => t.mop != 7).length).sum

/-- The arrival bitmap's 4,096 bits take a packet at a place (R245). -/
def Tracker.fits (t : Tracker) (place pmtu : Nat) : Bool :=
  t.got.all fun g => decide (max g place - min g place < 4096 * pmtu) && match t.base with
    | some b => decide (b ≤ place ∧ place - b < 4096 * pmtu)
    | none => true

/-- Receive descriptors bound up to an RSN (R245): one for every RSN not yet bound; none of them when the channel cannot supply all. -/
def Dev.bindRsn (d : Dev) (q : Nat) : Nat → Dev × RxBind
  | 0 => (d, .bound 0)
  | k + 1 =>
    match d.bindRx (d.qctx q).page with
    | (d, .bound j) => (d.updQctx q fun c => { c with rbound := psnAdd c.rbound 1, binds := c.binds ++ [(c.rbound, j)] }).bindRsn q k
    | (d, b) => (d, b)

/-- A packet of a message marked in its bitmap by its place, with the start that a message's first packet gives and the end that its last gives (R245). -/
def Tracker.mark (t : Tracker) (place n : Nat) (first last : Bool) (imm job : Option Nat) : Tracker :=
  let base := if first then some place else t.base
  let stop := if last then some (place + n) else t.stop
  { t with got := place :: t.got, base := base, stop := stop, bytes := (stop.getD 0) - (base.getD 0)
           imm := if last then imm else t.imm, job := job.orElse fun _ => t.job }

/-- A packet of a SEND or WRITE message that has passed its path's sequence check: the checks of R232 in their order, its receive descriptors bound, and its bytes placed. One beyond the bitmap is an invalid request. DESIGN CHOICE, entry 219. -/
def Dev.mpData (d : Dev) (q p psn mop msn keysn place : Nat) (first last : Bool) (ib : List Byte) : RxStep :=
  let c := d.qctx q
  let write := mop == 2 || mop == 3
  let imm := last && mop % 2 == 1
  let o := 28 + (if imm then (if write then 8 else 4) else 0)
  let bs := ibPayload ib o
  let t := (c.tracker msn).getD { msn := msn, mop := mop, base := if write then none else some 0 }
  match (if write then d.keyFails q keysn 1 place bs.length false else none) with
  | some k => .done (d.refuseRm q p psn k keysn place bs.length) false
  | none =>
    let rsn := if write then be ib 32 4 % 2 ^ 24 else keysn % 2 ^ 24
    let needs := !write || imm
    let missing := if needs then (let x := psnDist (psnAdd rsn 1) c.rbound; if 2 ^ 23 ≤ x then 0 else x) else 0
    if d.jobsOf c.page true |>.filter (fun e => e.2.state == .fetched) |>.length |> (decide <| · < missing) then
      if idxDist (d.qp c.page).rqPi (d.fld F.QCP_IDX_RQ_CI c.page) < missing then .done (d.rnrNak q p psn) false else .waits d
    else
      let (d, _) := d.bindRsn q missing
      let job := if needs then ((d.qctx q).binds.find? fun b => b.1 == rsn).map (·.2) else none
      let small : Bool := match job with
        | some j => !write && decide ((d.job j).len < place + bs.length)
        | none => false
      if small ∨ ¬ t.fits place c.pmtu then .done (d.refuseRm q p psn 6 0 0 0) false
      else if write ∧ ¬ (d.missingPages keysn place bs.length).isEmpty then .done (d.refuseRm q p psn 7 keysn place bs.length) false
      else if t.got.contains place then .done (d.rmCount q 5) true
      else
        let put : Placed := if write then d.keyPlace q (d.key (keysn / 256)) (keysn / 256) place bs false
          else match job with
            | some j => if ¬ bs.isEmpty ∧ ¬ d.canIssue c.fn then .fails 8 else .done (d.rxPlace q j place bs)
            | none => .done d
        match put with
        | .fails k => .done (d.refuseRm q p psn k keysn place bs.length) false
        | .waits d => .waits d
        | .done d =>
          let t := t.mark place bs.length (write && first) last (if imm then some (be ib 28 4) else none) job
          .done (d.updQctx q fun c => c.setTracker t) true

/-- A READ response packet of the multipath transport at the requester (R235, R244): data of a READ, the original value of an atomic, or the end of a FLUSH. -/
def Dev.mpReadResponse (d : Dev) (q msn place : Nat) (last : Bool) (ib : List Byte) : Dev :=
  let c := d.qctx q
  let bs := ibPayload ib 28
  match c.trackers.find? fun t => t.mop == 7 && t.msn == msn with
  | none => d
  | some t =>
    if t.got.contains place then d.rmCount q 5
    else
      match t.job with
      | none => d
      | some j =>
        let d := if bs.isEmpty then d else d.localWrite q j place (if [0x25, 0x26].contains (d.job j).op then leBytes 8 (beVal bs) else bs)
        let t' := t.mark place bs.length false last none none
        if (d.qctx q).state ≠ 3 then d
        else if t'.full c.pmtu then (d.updQctx q fun c => { c with trackers := c.trackers.erase t }).settleRm q j
        else d.updQctx q fun c => c.setTracker t'

/-- What an MP_DATA packet in sequence on its path does. -/
def Dev.mpInOrder (d : Dev) (q p psn : Nat) (ib : List Byte) : RxStep :=
  let c := d.qctx q
  let b0 := be ib 12 1
  let mop := b0 / 32
  let last := bitOf b0 1
  let msn := be ib 13 3
  let place := be ib 20 8
  if mop = 7 then .done (d.mpReadResponse q msn place last ib) true
  else if 2 ^ 23 ≤ psnDist msn c.rmsn then .done (d.rmCount q 5) true
  else if c.b 22 1 ≤ psnDist msn c.rmsn then .done (d.rmCount q 7) false
  else if (c.tracker msn).isNone ∧ 8192 ≤ d.trackersUsed (d.qpRegion q) then .done ((d.rmCount q 6).rnrNak q p psn) false
  else if 4 ≤ mop then
    let x := askOf mop 28 ib
    match d.keyRefuses q x.key x.acc x.va x.len x.persist with
    | some k => .done (d.refuseRm q p psn k x.key x.va x.len) false
    | none =>
      if (c.tracker msn).isSome then .done (d.rmCount q 5) true
      else if mop ≠ 6 ∧ c.ird ≤ c.accepted then .done (d.refuseRm q p psn 6 0 0 0) false
      else
        let a : RmAns := { mp := true, path := p, psn := psn, msn := msn, kind := mop, sub := be ib 16 4, ib := ib, image := d.key (x.key / 256) }
        .done (d.updQctx q fun c => c.setTracker { msn := msn, mop := mop, request := some a }) true
  else d.mpData q p psn mop msn (be ib 16 4) place (bitOf b0 0) last ib

/-- MP_DATA_RECEIVE (R243 to R246): the first packet of a transport engine, when it is a multipath packet; `qpn` and `psn` name the packet. -/
def execMpDataReceive (region : Fin 4) (qpn psn : Fin 16777216) (s : State) : Out := s.on fun d =>
  match d.enginePacket region.val with
  | some (id, some (ib, ce)) =>
    let q := be ib 5 3
    let no := psn.val
    let psn := be ib 9 3
    let c := d.qctx q
    if opClass (be ib 0 1) ≠ 3 ∨ q ≠ qpn.val ∨ psn ≠ no then d
    else
      let d := d.rmDrain
      let take (d : Dev) : Dev := d.engineTake id
      if ¬ d.qpHears q ∨ ¬ c.mp then take d
      else if c.bad then take (d.qpError q 10 none (some 3) 8)
      else
        let p := be ib 12 1 / 4 % 8
        let d := (d.touch (qpctxId q) (d.qpRegion q)).resyncRx q p psn
        let c := d.qctx q
        let exp := (c.path p).expect
        if psn = exp then
          match d.mpInOrder q p psn ib with
          | .waits d => d.enginePass id q
          | .done d ok =>
            let d := d.congestion q ce
            if ¬ ok ∨ ¬ d.qpHears q then take d
            else
              let d := d.updQctx q fun c => c.setPath p fun x => { x with expect := psnAdd x.expect 1, nakSent := false }
              take ((d.ackPsn q p psn).pumpQp q)
        else
          let d := d.congestion q ce
          if (c.path p).resync ≠ 0 ∨ psnDist psn exp < 2 ^ 23 then
            if (c.path p).nakSent then take d
            else take (((d.updQctx q fun c => c.setPath p fun x => { x with nakSent := true }).rmCount q 0).sendAck q p exp 0x60)
          else take ((d.rmCount q 5).ackPsn q p psn)
  | _ => d

/-! ### On-demand paging (R248, R184) -/

/-- The page that the device's own table maps a virtual address to, from a table of a level down: in the form of R330, the one page table that the manual lays out. DEDUCED, entry 220. -/
def Dev.tablePage (d : Dev) (va : Nat) : Nat → Nat → Option Nat
  | 0, _ => none
  | n + 1, table =>
    let a := table + 8 * (va / 2 ^ (12 + 9 * n) % 512)
    let e := d.memVal a 8
    let addr := bitsOf e 47 12 * 4096
    if ¬ d.inDram a 8 ∨ d.marked a 8 ∨ ¬ bitOf e 0 ∨ bitsOf e 63 60 ≠ 0 ∨ bitsOf e 55 48 ≠ 0 ∨ bitsOf e 11 9 ≠ 0 then none
    else if ¬ bitOf e 1 then (if bitsOf e 8 2 ≠ 0 then none else d.tablePage va n addr)
    else if n = 3 ∨ addr % 2 ^ (12 + 9 * n) ≠ 0 ∨ ¬ d.inDram (addr + va % 2 ^ (12 + 9 * n) / 4096 * 4096) 4096 then none
    else some ((addr + va % 2 ^ (12 + 9 * n)) / 4096)

/-- ODP_PAGE_RESOLVED (R248): a page of an ODP key in DRAM is present where the key's page table maps it to populated DRAM, or cannot be resolved; `at_` is what the walk of the table answers, and a command that says otherwise names no walk of this table. Pages of host keys are resolved by the host's answers (R184). -/
def execOdpPageResolved (key : Fin 16777216) (page : Nat) (at_ : Option Nat) (s : State) : Out := s.on fun d =>
  match d.odpWaits.find? fun e => e.1 == key.val && e.2.1 == page with
  | none => d
  | some w =>
    let k := d.key key.val
    if ¬ keyDram k ∨ d.tablePage (page * 4096) 4 (keyB k 28 8 / 4096 * 4096) ≠ at_ then d
    else
      let ns := nsOfCycles (d.clk.now - w.2.2.2)
      let d := d.tallyMax (tlyRgn w.2.2.1 + 0x9C) ns
      { d with odpWaits := d.odpWaits.erase w, odpPages := (key.val, page, at_) :: d.odpPages.filter fun e => !(e.1 == key.val && e.2.1 == page) }

end Sys2Proof.Machine
end

