-- ==== Sys2Proof/Machine/Windows.lean ====
section
/-! DEFINITION. The remote-memory engine window of a function: context commands on QPs and keys (R231, R232, R250, R251), and the answers of a host to page requests (R184, R248). -/

namespace Sys2Proof.Machine

open Sys2Proof

/-! ### The window -/

/-- The first `n` words of RMW_DATA as bytes. -/
def Dev.rmwImage (d : Dev) (f n : Nat) : List Byte := ((List.range n).map fun i => leBytes 4 (d.fld F.RMW_DATA_DATA f i)).flatten

/-- An image shown in RMW_DATA. -/
def Dev.rmwShow (d : Dev) (f : Nat) (bs : List Byte) : Dev :=
  d.each (List.range (bs.length / 4)) fun i d => d.setFld F.RMW_DATA_DATA f i (leVal (sliceB bs (4 * i) 4))

/-- A command ends with a status. -/
def Dev.rmwEnd (d : Dev) (f st : Nat) : Dev := (d.setFld F.RMW_CMD_STATUS f 0 st).setFld F.RMW_CMD_BUSY f 0 0

/-! ### QP contexts (R250, R251) -/

/-- Byte ranges of the QP image that a transition from one state to another sets, STATE apart; none: no such transition. -/
def qpWriteFields (old new : Nat) : Option (List (Nat × Nat)) :=
  if new = 0 ∨ new = 4 then some []
  else
    match old, new with
    | 0, 1 => some [(1, 2), (4, 3)]
    | 1, 2 => some [(3, 1), (8, 3), (16, 3), (19, 1), (20, 3), (24, 51), (76, 2)]
    | 2, 3 => some [(11, 5), (19, 1)]
    | 3, 3 => some [(11, 1), (15, 1), (21, 1)]
    | _, _ => none

/-- A byte of the image lies in one of the ranges. -/
def inRanges (l : List (Nat × Nat)) (o : Nat) : Bool := l.any fun r => decide (r.1 ≤ o ∧ o < r.1 + r.2)

/-- RD holds ORD in its low and IRD in its high nibble: the one that a transition does not set keeps its value. -/
def rdKept (old new : Nat) (a b : Byte) : Bool :=
  if old = 1 ∧ new = 2 then a.toNat % 16 == b.toNat % 16
  else if old = 2 ∧ new = 3 then a.toNat / 16 == b.toNat / 16
  else true

/-- A QP image sets no field but those of its transition. -/
def qpWriteListed (old new : Nat) (fs : List (Nat × Nat)) (was img : List Byte) : Bool :=
  (List.range 128).all fun o =>
    let a := was.getD o 0
    let b := img.getD o 0
    o == 0 || a == b || (inRanges fs o && (o != 19 || rdKept old new a b))

/-- Every field of a QP image is in its range and every reserved bit 0. -/
def qpImageOk (st : Nat) (img : List Byte) : Bool :=
  let b (o n : Nat) : Nat := leVal (sliceB img o n)
  let reserved := b 7 1 == 0 && b 15 1 / 8 == 0 && b 23 1 == 0 && b 20 1 / 16 == 0 && b 75 1 == 0 && b 2 1 / 16 == 0 &&
    b 72 3 / 2 ^ 20 == 0 && (img.drop 78).all (· == 0)
  let rtr := st < 2 || st == 4 || (decide (1 ≤ b 3 1 ∧ b 3 1 ≤ 5) && (!bitOf (b 20 1) 0 || decide (1 ≤ b 22 1 ∧ b 22 1 ≤ 64)))
  reserved && rtr

/-- A function's host queue pair exists. -/
def Dev.chanOk (d : Dev) (f : Nat) (img : List Byte) : Bool := decide (leVal (sliceB img 1 1) < (d.res f).qpCnt)

/-- The paths of a QP as its transition to RTR starts them: receive PSNs set, live as PATH_LIVE says (R243). -/
def QpCtx.initPaths (c : QpCtx) : List RmPath :=
  let n := if c.mp then c.b 20 1 / 2 % 8 + 1 else 1
  (List.range n).map fun p =>
    { live := !c.mp || bitOf (c.b 21 1) p, next := if p = 0 then c.b 12 3 else Config.pathPsn p % 2 ^ 24
      expect := if p = 0 then c.b 16 3 else Config.pathPsn p % 2 ^ 24 }

/-- The paths as the transition to RTS starts them: retries set, and the send PSNs where nothing has been sent (R239). -/
def QpCtx.armPaths (c : QpCtx) : List RmPath :=
  c.paths.mapIdx fun p x =>
    { x with next := if p = 0 ∧ x.unacked.isEmpty then c.b 12 3 else x.next, retries := c.retry, rnrLeft := c.b 15 1 % 8 }

/-- TIMEOUT, RETRY, RNR_RETRY and PATH_LIVE rewritten for packets sent later (R250): a path with none unacknowledged takes the new retries at once, another with its next progress; a path named live takes part again, with all its retries (R247). -/
def QpCtx.relive (c : QpCtx) : List RmPath :=
  c.paths.mapIdx fun p x =>
    let now := !c.mp || bitOf (c.b 21 1) p
    if (now ∧ ¬ x.live) ∨ x.unacked.isEmpty then { x with live := now, retries := c.retry, rnrLeft := c.b 15 1 % 8 } else { x with live := now }

/-- A QP returned to RESET: its state discarded, its trackers and its parcel freed, its jobs abandoned (R250). -/
def Dev.qpReset (d : Dev) (q : Nat) : Dev :=
  let d := (d.dropJobs ((d.qpJobs q).map (·.1))).dropJobs (d.qctx q).boundJobs
  { d.freeParcel (qpctxId q) with qpctxs := d.qpctxs.set {} q {}, rmOut := d.rmOut.filter fun o => o.q != q }

/-- QP_WRITE: status and effect (R250). -/
def Dev.qpWrite (d : Dev) (f q : Nat) (img : List Byte) : Dev × Nat :=
  if ¬ d.ownsQpn f q then (d, 2)
  else
    let c := d.qctx q
    let old := c.state
    let new := (img.getD 0 0).toNat
    let was := c.shown
    match qpWriteFields old new with
    | none => (d, 1)
    | some fs =>
      if new ≠ 0 ∧ ¬ qpWriteListed old new fs was img then (d, 1)
      else if new ≠ 0 ∧ ¬ qpImageOk new img then (d, 3)
      else if new = 1 ∧ ¬ d.chanOk f img then (d, 3)
      else
        match new with
        | 0 => (d.qpReset q, 0)
        | 1 => ((d.createParcel (qpctxId q) (q % 4) (d.res f).tenant 256).updQctx q fun _ => { fn := f, img := img }, 0)
        | 2 => (d.updQctx q fun c => let c : QpCtx := { c with img := img }; { c with paths := c.initPaths }, 0)
        | 3 =>
          if old = 2 then (d.updQctx q fun c =>
              let c : QpCtx := { c with img := img }
              { c with paths := c.armPaths }, 0)
          else (d.updQctx q fun c => let c : QpCtx := { c with img := img }; { c with paths := c.relive }, 0)
        | _ =>
          if old = 4 then (d, 0)
          else
            let d := if old = 0 then (d.createParcel (qpctxId q) (q % 4) (d.res f).tenant 256).updQctx q fun _ => { fn := f, img := img } else d
            ({ d with draws := d.draws + 1 }.qpError q (Config.softErrorSynd d.draws % 256) none none 8, 0)

/-- QP_READ: the image as the context stands (R251). -/
def Dev.qpRead (d : Dev) (f q : Nat) : Dev × Nat :=
  if ¬ d.ownsQpn f q then (d, 2)
  else
    (d.rmwShow f (d.qctx q).shown, 0)

/-! ### Keys (R231, R251) -/

/-- Every field of a key image is in its range and every reserved bit 0. -/
def keyImageOk (k : List Byte) : Bool :=
  keyB k 5 1 / 2 == 0 && keyB k 6 2 == 0 && keyB k 24 4 / 2 ^ 20 == 0 && (k.drop 36).all (· == 0) &&
  (!bitOf (keyB k 1 1) 0 || (decide (1 ≤ keyB k 16 8) && !(bitOf (keyB k 1 1) 5 && bitOf (keyB k 1 1) 7)))

/-- The target of a key in DRAM lies in installed DRAM. -/
def Dev.keyTargetOk (d : Dev) (k : List Byte) : Bool :=
  let fl := keyB k 1 1
  !(bitOf fl 0 && bitOf fl 7 && !bitOf fl 6) || d.inDram (keyB k 28 8) (keyB k 16 8)

/-- Pages of an ODP key forgotten. -/
def Dev.dropPages (d : Dev) (i : Nat) : Dev :=
  { d with odpPages := d.odpPages.filter fun e => e.1 != i, odpWaits := d.odpWaits.filter fun e => e.1 != i }

/-- KEY_WRITE: a memory key context replaced. -/
def Dev.keyPut (d : Dev) (f i : Nat) (img : List Byte) : Dev × Nat :=
  if ¬ d.ownsKey f i then (d, 2)
  else if ¬ keyImageOk img then (d, 3)
  else if ¬ d.keyTargetOk img then (d, 4)
  else ({ d.dropPages i with keys := d.keys.set [] i (if img.all (· == 0) then [] else img) }, 0)

/-- KEY_READ. -/
def Dev.keyGet (d : Dev) (f i : Nat) : Dev × Nat :=
  if ¬ d.ownsKey f i then (d, 2) else (d.rmwShow f (sliceB (d.key i) 0 64), 0)

/-- KEY_INVAL: the key is no longer VALID from the next cycle on; the command stays BUSY until KEY_INVAL_COMPLETE (R232). -/
def Dev.keyInval (d : Dev) (f i : Nat) : Dev :=
  let k := d.key i
  let k' := if k.isEmpty then [] else overB k 1 (leBytes 1 (withBit (keyB k 1 1) 0 false))
  { d.setFld F.RMW_CMD_BUSY f 0 1 with keys := d.keys.set [] i k', keyInvals := d.keyInvals.set 0 f (i + 1) }

/-- A write of RMW_CMD (R251): GO starts the command of OP unless one is in progress; every command but KEY_INVAL is done in its commit cycle. -/
def rmwCmdEffect (k : RegKey) (w : Write) (d : Dev) : Dev :=
  let f := k.n
  let go := bitOf w.value.toNat 31
  if d.flag F.RMW_CMD_BUSY f then (if go then d else d.plainWrite k w.value)
  else
    let d := d.plainWrite k w.value
    if ¬ go then d
    else
      let id := d.fld F.RMW_CMD_ID f
      match d.fld F.RMW_CMD_OP f with
      | 1 => let (d, st) := d.qpWrite f id (d.rmwImage f 32); d.rmwEnd f st
      | 2 => let (d, st) := d.qpRead f id; d.rmwEnd f st
      | 3 => let (d, st) := d.keyPut f id (d.rmwImage f 16); d.rmwEnd f st
      | 4 => let (d, st) := d.keyGet f id; d.rmwEnd f st
      | 5 => if d.ownsKey f id then d.keyInval f id else d.rmwEnd f 2
      | _ => d.rmwEnd f 3

/-- A write of a function's RMW_CMD. -/
def Dev.writeRmw (d : Dev) (f : Nat) (ws : List Write) : Dev := d.writeReg ⟨.RMW_CMD, f, 0, 0⟩ ws rmwCmdEffect

/-- QP_WRITE (R250): window command 1. -/
def execQpWrite (fn : Fin 512) (ws : List Write) (s : State) : Out := s.on fun d => d.writeRmw fn.val ws

/-- QP_READ (R250): window command 2. -/
def execQpRead (fn : Fin 512) (ws : List Write) (s : State) : Out := s.on fun d => d.writeRmw fn.val ws

/-- KEY_WRITE (R231): window command 3. -/
def execKeyWrite (fn : Fin 512) (ws : List Write) (s : State) : Out := s.on fun d => d.writeRmw fn.val ws

/-- KEY_READ (R231): window command 4. -/
def execKeyRead (fn : Fin 512) (ws : List Write) (s : State) : Out := s.on fun d => d.writeRmw fn.val ws

/-- KEY_INVAL (R232): window command 5. -/
def execKeyInval (fn : Fin 512) (ws : List Write) (s : State) : Out := s.on fun d => d.writeRmw fn.val ws

/-- KEY_INVAL_COMPLETE (R232): once no request that was checked against the key is still to be performed; every other placement is over with the command that checked it. -/
def execKeyInvalComplete (fn : Fin 512) (s : State) : Out := s.on fun d =>
  let i := d.keyInvals.at 0 fn.val
  if i = 0 ∨ d.qpctxs.any (fun e => e.2.keysOut.contains (i - 1)) then d
  else { d with keyInvals := d.keyInvals.set 0 fn.val 0 }.rmwEnd fn.val 0

/-! ### Page requests (R184, R248) -/

/-- Pages of host ODP keys of a function that wait for an answer on a page: resolved as present (true) or not at all. -/
def Dev.answerOdp (d : Dev) (f page pasid : Nat) (good : Bool) : Dev :=
  let mine (e : Nat × Nat × Nat × Nat) : Bool :=
    e.2.1 == page && d.ownsKey f e.1 && !bitOf (keyB (d.key e.1) 1 1) 7 && keyB (d.key e.1) 24 4 % 2 ^ 20 == pasid
  let l := d.odpWaits.filter mine
  let d := d.each l fun (w : Nat × Nat × Nat × Nat) d => d.tallyMax (tlyRgn w.2.2.1 + 0x9C) (nsOfCycles (d.clk.now - w.2.2.2))
  { d with odpWaits := d.odpWaits.filter fun e => !mine e,
           odpPages := (l.map fun e => (e.1, page, if good then some page else none)) ++ d.odpPages.filter fun e => !(l.any fun w => w.1 == e.1 && e.2.1 == page) }

/-- A stall on a local page that the host has made present ends (R249). -/
def Dev.endStalls (d : Dev) (f page : Nat) : Dev :=
  { d with qpctxs := d.qpctxs.map fun (e : Nat × QpCtx) => (e.1, match e.2.stall with
      | some (_, j) => if e.2.fn = f ∧ (d.job j).addr / 4096 = page then { e.2 with stall := none } else e.2
      | none => e.2) }

/-- A stall on a local page whose request has failed ends under R182 and R240: LOCAL_ACCESS. -/
def Dev.failStalls (d : Dev) (f page : Nat) : Dev :=
  let l := d.qpctxs.filterMap fun e => match e.2.stall with
    | some (_, j) => if e.2.fn = f ∧ (d.job j).addr / 4096 = page then some (e.1, j) else none
    | none => none
  d.each l fun (x : Nat × Nat) d => d.qpError x.1 8 (some x.2) (some 5) 8

/-- PAGE_REQUEST_RESPONSE (R184): `code` 0 success, 1 invalid request, 15 Response Failure, which fails every request of the PF and stops its page requests until it is enabled again. -/
def execPageRequestResponse (fn : Fin 512) (page pasid : Nat) (code : Fin 16) (s : State) : Out := s.on fun d =>
  let f := fn.val
  if ¬ d.pageReqs.contains (f, page, pasid) then d
  else if code.val = 15 then
    let p := d.pfOf f
    let l := d.pageReqs.filter fun x => d.pfOf x.1 == p
    let d := ({ d with pageReqs := d.pageReqs.filter fun x => !(d.pfOf x.1 == p) }.setCfg p .priEnable 0).setCfg p .priResponseFailure 1
    d.each l fun (x : Nat × Nat × Nat) d => ((d.answerOdp x.1 x.2.1 x.2.2 false).failStalls x.1 x.2.1).denyPage x.1 x.2.1 x.2.2
  else
    let d := { d with pageReqs := d.pageReqs.filter fun x => x != (f, page, pasid) }
    let good := code.val == 0
    let d := d.answerOdp f page pasid good
    if good then d.endStalls f page else (d.failStalls f page).denyPage f page pasid

end Sys2Proof.Machine
end

