-- ==== Sys2Proof/Machine/Storage.lean ====
section
/-! DEFINITION. Storage commands on namespaces, and the compact block function (R252 to R256, R260, R263 to R271). -/

namespace Sys2Proof.Machine

open Sys2Proof

/-! ### Commands on a namespace -/

/-- A namespace is valid and a function's own. -/
def Dev.nsOwned (d : Dev) (f n : Nat) : Bool := d.flag F.STO_NS_VALID 0 n && d.fld F.STO_NS_FUNC 0 n == f

def Dev.stoCmd (d : Dev) (i : Nat) : StoCmd := d.stoCmds.at {} i
def Dev.setSto (d : Dev) (i : Nat) (c : StoCmd) : Dev := { d with stoCmds := d.stoCmds.set {} i c }
def Dev.dropSto (d : Dev) (i : Nat) : Dev := d.setSto i {}

/-- Bytes that a command moves. -/
def StoCmd.bytes (c : StoCmd) (d : Dev) : Nat := if c.op ≤ 2 then c.blocks * d.nsBlock c.ns else 0

/-- Data delivered over the pieces of a host buffer; what is marked is cut at 32-byte boundaries, and only the TLPs of marked flits carry EP (R192). -/
def Dev.deliver (d : Dev) (f : Nat) (ps : List (Nat × Nat)) (bs : List Byte) (ms : List Bool) : Dev :=
  match ps with
  | [] => d
  | (a, n) :: t =>
    let d := if (ms.take n).any id then
        d.each (List.range (ceilDiv n 32)) fun i d => d.dmaWrite f (a + 32 * i) none ((bs.drop (32 * i)).take (min 32 (n - 32 * i))) (((ms.drop (32 * i)).take (min 32 (n - 32 * i))).any id)
      else d.dmaWrite f a none (bs.take n) false
    d.deliver f t (bs.drop n) (ms.drop n)

/-- The reads of a command's source buffer (R180, R185, R190), none across a multiple of Max_Read_Request_Size. -/
def Dev.fetchPieces (d : Dev) (f : Nat) (ps : List (Nat × Nat)) (ends : ReadEnd) : Dev :=
  d.each (ps.flatMap fun p => piecesAt (d.readMax f) p.1 p.2) fun (x : Nat × Nat) d => d.fetchNow f x.1 x.2 none ends

/-- The NVMe submission entry that a command is on a fabric: opcode, NSID, first block, count and FUA; of a Dataset Management its command words. -/
def StoCmd.sqe (c : StoCmd) (id nsid : Nat) : List Byte :=
  let code := [0, 2, 1, 0, 8, 9].getD c.op 0
  leBytes 1 code ++ leBytes 1 0 ++ leBytes 2 id ++ leBytes 4 nsid ++ List.replicate 32 0 ++ leBytes 8 c.lba ++
    leBytes 4 ((c.blocks - 1) + natOf c.fua * 2 ^ 30) ++ List.replicate 12 0

/-- A READ of a DRAM namespace: the data delivered, marked where the medium is (R256). -/
def Dev.dramRead (d : Dev) (c : StoCmd) : Dev × StoEnd :=
  let n := c.bytes d
  let a := d.nsBase c.ns + c.lba * d.nsBlock c.ns
  let ms := d.byteMarks a n
  ((d.deliver c.fn c.pieces (d.memBytes a n) ms).tally 0x28 n, if ms.any id then .readPoison else .ok)

/-- A storage command performed on DRAM, or issued on the path that its namespace takes (R253, R254); none while it waits for the target. `data` is what its source buffer holds, and `ends` how the reads of it end: marked data is not written (R256). The capsule of an RDMA path leaves on its transport QP, one of a TCP path goes to the firmware (R253). -/
def Dev.stoStart (d : Dev) (c : StoCmd) (data : List Byte) (ends : ReadEnd) : Dev × Option StoEnd :=
  let c := { c with at_ := d.clk.now }
  let source := c.op == 2 || c.op == 5
  let d := d.onlyIf source fun d => d.fetchPieces c.fn c.pieces ends
  if source ∧ ends ≠ .good then (d.bump .STO_CNT 0 2, some .srcPoison)
  else if d.nsFabric c.ns then
    match d.nsPath c.ns with
    | none => ((d.bump .STO_CNT 0 1).checkLost c.ns, some .pathLost)
    | some p =>
      let i := d.nextSto
      let d : Dev := { d with nextSto := i + 1 }.setSto i { c with path := some p }
      let sqe := c.sqe i (d.fld F.STO_NS_TARGET_LO 0 c.ns)
      let body := if source then sliceB data 0 (c.pieces.map (·.2)).sum else []
      let q := d.fld F.STO_PATH_HANDLE 0 p
      if d.fld F.STO_PATH_KIND 0 p = 1 then (d.emit (.capsule p i sqe body), none)
      else (if (d.qctx q).state = 3 then d.pushCapsule q (sqe ++ body) else d, none)
  else
    let a := d.nsBase c.ns + c.lba * d.nsBlock c.ns
    let n := c.blocks * d.nsBlock c.ns
    match c.op with
    | 1 => let (d, e) := d.dramRead c; (d, some e)
    | 2 => ((d.store a (sliceB data 0 n)).tally 0x30 n, some .ok)
    | 4 =>
      (d.zeroRange a n, some .ok)
    | _ => (d, some .ok)

/-- What a target's completion means: status 0 with its data, or an error that it reports. -/
def Dev.targetEnd (d : Dev) (c : StoCmd) (status : Nat) (data : List Byte) (ep : Bool) : Dev × StoEnd :=
  let n := c.bytes d
  if status ≠ 0 then (d, .medium status)
  else
    match c.op with
    | 1 =>
      if ¬ d.canIssue c.fn then (d, .hostAccess)
      else ((d.deliver c.fn c.pieces (sliceB data 0 n) (if ep then List.replicate n true else [])).tally 0x28 n, if ep then .readPoison else .ok)
    | 2 => (d.tally 0x30 n, .ok)
    | _ => (d, .ok)

/-- The longest command latency of the span, in ns (R271, R488). -/
def Dev.stoLatency (d : Dev) (since : Nat) : Dev := d.tallyMax 0x60 (nsOfCycles (d.clk.now - since))

/-! ### The compact block function -/

def Dev.cbf (d : Dev) (f : Nat) : Cbf := d.cbfs.at {} f
def Dev.updCbf (d : Dev) (f : Nat) (g : Cbf → Cbf) : Dev := { d with cbfs := d.cbfs.set {} f (g (d.cbf f)) }

/-- A function presents its compact block function. -/
def Dev.hasCbf (d : Dev) (f : Nat) : Bool := (d.fn f).enabled && (d.res f).cbf
def Dev.cbfNs (d : Dev) (f : Nat) : Nat := (d.res f).cbfNs

def Dev.tagBit (d : Dev) (f t : Nat) : Bool := bitOf (d.fld F.CBF_BUSY_TAGS f) t
def Dev.doneBit (d : Dev) (f t : Nat) : Bool := bitOf (d.fld F.CBF_DONE_TAGS f) t
def Dev.setTagBusy (d : Dev) (f t : Nat) (b : Bool) : Dev := d.setFld F.CBF_BUSY_TAGS f 0 (withBit (d.fld F.CBF_BUSY_TAGS f) t b)
def Dev.setTagDone (d : Dev) (f t : Nat) (b : Bool) : Dev := d.setFld F.CBF_DONE_TAGS f 0 (withBit (d.fld F.CBF_DONE_TAGS f) t b)

/-- The bytes of a slot as its registers hold them. -/
def Dev.slotBytes (d : Dev) (f t : Nat) : List Byte := ((List.range 16).map fun w => leBytes 4 (d.word ⟨.CBF_SLOT, f, t, w⟩).toNat).flatten

/-- One tag issued (R263, R270). -/
def Dev.issueTag (d : Dev) (f t : Nat) : Dev :=
  if ¬ d.flag F.CBF_CTL_EN f then d.bump .CBF_CNT f 1
  else if d.tagBit f t ∨ d.doneBit f t then (d.bump .CBF_CNT f 1).setFld F.CBF_STAT_TAGBUSY f 0 1
  else
    let slot := d.slotBytes f t
    let now := d.clk.now
    let d := (d.setTagBusy f t true).updCbf f fun c =>
      { c with slots := c.slots.set [] t slot, order := c.order ++ [t], issuedAt := c.issuedAt.set 0 t now, flushCovers := c.flushCovers.set 0 t c.writes }
    if d.flag F.CBF_PWR_IDLE_ACK f then (d.setFld F.CBF_PWR_IDLE_ACK f 0 0).setFld F.CBF_PWR_ENTERING f 0 1 else d

/-- The tags of a write are issued in ascending order (R264). -/
def Dev.issueTags (d : Dev) (f v : Nat) : Dev := d.each ((List.range 32).filter (bitOf v)) fun t d => d.issueTag f t

/-- CBF_ISSUE (R264), behind its intent record while the peer mirrors (R450). -/
def cbfIssueEffect (k : RegKey) (w : Write) (d : Dev) : Dev :=
  if d.passive then d.standbyDrop
  else if ¬ d.hasCbf k.n then d
  else if d.peerWaits then d.queueIntent (.cbf k.n false w.value.toNat) else d.issueTags k.n w.value.toNat

/-- Tags freed (R263). -/
def Dev.freeTags (d : Dev) (f v : Nat) : Dev := d.plainWrite ⟨.CBF_DONE, f, 0, 0⟩ (BitVec.ofNat 32 v)

/-- CBF_DONE: a 1 frees a tag (R263), behind its intent record while the peer mirrors (R450). -/
def cbfDoneEffect (k : RegKey) (w : Write) (d : Dev) : Dev :=
  if d.passive then d.standbyDrop
  else if d.peerWaits then d.queueIntent (.cbf k.n true w.value.toNat) else d.freeTags k.n w.value.toNat

/-- CBF_SLOT: the command bytes of a slot whose tag is not FREE are not written (R264). -/
def cbfSlotEffect (k : RegKey) (w : Write) (d : Dev) : Dev :=
  if d.tagBit k.n k.i ∨ d.doneBit k.n k.i then d else d.plainWrite k w.value

/-- CBF_PWR: IDLE_REQ written (R269). -/
def cbfPwrEffect (k : RegKey) (w : Write) (d : Dev) : Dev :=
  let f := k.n
  let req := bitOf w.value.toNat 31
  let was := d.flag F.CBF_PWR_IDLE_REQ f
  let d := d.plainWrite k w.value
  if req ∧ ¬ was then d.setFld F.CBF_PWR_ENTERING f 0 1
  else if ¬ req then (d.setFld F.CBF_PWR_ENTERING f 0 0).setFld F.CBF_PWR_IDLE_ACK f 0 0
  else d

/-- CBF_ISSUE (R263). -/
def execCbfIssue (fn : Fin 512) (ws : List Write) (s : State) : Out := s.on fun d => d.writeReg ⟨.CBF_ISSUE, fn.val, 0, 0⟩ ws cbfIssueEffect

/-- CBF_DONE_CLEAR (R263). -/
def execCbfDoneClear (fn : Fin 512) (ws : List Write) (s : State) : Out := s.on fun d => d.writeReg ⟨.CBF_DONE, fn.val, 0, 0⟩ ws cbfDoneEffect

/-- IDLE_REQ_SET (R269). -/
def execIdleReqSet (fn : Fin 512) (ws : List Write) (s : State) : Out := s.on fun d => d.writeReg ⟨.CBF_PWR, fn.val, 0, 0⟩ ws cbfPwrEffect

/-- IDLE_REQ_CLEAR (R269). -/
def execIdleReqClear (fn : Fin 512) (ws : List Write) (s : State) : Out := s.on fun d => d.writeReg ⟨.CBF_PWR, fn.val, 0, 0⟩ ws cbfPwrEffect

/-! ### Tags that run -/

def slotOp (s : List Byte) : Nat := leVal (sliceB s 0 1)
def slotFua (s : List Byte) : Bool := bitOf (leVal (sliceB s 1 1)) 0
def slotBlocks (s : List Byte) : Nat := leVal (sliceB s 4 4)
def slotLba (s : List Byte) : Nat := leVal (sliceB s 8 8)
def slotAddr (s : List Byte) : Nat := leVal (sliceB s 16 8)

/-- The outcome of a tag before it starts, if a check fails (R266). -/
def Dev.slotBad (d : Dev) (f : Nat) (s : List Byte) : Option StoEnd :=
  let n := d.cbfNs f
  let size := if d.nsOwned f n then d.nsSize n else 0
  let op := slotOp s
  if op = 0 ∨ 3 < op then some .badOpcode
  else if op = 3 ∧ slotBlocks s ≠ 0 then some .lengthBad
  else if op < 3 ∧ (slotBlocks s = 0 ∨ 2048 < slotBlocks s ∨ 1048576 < slotBlocks s * d.nsBlock n) then some .lengthBad
  else if op < 3 ∧ size < slotLba s + slotBlocks s then some .lbaRange
  else if ¬ d.nsOwned f n then some .pathLost
  else if op < 3 ∧ ¬ d.canIssue f then some .hostAccess
  else none

/-- A tag's outcome recorded; a WRITE without FUA leaves data that a FLUSH must cover, and a FLUSH covers what had completed when it was issued (R264, R267). -/
def Dev.endTag (d : Dev) (f t op : Nat) (e : StoEnd) (bytes : Nat) : Dev :=
  let good := e == .ok
  d.updCbf f fun c =>
    { c with ended := c.ended ++ [(t, op, e, bytes)]
             writes := if op = 2 ∧ good ∧ ¬ slotFua (c.slots.at [] t) then c.writes + 1 else c.writes
             flushed := if op = 3 ∧ good then max c.flushed (c.flushCovers.at 0 t) else c.flushed }

/-- Bytes moved that an outcome reports. -/
def StoEnd.moved (e : StoEnd) (n : Nat) : Nat := if e = .ok ∨ e = .readPoison then n else 0

/-- A range of blocks that an earlier WRITE still BUSY covers in part (R264). -/
def Dev.cbfOverlaps (d : Dev) (f t : Nat) : Bool :=
  let c := d.cbf f
  let s := c.slots.at [] t
  (List.range 32).any fun u => u != t && d.tagBit f u && slotOp (c.slots.at [] u) == 2 && !(c.order.contains u) &&
    overlap (slotLba s) (slotBlocks s) (slotLba (c.slots.at [] u)) (slotBlocks (c.slots.at [] u))

/-- The tag that was issued first and has not started begins, when its opcode is the command's (an opcode that no command has ends it at once). -/
def Dev.runTag (d : Dev) (f op : Nat) (data : List Byte) (ends : ReadEnd) : Dev :=
  match if d.working f then (d.cbf f).order else [] with
  | [] => d
  | t :: rest =>
    let s := (d.cbf f).slots.at [] t
    let known := 1 ≤ slotOp s ∧ slotOp s ≤ 3
    if known ∧ slotOp s ≠ op then d
    else
      let go (d : Dev) : Dev := d.updCbf f fun c => { c with order := rest }
      match d.slotBad f s with
      | some e => (go d).endTag f t (slotOp s) e 0
      | none =>
        if op < 3 ∧ d.cbfOverlaps f t then d
        else
          let n := slotBlocks s * d.nsBlock (d.cbfNs f)
          let c : StoCmd := { fn := f, ns := d.cbfNs f, op := op, lba := slotLba s, blocks := slotBlocks s, fua := slotFua s, pieces := [(slotAddr s, n)], origin := .cbf t }
          let (d, e) := (go d).stoStart c data ends
          match e with
          | some e => d.endTag f t op e (e.moved (if op < 3 then n else 0))
          | none => d

/-- CBF_READ (R264). -/
def execCbfRead (fn : Fin 512) (s : State) : Out := s.on fun d => d.runTag fn.val 1 [] .good

/-- CBF_WRITE (R267): `data` is what the host buffer holds, `ends` how the reads of it end. -/
def execCbfWrite (fn : Fin 512) (data : List Byte) (ends : ReadEnd) (s : State) : Out := s.on fun d => d.runTag fn.val 2 data ends

/-- CBF_FLUSH (R264). -/
def execCbfFlush (fn : Fin 512) (s : State) : Out := s.on fun d => d.runTag fn.val 3 [] .good

/-- STATUS and SSYND of an outcome (R266). -/
def StoEnd.cbfCodes : StoEnd → Nat × Nat
  | .ok => (0, 0)
  | .lengthBad => (4, 0)
  | .lbaRange => (5, 1)
  | .badOpcode => (5, 2)
  | .pathLost => (5, 3)
  | .medium _ => (5, 4)
  | .srcPoison => (5, 5)
  | .hostAccess => (5, 6)
  | .readPoison => (3, 0)
  | .replay => (2, 0)

/-- CBF_COMMAND_END (R263, R266): a command of a tag ends: its status is written, BUSY gives way to DONE, and the vector is triggered. -/
def execCbfCommandEnd (fn : Fin 512) (tag : Fin 32) (s : State) : Out := s.on fun d =>
  let f := fn.val
  let t := tag.val
  match (d.cbf f).ended.find? fun e => e.1 == t with
  | none => d
  | some x =>
    let (st, sy) := x.2.2.1.cbfCodes
    let d := (d.setFld F.CBF_SLOT_STATUS f t st).setFld F.CBF_SLOT_SSYND f t sy
    let d := (d.setFld F.CBF_SLOT_BYTES f t x.2.2.2).bump .CBF_CNT f 0
    let d := ((d.setTagBusy f t false).setTagDone f t true).stoLatency ((d.cbf f).issuedAt.at 0 t)
    (d.updCbf f fun c => { c with ended := c.ended.erase x, slots := c.slots.set [] t [], issuedAt := c.issuedAt.set 0 t 0, flushCovers := c.flushCovers.set 0 t 0 }).trigger f
      (d.fld F.CBF_CTL_VEC f)

/-! ### Idle (R269, R270) -/

/-- The device's own FLUSH for a compact block function is in progress. -/
def Dev.cbfFlushing (d : Dev) (f : Nat) : Bool :=
  d.stoCmds.any fun e => e.2.fn == f && (match e.2.origin with
    | .cbfFlush _ => true
    | _ => false)

/-- IDLE_ACK (R269): with no tag BUSY, completed writes without FUA are flushed, by a FLUSH of the device's own where none has covered them; then IDLE_ACK is set and the vector triggered. -/
def execIdleAck (fn : Fin 512) (s : State) : Out := s.on fun d =>
  let f := fn.val
  if ¬ d.flag F.CBF_PWR_ENTERING f ∨ d.fld F.CBF_BUSY_TAGS f ≠ 0 ∨ d.cbfFlushing f then d
  else
    let c := d.cbf f
    let (d, ready) : Dev × Bool :=
      if c.flushed = c.writes then (d, true)
      else
        match d.stoStart { fn := f, ns := d.cbfNs f, op := 3, origin := .cbfFlush c.writes } [] .good with
        | (d, some .ok) => (d.updCbf f fun c => { c with flushed := c.writes }, true)
        | (d, _) => (d, false)
    if ready then (((d.setFld F.CBF_PWR_ENTERING f 0 0).setFld F.CBF_PWR_IDLE_ACK f 0 1).trigger f (d.fld F.CBF_CTL_VEC f)) else d

/-! ### What a window shows (R271) -/

/-- CBF_CAP and CBF_STAT as they read, and CBF_ISSUE, which reads as CBF_BUSY. -/
def Dev.cbfRead (d : Dev) (k : RegKey) : Option Word :=
  let f := k.n
  let n := d.cbfNs f
  let own := d.nsOwned f n
  let size := if own then d.nsSize n else 0
  match k.reg with
  | .CBF_CAP => some (BitVec.ofNat 32 (if k.w = 0 then size else natOf (own && d.flag F.STO_NS_BS4K 0 n) * 2 ^ 31 + size / 2 ^ 32))
  | .CBF_STAT =>
    some (BitVec.ofNat 32 (d.fld F.CBF_STAT_TAGBUSY f * 2 ^ 31 + natOf (own && d.nsFabric n && (d.nsPath n).isNone) * 2 ^ 30 + natOf own * 2 ^ 29))
  | .CBF_ISSUE => some (d.word ⟨.CBF_BUSY, f, 0, 0⟩)
  | _ => none

/-- Every tag of a function FREE and the handshake ACTIVE (R268, R270). -/
def Dev.cbfReset (d : Dev) (f : Nat) : Dev :=
  let l : NMap StoCmd := d.stoCmds.filter fun e => e.2.fn != f
  { d with stoCmds := l, cbfs := d.cbfs.set {} f {} }

end Sys2Proof.Machine
end

