-- ==== Sys2Proof/Machine/Nvme.lean ====
section
/-! DEFINITION. NVMe controllers: registers, queues, admin and I/O commands (R257 to R262), and the end of storage commands on backing paths (R253, R254).
Layouts and codes that the manual takes from the NVMe Base Specification 2.0 are PRESUMED, entry 21. -/

namespace Sys2Proof.Machine

open Sys2Proof

def Dev.nvme (d : Dev) (f : Nat) : Nvme := d.nvmes.at {} f
def Dev.updNvme (d : Dev) (f : Nat) (g : Nvme → Nvme) : Dev := { d with nvmes := d.nvmes.set {} f (g (d.nvme f)) }

/-- A function presents an NVMe controller. -/
def Dev.hasNvme (d : Dev) (f : Nat) : Bool := (d.fn f).enabled && (d.res f).nvme

/-- Memory page bytes that CC.MPS sets. -/
def Nvme.pageBytes (c : Nvme) : Nat := 4096 * 2 ^ bitsOf c.cc 10 7

/-! ### Completions -/

/-- A status field: type, code, and Do Not Retry. -/
def nvSt (sct sc : Nat) (dnr : Bool) : Nat := sc + sct * 256 + natOf dnr * 2 ^ 14

/-- A completion queue has room for an entry. -/
def Dev.nvRoom (d : Dev) (f cq : Nat) : Bool :=
  match (d.nvme f).cqs.at none cq with
  | some q => (q.tail + 1) % q.size != q.head
  | none => false

/-- An entry written to a completion queue, and its vector triggered. -/
def Dev.nvPost (d : Dev) (f cq sq cid dw0 st : Nat) : Dev :=
  let c := d.nvme f
  match c.cqs.at none cq with
  | none => d
  | some q =>
    let sqhd := match c.sqs.at none sq with
      | some s => s.head
      | none => 0
    let e := leBytes 4 dw0 ++ leBytes 4 0 ++ leBytes 2 sqhd ++ leBytes 2 sq ++ leBytes 2 cid ++ leBytes 2 (natOf q.phase + 2 * st)
    let at_ := q.base + 16 * q.tail
    let wrap := q.tail + 1 = q.size
    let q' : NvmeQ := { q with tail := if wrap then 0 else q.tail + 1, phase := if wrap then !q.phase else q.phase }
    let d := d.updNvme f fun c => { c with cqs := c.cqs.set none cq (some q') }
    d.postEntry f 2 cq q'.tail at_ none e (if q.ien then some q.iv else none)

/-- An Asynchronous Event Request completes with the oldest notice. -/
def Dev.nvNotify (d : Dev) (f : Nat) : Dev :=
  let c := d.nvme f
  match c.aers, c.notices with
  | cid :: ct, n :: nt => if d.nvRoom f 0 then (d.updNvme f fun c => { c with aers := ct, notices := nt }).nvPost f 0 0 cid n 0 else d
  | _, _ => d

/-- A notice for a controller: not repeated while one of its kind waits. -/
def Dev.nvNotice (d : Dev) (f n : Nat) : Dev :=
  if (d.nvme f).notices.contains n then d else (d.updNvme f fun c => { c with notices := c.notices ++ [n] }).nvNotify f

/-- STO_NS as `stoNsEffect`, and the controllers whose namespace it changes hear of it. -/
def nsEffect (k : RegKey) (w : Write) (d : Dev) : Dev :=
  let before := (d.fld F.STO_NS_FUNC 0 k.i, d.fld F.STO_NS_NSID 0 k.i)
  let d' := stoNsEffect k w d
  let changed := d'.word k != d.word k
  let after := (d'.fld F.STO_NS_FUNC 0 k.i, d'.fld F.STO_NS_NSID 0 k.i)
  d'.each (if before = after then [after] else [before, after]) fun (x : Nat × Nat) d =>
    if d.hasNvme x.1 ∧ (d.nvme x.1).rdy ∧ changed then
      let d := d.updNvme x.1 fun c => { c with changed := if c.changed.contains x.2 then c.changed else c.changed ++ [x.2] }
      if bitOf ((d.nvme x.1).feats.at 0 0x0B) 8 then d.nvNotice x.1 0x040002 else d
    else d

/-! ### Controller registers (R258) -/

/-- The registers of a controller by offset, 32 bits each. -/
def Dev.nvRead (d : Dev) (f o : Nat) : Nat :=
  let c := d.nvme f
  match o with
  | 0x00 => 2 * 2 ^ 24 + 2 ^ 16 + 0xFFFF
  | 0x04 => 4 * 2 ^ 20 + 2 ^ 5
  | 0x08 => 0x00020000
  | 0x0C => c.intms
  | 0x10 => c.intms
  | 0x14 => c.cc
  | 0x1C => natOf c.rdy + 2 * natOf c.cfs + 4 * (if c.shut = 0 then 0 else if c.shut = 3 then 2 else 1)
  | 0x24 => c.aqa
  | 0x28 => c.asq % 2 ^ 32
  | 0x2C => c.asq / 2 ^ 32
  | 0x30 => c.acq % 2 ^ 32
  | 0x34 => c.acq / 2 ^ 32
  | _ => 0

/-- CC.EN goes from 0 to 1: the admin queues stand and the controller is ready, or a setting that R258 does not offer stops it. -/
def Dev.nvEnable (d : Dev) (f : Nat) : Dev :=
  let c := d.nvme f
  if bitsOf c.cc 10 7 > 4 ∨ bitsOf c.cc 6 4 ≠ 0 ∨ bitsOf c.cc 13 11 ≠ 0 then d.updNvme f fun c => { c with cfs := true }
  else
    let sq : NvmeQ := { base := c.asq, size := c.aqa % 4096 + 1 }
    let cq : NvmeQ := { base := c.acq, size := bitsOf c.aqa 27 16 + 1, ien := true }
    d.updNvme f fun c => { c with rdy := true, shut := 0, sqs := [(0, some sq)], cqs := [(0, some cq)] }

/-- Commands of a controller abandoned (R262). -/
def Dev.nvAbandon (d : Dev) (f : Nat) (p : StoCmd → Bool) : Dev :=
  let l : NMap StoCmd := d.stoCmds.filter fun e => !(e.2.fn == f && p e.2)
  { d with stoCmds := l }

/-- A command that a submission queue entry started. -/
def StoCmd.ofNvme (c : StoCmd) : Bool :=
  match c.origin with
  | .nvme _ _ => true
  | .nvmeFlush => true
  | _ => false

/-- CC.EN goes to 0: queues and commands are gone, AQA, ASQ and ACQ stay. -/
def Dev.nvDisable (d : Dev) (f : Nat) : Dev :=
  (d.nvAbandon f StoCmd.ofNvme).updNvme f fun c => { cc := c.cc, aqa := c.aqa, asq := c.asq, acq := c.acq }

/-- CC written: EN and SHN act. -/
def Dev.nvWriteCc (d : Dev) (f v : Nat) : Dev :=
  let was := bitOf (d.nvme f).cc 0
  let d := d.updNvme f fun c => { c with cc := v % 2 ^ 24 }
  let d := if bitOf v 0 ∧ ¬ was then d.nvEnable f else if ¬ bitOf v 0 ∧ was then d.nvDisable f else d
  if bitsOf v 15 14 ≠ 0 ∧ (d.nvme f).shut = 0 then d.updNvme f fun c => { c with shut := 1 } else d

/-- A doorbell at an offset: a submission queue's tail or a completion queue's head; a value outside the queue, or a queue that does not exist, is discarded with a notice. -/
def Dev.nvDoorbell (d : Dev) (f o v : Nat) : Dev :=
  let y := (o - 0x1000) / 8
  let c := d.nvme f
  let v := v % 65536
  if ¬ c.rdy then d
  else if (o - 0x1000) / 4 % 2 = 0 then
    match c.sqs.at none y with
    | none => d.nvNotice f 0x010000
    | some q =>
      if q.size ≤ v then d.nvNotice f 0x010100 else d.updNvme f fun c => { c with sqs := c.sqs.set none y (some { q with tail := v }) }
  else
    match c.cqs.at none y with
    | none => d.nvNotice f 0x010000
    | some q =>
      if q.size ≤ v then d.nvNotice f 0x010100 else (d.updNvme f fun c => { c with cqs := c.cqs.set none y (some { q with head := v }) }).nvNotify f

/-- A controller register or doorbell written, 32 bits at an offset of the register area. -/
def Dev.nvWrite (d : Dev) (f o v : Nat) : Dev :=
  if d.passive then d.standbyDrop
  else if ¬ d.hasNvme f then d
  else
    match o with
    | 0x0C => d.updNvme f fun c => { c with intms := c.intms ||| v }
    | 0x10 => d.updNvme f fun c => { c with intms := c.intms &&& (2 ^ 32 - 1 - v % 2 ^ 32) }
    | 0x14 => d.nvWriteCc f v
    | 0x24 => d.updNvme f fun c => { c with aqa := v % 2 ^ 32 }
    | 0x28 => d.updNvme f fun c => { c with asq := c.asq / 2 ^ 32 * 2 ^ 32 + v / 4096 * 4096 }
    | 0x2C => d.updNvme f fun c => { c with asq := v * 2 ^ 32 + c.asq % 2 ^ 32 }
    | 0x30 => d.updNvme f fun c => { c with acq := c.acq / 2 ^ 32 * 2 ^ 32 + v / 4096 * 4096 }
    | 0x34 => d.updNvme f fun c => { c with acq := v * 2 ^ 32 + c.acq % 2 ^ 32 }
    | _ => if 0x1000 ≤ o ∧ o < 0x4000 then (if d.peerWaits then d.queueIntent (.nvme f o v) else d.nvDoorbell f o v) else d

/-- NVME_CC_ENABLE (R258): CC written with EN = 1. -/
def execNvmeCcEnable (fn : Fin 512) (value : Word) (s : State) : Out := s.on fun d =>
  if bitOf value.toNat 0 then d.nvWrite fn.val 0x14 value.toNat else d

/-- NVME_CC_DISABLE (R262): CC written with EN = 0. -/
def execNvmeCcDisable (fn : Fin 512) (value : Word) (s : State) : Out := s.on fun d =>
  if bitOf value.toNat 0 then d else d.nvWrite fn.val 0x14 value.toNat

/-- NVME_SHUTDOWN (R262): CC written with SHN. -/
def execNvmeShutdown (fn : Fin 512) (value : Word) (s : State) : Out := s.on fun d =>
  if bitsOf value.toNat 15 14 = 0 then d else d.nvWrite fn.val 0x14 value.toNat

/-- NVME_DOORBELL (R259): the doorbell of index `index`, in the order of the register area. -/
def execNvmeDoorbell (fn : Fin 512) (index : Fin 2050) (value : Word) (s : State) : Out := s.on fun d =>
  d.nvWrite fn.val (0x1000 + 4 * index.val) value.toNat

/-- Namespaces of a controller on the fabric. -/
def Dev.nvFabric (d : Dev) (f : Nat) : List Nat := d.nsList.filter fun n => d.nsOwned f n && d.nsFabric n

/-- NVME_SHUTDOWN_COMPLETE (R262): once no command is outstanding every fabric path is flushed, and once those FLUSHes have completed SHST shows the end. -/
def execNvmeShutdownComplete (fn : Fin 512) (s : State) : Out := s.on fun d =>
  let f := fn.val
  let c := d.nvme f
  if d.stoCmds.any fun e => e.2.fn == f && e.2.ofNvme then d
  else if c.shut = 1 then
    let l := d.nvFabric f
    if l.isEmpty then d.updNvme f fun c => { c with shut := 3 }
    else (d.each l fun n d => (d.stoStart { fn := f, ns := n, op := 3, origin := .nvmeFlush } [] .good).1).updNvme f fun c => { c with shut := 2 }
  else if c.shut = 2 then d.updNvme f fun c => { c with shut := 3 }
  else d

/-! ### Submission entries -/

def sqeOp (e : List Byte) : Nat := leVal (sliceB e 0 1)
def sqeCid (e : List Byte) : Nat := leVal (sliceB e 2 2)
def sqeNsid (e : List Byte) : Nat := leVal (sliceB e 4 4)
def sqePrp1 (e : List Byte) : Nat := leVal (sliceB e 24 8)
def sqePrp2 (e : List Byte) : Nat := leVal (sliceB e 32 8)
def sqeDw (e : List Byte) (i : Nat) : Nat := leVal (sliceB e (4 * i) 4)

/-- The pieces of a host buffer of `n` bytes that PRP entries name; `list` is the PRP list, when there is one. -/
def prpPieces (page prp1 prp2 : Nat) (list : List Nat) (n : Nat) : List (Nat × Nat) :=
  let first := min n (page - prp1 % page)
  let more := ceilDiv (n - first) page
  (prp1, first) :: (List.range more).map fun i =>
    (if more = 1 then prp2 else list.getD i 0, min page (n - first - page * i))

def adminOps : List Nat := [0, 1, 4, 5, 6, 2, 0x0A, 9, 8, 0x0C]
def ioOps : List Nat := [2, 1, 0, 8, 9]

/-- The entry at the head of a submission queue is fetched when it has the command's opcode, its completion queue has room and the function may issue; an unsupported opcode completes with Invalid Command Opcode, and an entry of a replay set with Command Interrupted (R455). -/
def Dev.nvFetch (d : Dev) (f sq op : Nat) (sqe : List Byte) (go : Nat → Dev → Dev) : Dev :=
  let c := d.nvme f
  match c.sqs.at none sq with
  | none => d
  | some q =>
    if ¬ d.hasNvme f ∨ ¬ c.rdy ∨ q.head = q.tail ∨ ¬ d.canIssue f ∨ ¬ d.readRoom f ∨ ¬ d.nvRoom f q.cq then d
    else
      let known := if sq = 0 then adminOps.contains (sqeOp sqe) else ioOps.contains (sqeOp sqe)
      if known ∧ sqeOp sqe ≠ op then d
      else
        let d := d.fetchNow f (q.base + 64 * q.head) 64 none
        let d := (d.updNvme f fun c => { c with sqs := c.sqs.set none sq (some { q with head := (q.head + 1) % q.size }) }).bump .STO_CNT 0 0
        if q.replay ≠ 0 then (d.updNvme f fun c => { c with sqs := c.sqs.set none sq (some { q with head := (q.head + 1) % q.size, replay := q.replay - 1 }) }).nvPost f q.cq sq (sqeCid sqe) 0 (nvSt 0 0x21 false)
        else if known then go q.cq d else d.nvPost f q.cq sq (sqeCid sqe) 0 (nvSt 0 1 true)

/-- An admin command that completes with a result and a status. -/
def Dev.nvAdmin (d : Dev) (f op : Nat) (sqe : List Byte) (go : Dev → Dev × Nat × Nat) : Dev :=
  d.nvFetch f 0 op sqe fun cq d => let (d, dw0, st) := go d; (d.nvPost f cq 0 (sqeCid sqe) dw0 st).nvNotify f

/-- The namespace that an NSID names at a controller. -/
def Dev.nvNs (d : Dev) (f nsid : Nat) : Option Nat := d.nsList.find? fun n => d.nsOwned f n && d.fld F.STO_NS_NSID 0 n == nsid

/-! ### Admin commands -/

/-- NVME_CREATE_IO_CQ (R259). -/
def execNvmeCreateIoCq (fn : Fin 512) (sqe : List Byte) (s : State) : Out := s.on fun d =>
  let f := fn.val
  d.nvAdmin f 5 sqe fun d =>
    let id := sqeDw sqe 10 % 65536
    let n := sqeDw sqe 10 / 65536
    let dw := sqeDw sqe 11
    if id = 0 ∨ (d.res f).ioqMax < id ∨ ((d.nvme f).cqs.at none id).isSome then (d, 0, nvSt 1 1 true)
    else if n = 0 then (d, 0, nvSt 1 2 true)
    else if ¬ bitOf dw 0 then (d, 0, nvSt 0 2 true)
    else if (d.res f).vecCnt ≤ dw / 65536 then (d, 0, nvSt 1 8 true)
    else
      let q : NvmeQ := { base := sqePrp1 sqe, size := n + 1, iv := dw / 65536, ien := bitOf dw 1 }
      (d.updNvme f fun c => { c with cqs := c.cqs.set none id (some q) }, 0, 0)

/-- NVME_CREATE_IO_SQ (R259). -/
def execNvmeCreateIoSq (fn : Fin 512) (sqe : List Byte) (s : State) : Out := s.on fun d =>
  let f := fn.val
  d.nvAdmin f 1 sqe fun d =>
    let id := sqeDw sqe 10 % 65536
    let n := sqeDw sqe 10 / 65536
    let dw := sqeDw sqe 11
    if id = 0 ∨ (d.res f).ioqMax < id ∨ ((d.nvme f).sqs.at none id).isSome then (d, 0, nvSt 1 1 true)
    else if n = 0 then (d, 0, nvSt 1 2 true)
    else if dw / 65536 = 0 ∨ ((d.nvme f).cqs.at none (dw / 65536)).isNone then (d, 0, nvSt 1 0 true)
    else if ¬ bitOf dw 0 then (d, 0, nvSt 0 2 true)
    else
      let q : NvmeQ := { base := sqePrp1 sqe, size := n + 1, cq := dw / 65536 }
      (d.updNvme f fun c => { c with sqs := c.sqs.set none id (some q) }, 0, 0)

/-- NVME_DELETE_IO_SQ (R259): its outstanding commands are abandoned with it. -/
def execNvmeDeleteIoSq (fn : Fin 512) (sqe : List Byte) (s : State) : Out := s.on fun d =>
  let f := fn.val
  d.nvAdmin f 0 sqe fun d =>
    let id := sqeDw sqe 10 % 65536
    if id = 0 ∨ ((d.nvme f).sqs.at none id).isNone then (d, 0, nvSt 1 1 true)
    else
      let of_ (c : StoCmd) : Bool := match c.origin with
        | .nvme q _ => q == id
        | _ => false
      ((d.nvAbandon f of_).updNvme f fun c => { c with sqs := c.sqs.set none id none }, 0, 0)

/-- NVME_DELETE_IO_CQ (R259). -/
def execNvmeDeleteIoCq (fn : Fin 512) (sqe : List Byte) (s : State) : Out := s.on fun d =>
  let f := fn.val
  d.nvAdmin f 4 sqe fun d =>
    let id := sqeDw sqe 10 % 65536
    let used := (d.nvme f).sqs.any fun e => e.1 != 0 && (match e.2 with
      | some q => q.cq == id
      | none => false)
    if id = 0 ∨ ((d.nvme f).cqs.at none id).isNone then (d, 0, nvSt 1 1 true)
    else if used then (d, 0, nvSt 1 0x0C true)
    else (d.updNvme f fun c => { c with cqs := c.cqs.set none id none }, 0, 0)

/-- A structure whose bytes the manual fixes at some positions only; the rest is free. -/
def nvStruct (f kind n : Nat) (fixed : List (Nat × List Byte)) : List Byte :=
  fixed.foldl (fun b e => overB b e.1 e.2) ((List.range n).map fun i => BitVec.ofNat 8 (Config.nvmeByte f kind i))

/-- The Identify structure of a CNS, if the NSID allows it. -/
def Dev.identify (d : Dev) (f cns nsid : Nat) : Option (List Byte) :=
  match cns with
  | 0 =>
    if nsid = 0 ∨ 255 < nsid then none
    else
      match d.nvNs f nsid with
      | none => some (List.replicate 4096 0)
      | some n =>
        let size := leBytes 8 (d.nsSize n)
        some (nvStruct f 0 4096 [(0, size), (8, size), (16, size), (25, [0]), (26, [0]), (128, leBytes 4 ((if d.flag F.STO_NS_BS4K 0 n then 12 else 9) * 65536))])
  | 1 => some (nvStruct f 1 4096 [(77, [8]), (80, leBytes 4 0x20000), (256, leBytes 2 0), (512, [0x66, 0x44]), (516, leBytes 4 255),
      (520, leBytes 2 0x0C), (525, [1]), (536, leBytes 4 0)])
  | 2 =>
    let ids := (List.range 256).filter fun i => decide (nsid < i) && (d.nvNs f i).isSome
    some (sliceB (ids.map (leBytes 4)).flatten 0 4096)
  | 3 => if (d.nvNs f nsid).isNone then none else some (sliceB ([3, 16, 0, 0] ++ nvStruct f 3 16 []) 0 4096)
  | _ => none

/-- The PRP list of a buffer read, when it needs one. -/
def Dev.fetchList (d : Dev) (f prp2 : Nat) (ps : List (Nat × Nat)) : Dev :=
  d.onlyIf (decide (2 < ps.length)) fun d => d.fetchPieces f [(prp2, 8 * (ps.length - 1))] .good

/-- Data of an admin command delivered to the host. -/
def Dev.nvData (d : Dev) (f : Nat) (sqe : List Byte) (list : List Nat) (bs : List Byte) : Dev :=
  (d.fetchList f (sqePrp2 sqe) (prpPieces (d.nvme f).pageBytes (sqePrp1 sqe) (sqePrp2 sqe) list bs.length)).deliver f (prpPieces (d.nvme f).pageBytes (sqePrp1 sqe) (sqePrp2 sqe) list bs.length) bs []

/-- NVME_IDENTIFY (R258, R259). -/
def execNvmeIdentify (fn : Fin 512) (sqe : List Byte) (s : State) : Out := s.on fun d =>
  let f := fn.val
  d.nvAdmin f 6 sqe fun d =>
    let cns := sqeDw sqe 10 % 256
    if 3 < cns then (d, 0, nvSt 0 2 true)
    else
      match d.identify f cns (sqeNsid sqe) with
      | none => (d, 0, nvSt 0 0x0B true)
      | some bs => (d.nvData f sqe [] bs, 0, 0)

/-- NVME_GET_LOG_PAGE (R259): `list` is the PRP list, when the buffer needs one. -/
def execNvmeGetLogPage (fn : Fin 512) (sqe : List Byte) (list : List Nat) (s : State) : Out := s.on fun d =>
  let f := fn.val
  d.nvAdmin f 2 sqe fun d =>
    let lid := sqeDw sqe 10 % 256
    let n := 4 * (sqeDw sqe 10 / 65536 + sqeDw sqe 11 % 65536 * 65536 + 1)
    let o := sqeDw sqe 13 * 2 ^ 32 + sqeDw sqe 12
    if 1048576 < n then (d, 0, nvSt 0 2 true)
    else
      match lid with
      | 1 => (d.nvData f sqe list ((nvStruct f 257 (o + n) []).drop o), 0, 0)
      | 2 => (d.nvData f sqe list ((nvStruct f 258 (o + n) []).drop o), 0, 0)
      | 4 =>
        let bs := sliceB (((d.nvme f).changed.map (leBytes 4)).flatten) o n
        ((d.nvData f sqe list bs).updNvme f fun c => { c with changed := [] }, 0, 0)
      | _ => (d, 0, nvSt 1 9 true)

def featIds : List Nat := [1, 6, 7, 8, 9, 0x0B]

/-- The value of a feature; the interrupt vector configuration is one per vector. -/
def Dev.feature (d : Dev) (f id dw11 : Nat) : Nat :=
  let m := (d.res f).ioqMax - 1
  if id = 7 then m * 65536 + m else (d.nvme f).feats.at 0 (if id = 9 then 65536 + dw11 % 65536 else id)

/-- NVME_GET_FEATURES (R259). -/
def execNvmeGetFeatures (fn : Fin 512) (sqe : List Byte) (s : State) : Out := s.on fun d =>
  let f := fn.val
  d.nvAdmin f 0x0A sqe fun d =>
    let id := sqeDw sqe 10 % 256
    let sel := bitsOf (sqeDw sqe 10) 10 8
    if ¬ featIds.contains id then (d, 0, nvSt 0 2 true)
    else if sel = 3 then (d, 4, 0)
    else if sel = 0 ∨ id = 7 then (d, d.feature f id (sqeDw sqe 11), 0)
    else (d, 0, 0)

/-- NVME_SET_FEATURES (R259). -/
def execNvmeSetFeatures (fn : Fin 512) (sqe : List Byte) (s : State) : Out := s.on fun d =>
  let f := fn.val
  d.nvAdmin f 9 sqe fun d =>
    let id := sqeDw sqe 10 % 256
    let v := sqeDw sqe 11
    if ¬ featIds.contains id then (d, 0, nvSt 0 2 true)
    else if bitOf (sqeDw sqe 10) 31 then (d, 0, nvSt 1 0x0D true)
    else if id = 7 then
      if v % 65536 = 65535 ∨ v / 65536 = 65535 then (d, 0, nvSt 0 2 true)
      else if 1 < (d.nvme f).sqs.length ∨ 1 < (d.nvme f).cqs.length then (d, 0, nvSt 0 0x0C true)
      else (d, d.feature f 7 0, 0)
    else (d.updNvme f fun c => { c with feats := if id = 9 then c.feats.set 0 (65536 + v % 65536) v else c.feats.set 0 id v }, 0, 0)

/-- NVME_ABORT (R259): the command named is not aborted, as DW0 bit 0 says. -/
def execNvmeAbort (fn : Fin 512) (sqe : List Byte) (s : State) : Out := s.on fun d =>
  d.nvAdmin fn.val 8 sqe fun d => (d, 1, 0)

/-- NVME_ASYNC_EVENT_REQUEST (R259): it waits for a notice, or is refused beyond the limit that Identify reports. -/
def execNvmeAsyncEventRequest (fn : Fin 512) (sqe : List Byte) (s : State) : Out := s.on fun d =>
  let f := fn.val
  d.nvFetch f 0 0x0C sqe fun cq d =>
    if Config.nvmeByte f 1 259 % 256 < (d.nvme f).aers.length then d.nvPost f cq 0 (sqeCid sqe) 0 (nvSt 1 5 true)
    else (d.updNvme f fun c => { c with aers := c.aers ++ [sqeCid sqe] }).nvNotify f

/-! ### I/O commands (R260, R261) -/

/-- The status of an outcome (R261). -/
def StoEnd.nvStatus : StoEnd → Nat
  | .ok => 0
  | .lengthBad => nvSt 0 2 true
  | .lbaRange => nvSt 0 0x80 true
  | .badOpcode => nvSt 0 1 true
  | .pathLost => nvSt 3 0 false
  | .medium st => st
  | .srcPoison => nvSt 0 4 true
  | .hostAccess => nvSt 0 6 true
  | .readPoison => nvSt 2 0x81 true
  | .replay => nvSt 0 0x21 false

/-- A range of a Dataset Management list lies outside a namespace: 16 bytes each, with the count of blocks at 4 and the first block at 8. -/
def Dev.rangesOut (d : Dev) (n count : Nat) (data : List Byte) : Bool :=
  (List.range count).any fun i => decide (d.nsSize n < leVal (sliceB data (16 * i + 8) 8) + leVal (sliceB data (16 * i + 4) 4))

/-- An I/O command started from its entry: operation 1 read, 2 write, 3 flush, 4 write zeroes, 5 Dataset Management, whose source is its list of ranges. -/
def Dev.nvIo (d : Dev) (f sq op code : Nat) (sqe : List Byte) (list : List Nat) (data : List Byte) (ends : ReadEnd) : Dev :=
  if sq = 0 then d
  else d.nvFetch f sq code sqe fun cq d =>
    let cid := sqeCid sqe
    let now := d.clk.now
    match d.nvNs f (sqeNsid sqe) with
    | none => d.nvPost f cq sq cid 0 (nvSt 0 0x0B true)
    | some n =>
      let ranged := op = 1 ∨ op = 2 ∨ op = 4
      let lba := if ranged ∨ op = 5 then sqeDw sqe 11 * 2 ^ 32 + sqeDw sqe 10 else 0
      let blocks := if ranged then sqeDw sqe 12 % 65536 + 1 else 0
      let len := if op ≤ 2 then blocks * d.nsBlock n else if op = 5 then 16 * (sqeDw sqe 10 % 256 + 1) else 0
      if 1048576 < len then d.nvPost f cq sq cid 0 (nvSt 0 2 true)
      else if (ranged ∧ d.nsSize n < lba + blocks) ∨ (op = 5 ∧ d.rangesOut n (sqeDw sqe 10 % 256 + 1) data) then d.nvPost f cq sq cid 0 (nvSt 0 0x80 true)
      else
        let ps := if len = 0 then [] else prpPieces (d.nvme f).pageBytes (sqePrp1 sqe) (sqePrp2 sqe) list len
        let c : StoCmd := { fn := f, ns := n, op := op, lba := lba, blocks := blocks, fua := ranged && bitOf (sqeDw sqe 12) 30, pieces := ps, origin := .nvme sq cid }
        let (d, e) := (d.fetchList f (sqePrp2 sqe) ps).stoStart c data ends
        match e with
        | some e => (d.nvPost f cq sq cid 0 e.nvStatus).stoLatency now
        | none => d

/-- NVME_READ (R260): `list` is the PRP list, when the buffer needs one. -/
def execNvmeRead (fn : Fin 512) (sq : Fin 1025) (sqe : List Byte) (list : List Nat) (s : State) : Out := s.on fun d =>
  d.nvIo fn.val sq.val 1 2 sqe list [] .good

/-- NVME_WRITE (R256, R260): `list` is the PRP list, when the buffer needs one, `src` what the buffer holds and how the reads of it end. -/
def execNvmeWrite (fn : Fin 512) (sq : Fin 1025) (sqe : List Byte) (list : List Nat) (src : HostBytes) (s : State) : Out := s.on fun d =>
  d.nvIo fn.val sq.val 2 1 sqe list src.data src.ends

/-- NVME_FLUSH (R260). -/
def execNvmeFlush (fn : Fin 512) (sq : Fin 1025) (sqe : List Byte) (s : State) : Out := s.on fun d =>
  d.nvIo fn.val sq.val 3 0 sqe [] [] .good

/-- NVME_WRITE_ZEROES (R259). -/
def execNvmeWriteZeroes (fn : Fin 512) (sq : Fin 1025) (sqe : List Byte) (s : State) : Out := s.on fun d =>
  d.nvIo fn.val sq.val 4 8 sqe [] [] .good

/-- NVME_DATASET_MANAGEMENT (R259): `cmd` holds the list of ranges; on the fabric the target gets the command with its list, and a deallocation leaves the data of a DRAM namespace as it was. -/
def execNvmeDatasetManagement (fn : Fin 512) (sq : Fin 1025) (cmd : SqeBytes) (s : State) : Out := s.on fun d =>
  d.nvIo fn.val sq.val 5 9 cmd.sqe [] cmd.data cmd.ends

/-! ### Backing paths (R253, R254) -/

/-- A command on a backing path that has its outcome is finished towards its interface; an NVMe entry waits for room in its queue, and a tag for CBF_COMMAND_END. -/
def Dev.settleSto (d : Dev) (i : Nat) (c : StoCmd) (e : StoEnd) : Dev :=
  match c.origin with
  | .cbf t => (d.dropSto i).endTag c.fn t c.op e (e.moved (c.bytes d))
  | .cbfFlush n => (d.dropSto i).updCbf c.fn fun b => if e = .ok then { b with flushed := max b.flushed n } else b
  | .nvmeFlush => d.dropSto i
  | .nvme sq cid =>
    match (d.nvme c.fn).sqs.at none sq with
    | none => d.dropSto i
    | some q =>
      if ¬ d.nvRoom c.fn q.cq ∨ ¬ d.canIssue c.fn then d.setSto i { c with outcome := some e }
      else ((d.dropSto i).nvPost c.fn q.cq sq cid 0 e.nvStatus).stoLatency c.at_

/-- FABRIC_COMMAND_COMPLETE (R254): the command with a number completes: from its target, with a status (0 success, else code and type as the target gives them) and the data of a read, or with the path error that it already has. -/
def execFabricCommandComplete (id status : Nat) (data : List Byte) (ep : Bool) (s : State) : Out := s.on fun d =>
  let c := d.stoCmd id
  if c.path.isNone then d
  else
    match c.outcome with
    | some e => d.settleSto id c e
    | none => let (d, e) := d.targetEnd c status data ep; d.settleSto id c e

/-- PATH_DOWN (R253): firmware writes a path's entry, or an RDMA path follows its QP into ERROR. -/
def execPathDown (path : Fin 255) (ws : List Write) (s : State) : Out := s.on fun d =>
  let p := path.val
  let q := d.qctx (d.fld F.STO_PATH_HANDLE 0 p)
  if d.pathLive p ∧ d.fld F.STO_PATH_KIND 0 p = 0 ∧ q.state = 4 then d.pathDown p
  else d.writeReg ⟨.STO_PATH, 0, p, 0⟩ ws stoPathEffect

/-- A controller and a compact block function as a function's reset leaves them (R262, R268, R270). -/
def Dev.stoReset (d : Dev) (f : Nat) : Dev :=
  let d := d.cbfReset f
  { d with nvmes := d.nvmes.set {} f {} }

end Sys2Proof.Machine
end

