-- ==== Sys2Proof/Machine/ErrLog.lean ====
section
/-! DEFINITION. The error log, threads of service cores and the Keystone as interrupt targets, and the chip safe state (R194, R324 to R327, R416 to R421). -/

namespace Sys2Proof.Machine

open Sys2Proof

/-! ### Threads as interrupt targets -/

/-- The Keystone's thread number. -/
def keystoneThr : Nat := 104

/-- A thread as reset leaves it: PRIV is S on a service core and M on the Keystone (R327). -/
def thrReset (k : Nat) : Thr := if k = keystoneThr then { tstate := 2 } else {}

def Dev.thr (d : Dev) (k : Nat) : Thr := d.thrs.at (thrReset k) k

def Dev.updThr (d : Dev) (k : Nat) (f : Thr → Thr) : Dev := { d with thrs := d.thrs.set (thrReset k) k (f (d.thr k)) }

/-- EXT raised by the chip event logic at a thread of a service core (R421). The manual gives no way to clear it: it stays until its interrupt is taken. DESIGN CHOICE, entry 30. -/
def Dev.raiseExt (d : Dev) (sc t : Nat) : Dev := d.updThr (2 * sc + t) fun x => { x with ext := true }

/-! ### The error log (R421) -/

/-- One entry of the error log: class (0 CORRECTED, 1 CONTAINED, 2 REGION, 3 FATAL), mechanism code, cell kind and number, action and detail. A standby that takes an error of class REGION or above leaves for DETACHED (R452, R457). -/
def Dev.logError (d : Dev) (cls mech kind cell action detail : Nat) : Dev :=
  let x := d.fld F.ERR_STAT_NEXT
  let d := d.onlyIf (d.flag F.ERR_LOG_VALID 0 x) fun d => d.setChip F.ERR_STAT_OVF 1
  let d := d.setFld F.ERR_LOG_STAMP_LO 0 x d.stamp
  let d := d.setWord ⟨.ERR_LOG, 0, x, 1⟩ (BitVec.ofNat 32 (2 ^ 31 + cls * 2 ^ 29 + mech * 2 ^ 25 + kind * 2 ^ 21 + d.stamp / 2 ^ 32))
  let d := d.setWord ⟨.ERR_LOG, 0, x, 2⟩ (BitVec.ofNat 32 (action * 2 ^ 24 + cell))
  let d := d.setFld F.ERR_LOG_DETAIL 0 x detail
  let d := d.setChip F.ERR_STAT_NEXT (x + 1)
  let d := d.onlyIf (decide (2 ≤ cls) && d.mirrored) fun d => d.setChip F.PAIR_STAT_STATE 5
  d.onlyIf (d.flag F.ERR_CTL_EXT_EN) fun d => d.raiseExt (d.fld F.ERR_CTL_EXT_SC) (d.fld F.ERR_CTL_EXT_T)

/-- Counters of the error block. -/
def Dev.errCount (d : Dev) (k : Nat) (n : Nat := 1) : Dev := d.bump .ERR_CNT 0 k n

/-! ### Pins of the fault state -/

/-- FAULT_N driven: low when asserted (R473). -/
def Dev.setFault (d : Dev) (on : Bool) : Dev :=
  if d.safety.fault = on then d else { d with safety := { d.safety with fault := on } }.emit (.pin "FAULT_N" (!on))

/-- ACTIVE_N driven: low when asserted, released otherwise. -/
def Dev.setActive (d : Dev) (on : Bool) : Dev :=
  if d.safety.active = on then d else { d with safety := { d.safety with active := on } }.emit (.pin "ACTIVE_N" (!on))

/-- A latent fault: LATENT set and FAULT_N asserted (R434, R437, R439). -/
def Dev.latent (d : Dev) : Dev := (d.setChip F.ERR_STAT_LATENT 1).setFault true

/-! ### Cells and scopes (R425) -/

/-- Cells of a scope, kinds 1 to 8; the last of them is the spare at manufacture. -/
def scopeSize : Nat → Nat
  | 1 => 17 | 2 => 13 | 3 => 17 | 4 => 13 | 6 => 5 | 7 => 17 | 8 => 5 | _ => 1

/-- Cells of a kind. -/
def cellCount : Nat → Nat
  | 1 => 272 | 2 => 52 | 3 => 680 | 4 => 52 | 5 => 16 | 6 => 20 | 7 => 68 | 8 => 10 | 9 => 64 | _ => 0

/-- Kinds that have spare cells. -/
def hasSpares (kind : Nat) : Bool := [1, 2, 3, 4, 6, 7, 8].contains kind

/-- SPARES_LOW is raised when the spares left of a kind fall below this. -/
def sparesLow (kind : Nat) : Nat := if kind = 1 then 4 else if kind = 3 then 10 else 1

/-- The region of a cell; the Flume lanes have none. -/
def cellRegion (kind n : Nat) : Option Nat :=
  match kind with
  | 1 => some (n / 68)
  | 2 => some (n / 13)
  | 3 => some (n / 170)
  | 4 => some (n / 13)
  | 5 => some (n / 4)
  | 6 => some (n / 5)
  | 7 => some (n / 17)
  | 9 => some (n / 16)
  | _ => none

def cellKey (kind n : Nat) : Nat := 65536 * kind + n
def scopeKey (kind n : Nat) : Nat := 65536 * kind + n / scopeSize kind
def spareCell (kind n : Nat) : Nat := n / scopeSize kind * scopeSize kind + scopeSize kind - 1

/-- A cell is fenced or retired. -/
def Dev.cellGone (d : Dev) (kind n : Nat) : Bool := d.safety.gone.contains (cellKey kind n)

/-- The scope of a cell has a spare left. -/
def Dev.spareLeft (d : Dev) (kind n : Nat) : Bool :=
  hasSpares kind && !d.safety.spareUsed.contains (scopeKey kind n) && !d.cellGone kind (spareCell kind n)

/-- The cell is the unused spare of its scope. -/
def Dev.isSpare (d : Dev) (kind n : Nat) : Bool := hasSpares kind && n == spareCell kind n && !d.safety.spareUsed.contains (scopeKey kind n)

def Dev.safe (d : Dev) (f : Safety → Safety) : Dev := { d with safety := f d.safety }

/-! ### Superseded actions (R14) -/

/-- A handler acts on the cells that a test picks: substitutions and self-tests pending there are cancelled, each recorded with the index of the handler's log entry, and a cell whose substitution is cancelled consumes no spare. -/
def Dev.supersede (d : Dev) (hit : Nat → Nat → Bool) : Dev :=
  let e := (d.fld F.ERR_STAT_NEXT + 63) % 64
  let subs := d.safety.subs.filter fun s => hit s.1 s.2.1
  let tests := d.safety.tests.filter fun t => hit t.kind t.cell
  let d := d.each subs fun (x : Nat × Nat × Nat) d =>
    let d := d.setFld F.SPARE_STAT_LEFT 0 x.1 (d.fld F.SPARE_STAT_LEFT 0 x.1 + 1)
    (d.setFld F.SPARE_STAT_RETIRED 0 x.1 (d.fld F.SPARE_STAT_RETIRED 0 x.1 - 1)).safe fun f =>
      { f with gone := f.gone.erase (cellKey x.1 x.2.1), spareUsed := f.spareUsed.erase (scopeKey x.1 x.2.1) }
  d.safe fun f =>
    { f with subs := f.subs.filter fun s => !hit s.1 s.2.1, tests := f.tests.filter fun t => !hit t.kind t.cell
             superseded := f.superseded ++ (subs.map fun s => (e, s.1, s.2.1)) ++ tests.map fun t => (e, t.kind, t.cell) }

/-! ### The safe state (R417, R447) -/

/-- The Flume controller stops: no heartbeats, ACTIVE_N deasserted, every Ethernet transmitter squelched (R447). -/
def Dev.stopFlume (d : Dev) : Dev := { d with pair := { d.pair with squelched := true } }.setActive false

/-- Host functions that can send a message: those enabled, rising. -/
def Dev.liveFns (d : Dev) : List Nat := (d.fns.filter fun e => e.2.enabled).map (·.1)

/-- The chip safe state (R417): transmitters squelched, ERR_FATAL sent on the links, FAULT_N asserted and ACTIVE_N deasserted, and what lower handlers had under way superseded (R14). It is complete in the cycle of the detection, within the millisecond that R417 allows. -/
def Dev.enterSafe (d : Dev) : Dev :=
  if d.flag F.ERR_STAT_SAFE then d
  else
    let d := (d.setChip F.ERR_STAT_SAFE 1).stopFlume.setFault true
    let d := d.each ((List.range 16).filter d.portUp) fun p d => d.toDisabled p
    let d := d.each ((List.range 8).filter fun l => d.flag F.HIF_LINK_STAT_UP 0 l) fun l d =>
      (d.each (d.pfsOn (l / 4) (l % 4)) fun p d => d.recordError p aerInternal).emit (.linkFatal l)
    (d.supersede fun _ _ => true).safe fun f => { f with safeAt := some d.clk.now, restores := [] }

/-- A FATAL error: logged, and the safe state entered (R416, R417). -/
def Dev.fatal (d : Dev) (mech kind cell detail : Nat) : Dev :=
  (d.logError 3 mech kind cell (if d.flag F.ERR_STAT_SAFE then 0 else 6) detail).enterSafe

end Sys2Proof.Machine
end

