-- ==== Sys2Proof/Machine/Cores.lean ====
section
/-! DEFINITION. Packet cores and service cores apart from their instructions: contexts, issue slots, channels, thread pools and the dispatcher, starting and stopping cores, and the coherence directory (R335 to R360). -/

namespace Sys2Proof.Machine

open Sys2Proof

/-! ### Contexts -/

def coreRegion (c : Nat) : Nat := c / 68
def coreIndex (c : Nat) : Nat := c % 68
/-- The block of a packet core, 0 to 15 over the chip. -/
def coreBlock (c : Nat) : Nat := c / 17

def Dev.ctx (d : Dev) (c t : Nat) : Ctx := d.ctxs.at {} (16 * c + t)
def Dev.updCtx (d : Dev) (c t : Nat) (f : Ctx → Ctx) : Dev := { d with ctxs := d.ctxs.upd {} (16 * c + t) f }
def Dev.pktCore (d : Dev) (c : Nat) : PktCore := d.pktCores.at {} c
def Dev.updCore (d : Dev) (c : Nat) (f : PktCore → PktCore) : Dev := { d with pktCores := d.pktCores.upd {} c f }

/-- `PCB_CORE.STATE`: 0 stopped, 1 running, 2 fenced. -/
def Dev.coreState (d : Dev) (c : Nat) : Nat := d.fld F.PCB_CORE_STATE (coreRegion c) (coreIndex c)
def Dev.setCoreState (d : Dev) (c v : Nat) : Dev := d.setFld F.PCB_CORE_STATE (coreRegion c) (coreIndex c) v

/-- The CLK_PKT cycle in progress or next to come: four in every three of CLK_PIPE (R26). -/
def Dev.pktNow (d : Dev) : Nat := (d.clk.now * 4 + 2) / 3

/-- The context's next issue slot (R335): the first CLK_PKT cycle x with x mod 16 equal to its number in which it may issue. -/
def Dev.nextSlot (d : Dev) (c t : Nat) : Nat :=
  let m := max d.pktNow (d.ctx c t).next
  m + (t + 16 - m % 16) % 16

/-- The clock runs to a slot, and the context takes it. -/
def Dev.takeSlot (d : Dev) (c t x : Nat) : Dev := (d.advanceTo (x * 3 / 4)).updCtx c t fun k => { k with next := x + 1 }

/-- Where local memory of a packet core and the code store of a block are kept: beside memory, above every internal address (R340, R342). -/
def localBase (c : Nat) : Nat := 2 ^ 48 + c * 2 ^ 18
def codeBase (b : Nat) : Nat := 2 ^ 49 + b * 65536

/-! ### Channels (R343 to R345) -/

def Dev.fifo (d : Dev) (b f : Nat) : List (DWord × Nat) := d.fifos.at [] (256 * b + f)
def Dev.setFifo (d : Dev) (b f : Nat) (l : List (DWord × Nat)) : Dev := { d with fifos := d.fifos.set [] (256 * b + f) l }

/-- The FIFO that a channel of a context is bound to, and whether as a write end. -/
def Dev.bound (d : Dev) (c t ch : Nat) : Option (Nat × Bool) := ((d.pktCore c).binds.find? fun b => b.1 == 32 * t + ch).map (·.2)

/-- The core of a block that holds the read end of a FIFO. -/
def Dev.readerOf (d : Dev) (b f : Nat) : Option Nat :=
  ((List.range 17).map (17 * b + ·)).find? fun c => (d.pktCore c).binds.any fun x => x.2.1 == f && !x.2.2

/-- The FIFO's read end lay on a core that is stopped (R351). -/
def Dev.fifoDead (d : Dev) (b f : Nat) : Bool :=
  (d.readerOf b f).isNone && ((List.range 17).map (17 * b + ·)).any fun c => d.coreState c != 1 && (d.pktCore c).dead.contains f

/-- The readable words of a FIFO in CLK_PKT cycle x: those appended before it (R345). -/
def readable (l : List (DWord × Nat)) (x : Nat) : Nat := (l.filter fun w => decide (w.2 < x)).length

/-- Messages of the fault queue enter c2 while it has room for two words (R350). -/
def pumpFaults : List DWord → List (DWord × DWord) → List DWord × List (DWord × DWord)
  | c2, [] => (c2, [])
  | c2, m :: t => if c2.length ≤ 2 then pumpFaults (c2 ++ [m.1, m.2]) t else (c2, m :: t)

/-- A fault message sent to c2 of the supervisor (R349, R350). -/
def Dev.sendFault (d : Dev) (c t cause pc : Nat) (tinfo : DWord) : Dev :=
  d.updCore c fun k =>
    let q := pumpFaults k.c2 (k.faults ++ [(BitVec.ofNat 64 (pc % 65536 * 65536 + t * 256 + cause), tinfo)])
    { k with c2 := q.1, faults := q.2 }

/-! ### Packets held by contexts (R337, R347, R351) -/

/-- The current packet of a context is discarded and counted: 1 CORE_DROP, 2 FAULT_DROP. -/
def Dev.dropCurrent (d : Dev) (c t counter : Nat) : Dev :=
  match (d.ctx c t).current with
  | none => d
  | some id => ((d.updCtx c t fun k => { k with current := none }).bump .PCB_CNT (coreRegion c) counter).freePkt id

/-- A packet waiting in c0 returns to the head of its pool queue. -/
def Dev.returnInbox (d : Dev) (c t : Nat) : Dev :=
  match (d.ctx c t).inbox with
  | none => d
  | some (id, p, _) =>
    let r := coreRegion c
    let d := (d.updCtx c t fun k => { k with inbox := none }).updPkt id fun k => { k with place := .pool p }
    let d := { d with poolQ := d.poolQ.upd [] (64 * r + p) (id :: ·) }
    d.showPool r p

/-- The children of a context that leaves RUN or HALTED lose their parent; those that are DONE are freed (R337). -/
def Dev.orphan (d : Dev) (c t : Nat) : Dev :=
  d.each (List.range 16) fun u d =>
    if (d.ctx c u).parent = some t ∧ u ≠ t then
      d.updCtx c u fun k => if k.st = 2 then { k with st := 0, parent := none } else { k with parent := none }
    else d

/-- A context ends with a value (R337): DONE while its parent is RUN or HALTED, else FREE. -/
def Dev.endCtx (d : Dev) (c t : Nat) (v : DWord) : Dev :=
  let d := (d.dropCurrent c t 1).returnInbox c t
  let kept : Bool := match (d.ctx c t).parent with
    | some p => (d.ctx c p).st == 1 || (d.ctx c p).st == 3
    | none => false
  let d := d.updCtx c t fun k =>
    { k with st := if kept then 2 else 0, parent := if kept then k.parent else none, value := v, results := [], ops := [], blocked := none }
  d.orphan c t

/-- A trap of a context at T halts it (R349). -/
def Dev.haltCtx (d : Dev) (c t cause pc : Nat) (tinfo : DWord) : Dev :=
  let d := (d.dropCurrent c t 2).returnInbox c t
  let d := d.updCtx c t fun k => { k with st := 3, results := [], ops := [], blocked := none }
  d.sendFault c t cause pc tinfo

/-- A core stops (R351): contexts FREE, current packets discarded, waiting packets returned, fault queue and bindings cleared, FIFOs whose read end it held emptied. Stores that are outstanding stay so. `counter` 2 is FAULT_DROP; 9 counts the current packets in UNIT_LOSS. -/
def Dev.stopCore (d : Dev) (c counter : Nat) : Dev :=
  let d := d.each (List.range 16) fun t d =>
    let d := if counter = 9 then
        match (d.ctx c t).current with
        | some id => ((d.updCtx c t fun k => { k with current := none }).errCount 2).freePkt id
        | none => d
      else d.dropCurrent c t counter
    let d := d.returnInbox c t
    d.updCtx c t fun k => { stores := k.stores, next := k.next }
  let read := ((d.pktCore c).binds.filter fun b => !b.2.2).map (·.2.1)
  let d := d.each read fun f d => d.setFifo (coreBlock c) f []
  let d := d.updCore c fun k => { k with c2 := [], faults := [], binds := [], bindResult := 0, dead := read }
  d.setCoreState c 0

/-- A core starts: context 0 runs at ENTRY (R337). Its registers are 0. DESIGN CHOICE, entry 31. -/
def Dev.startCore (d : Dev) (c : Nat) : Dev :=
  let pc := d.fld F.PCB_CORE_ENTRY (coreRegion c) (coreIndex c)
  ((d.updCtx c 0 fun k => { st := 1, pc := pc, stores := k.stores, next := k.next }).updCore c fun k => { k with dead := [] }).setCoreState c 1

/-- PCB_CORE word 0 (R351, R359): SFAULT cleared by W1C, ENTRY and RUN taken; RUN = 1 starts a stopped core, and is discarded while SFAULT = 1; RUN = 0 stops a running one. -/
def pcbCoreEffect (k : RegKey) (w : Write) (d : Dev) : Dev :=
  let c := 68 * k.n + k.i
  if k.w ≠ 0 then d
  else if bitOf w.value.toNat 31 then
    if d.flag F.PCB_CORE_SFAULT k.n k.i then d
    else
      let d := d.plainWrite k w.value
      if d.coreState c = 0 then d.startCore c else d
  else
    let d := d.plainWrite k w.value
    if d.coreState c = 1 then d.stopCore c 2 else d

/-- CORE_RUN (R351): a write of PCB_CORE. -/
def execCoreRun (region : Fin 4) (core : Fin 68) (ws : List Write) (s : State) : Out := s.on fun d =>
  d.writeReg ⟨.PCB_CORE, region.val, core.val, 0⟩ ws pcbCoreEffect

/-- CORE_STOP (R351): a write of PCB_CORE. -/
def execCoreStop (region : Fin 4) (core : Fin 68) (ws : List Write) (s : State) : Out := s.on fun d =>
  d.writeReg ⟨.PCB_CORE, region.val, core.val, 0⟩ ws pcbCoreEffect

/-- PCB_CTL: ACK_US of 1 to 65,535 and OWNER of 0 to 51. -/
def pcbCtlEffect (k : RegKey) (w : Write) (d : Dev) : Dev :=
  if F.PCB_CTL_ACK_US.ofWord w.value = 0 then d else d.plainWrite k w.value

/-- PCB_POOLMAP: pool 63 is discarded. -/
def poolmapEffect (k : RegKey) (w : Write) (d : Dev) : Dev :=
  if F.PCB_POOLMAP_POOL.ofWord w.value = 63 then d else d.plainWrite k w.value

/-- PCB_POOLCFG: QMAX of at most 8,192. -/
def poolcfgEffect (k : RegKey) (w : Write) (d : Dev) : Dev :=
  if 8192 < F.PCB_POOLCFG_QMAX.ofWord w.value then d else d.plainWrite k w.value

/-- PCB_WIN (R341): a size of 12 to 40, and a base aligned to it; otherwise the write is discarded whole. -/
def pcbWinEffect (k : RegKey) (w : Write) (d : Dev) : Dev :=
  let e := d.plainWrite k w.value
  let sz := e.fld F.PCB_WIN_LOG2 k.n k.i
  let base := e.fld F.PCB_WIN_BASE_HI k.n k.i * 2 ^ 32 + e.fld F.PCB_WIN_BASE_LO k.n k.i * 4096
  if sz < 12 ∨ 40 < sz ∨ base % 2 ^ sz ≠ 0 then d else e

/-! ### The dispatcher (R346 to R348) -/

/-- Contexts of a region that are members of a pool: 16 × core index + context, rising. -/
def Dev.members (d : Dev) (r p : Nat) : List Nat :=
  (d.csr.filter fun e => e.1.reg == Reg.PCB_POOLMAP && e.1.n == r && F.PCB_POOLMAP_MEMBER.ofWord e.2 == 1 && F.PCB_POOLMAP_POOL.ofWord e.2 == p).map (·.1.i)

/-- A member is ready: RUN on a running core that is in dispatch, nothing waiting in its c0. -/
def Dev.memberReady (d : Dev) (r m : Nat) : Bool :=
  let c := 68 * r + m / 16
  let k := d.ctx c (m % 16)
  k.st == 1 && k.inbox.isNone && d.coreState c == 1 && !(d.pktCore c).away

/-- The flow bucket of a packet (R346). -/
def Dev.bucketOf (d : Dev) (id : Nat) : Nat := (d.pkt id).flowHash / 65536

/-- Contexts of a region that hold a packet as current or waiting: 16 × core index + context, and the packet. -/
def Dev.holders (d : Dev) (r : Nat) : List (Nat × Nat) :=
  d.ctxs.flatMap fun e =>
    if e.1 / 1088 = r then
      ((e.2.current.toList ++ (e.2.inbox.map (·.1)).toList).map fun id => (e.1 % 1088, id))
    else []

/-- The member that holds a bucket. -/
def Dev.bucketHolder (d : Dev) (r b : Nat) : Option Nat := ((d.holders r).find? fun h => d.bucketOf h.2 == b).map (·.1)

/-- The member that a queued packet may be delivered to now. -/
def Dev.memberFor (d : Dev) (r p id : Nat) : Option Nat :=
  let b := d.bucketOf id
  if (d.pkt id).byFlow && d.fbMoving r b then none
  else
    match d.bucketHolder r b with
    | some m => if d.memberReady r m && (d.members r p).contains m then some m else none
    | none =>
      let l := (d.members r p).filter (d.memberReady r)
      match d.poolLast.at none (64 * r + p) with
      | some x => (l.find? fun m => decide (x < m)).orElse fun _ => l.head?
      | none => l.head?

/-- Packets in order of the time they joined their queues, ties by number. -/
def insertPkt (d : Dev) (x : Nat × Nat) : List (Nat × Nat) → List (Nat × Nat)
  | [] => [x]
  | y :: t =>
    if (d.pkt x.1).since < (d.pkt y.1).since ∨ ((d.pkt x.1).since = (d.pkt y.1).since ∧ x.1 < y.1) then x :: y :: t else y :: insertPkt d x t

/-- Queued packets of a region's pools 0 to 62, oldest first, each with its pool. -/
def Dev.queuedPkts (d : Dev) (r : Nat) : List (Nat × Nat) :=
  ((d.poolQ.filter fun e => e.1 / 64 == r && e.1 % 64 != 63).flatMap fun e => e.2.map fun id => (id, e.1 % 64)).foldl (fun l x => insertPkt d x l) []

/-- DISPATCH (R348): the oldest queued packet of the region that can go is placed in the c0 of a member; one per CLK_PKT cycle. -/
def execDispatch (region : Fin 4) (s : State) : Out := s.on fun d =>
  let r := region.val
  match (d.queuedPkts r).find? fun x => (d.memberFor r x.2 x.1).isSome with
  | none => d
  | some (id, p) =>
    match d.memberFor r p id with
    | none => d
    | some m =>
      let y := max d.pktNow (d.dispNext.at 0 r)
      let d := d.advanceTo (y * 3 / 4)
      let c := 68 * r + m / 16
      let d := { d with poolQ := d.poolQ.upd [] (64 * r + p) (·.erase id), poolLast := d.poolLast.set none (64 * r + p) (some m),
                        dispNext := d.dispNext.set 0 r (y + 1), poolDel := d.poolDel.upd 0 (64 * r + p) (· + 1),
                        fbDel := d.fbDel.upd 0 (65536 * r + d.bucketOf id) (· + 1) }
      let d := (d.updCtx c (m % 16) fun k => { k with inbox := some (id, p, y) }).updPkt id fun k => { k with place := .core c (m % 16) }
      (d.showPool r p).tally (tlyRgn r + 0x28) 1

/-! ### Service cores (R353 to R355) -/

/-- SCC_CORE word 0 (R353, R359): the Keystone writes RUN and clears SFAULT; service-core firmware clears SFAULT alone. RUN = 1 starts both threads of a core that does not run and is not out of service; it is discarded while SFAULT = 1. RUN = 0 holds the core. -/
def sccCoreEffect (k : RegKey) (w : Write) (d : Dev) : Dev :=
  let i := 13 * k.n + k.i
  if w.writer ≠ .keystone then
    if k.w = 0 ∧ bitOf w.value.toNat 28 then d.setFld F.SCC_CORE_SFAULT k.n k.i 0 else d
  else if k.w ≠ 0 then d.plainWrite k w.value
  else if bitOf w.value.toNat 31 then
    if d.flag F.SCC_CORE_SFAULT k.n k.i then d
    else
      let d := d.plainWrite k w.value
      if d.fld F.SCC_CORE_STATE k.n k.i = 1 ∨ d.cellGone 2 i then d
      else
        let pc := d.fld F.SCC_CORE_ENTRY_HI k.n k.i * 2 ^ 32 + d.fld F.SCC_CORE_ENTRY_LO k.n k.i * 4096
        let d := (d.updThr (2 * i) fun _ => { pc := pc }).updThr (2 * i + 1) fun _ => { pc := pc }
        let d := { d with scActive := d.scActive.set 0 i 0 }
        d.setFld F.SCC_CORE_STATE k.n k.i 1
  else
    let d := d.plainWrite k w.value
    d.onlyIf (d.fld F.SCC_CORE_STATE k.n k.i == 1) fun d => d.setFld F.SCC_CORE_STATE k.n k.i 0

/-- SERVICE_CORE_RELEASE (R353): a write of SCC_CORE. -/
def execServiceCoreRelease (core : Fin 52) (ws : List Write) (s : State) : Out := s.on fun d =>
  d.writeReg ⟨.SCC_CORE, core.val / 13, core.val % 13, 0⟩ ws sccCoreEffect

/-- SCC_MSG (R355): bit n sets IRQPEND.MSG of thread n; the register reads 0. -/
def sccMsgEffect (k : RegKey) (w : Write) (d : Dev) : Dev :=
  let i := 13 * k.n + k.i
  d.each ((List.range 2).filter fun t => bitOf w.value.toNat t) fun t d => d.updThr (2 * i + t) fun x => { x with irqPend := withBit x.irqPend 2 true }

/-- SCC_MSG_WRITE (R355). -/
def execSccMsgWrite (core : Fin 52) (ws : List Write) (s : State) : Out := s.on fun d =>
  d.writeReg ⟨.SCC_MSG, core.val / 13, core.val % 13, 0⟩ ws sccMsgEffect

/-- A service core runs. -/
def Dev.scRuns (d : Dev) (i : Nat) : Bool := d.fld F.SCC_CORE_STATE (i / 13) (i % 13) == 1

/-- A thread waits, for an access or in WFE. -/
def Dev.thrWaits (d : Dev) (k : Nat) : Bool := (d.thr k).wfe || (d.thr k).blocked.isSome

/-- A switch to a thread of a service core: 8 CLK_APP cycles, counted in SC_SWITCHES (R354, R360). -/
def Dev.switchTo (d : Dev) (i t : Nat) : Dev :=
  (({ d with scActive := d.scActive.set 0 i t }).advance 4).tally (tlyRgn (i / 13) + 0x30) 1

/-- The wait of a thread has ended: it runs if its core is idle because the other thread waits too (R354). DEDUCED, entry 229: this is a switch. -/
def Dev.resumeThr (d : Dev) (i t : Nat) : Dev :=
  let a := d.scActive.at 0 i
  d.onlyIf (a != t && !d.thrWaits (2 * i + t) && d.thrWaits (2 * i + a)) fun d => d.switchTo i t

/-- THREAD_SWITCH (R354): the running thread has waited more than 40 CLK_APP cycles, for a miss or in WFE, which the command states (DESIGN CHOICE, entry 230), and the other thread does not wait: it runs after 8 CLK_APP cycles. -/
def execThreadSwitch (core : Fin 52) (s : State) : Out := s.on fun d =>
  let i := core.val
  let a := d.scActive.at 0 i
  d.onlyIf (d.scRuns i && !d.thrWaits (2 * i + (1 - a))) fun d => d.switchTo i (1 - a)

/-! ### The coherence directory (R356 to R358) -/

/-- The number of a request's core at or after the pointer, counting upward modulo 52. -/
def dirKey (ptr c : Nat) : Nat := (c + 52 - ptr) % 52

def insertReq (ptr : Nat) (x : Nat × Bool) : List (Nat × Bool) → List (Nat × Bool)
  | [] => [x]
  | y :: t => if dirKey ptr x.1 < dirKey ptr y.1 then x :: y :: t else y :: insertReq ptr x t

/-- One request served: ownership leaves the line in M with its core alone; a shared copy leaves it in S with its core among the sharers, or in E with the only holder. -/
def Line.serve (l : Line) (x : Nat × Bool) : Line :=
  if x.2 then { st := 3, owner := x.1 }
  else
    let was := if 2 ≤ l.st then [l.owner] else l.sharers
    if was.isEmpty ∨ was = [x.1] then { st := 2, owner := x.1 }
    else { st := 1, sharers := (was.filter (· != x.1)) ++ [x.1] }

/-- DIRECTORY_REQUEST (R358): the requests for a line that meet in one cycle at the home directory of a region: a writeback first, then ownership (true) and shared copies in round robin from the cycle stamp modulo 52. A line new to a full set evicts the set's oldest entry (R356). A set holds the lines equal modulo 32,768. DESIGN CHOICE, entry 32. -/
def execDirectoryRequest (region : Fin 4) (line : Nat) (writeback : Option (Fin 52)) (requests : List (Fin 52 × Bool)) (s : State) : Out := s.on fun d =>
  let k := 4 * line + region.val
  let l0 := d.lines.at {} k
  let l1 : Line := match writeback with
    | some c => if l0.owner = c.val ∧ 2 ≤ l0.st then {} else { l0 with sharers := l0.sharers.filter (· != c.val) }
    | none => l0
  let order := requests.foldl (fun a x => insertReq (d.stamp % 52) (x.1.val, x.2) a) []
  let l2 := order.foldl Line.serve l1
  let same := d.lines.filter fun e => e.1 % 4 == region.val && e.1 / 4 % 32768 == line % 32768 && e.1 != k
  let d := d.onlyIf (l0.st == 0 && l2.st != 0 && decide (16 ≤ same.length)) fun d =>
    match same.find? fun e => same.all fun (x : Nat × Line) => decide (e.2.since ≤ x.2.since) with
    | some e => ({ d with lines := d.lines.set {} e.1 {} }).bump .PCB_CNT region.val 5
    | none => d
  let l : Line := if l2.st = 0 then {} else { l2 with since := if l0.st = 0 then d.clk.now else l0.since }
  { d with lines := d.lines.set {} k l }

end Sys2Proof.Machine
end

