-- ==== Sys2Proof/Machine/Cruiser.lean ====
section
/-! DEFINITION. The Cruiser: the placement log, moves of parcels and of work, plans, parcel commands, freezes and program swaps (R361 to R389). -/

namespace Sys2Proof.Machine

open Sys2Proof

/-! ### The placement log (R386) -/

def Dev.logBase (d : Dev) : Nat := d.fld F.CRU_LOG_BASE_BASE_HI * 2 ^ 32 + d.fld F.CRU_LOG_BASE_BASE_LO * 4096
def Dev.logSize (d : Dev) : Nat := 2 ^ d.fld F.CRU_LOG_CTL_LOG2

/-- The ring is full; indices are 16 bits wide, so a ring of 65,536 entries holds one entry fewer. -/
def Dev.logFull (d : Dev) : Bool :=
  decide (min d.logSize 65535 ≤ idxDist (d.fld F.CRU_LOG_IDX_PI) (d.fld F.CRU_LOG_IDX_CI))

/-- A location byte: the SRAM region, or 4 for the home slot. -/
def locByte (x : Option Nat) : Nat := x.getD 4

/-- One entry: cycle of the switch, identifier, planning span, from, to, reason, outcome, duration and hold in ns. -/
def Dev.cruLogAt (d : Dev) (cycle id span src dst reason outcome dur hold : Nat) : Dev :=
  if ¬ d.flag F.CRU_LOG_CTL_EN then d
  else if d.logFull then (d.bump .CRU_CNT 0 7).setChip F.CRU_STAT_LOG_OVF 1
  else
    let pi := d.fld F.CRU_LOG_IDX_PI
    let e := leBytes 8 id ++ leBytes 4 span ++ leBytes 1 src ++ leBytes 1 dst ++ leBytes 1 reason ++ leBytes 1 outcome ++
      leBytes 4 dur ++ leBytes 4 hold ++ leBytes 6 (cycle % 2 ^ 48) ++ [0, 0]
    (d.store (d.logBase + 32 * (pi % d.logSize)) e).setChip F.CRU_LOG_IDX_PI (pi + 1)

/-- An entry of a move that switches, or ends without a switch, in the present cycle. -/
def Dev.cruLog (d : Dev) (id span src dst reason outcome dur hold : Nat) : Dev := d.cruLogAt d.clk.now id span src dst reason outcome dur hold

/-- Number of the boundary that is planned at. -/
def Dev.spanSeq (d : Dev) : Nat := d.fld F.SPAN_SEQ_SEQ

/-- A planned or superseded move dropped (R370, R382, R389). -/
def Dev.skipped (d : Dev) (id span src dst reason : Nat) : Dev := (d.bump .CRU_CNT 0 2).cruLog id span src dst reason 2 0 0

/-! ### Classes, pins and hints (R379 to R382) -/

def Dev.tblKey (id : Nat) : Nat := 64 * idRegion id + idTable id

/-- A parcel is of a table. -/
def ofTable (id : Nat) : Bool := idKind id == 1 || idKind id == 2

/-- The class of a parcel (R382). -/
def Dev.parcelClass (d : Dev) (id : Nat) (p : Parcel) : Nat :=
  if ofTable id then d.fld F.CRU_TBLCLS_CLASS 0 (Dev.tblKey id) else d.fld F.CRU_TENANT_CLASS 0 p.tenant

def Dev.classFrozen (d : Dev) (c : Nat) : Bool := bitOf (d.fld F.CRU_FREEZE_CLASSES) c

/-- A parcel's class or tenant is frozen (R382). -/
def Dev.parcelFrozen (d : Dev) (id : Nat) (p : Parcel) : Bool := d.classFrozen (d.parcelClass id p) || d.flag F.CRU_TENANT_FRZ 0 p.tenant

/-- The SRAM region, or the home slot, that a tier and region name (R379). -/
def placeOf (tier region : Nat) : Option Nat := if tier = 2 then none else some region

/-- Where a parcel is pinned, by its own pin or its table's (R379). -/
def Dev.pinOf (d : Dev) (id : Nat) (p : Parcel) : Option (Option Nat) :=
  match p.pin with
  | some x => some x
  | none =>
    if ofTable id && d.flag F.CRU_TBLCLS_PINV 0 (Dev.tblKey id) then
      some (placeOf (d.fld F.CRU_TBLCLS_PTIER 0 (Dev.tblKey id)) (d.fld F.CRU_TBLCLS_PREG 0 (Dev.tblKey id)))
    else none

/-- The region of a parcel's affinity hint, its own or its table's (R380). -/
def Dev.hintOf (d : Dev) (id : Nat) (p : Parcel) : Option Nat :=
  match p.hint with
  | some x => some x
  | none => if ofTable id && d.flag F.CRU_TBLCLS_HINTV 0 (Dev.tblKey id) then some (d.fld F.CRU_TBLCLS_HREG 0 (Dev.tblKey id)) else none

/-- The policy may not move a parcel: pinned, frozen or moving (R370). -/
def Dev.parcelFixed (d : Dev) (id : Nat) (p : Parcel) : Bool := (d.pinOf id p).isSome || d.parcelFrozen id p || p.move.isSome

/-! ### Data moves (R372, R373) -/

/-- Moves in progress that belong to a region's plan. -/
def Dev.movingOf (d : Dev) (r : Nat) : Nat :=
  (d.parcels.filter fun e => match e.2 with
    | some p => (p.move.map (·.rgn)) == some r
    | none => false).length

def Dev.plan (d : Dev) (r : Nat) : List PlanItem := d.plans.at [] r
def Dev.addPlan (d : Dev) (r : Nat) (x : PlanItem) : Dev := { d with plans := d.plans.upd [] r (· ++ [x]) }

/-- A move asked for outside the policy: PIN, evacuation or swap (R371). -/
def requested (reason : Nat) : Bool := reason == 3 || reason == 5 || reason == 6

/-- The region in whose plan a parcel's requested moves stand: its home region. -/
def Dev.planRegion (d : Dev) (id : Nat) : Nat := match d.parcel id with
  | some p => p.home
  | none => 0

/-- A move of a QP context to another serving region (R377). -/
def Dev.isQpMove (d : Dev) (x : PlanItem) : Bool :=
  idKind x.id == 3 && (match x.dest with
    | some y => y != d.qpRegion (idIndex x.id)
    | none => false)

/-- A planned move dropped and logged as SKIPPED (R370, R379, R382). -/
def Dev.skipItem (d : Dev) (r : Nat) (x : PlanItem) : Dev :=
  let src := if idKind x.id = 5 then d.fld F.CRU_FBMAP_POOL r (idIndex x.id) else locByte ((d.parcel x.id).bind (·.sram))
  { d with plans := d.plans.upd [] r (·.erase x) }.skipped x.id x.span src (if idKind x.id = 5 then x.dest.getD 0 else locByte x.dest) x.reason

/-- The planned moves that a condition selects are dropped. -/
def Dev.skipItems (d : Dev) (sel : Nat → PlanItem → Bool) : Dev :=
  d.each (List.range 4) fun r d => d.each ((d.plan r).filter (sel r)) fun x d => d.skipItem r x

/-- RESERVE and the start of COPY (R372): space taken and charged; a move that finds none is logged, and starts nothing. -/
def Dev.startMove (d : Dev) (r : Nat) (x : PlanItem) : Dev :=
  match d.parcel x.id with
  | none => d
  | some p =>
    let fits : Bool := match x.dest with
      | none => true
      | some y => if x.reason = 5 then decide (p.bytes ≤ d.placeFree y) else d.room y p.majority p.tenant p.bytes
    if p.sram = x.dest then d
    else if ¬ fits then d.cruLog x.id x.span (locByte p.sram) (locByte x.dest) x.reason 3 0 0
    else
      let d := (d.charge x.dest p.majority p.tenant p.bytes).setChip F.CRU_STAT_MOVING (d.fld F.CRU_STAT_MOVING + 1)
      let m : Move := { dest := x.dest, step := 1, t0 := d.clk.now, src := p.sram, reason := x.reason, span := x.span, rgn := r }
      d.setParcel x.id { p with move := some m }

/-- The first item of a region's plan that may start as a data move: at most four at a time; a policy move waits while the log ring is full (R386). -/
def Dev.nextItem (d : Dev) (r : Nat) (ok : PlanItem → Bool) : Option PlanItem :=
  (d.plan r).find? fun x => ok x && (requested x.reason || !(d.flag F.CRU_LOG_CTL_EN && d.logFull)) &&
    (match d.parcel x.id with
      | some p => p.move.isNone
      | none => true)

def Dev.dropItem (d : Dev) (r : Nat) (x : PlanItem) : Dev := { d with plans := d.plans.upd [] r (·.erase x) }

/-- MOVE_START (R370, R372): the next planned data move of a region starts. -/
def execMoveStart (region : Fin 4) (s : State) : Out := s.on fun d =>
  let r := region.val
  if 4 ≤ d.movingOf r then d
  else
    match d.nextItem r fun x => decide (idKind x.id ≤ 4) && !d.isQpMove x with
    | none => d
    | some x => (d.dropItem r x).startMove r x

/-- MOVE_SWITCH (R372): the copy is complete, and the map names the new place; a QP context remembers the region that held it last (R365). -/
def execMoveSwitch (parcel : Nat) (s : State) : Out := s.on fun d =>
  match d.parcel parcel with
  | none => d
  | some p =>
    match p.move with
    | none => d
    | some m =>
      if m.step ≠ 1 then d
      else
        let home := if idKind parcel = 3 then ((m.dest.orElse fun _ => m.src).getD p.home) else p.home
        d.setParcel parcel { p with sram := m.dest, home := home, move := some { m with step := 2, tSwitch := d.clk.now } }

/-- A parcel that is not where its pin says starts a further move (R373, R379), unless it is frozen (R382). -/
def Dev.obeyPin (d : Dev) (id : Nat) : Dev :=
  match d.parcel id with
  | none => d
  | some p =>
    match d.pinOf id p with
    | none => d
    | some x =>
      let r := d.planRegion id
      if p.sram = x ∨ p.move.isSome ∨ d.parcelFrozen id p ∨ (d.plan r).any fun i => i.id == id && i.dest == x then d
      else d.addPlan r { id := id, dest := x, reason := 3, span := d.spanSeq }

/-- A data move is over: counted, tallied and logged. -/
def Dev.moveDone (d : Dev) (id : Nat) (p : Parcel) (m : Move) : Dev :=
  let d := ((d.bump .CRU_CNT 0 0).bump .CRU_CNT 0 3 p.bytes).onlyIf (m.reason == 5) fun d => d.bump .CRU_CNT 0 6
  let d := (d.tally (tlyRgn m.rgn + 0x70) 1).tally (tlyRgn m.rgn + 0x78) p.bytes
  let d := d.setChip F.CRU_STAT_MOVING (d.fld F.CRU_STAT_MOVING - 1)
  d.cruLogAt m.tSwitch id m.span (locByte m.src) (locByte m.dest) m.reason 0 (nsOfCycles (m.tSwitch - m.t0)) 0

/-- MOVE_DRAIN (R372): the old SRAM copy is released, and the log entry written; then a pin that waited takes effect (R373). -/
def execMoveDrain (parcel : Nat) (s : State) : Out := s.on fun d =>
  match d.parcel parcel with
  | none => d
  | some p =>
    match p.move with
    | none => d
    | some m =>
      if m.step ≠ 2 then d
      else
        let d := (d.uncharge m.src p.majority p.tenant p.bytes).setParcel parcel { p with move := none }
        (d.moveDone parcel p m).obeyPin parcel

/-- QPCTX_WORK_MOVE (R377): the next planned move of a QP context to another region: held for `ns`, drained within it or abandoned, then moved. -/
def execQpctxWorkMove (region : Fin 4) (ns : Fin 5001) (drained : Bool) (s : State) : Out := s.on fun d =>
  let r := region.val
  match d.nextItem r d.isQpMove with
  | none => d
  | some x =>
    let d := d.dropItem r x
    match d.parcel x.id with
    | none => d
    | some p =>
      let d := (d.advance (cyclesOfNs ns.val)).tallyMax (tlyRgn r + 0xA0) ns.val
      let fits : Bool := match x.dest with
        | none => true
        | some y => d.room y p.majority p.tenant p.bytes
      if ¬ drained then (d.bump .CRU_CNT 0 1).cruLog x.id x.span (locByte p.sram) (locByte x.dest) x.reason 1 ns.val ns.val
      else if ¬ fits then d.cruLog x.id x.span (locByte p.sram) (locByte x.dest) x.reason 3 0 ns.val
      else
        let d := (d.charge x.dest p.majority p.tenant p.bytes).uncharge p.sram p.majority p.tenant p.bytes
        let d := d.setParcel x.id { p with sram := x.dest, home := x.dest.getD p.home }
        let d := ((d.bump .CRU_CNT 0 0).bump .CRU_CNT 0 3 p.bytes).bump .CRU_CNT 0 5
        let d := (d.tally (tlyRgn r + 0x70) 1).tally (tlyRgn r + 0x78) p.bytes
        d.cruLog x.id x.span (locByte p.sram) (locByte x.dest) x.reason 0 ns.val ns.val

/-! ### Flow-bucket moves (R375, R385) -/

/-- The barrier of a flow bucket begins: its packets are delivered no more, and arrivals are held. -/
def Dev.fbStart (d : Dev) (r b dst reason : Nat) (retry : Bool) : Dev :=
  let src := d.fld F.CRU_FBMAP_POOL r b
  let m : WorkMove := { id := fbId r b, src := src, dst := dst, t0 := d.clk.now, reason := reason, span := d.spanSeq, retry := retry }
  let l : List WorkMove := d.fbMoves.filter fun (x : WorkMove) => x.id != fbId r b
  { d with fbMoves := l ++ [m] }.setFld F.CRU_FBMAP_PENDING r b 1

/-- The members of its pool hold no packet of the bucket. -/
def Dev.fbDrained (d : Dev) (r b : Nat) : Bool := (d.bucketHolder r b).isNone

/-- Packets of a bucket that are queued in a pool under its flow, in order. -/
def Dev.fbQueued (d : Dev) (r p b : Nat) : List Nat := (d.poolQ.at [] (64 * r + p)).filter fun id => (d.pkt id).byFlow && d.bucketOf id == b

/-- Packets placed at the end of a pool's queue, its limits apart: they were admitted before. -/
def Dev.requeue (d : Dev) (r p : Nat) (ids : List Nat) : Dev :=
  let d := d.each ids fun id d => d.updPkt id fun k => { k with place := .pool p }
  ({ d with poolQ := d.poolQ.upd [] (64 * r + p) (· ++ ids) }).showPool r p

/-- The held packets of a bucket, taken out. -/
def Dev.takeHeld (d : Dev) (r b : Nat) : Dev × List Nat :=
  ({ d with fbHold := d.fbHold.set [] (65536 * r + b) [] }, d.fbHold.at [] (65536 * r + b))

/-- The first flow bucket of a region from `b` on that is mapped to a pool, not frozen, and under no barrier. -/
def Dev.nextMapped (d : Dev) (r p : Nat) : Nat → Nat → Option Nat
  | 0, _ => none
  | fuel + 1, b =>
    if d.fld F.CRU_FBMAP_POOL r b = p ∧ ¬ d.classFrozen (d.fld F.CRU_FBMAP_CLASS r b) ∧ ¬ d.fbMoves.any (fun m => m.id == fbId r b) then some b
    else d.nextMapped r p fuel (b + 1)

/-- Barriers of a pool swap begun, at most 64 at a time (R385). -/
def Dev.feedSwap (d : Dev) (r : Nat) : Nat → Dev
  | 0 => d
  | fuel + 1 =>
    if ¬ (d.flag F.CRU_SWAP_ACTIVE r ∧ d.swapKind r = 1) ∨ 64 ≤ (d.fbMoves.filter fun m => m.reason == 6 && idRegion m.id == r).length then d
    else
      match d.nextMapped r (d.swapOld r) 65536 0 with
      | none => d
      | some b => (d.fbStart r b (d.swapNew r) 6 true).feedSwap r fuel

/-- The end of a pool swap: no bucket is mapped to OLD any more. -/
def Dev.endPoolSwap (d : Dev) (r : Nat) : Dev :=
  if d.flag F.CRU_SWAP_ACTIVE r ∧ d.swapKind r = 1 ∧ ¬ d.fbMoves.any (fun m => m.reason == 6 && idRegion m.id == r) ∧
      (List.range 65536).all fun b => d.fld F.CRU_FBMAP_POOL r b != d.swapOld r then
    (d.setFld F.CRU_SWAP_ACTIVE r 0 0).setFld F.CRU_SWAP_PENDING r 0 0
  else d

/-- FLOW_BUCKET_MOVE_START (R375, R376): the next flow-bucket move of a region's plan begins. -/
def execFlowBucketMoveStart (region : Fin 4) (s : State) : Out := s.on fun d =>
  let r := region.val
  match d.nextItem r fun x => idKind x.id == 5 with
  | none => d
  | some x =>
    let d := d.dropItem r x
    let b := idIndex x.id
    if d.fbMoves.any fun m => m.id == x.id then d
    else d.fbStart r b (x.dest.getD 0) x.reason false

/-- FLOW_BUCKET_SWITCH (R375): the bucket has drained; it changes pools with its queued and held packets. -/
def execFlowBucketSwitch (region : Fin 4) (bucket : Fin 65536) (s : State) : Out := s.on fun d =>
  let r := region.val
  let b := bucket.val
  match d.fbMoves.find? fun m => m.id == fbId r b && !m.idle with
  | none => d
  | some m =>
    if ¬ d.fbDrained r b then d
    else
      let q := d.fbQueued r m.src b
      let (d, held) := d.takeHeld r b
      let d := { d with poolQ := d.poolQ.upd [] (64 * r + m.src) (·.filter fun id => !q.contains id), fbMoves := d.fbMoves.erase m }
      let d := (d.showPool r m.src).requeue r m.dst (q ++ held)
      let d := (d.setFld F.CRU_FBMAP_POOL r b m.dst).setFld F.CRU_FBMAP_PENDING r b 0
      let ns := nsOfCycles (d.clk.now - m.t0)
      let d := ((d.bump .CRU_CNT 0 0).bump .CRU_CNT 0 4).tallyMax (tlyRgn r + 0xA0) ns
      let d := (d.tally (tlyRgn r + 0x70) 1).cruLog m.id m.span m.src m.dst m.reason 0 ns ns
      if m.reason = 6 then (d.feedSwap r 1).endPoolSwap r else d

/-- FLOW_BUCKET_HOLD_EXPIRY (R375): HOLD_NS after its start an undrained move is abandoned: the held packets rejoin the old pool in order. A software write's move or a swap's is tried again at the next boundary (R385, R389). -/
def execFlowBucketHoldExpiry (region : Fin 4) (bucket : Fin 65536) (s : State) : Out := s.on fun d =>
  let r := region.val
  let b := bucket.val
  match d.fbMoves.find? fun m => m.id == fbId r b && !m.idle with
  | none => d
  | some m =>
    let hold := d.fld F.CRU_WORK_HOLD_NS
    let d := d.advanceTo (m.t0 + cyclesOfNs hold)
    if d.fbDrained r b then d
    else
      let (d, held) := d.takeHeld r b
      let d := d.requeue r m.src held
      let rest : List WorkMove := d.fbMoves.filter fun (x : WorkMove) => x != m
      let d := { d with fbMoves := if m.retry then rest ++ [{ m with idle := true }] else rest }
      let d := if m.retry then d else d.setFld F.CRU_FBMAP_PENDING r b 0
      let d := (d.bump .CRU_CNT 0 1).tallyMax (tlyRgn r + 0xA0) hold
      d.cruLog m.id m.span m.src m.dst m.reason 1 hold hold

/-- A bucket's barrier or retry ends without a switch: its held packets rejoin the old pool. -/
def Dev.fbDrop (d : Dev) (r b : Nat) (m : WorkMove) : Dev :=
  let (d, held) := d.takeHeld r b
  ({ d with fbMoves := d.fbMoves.erase m }.requeue r m.src held).setFld F.CRU_FBMAP_PENDING r b 0

/-- A bucket's move that has not switched is superseded (R389). -/
def Dev.fbCancel (d : Dev) (r b : Nat) : Dev :=
  match d.fbMoves.find? fun m => m.id == fbId r b with
  | none => d
  | some m => (d.fbDrop r b m).skipped m.id m.span m.src m.dst m.reason

/-- A flow bucket's class is frozen (R382). -/
def Dev.fbFrozen (d : Dev) (r b : Nat) : Bool := d.classFrozen (d.fld F.CRU_FBMAP_CLASS r b)

/-- The barriers of frozen flow buckets end: no barrier ever holds them (R382). DEDUCED, entry 231: a barrier in progress ends ABORTED, a retry that waits SKIPPED. -/
def Dev.dropBarriers (d : Dev) : Dev :=
  d.each (d.fbMoves.filter fun m => d.fbFrozen (idRegion m.id) (idIndex m.id)) fun (m : WorkMove) d =>
    let d := d.fbDrop (idRegion m.id) (idIndex m.id) m
    if m.idle then d.skipped m.id m.span m.src m.dst m.reason
    else
      let ns := nsOfCycles (d.clk.now - m.t0)
      ((d.bump .CRU_CNT 0 1).tallyMax (tlyRgn (idRegion m.id) + 0xA0) ns).cruLog m.id m.span m.src m.dst m.reason 1 ns ns

/-- Planned moves of frozen classes and tenants dropped, and barriers of frozen flow buckets ended (R382). -/
def Dev.dropFrozen (d : Dev) : Dev :=
  (d.skipItems fun r x => x.reason != 5 && (
    if idKind x.id = 5 then d.fbFrozen r (idIndex x.id)
    else match d.parcel x.id with
      | some p => d.parcelFrozen x.id p
      | none => false)).dropBarriers

/-- CRU_FBMAP (R389): CLASS and PINV taken; a POOL other than the one in use starts the drain barrier at once and supersedes a move not yet switched; for a frozen bucket that move is skipped (R382). Pool 63 is discarded. -/
def fbmapEffect (k : RegKey) (w : Write) (d : Dev) : Dev :=
  let p := F.CRU_FBMAP_POOL.ofWord w.value
  if p = 63 then d
  else
    let old := d.fld F.CRU_FBMAP_POOL k.n k.i
    let d := (d.plainWrite k w.value).setFld F.CRU_FBMAP_POOL k.n k.i old
    let d := d.fbCancel k.n k.i
    let d := d.skipItems fun r x => r == k.n && x.id == fbId k.n k.i
    if p = old then d
    else if d.fbFrozen k.n k.i then d.skipped (fbId k.n k.i) d.spanSeq old p 4
    else d.fbStart k.n k.i p 4 true

/-- FBMAP_POOL_WRITE (R389). -/
def execFbmapPoolWrite (region : Fin 4) (bucket : Fin 65536) (ws : List Write) (s : State) : Out := s.on fun d =>
  d.writeReg ⟨.CRU_FBMAP, region.val, bucket.val, 0⟩ ws fbmapEffect

/-! ### Freezes and swaps (R382, R384, R385) -/

/-- CRU_FREEZE (R382, R384): from the commit cycle moves of the frozen classes stop; buckets of classes unfrozen flip to the new program of a swap in progress. -/
def cruFreezeEffect (k : RegKey) (w : Write) (d : Dev) : Dev :=
  let d := (d.plainWrite k w.value).dropFrozen
  d.each (List.range 4) fun r d =>
    if d.flag F.CRU_SWAP_ACTIVE r ∧ d.swapKind r = 0 then
      let still := (d.swapFrozen.at 0 r) &&& (d.fld F.CRU_FREEZE_CLASSES)
      { d with swapFrozen := d.swapFrozen.set 0 r still }.setFld F.CRU_SWAP_PENDING r 0 (if still = 0 then 0 else 1)
    else d.feedSwap r 64

/-- FREEZE_WRITE (R382). -/
def execFreezeWrite (ws : List Write) (s : State) : Out := s.on fun d => d.writeReg ⟨.CRU_FREEZE, 0, 0, 0⟩ ws cruFreezeEffect

/-- CRU_TENANT (R382): a tenant frozen drops its planned moves. -/
def cruTenantEffect (k : RegKey) (w : Write) (d : Dev) : Dev := (d.plainWrite k w.value).dropFrozen

/-- CRU_TBLCLS (R381, R382): the parcels of a table are charged to its new tenant, and planned moves of what is frozen now are dropped. -/
def cruTblclsEffect (k : RegKey) (w : Write) (d : Dev) : Dev :=
  let d := d.plainWrite k w.value
  let t := d.fld F.CRU_TBLCLS_TENANT 0 k.i
  let own : List (Nat × Parcel) := d.parcels.filterMap fun (e : Nat × Option Parcel) => e.2.bind fun p => if ofTable e.1 && Dev.tblKey e.1 == k.i then some (e.1, p) else none
  let d := d.each own fun (x : Nat × Parcel) (d : Dev) => (d.recharge x.2 { x.2 with tenant := t }).setParcel x.1 { x.2 with tenant := t }
  let d := match d.tblPlaces.at none k.i with
    | none => d
    | some x =>
      let n := (x.nb - (own.filter fun (e : Nat × Parcel) => idKind e.1 == 1).length) * 64
      { (d.uncharge x.sram (k.i / 64) x.tenant n).charge x.sram (k.i / 64) t n with tblPlaces := d.tblPlaces.set none k.i (some { x with tenant := t }) }
  d.dropFrozen

/-- A class of which a region has flow buckets. -/
def Dev.classUsed (d : Dev) (r c : Nat) : Bool :=
  if c = 0 then (List.range 65536).any fun b => d.fld F.CRU_FBMAP_CLASS r b == 0
  else d.csr.any fun e => e.1.reg == Reg.CRU_FBMAP && e.1.n == r && F.CRU_FBMAP_CLASS.ofWord e.2 == c

/-- CRU_SWAP (R384, R385): GO starts a swap unless one is in progress, or the new pool is none of 0 to 62 (DESIGN CHOICE, entry 232). -/
def cruSwapEffect (k : RegKey) (w : Write) (d : Dev) : Dev :=
  let r := k.n
  if ¬ bitOf w.value.toNat 31 then d.plainWrite k w.value
  else if d.flag F.CRU_SWAP_ACTIVE r ∨ (F.CRU_SWAP_KIND.ofWord w.value = 1 ∧ 62 < F.CRU_SWAP_NEW.ofWord w.value) then d
  else
    let d := (d.plainWrite k w.value).setFld F.CRU_SWAP_ACTIVE r 0 1
    let cmd := (F.CRU_SWAP_KIND.ofWord w.value, F.CRU_SWAP_OLD.ofWord w.value, F.CRU_SWAP_NEW.ofWord w.value)
    let d := { d with swapCmd := d.swapCmd.set (0, 0, 0) r cmd }
    if d.swapKind r = 0 then
      let frozen := ((List.range 8).filter fun c => d.classFrozen c && d.classUsed r c).foldl (fun a c => a + 2 ^ c) 0
      let d := { d with swapAt := d.swapAt.set 0 r d.clk.now, swapFrozen := d.swapFrozen.set 0 r frozen }
      d.setFld F.CRU_SWAP_PENDING r 0 (if frozen = 0 then 0 else 1)
    else (d.feedSwap r 64).endPoolSwap r

/-- ACTION_PROGRAM_SWAP (R384): a write of CRU_SWAP with KIND 0. -/
def execActionProgramSwap (region : Fin 4) (ws : List Write) (s : State) : Out := s.on fun d =>
  d.writeReg ⟨.CRU_SWAP, region.val, 0, 0⟩ ws cruSwapEffect

/-- POOL_SWAP (R385): a write of CRU_SWAP with KIND 1. -/
def execPoolSwap (region : Fin 4) (ws : List Write) (s : State) : Out := s.on fun d =>
  d.writeReg ⟨.CRU_SWAP, region.val, 0, 0⟩ ws cruSwapEffect

/-- A packet of the region that has had its first pass slot, and runs the old program. -/
def oldVersion (r : Nat) (k : Pkt) : Bool :=
  k.region == r && !k.newProg && (match k.place with
    | .rx => false
    | .input _ => k.pass != 0
    | _ => true)

/-- SWAP_COMPLETE (R384): every bucket has flipped and no packet of the old version remains: NEW is copied into slot OLD, and ACTIVE clears. -/
def execSwapComplete (region : Fin 4) (s : State) : Out := s.on fun d =>
  let r := region.val
  d.onlyIf (d.flag F.CRU_SWAP_ACTIVE r && d.swapKind r == 0 && d.swapFrozen.at 0 r == 0 && !d.pkts.any fun e => oldVersion r e.2) fun d =>
    let old := d.swapOld r
    let new := d.swapNew r
    let p := d.progs.at [] (256 * r + new)
    let d := { d with progs := (d.progs.set [] (256 * r + new) []).set [] (256 * r + old) p }
    let l := d.pkts.map fun (e : Nat × Pkt) => if e.2.region = r then (e.1, { e.2 with newProg := false }) else e
    ({ d with pkts := l }.setFld F.CRU_SWAP_ACTIVE r 0 0).setFld F.CRU_SWAP_PENDING r 0 0

/-! ### Parcel commands (R379, R380, R389) -/

/-- The lowest page of placed space that is not allocated. -/
def Dev.freePage (d : Dev) : Nat → Nat → Option Nat
  | 0, _ => none
  | fuel + 1, n => if n < 12582912 then (if (d.parcel (fwpageId n)).isNone then some n else d.freePage fuel (n + 1)) else none

/-- Planned moves of a parcel for a reason are dropped. -/
def Dev.unplan (d : Dev) (id reason : Nat) : Dev := d.skipItems fun _ i => i.id == id && i.reason == reason

/-- The command held in CRU_PCMD carried out: its effect and STATUS. -/
def Dev.parcelCommand (d : Dev) (op tier arg id : Nat) : Dev × Nat :=
  if op = 6 then
    match d.freePage (d.parcels.length + 1) 0 with
    | none => (d, 5)
    | some n => ((d.createParcel (fwpageId n) 0 arg 4096).setFld F.CRU_PCMD_ID_LO 0 0 n, 0)
  else
    match d.parcel id with
    | none => (d, 2)
    | some p =>
      match op with
      | 1 =>
        if tier = 3 then (d, 3)
        else
          let x := placeOf tier (arg % 4)
          let go : Nat := match x with
            | none => 0
            | some y =>
              if p.sram = x then 0
              else if ¬ d.quotaOk p.tenant (tierFor p.majority y) p.bytes then 1
              else if d.placeFree y < p.bytes then 5 else 0
          if go ≠ 0 then ((d.setParcel id { p with pin := none }).unplan id 3, go)
          else (((d.setParcel id { p with pin := some x }).skipItems fun _ i => i.id == id && i.reason != 5).obeyPin id, 0)
      | 2 => ((d.setParcel id { p with pin := none }).unplan id 3, 0)
      | 3 => (d.setParcel id { p with hint := some (arg % 4) }, 0)
      | 4 => (d.setParcel id { p with hint := none }, 0)
      | 5 =>
        let where_ := locByte p.sram + 8 * natOf (d.pinOf id p).isSome + 16 * natOf (d.hintOf id p).isSome + 32 * natOf p.move.isSome
        ((d.setFld F.CRU_PCMD_WHERE 0 0 where_).setFld F.CRU_PCMD_HEAT 0 0 p.heat, 0)
      | _ => if idKind id = 4 then (d.freeParcel id, 0) else (d, 4)

/-- CRU_PCMD (R389): GO starts the command of OP; commands complete in their commit cycle. OP 0 names no command. -/
def cruPcmdEffect (k : RegKey) (w : Write) (d : Dev) : Dev :=
  let d := d.plainWrite k w.value
  if k.w ≠ 0 ∨ ¬ bitOf w.value.toNat 31 ∨ d.fld F.CRU_PCMD_OP = 0 then d
  else
    let id := d.fld F.CRU_PCMD_ID_HI * 2 ^ 32 + d.fld F.CRU_PCMD_ID_LO
    let (d, st) := d.parcelCommand (d.fld F.CRU_PCMD_OP) (d.fld F.CRU_PCMD_TIER) (d.fld F.CRU_PCMD_ARG) id
    d.setChip F.CRU_PCMD_STATUS st

/-- A write of CRU_PCMD word 0. -/
def Dev.writePcmd (d : Dev) (ws : List Write) : Dev := d.writeReg ⟨.CRU_PCMD, 0, 0, 0⟩ ws cruPcmdEffect

/-- PIN (R379): parcel command 1. -/
def execPin (ws : List Write) (s : State) : Out := s.on fun d => d.writePcmd ws

/-- UNPIN (R379): parcel command 2. -/
def execUnpin (ws : List Write) (s : State) : Out := s.on fun d => d.writePcmd ws

/-- HINT (R380): parcel command 3. -/
def execHint (ws : List Write) (s : State) : Out := s.on fun d => d.writePcmd ws

/-- UNHINT (R380): parcel command 4. -/
def execUnhint (ws : List Write) (s : State) : Out := s.on fun d => d.writePcmd ws

/-- QUERY (R389): parcel command 5. -/
def execQuery (ws : List Write) (s : State) : Out := s.on fun d => d.writePcmd ws

/-- ALLOC_PAGE (R366): parcel command 6. -/
def execAllocPage (ws : List Write) (s : State) : Out := s.on fun d => d.writePcmd ws

/-- FREE_PAGE (R361): parcel command 7. -/
def execFreePage (ws : List Write) (s : State) : Out := s.on fun d => d.writePcmd ws

/-! ### Other registers -/

/-- CRU_CTL: DECAY of 1 to 8. -/
def cruCtlEffect (k : RegKey) (w : Write) (d : Dev) : Dev :=
  let x := F.CRU_CTL_DECAY.ofWord w.value
  if 1 ≤ x ∧ x ≤ 8 then d.plainWrite k w.value else d

/-- CRU_WORK: HOLD_NS of 1,000 to 5,000. -/
def cruWorkEffect (k : RegKey) (w : Write) (d : Dev) : Dev :=
  let x := F.CRU_WORK_HOLD_NS.ofWord w.value
  if 1000 ≤ x ∧ x ≤ 5000 then d.plainWrite k w.value else d

/-- CRU_HOME: SIZE_MIB stays while any parcel exists. -/
def cruHomeEffect (k : RegKey) (w : Write) (d : Dev) : Dev :=
  if d.wouldBe k w.value ≠ d.word k ∧ k.w = 2 ∧ ¬ (d.parcels.isEmpty ∧ d.tblPlaces.isEmpty) then d else d.plainWrite k w.value

/-- CRU_LOG_CTL (R489): LOG2 of 6 to 16, and unchanged while EN = 1. -/
def cruLogCtlEffect (k : RegKey) (w : Write) (d : Dev) : Dev :=
  let x := F.CRU_LOG_CTL_LOG2.ofWord w.value
  if x < 6 ∨ 16 < x ∨ (d.flag F.CRU_LOG_CTL_EN ∧ x ≠ d.fld F.CRU_LOG_CTL_LOG2) then d else d.plainWrite k w.value

/-- CRU_RGN: PLACE_KIB of at most 40,960. -/
def cruRgnEffect (k : RegKey) (w : Write) (d : Dev) : Dev :=
  if 40960 < F.CRU_RGN_PLACE_KIB.ofWord w.value then d else d.plainWrite k w.value

/-- CRU_TASK (R389): LOAD is written by firmware only; the other word by the writers of the block. -/
def cruTaskEffect (k : RegKey) (w : Write) (d : Dev) : Dev :=
  if k.w = 1 ∧ ¬ isFirmwareW w.writer then d else d.plainWrite k w.value

/-! ### Heat and plans (R368 to R371, R376, R378) -/

/-- The region with the most accesses, ties to the lower; the previous one when no region has any. -/
def majorityOf (old : Nat) (count : List (Nat × Nat)) : Nat :=
  if count.all fun e => decide (4 ≤ e.1) then old
  else (List.range 4).foldl (fun a r => if NMap.at count 0 a < NMap.at count 0 r then r else a) 0

/-- Counts latch and heat decays at a boundary (R368); a parcel whose majority region changes is charged anew (R381). -/
def Dev.latchHeat (d : Dev) : Dev :=
  let decay := 2 ^ d.fld F.CRU_CTL_DECAY
  d.each (d.parcels.map (·.1)) fun id d =>
    match d.parcel id with
    | none => d
    | some p =>
      let n := (p.count.map (·.2)).sum
      let m := majorityOf p.majority p.count
      let d := d.onlyIf (m != p.majority) fun d => d.recharge p { p with majority := m }
      d.setParcel id { p with heat := min (2 ^ 32 - 1) (p.heat - p.heat / decay + n), majority := m, last := n, count := [] }

/-- Insertion by a rank, lowest first; equal ranks keep their order. -/
def insertBy (f : Nat → Nat) (x : Nat) : List Nat → List Nat
  | [] => [x]
  | y :: t => if f x < f y then x :: y :: t else y :: insertBy f x t

def sortBy (f : Nat → Nat) (l : List Nat) : List Nat := l.foldl (fun a x => insertBy f x a) []

/-- Listed parcels. -/
def Dev.parcelIds (d : Dev) : List Nat := (d.parcels.filter fun e => e.2.isSome).map (·.1)

def Dev.heatOf (d : Dev) (id : Nat) : Nat := match d.parcel id with
  | some p => p.heat
  | none => 0
def Dev.lastOf (d : Dev) (id : Nat) : Nat := match d.parcel id with
  | some p => p.last
  | none => 0

/-- The hot list of a region (R369): 256 parcels of highest count outside its tier N whose majority region it is; then highest heat first. -/
def Dev.hotList (d : Dev) (r : Nat) : List Nat :=
  let l := d.parcelIds.filter fun id => match d.parcel id with
    | some p => p.majority == r && p.sram != some r && p.last != 0
    | none => false
  (sortBy (fun id => 2 ^ 32 - d.heatOf id) ((sortBy (fun id => 2 ^ 64 - d.lastOf id) l).take 256))

/-- Buckets of tables in a region's SRAM that nothing has accessed since their table was created: the first `n`. -/
def Dev.coldBuckets (d : Dev) (r n : Nat) : List Nat :=
  (d.tblPlaces.flatMap fun e => match e.2 with
    | some t => if t.sram = some r then
        ((List.range (min t.nb (n + d.parcels.length))).map (bucketId (e.1 / 64) (e.1 % 64))).filter fun id => (d.parcels.at none id).isNone
      else []
    | none => []).take n

/-- The cold list of a region (R369): 256 parcels of lowest heat in its SRAM. -/
def Dev.coldList (d : Dev) (r : Nat) : List Nat :=
  let l := d.parcelIds.filter fun id => match d.parcel id with
    | some p => p.sram == some r
    | none => false
  let none_ := (l.filter fun id => d.heatOf id == 0).foldl (fun a x => insertBy (fun y => y) x a) (d.coldBuckets r 256)
  (none_ ++ sortBy d.heatOf (l.filter fun id => d.heatOf id != 0)).take 256

/-- A parcel already stands in a plan. -/
def Dev.planned (d : Dev) (id : Nat) : Bool := d.plans.any fun e => e.2.any fun x => x.id == id

/-- A flow bucket is under a barrier, or waits for one. -/
def Dev.fbBusy (d : Dev) (r b : Nat) : Bool := d.planned (fbId r b) || d.fbMoves.any fun m => m.id == fbId r b

/-- A parcel that the policy may take. -/
def Dev.movable (d : Dev) (id : Nat) : Bool := match d.parcel id with
  | some p => !d.parcelFixed id p && !d.planned id
  | none => false

/-- The `n` coldest movable parcels of a region's SRAM: those listed, and buckets that nothing has accessed. -/
def Dev.coldest (d : Dev) (r n : Nat) : List Nat :=
  let busy := d.parcels.length + (d.plans.map fun e => e.2.length).sum
  let quiet := d.tblPlaces.flatMap fun e => match e.2 with
    | some t => if t.sram = some r then
        (((List.range (min t.nb (n + busy))).map (bucketId (e.1 / 64) (e.1 % 64))).filter fun id => (d.parcels.at none id).isNone && d.movable id).take n
      else []
    | none => []
  let l := d.parcelIds.filter fun id => (match d.parcel id with
    | some p => p.sram == some r
    | none => false) && d.movable id
  let still := (l.filter fun id => d.heatOf id == 0).foldl (fun a x => insertBy (fun y => y) x a) quiet
  (still ++ sortBy d.heatOf (l.filter fun id => d.heatOf id != 0)).take n

/-- The promotions of a plan (R370): `n` moves are planned so far. -/
def Dev.planHot (d : Dev) (r : Nat) : List Nat → Nat → Dev × Nat
  | [], n => (d, n)
  | id :: t, n =>
    match d.parcel id with
    | none => d.planHot r t n
    | some p =>
      let cap := d.fld F.CRU_CTL_MOVE_MAX
      let add (d : Dev) (x : Option Nat) (i reason : Nat) : Dev := d.addPlan r { id := i, dest := x, reason := reason, span := d.spanSeq }
      if cap ≤ n ∨ p.heat < d.fld F.CRU_THRESH_HOT_MIN then (d, n)
      else if ¬ d.movable id then d.planHot r t n
      else
        let hint := d.hintOf id p
        let want := hint.getD p.majority
        let why := if hint.isSome then 4 else 0
        if p.sram = some want then d.planHot r t n
        else if d.room want p.majority p.tenant p.bytes then (add d (some want) id why).planHot r t (n + 1)
        else
          match (d.coldest want 1).head? with
          | some v =>
            if d.heatOf v + d.fld F.CRU_THRESH_HYST < p.heat ∧ n + 2 ≤ cap then
              (add (add d none v 2) (some want) id why).planHot r t (n + 2)
            else if p.sram.isNone ∧ (List.range 4).any (fun x => d.room x p.majority p.tenant p.bytes) then
              (add d (some (d.freest (List.range 4))) id why).planHot r t (n + 1)
            else d.planHot r t n
          | none =>
            if p.sram.isNone ∧ (List.range 4).any (fun x => d.room x p.majority p.tenant p.bytes) then
              (add d (some (d.freest (List.range 4))) id why).planHot r t (n + 1)
            else d.planHot r t n

/-- Bytes that the demotions planned for a region will free. -/
def Dev.planFrees (d : Dev) (r : Nat) : Nat :=
  ((d.plan r).map fun x => match d.parcel x.id with
    | some p => if x.dest.isNone ∧ p.sram = some r then p.bytes else 0
    | none => 0).sum

/-- A region filled past PLACE_KIB demotes its coldest movable parcels first (R371). -/
def Dev.planPast (d : Dev) (r : Nat) : List Nat → Nat → Dev × Nat
  | [], n => (d, n)
  | v :: t, n =>
    if d.fld F.CRU_CTL_MOVE_MAX ≤ n ∨ d.placed.at 0 r ≤ d.placeCap r + d.planFrees r then (d, n)
    else if ¬ d.movable v then d.planPast r t n
    else (d.addPlan r { id := v, dest := none, reason := 1, span := d.spanSeq }).planPast r t (n + 1)

/-- The demotions of a plan under pressure (R370). DEDUCED, entry 233: the free space counts what the demotions of this plan will free. -/
def Dev.planCold (d : Dev) (r : Nat) : List Nat → Nat → Dev × Nat
  | [], n => (d, n)
  | v :: t, n =>
    if d.fld F.CRU_CTL_MOVE_MAX ≤ n ∨ d.fld F.CRU_THRESH_COLD_MAX < d.heatOf v ∨
        d.fld F.CRU_RGN_FREE_MIN_KIB r * 1024 ≤ d.placeCap r + d.planFrees r - d.placed.at 0 r then (d, n)
    else if ¬ d.movable v then d.planCold r t n
    else (d.addPlan r { id := v, dest := none, reason := 1, span := d.spanSeq }).planCold r t (n + 1)

/-- The coldest unpinned parcels of tenants above a quota, demoted first (R381). -/
def Dev.planQuota (d : Dev) (r : Nat) : List Nat → Nat → Dev × Nat
  | [], n => (d, n)
  | v :: t, n =>
    match d.parcel v with
    | none => d.planQuota r t n
    | some p =>
      if d.fld F.CRU_CTL_MOVE_MAX ≤ n then (d, n)
      else
        let gone := (d.plans.flatMap (·.2)).foldl (fun a x => match x.reason == 7, (d.parcel x.id) with
          | true, some y => if y.tenant = p.tenant ∧ (y.sram.map (tierFor y.majority)) = some (tierFor p.majority r) then a + y.bytes else a
          | _, _ => a) 0
        let past : Bool := match d.quota p.tenant (tierFor p.majority r) with
          | some q => decide (q + gone < d.tuse.at 0 (2 * p.tenant + tierFor p.majority r))
          | none => false
        if past && d.movable v then (d.addPlan r { id := v, dest := none, reason := 7, span := d.spanSeq }).planQuota r t (n + 1)
        else d.planQuota r t n

/-- A tenant holds more than a quota of its (R381). -/
def Dev.tuseOver (d : Dev) : Bool := d.tuse.any fun e => match d.quota (e.1 / 2) (e.1 % 2) with
  | some q => decide (q < e.2)
  | none => false

/-- Pools of a balance group that have members: pool, packets delivered in the ending span, members. -/
def Dev.groupPools (d : Dev) (r g : Nat) : List (Nat × Nat × Nat) :=
  (((List.range 63).filter fun p => d.fld F.CRU_POOLGRP_GROUP r p == g).map fun p => (p, d.poolDel.at 0 (64 * r + p), (d.members r p).length)).filter fun x => x.2.2 != 0

/-- Load comparison of two pools: packets per member. -/
def heavier (a b : Nat × Nat × Nat) : Bool := decide (b.2.1 * a.2.2 < a.2.1 * b.2.2)

/-- One group rebalanced (R376): the largest bucket that fits moves from the most to the least loaded pool, while they differ by more than IMB_PCT. -/
def Dev.rebalance (d : Dev) (r : Nat) : Nat → List (Nat × Nat × Nat) → Dev
  | 0, _ => d
  | fuel + 1, l =>
    match l with
    | [] => d
    | x0 :: _ =>
      let hi := l.foldl (fun a x => if heavier x a then x else a) x0
      let lo := l.foldl (fun a x => if heavier a x then x else a) x0
      if hi.2.1 * lo.2.2 * 100 ≤ lo.2.1 * hi.2.2 * (100 + d.fld F.CRU_WORK_IMB_PCT) then d
      else
        let ok := (d.fbDel.filter fun e => e.1 / 65536 == r && e.2 != 0 &&
          d.fld F.CRU_FBMAP_POOL r (e.1 % 65536) == hi.1 && !d.flag F.CRU_FBMAP_PINV r (e.1 % 65536) &&
          !d.fbFrozen r (e.1 % 65536) && !d.fbBusy r (e.1 % 65536) &&
          decide (2 * e.2 * lo.2.2 ≤ hi.2.1 * lo.2.2 - lo.2.1 * hi.2.2))
        match ok.foldl (fun (a : Option (Nat × Nat)) e => match a with
            | some b => if b.2 < e.2 then some e else some b
            | none => some e) none with
        | none => d
        | some (kb, c) =>
          let d := d.addPlan r { id := fbId r (kb % 65536), dest := some lo.1, reason := 4, span := d.spanSeq }
          d.rebalance r fuel (l.map fun x => if x.1 = hi.1 then (x.1, x.2.1 - c, x.2.2) else if x.1 = lo.1 then (x.1, x.2.1 + c, x.2.2) else x)

/-- Flow-bucket moves in a region's plan. -/
def Dev.fbPlanned (d : Dev) (r : Nat) : Nat := ((d.plan r).filter fun x => idKind x.id == 5).length

/-- Service cores of a set of regions that are in use: not retired, fenced or under test; the spare while it stands in for another. -/
def Dev.taskCores (d : Dev) (regions : Nat) : List Nat :=
  (List.range 52).filter fun i => bitOf regions (i / 13) && (i % 13 != 12 || d.safety.spareUsed.contains (2 * 65536 + i / 13)) &&
    !d.safety.gone.contains (2 * 65536 + i) && !d.fenced (i / 13) && !d.safety.tests.any fun t => t.kind == 2 && t.cell == i

/-- Tasks placed, heaviest first, each on the least loaded core of its regions (R378). -/
def Dev.assignTasks (d : Dev) : Dev :=
  let valid := (List.range 256).filter fun k => d.flag F.CRU_TASK_VALID 0 k
  let fixed (k : Nat) : Bool := d.flag F.CRU_TASK_PINV 0 k || d.classFrozen (d.fld F.CRU_TASK_CLASS 0 k)
  let loads0 : NMap Nat := (valid.filter fixed).foldl (fun (m : NMap Nat) k => m.upd 0 (d.fld F.CRU_TASK_SC 0 k) (· + d.fld F.CRU_TASK_LOAD 0 k)) []
  let l := sortBy (fun k => 2 ^ 32 - d.fld F.CRU_TASK_LOAD 0 k) (valid.filter fun k => !fixed k)
  (l.foldl (fun (a : Dev × NMap Nat) k =>
    let d := a.1
    match d.taskCores (d.fld F.CRU_TASK_REGIONS 0 k) with
    | [] => a
    | c0 :: cs =>
      let c := cs.foldl (fun b x => if a.2.at 0 x < a.2.at 0 b then x else b) c0
      let old := d.fld F.CRU_TASK_SC 0 k
      let d := if old = c then d else (d.setFld F.CRU_TASK_SC 0 k c).cruLog (parcelId 6 0 0 k) d.spanSeq old c 4 0 0 0
      (d, NMap.upd a.2 0 c (· + d.fld F.CRU_TASK_LOAD 0 k))) (d, loads0)).1

/-- Parcels that are not where their pin says, those of tables with PINV at most 64 of a table at a boundary (R379). DESIGN CHOICE, entry 100. -/
def Dev.planPinned (d : Dev) : Dev :=
  let d := d.each (d.parcelIds.filter fun id => ((d.parcel id).bind (·.pin)).isSome) fun id d => d.obeyPin id
  d.each (d.tblPlaces.map (·.1)) fun k d =>
    if ¬ d.flag F.CRU_TBLCLS_PINV 0 k then d
    else
      match d.tblPlaces.at none k with
      | none => d
      | some t =>
        let ids := ((List.range t.nb).map (bucketId (k / 64) (k % 64))) ++ d.parcelIds.filter fun id => idKind id == 2 && Dev.tblKey id == k
        d.each ((ids.filter fun id => match d.parcel id with
          | some p => d.pinOf id p != some p.sram && p.move.isNone && !d.planned id
          | none => false).take 64) fun id d => d.obeyPin id

/-- Step 3 of a boundary (R33, R368 to R371): policy moves left over are dropped, heat latches, plans are drawn up, abandoned moves are retried, and the work counts restart. -/
def Dev.cruiserStep (d : Dev) : Dev :=
  let d := d.skipItems fun _ x => !requested x.reason
  let d := d.latchHeat.planPinned
  let stall := d.flag F.CRU_LOG_CTL_EN && d.logFull
  let d := d.onlyIf stall fun d => d.bump .CRU_CNT 0 8
  let d := d.onlyIf (d.flag F.CRU_CTL_EN && !stall) fun d =>
    let d := d.each (List.range 4) fun r d =>
      let (d, n) := if d.tuseOver then d.planQuota r (d.coldest r (d.parcels.length + 256)) 0 else (d, 0)
      let (d, n) := d.planHot r (d.hotList r) n
      let (d, n) := if d.placed.at 0 r ≤ d.placeCap r then (d, n) else d.planPast r (d.coldest r 256) n
      let (d, _) := d.planCold r (d.coldList r) n
      d.each ((List.range 7).map (· + 1)) fun g d => d.rebalance r (d.fld F.CRU_WORK_FB_MAX - d.fbPlanned r) (d.groupPools r g)
    d.assignTasks
  let d := d.each (d.fbMoves.filter (·.idle)) fun (m : WorkMove) d => d.fbStart (idRegion m.id) (idIndex m.id) m.dst m.reason true
  let d := d.each (List.range 4) fun r d => (d.feedSwap r 64).onlyIf (d.flag F.CRU_SWAP_ACTIVE r) fun d => d.endPoolSwap r
  { d with poolDel := [], fbDel := [] }

end Sys2Proof.Machine
end

