-- ==== Sys2Proof/Machine/Resets.lean ====
section
/-! DEFINITION. Resets: of a function, of a host port, of the chip (R7, R8, R162 to R174, R195 to R197, R400, R404); configuration requests (R164, R171). -/

namespace Sys2Proof.Machine

open Sys2Proof

/-! ### Functions -/

/-- Outstanding reads of a function end as timed out (R190, R195): counted, and the completion that comes later is unexpected. -/
def Dev.timeoutReads (d : Dev) (f : Nat) : Dev :=
  let l := d.reads.filter fun e => match e.2 with
    | some r => r.fn == f
    | none => false
  let d := d.each l fun _ d => d.readIn f 0 .timedOut
  { d with reads := l.foldl (fun m e => m.set none e.1 none) d.reads }

/-- t0 of a function's reset (R195, R249, R262, R268, R270): its jobs are abandoned, its QPs move to ERROR, its storage commands and tags are dropped, and it answers nothing until it is ready. -/
def Dev.stopFn (d : Dev) (f : Nat) : Dev :=
  let d := d.qpsOfFn f
  let d := d.dropJobs ((d.jobs.filter fun e => e.2.fn == f && e.1 != 0).map (·.1))
  let d := d.stoReset f
  let d := d.updFn f fun x => { x with enabled := false, built := false, inReset := some d.clk.now, cfg := x.cfg.filter fun e => decide (e.1 < 16) }
  let d := d.showIntx f
  { d with pageReqs := d.pageReqs.filter fun x => x.1 != f, atc := d.atc.filter fun x => x.fn != f
           invals := d.invals.filter fun x => x.1 != f, keyInvals := d.keyInvals.set 0 f 0 }

/-- VFs of a PF that exist. -/
def Dev.vfsOf (d : Dev) (p : Nat) : List Nat :=
  if d.cfg p .vfEnable = 1 then
    (List.range (min (d.cfg p .numVfs) (d.pfs.at {} p).totalVfs)).map ((d.pfs.at {} p).vfBase + ·)
  else []

/-- The reset of a PF and of all its VFs, or of one VF, from the same t0 (R196). -/
def Dev.resetFns (d : Dev) (f : Nat) : Dev :=
  d.each ((if f < 16 then d.vfsOf f else []) ++ [f]) fun g d => d.stopFn g

/-- The registers of a function at their reset values, its check-value units among them (R7, R173, R195, R294). -/
def Dev.fnRegsReset (d : Dev) (f : Nat) : Dev :=
  let d := d.each (d.cvusOf f) fun u d => d.resetCvu u
  let mine (k : RegKey) : Bool := (k.reg.layout.kind == .fn || k.reg.layout.kind == .qp || k.reg.layout.kind == .eq) && k.ownerFn == f
  let d := d.resetRegs mine
  let qs : NMap Qp := d.qps.filter fun e => e.1 / 256 != f
  { d with qps := qs, eqArm := d.eqArm.filter fun e => e.1 / 16 != f, eqLost := d.eqLost.filter fun e => e.1 / 16 != f }

/-- The end of a function's reset (R169, R195): what is still outstanding has timed out, its registers are restored, pending resources apply, and a function that exists is made ready. -/
def Dev.readyFn (d : Dev) (f : Nat) : Dev :=
  let d := ((d.timeoutReads f).fnRegsReset f).applyRes f
  let d := d.updFn f fun x => { x with inReset := none }
  if d.fnExists f then d.buildFn f else d

/-- FLR_INITIATE (R195, R196): an Initiate Function Level Reset write to a function that answers configuration requests. -/
def execFlrInitiate (fn : Fin 512) (s : State) : Out := s.on fun d =>
  let f := fn.val
  if d.released ∧ d.fnExists f ∧ (d.fn f).inReset.isNone then d.resetFns f else d

/-- FLR_COMPLETE (R195, R197): at most 10.5 ms after t0, and not while PERST holds the function's port. -/
def execFlrComplete (fn : Fin 512) (s : State) : Out := s.on fun d =>
  let f := fn.val
  if (d.fn f).inReset.isNone ∨ d.perst.at false (d.hostOf f) then d else d.readyFn f

/-! ### Configuration space (R164, R171, R194) -/

/-- Bits of a configuration field. -/
def cfgBits : CfgField → Nat
  | .bar _ => 32
  | .vfBar _ => 32
  | .maxReadRequestSize => 3
  | .deviceStatus => 4
  | .uncorrectableErrorStatus => 32
  | .uncorrectableErrorMask => 32
  | .uncorrectableErrorSeverity => 32
  | .correctableErrorStatus => 32
  | .correctableErrorMask => 32
  | .outstandingPageRequestAllocation => 32
  | .powerState => 2
  | .completionTimeoutValue => 4
  | .multipleMessageEnable => 3
  | .msiAddress => 64
  | .msiData => 16
  | .msiMask => 32
  | .numVfs => 16
  | .totalVfs => 16
  | .classCode => 24
  | .msixTableSize => 11
  | _ => 1

/-- Fields of capabilities that only a PF has (R171). -/
def cfgPfOnly : CfgField → Bool
  | .msiEnable => true
  | .multipleMessageEnable => true
  | .msiAddress => true
  | .msiData => true
  | .msiMask => true
  | .interruptDisable => true
  | .priEnable => true
  | .vfEnable => true
  | .numVfs => true
  | .totalVfs => true
  | .vfBar _ => true
  | .vfMemorySpaceEnable => true
  | .initialVfs => true
  | .firstVfOffset => true
  | .vfStride => true
  | .deviceSerialNumber => true
  | .multipleMessageCapable => true
  | .msiPending => true
  | .memorySpaceEnable => true
  | .outstandingPageRequestCapacity => true
  | .outstandingPageRequestAllocation => true
  | .priResponseFailure => true
  | .priStopped => true
  | _ => false

/-- A capability is present in a function (R171). -/
def Dev.hasCapability (d : Dev) (f : Nat) : Capability → Bool
  | .powerManagement => true
  | .pciExpress => true
  | .msi => decide (f < 16)
  | .msix => (d.res f).vecCnt != 0
  | .aer => true
  | .ari => true
  | .sriov => decide (f < 16)
  | .ats => true
  | .pri => decide (f < 16)
  | .pasid => true
  | .doe => decide (f < 16)
  | .deviceSerialNumber => decide (f < 16)
  | .dataLinkFeature => d.linkHead f
  | .physicalLayer16 => d.linkHead f
  | .physicalLayer32 => d.linkHead f
  | .physicalLayer64 => d.linkHead f
  | .laneMargining => d.linkHead f
  | .secondaryPciExpress => d.linkHead f
  | .tph => false
  | .ltr => false
  | .l1PmSubstates => false
  | .resizableBar => false
  | .ptm => false

/-- What a register of a 64-bit BAR shows: of its low half the address bits from the size on, the type bits, and the prefetchable bit of BAR 4 (R172); an absent BAR reads 0, and so do those of a VF. -/
def barShows (log2 n stored : Nat) : Nat :=
  if log2 = 0 then 0
  else if n % 2 = 0 then stored / 2 ^ min log2 32 * 2 ^ min log2 32 + 4 + (if n = 4 then 8 else 0)
  else stored / 2 ^ (log2 - 32) * 2 ^ (log2 - 32)

/-- The size of a VF BAR of a PF as log2. -/
def Dev.vfBarLog2 (d : Dev) (p n : Nat) : Nat :=
  match n / 2 with
  | 0 => d.fld F.HIF_PF_CFG_VF_BAR0_LOG2 0 p
  | 1 => 16
  | _ => d.fld F.HIF_PF_CFG_VF_BAR4_LOG2 0 p

/-- The next ARI function of a link after a PF, 0 for the last (R165). -/
def Dev.ariNext (d : Dev) (p : Nat) : Nat :=
  let x := d.pfs.at {} p
  if (d.pfsOn x.port x.link).any (fun q => decide (p < q)) then d.ariNumber p + 1 else 0

/-- What a configuration field reads as. -/
def Dev.cfgRead (d : Dev) (f : Nat) (c : CfgField) : Nat :=
  if 16 ≤ f ∧ cfgPfOnly c then 0
  else
    let (h, k) := d.linkOf f
    match c with
    | .capability x => natOf (d.hasCapability f x)
    | .bar n => if 16 ≤ f then 0 else barShows (d.barLog2 f (n.val / 2)) n.val (d.cfg f c)
    | .vfBar n => barShows (d.vfBarLog2 f n.val) n.val (d.cfg f c)
    | .initialVfs => (d.pfs.at {} f).totalVfs
    | .firstVfOffset => Config.firstVfOffset f
    | .vfStride => 1
    | .ariNextFunction => if f < 16 then d.ariNext f else 0
    | .deviceSerialNumber => d.board.serial
    | .maxLinkSpeed => (d.shape h).2
    | .maxLinkWidth => 16 / linksOf (d.shape h).1
    | .currentLinkSpeed => d.fld F.HIF_LINK_STAT_GEN 0 (4 * h + k)
    | .negotiatedLinkWidth => d.fld F.HIF_LINK_STAT_WIDTH 0 (4 * h + k)
    | .multipleMessageCapable => 5
    | .msiPending => d.fld F.MSIX_PBA_LO f 0
    | .invalidateQueueDepth => 32
    | .outstandingPageRequestCapacity => pageCapacity
    | .maxPasidWidth => 20
    | .executePermissionSupported => 1
    | .privilegedModeSupported => 1
    | .totalVfs => (d.pfs.at {} f).totalVfs
    | .classCode => d.fld F.HIF_PF_CFG_CLASS 0 (d.pfOf f)
    | .msixTableSize => (d.res f).vecCnt - 1
    | .initiateFlr => 0
    | .priStopped => 1 - d.cfg f .priEnable
    | c => d.cfg f c

/-- Fields that a host reads only. -/
def cfgReadOnly : CfgField → Bool
  | .capability _ => true
  | .initialVfs => true
  | .firstVfOffset => true
  | .vfStride => true
  | .ariNextFunction => true
  | .deviceSerialNumber => true
  | .firstErrorPointer => true
  | .headerLog _ => true
  | .maxLinkSpeed => true
  | .maxLinkWidth => true
  | .currentLinkSpeed => true
  | .negotiatedLinkWidth => true
  | .multipleMessageCapable => true
  | .msiPending => true
  | .invalidateQueueDepth => true
  | .outstandingPageRequestCapacity => true
  | .priStopped => true
  | .maxPasidWidth => true
  | .executePermissionSupported => true
  | .privilegedModeSupported => true
  | .totalVfs => true
  | .classCode => true
  | .msixTableSize => true
  | _ => false

/-- Fields of which a 1 clears a bit. -/
def cfgClears : CfgField → Bool
  | .deviceStatus => true
  | .uncorrectableErrorStatus => true
  | .correctableErrorStatus => true
  | .priResponseFailure => true
  | _ => false

/-- A write of VF Enable (R166, R169, R174): setting it enables the PF's VFs, clearing it ends every one of them. -/
def Dev.writeVfEnable (d : Dev) (f : Nat) (v : Bool) : Dev :=
  if v then
    let d := d.setCfg f .vfEnable 1
    d.each (d.vfsOf f) fun g d => d.onlyIf (d.fn g).inReset.isNone fun d => d.buildFn g
  else
    let l := d.vfsOf f
    let d := d.each l fun g d => d.stopFn g
    (d.setCfg f .vfEnable 0).each l fun g d => d.readyFn g

/-- A write of a configuration field. NumVFs stays while VF Enable is set; the MSI-X fields of a function without vectors are absent (R171). -/
def Dev.cfgWrite (d : Dev) (f : Nat) (c : CfgField) (v : Nat) : Dev :=
  if (16 ≤ f ∧ cfgPfOnly c) ∨ cfgReadOnly c then d
  else if (c = .msixEnable ∨ c = .functionMask) ∧ (d.res f).vecCnt = 0 then d
  else
    let v := v % 2 ^ cfgBits c
    if cfgClears c then d.setCfg f c (d.cfg f c &&& (2 ^ 32 - 1 - v)) else
    match c with
    | .initiateFlr => if v = 1 then d.resetFns f else d
    | .vfEnable => if v = d.cfg f .vfEnable then d else d.writeVfEnable f (v == 1)
    | .numVfs => if d.cfg f .vfEnable = 1 then d else d.setCfg f .numVfs v
    | c => (d.setCfg f c v).showIntx f

/-- A configuration request reaches the device: its link is up. -/
def Dev.cfgArrives (d : Dev) (f : Nat) : Bool := d.linkUp (d.linkOf f).1 (d.linkOf f).2

/-- CONFIG_REQUEST (R164, R194, R195): Request Retry Status before release and in a function's reset, Unsupported Request for a function that does not exist, else the field read or written. -/
def execConfigRequest (fn : Fin 512) (field : CfgField) (write : Option Nat) (s : State) : Out := s.on fun d =>
  let f := fn.val
  if ¬ d.cfgArrives f then d
  else if ¬ d.released ∨ (d.fn f).inReset.isSome then d.emit (.cfgReply f 2 0)
  else if ¬ d.fnExists f then d.emit (.cfgReply f 1 0)
  else
    match write with
    | none => d.emit (.cfgReply f 0 (d.cfgRead f field))
    | some v => (d.emit (.cfgReply f 0 0)).cfgWrite f field v

/-- VF_ENABLE (R166): the host writes VF Enable and NumVFs of a PF together. -/
def execVfEnable (fn : Fin 512) (enable : Bool) (numVfs : Nat) (s : State) : Out := s.on fun d =>
  let f := fn.val
  if 16 ≤ f ∨ ¬ d.released ∨ ¬ d.fnExists f ∨ (d.fn f).inReset.isSome then d
  else (d.cfgWrite f .numVfs numVfs).cfgWrite f .vfEnable (natOf enable)

/-! ### Host ports (R162, R163, R166, R197) -/

/-- The placement that HIF_PF_CFG gives a PF. -/
def Dev.pfWanted (d : Dev) (p : Nat) : PfPlace :=
  { present := d.flag F.HIF_PF_CFG_EN 0 p, port := d.fld F.HIF_PF_CFG_PORT 0 p, link := d.fld F.HIF_PF_CFG_LINK 0 p
    totalVfs := d.fld F.HIF_PF_CFG_TOTALVFS 0 p, vfBase := d.fld F.HIF_PF_CFG_VF_BASE 0 p }

/-- Placement takes effect at the reset of port `h`: PFs leave it, join it, or stay on it with the values now written. -/
def Dev.placePfs (d : Dev) (h : Nat) : Dev :=
  d.each (List.range 16) fun p d =>
    let was := d.pfs.at {} p
    let now := d.pfWanted p
    if (was.present && was.port != h) || (!was.present && !(now.present && now.port == h)) then d
    else
      let place : PfPlace := if now.present ∧ now.port = h then now else { now with present := false }
      let d := { d with pfs := d.pfs.set {} p place }
      if place.present ∧ (d.fn p).inReset.isNone then d.updFn p fun x => { x with enabled := false, built := false, inReset := some d.clk.now } else d

/-- Functions of a port (`link` none) or of one link. -/
def Dev.fnsOn (d : Dev) (h : Nat) (link : Option Nat) : List Nat :=
  ((List.range 16).filter fun p =>
    let x := d.pfs.at {} p
    x.present && x.port == h && (match link with
      | some k => x.link == k
      | none => true)).flatMap fun p => d.vfsOf p ++ [p]

/-- Every function of a port or link reset from the present cycle, their reads timed out at once (R197). -/
def Dev.resetPort (d : Dev) (h : Nat) (link : Option Nat) : Dev :=
  d.each (d.fnsOn h link) fun f d => (d.stopFn f).timeoutReads f

/-- A link goes down (R197). -/
def Dev.dropLink (d : Dev) (h k : Nat) : Dev := if d.linkUp h k then (d.toDetect h k).resetPort h (some k) else d.toDetect h k

/-- PERST_ASSERT (R7, R75, R197): the port's functions are reset, its links go to Detect, placement and the module buses are as after any warm reset. While PWRGD is low only the pin's level is noted. -/
def execPerstAssert (host : Fin 2) (s : State) : Out := s.always fun d =>
  let h := host.val
  if d.perst.at false h then d
  else if ¬ d.boot.pwrgd then { d with perst := d.perst.set false h true }
  else
    let d := ({ d with perst := d.perst.set false h true }.resetPort h none).placePfs h
    let d := d.each (List.range 4) fun k d => d.toDetect h k
    d.each (List.range 16) fun b d => d.updMod b fun x => { x with recovered := false }

/-- PERST_DEASSERT (R162, R473): the port's shape is sampled, and its links may train; a deassertion while PWRGD is low takes effect at PWRGD, with the shape that the reset gives the port. -/
def execPerstDeassert (host : Fin 2) (s : State) : Out := s.always fun d =>
  let h := host.val
  if ¬ d.perst.at false h then d
  else
    let d := { d with perst := d.perst.set false h false }
    if d.boot.pwrgd then d.samplePort h else d

/-- HIF_PORT_CFG (R162, R163): BIFURC 3 and MAX_GEN 0 are discarded; EN = 0 takes every link to Detect, and EN from 0 to 1 samples the shape. -/
def hifPortEffect (k : RegKey) (w : Write) (d : Dev) : Dev :=
  let v := d.wouldBe k w.value
  let h := k.i
  if F.HIF_PORT_CFG_BIFURC.ofWord v = 3 ∨ F.HIF_PORT_CFG_MAX_GEN.ofWord v = 0 then d
  else
    let was := d.flag F.HIF_PORT_CFG_EN 0 h
    let d := d.setWord k v
    let now := d.flag F.HIF_PORT_CFG_EN 0 h
    if was ∧ ¬ now then d.each (List.range 4) fun l d => d.dropLink h l
    else if ¬ was ∧ now then d.samplePort h
    else d

/-- HOST_PORT_ENABLE (R163). -/
def execHostPortEnable (host : Fin 2) (ws : List Write) (s : State) : Out := s.on fun d =>
  d.writeReg ⟨.HIF_PORT_CFG, 0, host.val, 0⟩ ws hifPortEffect

/-- The AER bit of an error of a link that R194 calls fatal. -/
def lossBit : LinkLoss → Option Nat
  | .plain => none
  | .dataLinkProtocol => some aerDataLink
  | .flowControl => some aerFlowControl
  | .receiverOverflow => some aerOverflow

/-- HOST_LINK_DOWN (R194, R197): the error that brought the link down, if one did, is reported before its functions are reset. -/
def execHostLinkDown (host : Fin 2) (down : LinkDown) (s : State) : Out := s.on fun d =>
  let link := down.link
  let d := match lossBit down.loss with
    | some b => d.onlyIf (d.linkUp host.val link.val) fun d => d.reportLink host.val link.val b
    | none => d
  d.dropLink host.val link.val

/-! ### Chip reset and cold reset (R7, R8, R400, R404) -/

/-- Where the retained store (R404) and the boot record (R401) lie. -/
def retained : Nat := 2 ^ 50
def bootRecord : Nat := 0xFFF000

/-- PREF of the boot record: Bank B when its first byte is 1, Bank A when the record is erased. -/
def Dev.pref (d : Dev) : Nat := if d.memVal bootRecord 1 = 1 then 1 else 0

/-- MAGIC shows a valid retained store. -/
def Dev.retValid (d : Dev) : Bool := d.memVal retained 4 == 0x52545331

/-- ATTEMPTS and LAST_FAIL: in the retained store, 0 while it is not valid (R401). -/
def Dev.attempts (d : Dev) : Nat := if d.retValid then d.memVal (retained + 6) 2 else 0
def Dev.lastFail (d : Dev) : Nat := if d.retValid then d.memVal (retained + 8) 1 else 0

/-- ATTEMPTS and LAST_FAIL recorded, the store made valid. -/
def Dev.recordAttempts (d : Dev) (n f : Nat) : Dev :=
  let d := ((d.storeRaw retained (leBytes 4 0x52545331)).storeRaw (retained + 6) (leBytes 2 n)).storeRaw (retained + 8) (leBytes 1 f)
  (d.setChip F.BOOT_STAT_ATTEMPTS n).setChip F.BOOT_STAT_LAST_FAIL f

/-- Repair rows left of a DRAM device, 8 × channel + rank, and the fewest of any device (R425). -/
def Dev.rowsLeft (d : Dev) (n : Nat) : Nat := d.board.repairRows - (d.safety.repaired.filter (· == n)).length
def Dev.rowsLeast (d : Dev) : Nat := d.safety.repaired.foldl (fun m n => min m (d.rowsLeft n)) d.board.repairRows

/-- Registers whose reset value lies in flash or in the retained store, and WAKE. -/
def Dev.showBoot (d : Dev) : Dev :=
  let d := (d.setChip F.BOOT_STAT_ATTEMPTS d.attempts).setChip F.BOOT_STAT_LAST_FAIL d.lastFail
  let d := (d.setChip F.BOOT_EPOCH_LO d.boot.epoch).setChip F.BOOT_EPOCH_HI (d.boot.epoch / 2 ^ 32)
  let rows := min 255 d.board.repairRows
  let d := (d.setFld F.SPARE_STAT_INITIAL 0 9 rows).setFld F.SPARE_STAT_LEFT 0 9 (min 255 d.rowsLeast)
  ((d.setChip F.BOOT_CTL_PREF d.pref).setChip F.BOOT_STAT_WAKE (natOf d.boot.wakeIn)).setChip F.PAIR_STAT_ROLE d.board.role

/-- The write of one flash operation: the epoch advances first (R391, R468). -/
def Dev.flashEpoch (d : Dev) : Dev :=
  let d := d.updBoot fun k => { k with epoch := k.epoch + 1 }
  (d.setChip F.BOOT_EPOCH_LO d.boot.epoch).setChip F.BOOT_EPOCH_HI (d.boot.epoch / 2 ^ 32)

/-- Every PF that HIF_PF_CFG enables placed on its port. -/
def Dev.placeAll (d : Dev) : Dev :=
  d.each (List.range 16) fun p d =>
    let x := d.pfWanted p
    if x.present then ({ d with pfs := d.pfs.set {} p x }).updFn p fun y => { y with enabled := true } else { d with pfs := d.pfs.set {} p {} }

/-- Registers that a chip reset leaves: those that survive every reset but a loss of VRET. -/
def keptByChip (k : RegKey) : Bool := k.reg == .LK_STAT

/-- The counts of cells that run from cold reset, carried into the device after a chip reset; the other fields of their registers are at their reset values. -/
def Dev.keepCounts (d new : Dev) : Dev :=
  new.each (List.range 10) fun k x =>
    (x.setFld F.SPARE_STAT_RETIRED 0 k (d.fld F.SPARE_STAT_RETIRED 0 k)).setFld F.ST_REPORT_FAILED 0 k (d.fld F.ST_REPORT_FAILED 0 k)

/-- What the device drives once it is held or has just been reset (R397). -/
def Dev.gate (d : Dev) : Dev := (d.setFault true).setActive false

/-- What the loader had installed in protected ranges, seen without the key that encrypted it: a new key is drawn at each reset (R412). -/
def Dev.cipherText (d : Dev) : List MemOp :=
  d.boot.scCode.flatMap fun x => (List.range x.2).map fun i => .byte (x.1 + i) (BitVec.ofNat 8 (Config.cipherByte d.draws (x.1 + i)))

/-- A chip reset (R7, R8, R275, R397): every register at its reset value but RWS fields; tables, packets, jobs, threads, code and security associations gone. Flash, fuses, memory and the retained store stay, and so do the cycle count, the grid's anchor, the cells retired, and ROLE_ERR and DUPID (R443). -/
def Dev.chipReset (d : Dev) : Dev :=
  let r := d.resetRegs fun k => !keptByChip k
  let b := d.boot
  let f := d.safety
  let fresh : Dev :=
    { clk := { now := d.clk.now, tc := 0 }, csr := r.csr, cnt := [], mem := d.mem, stores := d.cipherText ++ d.stores, marks := d.marks, out := d.out, board := d.board
      span := { start := d.clk.now, due := .cycle (d.span.anchor + (d.clk.now - d.span.anchor + 16500 + 82499) / 82500 * 82500), anchor := d.span.anchor, trans := true }
      perst := d.perst, hifShape := d.hifShape, draws := d.draws + 1, tap := d.tap, pfs := [], fns := []
      boot := { b with attempt := false, asleep := none, sleepDone := false, chain := [], session := false, dram := false, ldr := none
                       ldrImage := [], ldrErr := 0, cdi0 := [], cdi1 := [], aliasKey := 0, aliasCert := [], pcCode := [], scCode := [] }
      safety := { gone := f.gone, spareUsed := f.spareUsed, repaired := f.repaired, kept := false, fault := f.fault, active := f.active, lkBeat := d.clk.now } }
  let d' := d.keepCounts (fresh.placeAll.showBoot).gate
  let d' := d'.onlyIf d.ppsOut fun e => e.emit (.pin "PTP_PPS_OUT" false)
  let d' := (d'.setChip F.PAIR_STAT_PEER_PIN (d.fld F.PAIR_STAT_PEER_PIN)).setChip F.CAS_STAT_DUPID (d.fld F.CAS_STAT_DUPID)
  if d.fld F.PAIR_STAT_STATE = 6 then d'.setChip F.PAIR_STAT_STATE 6 else d'

/-- A cold reset (R7, R404, R439): everything at its reset value but flash, fuses, and, while VRET lasts, the retained store and LK_STAT. -/
def Dev.coldReset (d : Dev) : Dev :=
  let b := d.boot
  let fresh : Dev :=
    { csr := d.csr.filter fun e => e.1.reg == .LK_STAT, stores := .clear 0x1000000 retained :: .clear (retained + 4096) (2 ^ 51) :: d.stores, mem := d.mem
      out := d.out, board := d.board, perst := d.perst, draws := d.draws, tap := d.tap, pfs := [], fns := []
      boot := { vret := b.vret, pwrgd := b.pwrgd, wakeIn := b.wakeIn, programmed := b.programmed, slots := b.slots, revoked := b.revoked, minSvn := b.minSvn, epoch := b.epoch }
      safety := { fault := d.safety.fault, active := d.safety.active } }
  let fresh := fresh.onlyIf d.ppsOut fun e => e.emit (.pin "PTP_PPS_OUT" false)
  ((fresh.placeAll.showBoot).gate).setChip F.PAIR_STAT_PEER_PIN (d.fld F.PAIR_STAT_PEER_PIN)

end Sys2Proof.Machine
end

