-- ==== Sys2Proof/Machine/Factory.lean ====
section
/-! DEFINITION. What stage 1 of the factory image sets up while boot gating holds: the parse program, the bridge table, its learning and its sweeper, and the carve-outs of DRAM (R39, R128, R412, R487). -/

namespace Sys2Proof.Machine

open Sys2Proof

/-- A state of the factory parse program (R83, R128): the layer that it records, how its length and its select field are found, its checks, its fragment test and its transitions. -/
structure FactoryState where
  layer : Nat
  fixed : Nat := 0
  lenByte : Nat := 0
  lenLsb : Nat := 0
  lenBits : Nat := 0
  shift : Nat := 0
  selByte : Nat := 0
  selBits : Nat := 0
  checks : List Nat := []
  frag : Nat := 0
  base : Nat := 0
  cnt : Nat := 0
  deriving DecidableEq, Repr

/-- The transitions of the factory parse program: a select value and the next state. Entries 0 to 3 follow an EtherType, 4 and 5 an IPv4 protocol, 6 to 15 an IPv6 next header. -/
def factoryTrans : List (Nat × Nat) :=
  [(0x8100, 1), (0x88A8, 1), (0x0800, 3), (0x86DD, 4), (6, 8), (17, 9),
   (0, 5), (44, 6), (43, 7), (60, 7), (135, 7), (139, 7), (140, 7), (51, 10), (6, 8), (17, 9), (0x8100, 2), (0x88A8, 2), (0x0800, 3), (0x86DD, 4)]

/-- The states of the factory parse program: Ethernet, two VLAN tags, IPv4, IPv6, Hop-by-Hop, Fragment, the other extension headers, TCP, UDP, and the authentication header, whose length counts in 4-byte units.
The numbers of the states and transitions are the model's: DESIGN CHOICE, entry 186. -/
def factoryStates : List FactoryState :=
  [{ layer := 1, fixed := 14, selByte := 12, selBits := 16, base := 0, cnt := 4 },
   { layer := 2, fixed := 4, selByte := 2, selBits := 16, base := 16, cnt := 4 },
   { layer := 2, fixed := 4, selByte := 2, selBits := 16, base := 18, cnt := 2 },
   { layer := 3, lenBits := 4, shift := 2, selByte := 9, selBits := 8, checks := [1, 2, 3, 4, 8, 10], frag := 1, base := 4, cnt := 2 },
   { layer := 4, fixed := 40, selByte := 6, selBits := 8, checks := [5, 6, 10], base := 6, cnt := 10 },
   { layer := 5, fixed := 8, lenByte := 1, lenBits := 8, shift := 3, selBits := 8, checks := [7], base := 6, cnt := 10 },
   { layer := 6, fixed := 8, checks := [8], frag := 2 },
   { layer := 7, fixed := 8, lenByte := 1, lenBits := 8, shift := 3, selBits := 8, base := 6, cnt := 10 },
   { layer := 8, lenByte := 12, lenLsb := 4, lenBits := 4, shift := 2, checks := [9] },
   { layer := 9, fixed := 8, checks := [9] },
   { layer := 7, fixed := 8, lenByte := 1, lenBits := 8, shift := 2, selBits := 8, base := 6, cnt := 10 }]

/-- One state written into the active bank of a region. -/
def Dev.putFactoryState (d : Dev) (r b s : Nat) (x : FactoryState) : Dev :=
  let i := 254 * b + s
  let d := ((d.setFld F.CLS_PSTATE_LAYER_ID r i x.layer).setFld F.CLS_PSTATE_LEN_FIXED r i x.fixed).setFld F.CLS_PSTATE_LENF_BYTE r i x.lenByte
  let d := ((d.setFld F.CLS_PSTATE_LENF_LSB r i x.lenLsb).setFld F.CLS_PSTATE_LENF_BITS r i x.lenBits).setFld F.CLS_PSTATE_LEN_SHIFT r i x.shift
  let d := (d.setFld F.CLS_PSTATE_SEL_BYTE r i x.selByte).setFld F.CLS_PSTATE_SEL_BITS r i x.selBits
  let d := (d.setFld F.CLS_PSTATE_CHECKS r i ((x.checks.map fun c => 2 ^ c).sum)).setFld F.CLS_PSTATE_FRAG r i x.frag
  ((d.setFld F.CLS_PSTATE_TRANS_BASE r i x.base).setFld F.CLS_PSTATE_TRANS_CNT r i x.cnt).setFld F.CLS_PSTATE_DEFAULT_NEXT r i 255

/-- The factory parse program in the active bank of a region, and every start at its Ethernet state and table 0. -/
def Dev.factoryParse (d : Dev) (r : Nat) : Dev :=
  let b := d.fld F.CLS_PARSE_CTL_ACTIVE r
  let d := d.each (List.range factoryStates.length) fun s d => d.putFactoryState r b s (factoryStates.getD s { layer := 0 })
  let d := d.each (List.range factoryTrans.length) fun t d =>
    let x := factoryTrans.getD t (0, 0)
    ((d.setFld F.CLS_PTRANS_VALUE r (1024 * b + t) x.1).setFld F.CLS_PTRANS_MASK r (1024 * b + t) (2 ^ 32 - 1)).setFld F.CLS_PTRANS_NEXT r (1024 * b + t) x.2
  d.each (List.range 4) fun s d => (d.setFld F.CLS_START_STATE r s 0).setFld F.CLS_START_FIRST_TBL r s 0

/-- Table 0 of a region: exact-match, 147,456 buckets, its key the bridge domain from user metadata bytes 16 and 17 and the destination address; and the program of learned entries in slot 254. -/
def Dev.factoryTable (d : Dev) (r : Nat) : Dev :=
  let ext (d : Dev) (i md layer byte width : Nat) : Dev :=
    let d := ((d.setFld F.CLS_KEX_META r i md).setFld F.CLS_KEX_LAYER_ID r i layer).setFld F.CLS_KEX_OCC r i 0
    (((d.setFld F.CLS_KEX_BYTE r i byte).setFld F.CLS_KEX_BIT r i 0).setFld F.CLS_KEX_WIDTH r i (width - 1)).setFld F.CLS_KEX_VALID r i 1
  let d := ext (ext d 0 1 0 16 16) 1 0 1 0 48
  let d := ((d.setFld F.CLS_TBL_KIND r 0 0).setFld F.CLS_TBL_STAGE r 0 0).setFld F.CLS_TBL_KEY_WORDS r 0 2
  let d := (d.setFld F.CLS_TBL_NB_K r 0 144).setFld F.CLS_TBL_EN r 0 1
  { d with progs := d.progs.set [] (256 * r + 254) factoryProgram }

/-- The carve-outs of the factory image: the tally bank at the start of DRAM (R487) and the integrity tags in the last sixteenth of it (R412). -/
def Dev.factoryCarveouts (d : Dev) : Dev :=
  let size := d.dramBytes / 2 ^ 34
  let base := 2 ^ 36 + d.dramBytes - size * 2 ^ 30
  let d := ((d.setChip F.TLY_BASE_BASE_LO 0).setChip F.TLY_BASE_BASE_HI 0x10).setChip F.TLY_BASE_EN 1
  ((d.setChip F.IMP_CFG_BASE_LO (base / 2 ^ 20 % 2 ^ 12)).setChip F.IMP_CFG_BASE_HI (base / 2 ^ 32)).setChip F.IMP_CFG_SIZE_GIB size

/-- The default bridge of R39, set up while boot gating holds (R128) by the stage 1 that manufacture programmed in the bank that runs, when the configuration store is empty. -/
def Dev.factorySetup (d : Dev) : Dev :=
  if d.boot.programmed.contains (d.fld F.BOOT_STAT_BANK) ∨ ¬ d.flag F.BOOT_STAT_CFG_EMPTY then d
  else
    let d := ((d.setFld F.FWD_BRT_EN 0 0 1).setFld F.FWD_BRT_HOME 0 0 0).setFld F.FWD_BRT_TBL 0 0 0
    let d := d.each (List.range 4) fun r d => (d.factoryParse r).factoryTable r
    let d := (if (d.tblPlaces.at none 0).isNone then d.createBuckets 0 0 else d).showAllBad
    let d := ((d.setFld F.FWD_BD_LEARN_EN 0 0 1).setFld F.FWD_BD_FLOOD_PORTS 0 0 0xFFFF).setFld F.FWD_BD_FLOOD_HOST 0 0 1
    let d := ((d.setFld F.FWD_BD_FLOOD_FUNC 0 0 0).setFld F.FWD_BD_FLOOD_QUEUE 0 0 0).setFld F.FWD_AGE_PERIOD_S 0 0 100
    ((d.setFld F.FWD_AGE_EN 0 0 1).startRound 0 0 d.clk.now).factoryCarveouts

end Sys2Proof.Machine
end

