-- ==== Sys2Proof/Machine/Boot.lean ====
section
/-! DEFINITION. Boot, signed images, deep sleep, measurement, the loader and firmware update (R390 to R415). -/

namespace Sys2Proof.Machine

open Sys2Proof

/-! ### Signed images (R392 to R394) -/

/-- A little-endian field of an image. -/
def imgNum (img : List Byte) (o n : Nat) : Nat := leVal (sliceB img o n)

/-- Check 1 of R394, for the kinds that are valid in an area of a size. -/
def imgHeaderOk (kinds : List Nat) (area : Nat) (img : List Byte) : Bool :=
  imgNum img 0 4 == 0x4E4B494D && imgNum img 4 2 == 1 && kinds.contains (imgNum img 6 1) && imgNum img 7 1 == 0 && imgNum img 0x14 4 == 0 &&
  imgNum img 0x50 48 == 0 && decide (8192 + imgNum img 0x10 4 ≤ area)

/-- ECPUB followed by MLPUB, and the signed bytes. -/
def imgKeys (img : List Byte) : List Byte := sliceB img 0x80 97 ++ sliceB img 0x100 2592
def imgSigned (img : List Byte) : List Byte := sliceB img 0 128

/-- Check 3 of R394: both signatures over bytes 0x00 to 0x7F, the ECDSA key a point of the curve and s below the order (FIPS 186-5; `verify` refuses an r of the order or above). -/
def imgSigOk (img : List Byte) : Bool :=
  let m := imgSigned img
  let pk := sliceB img 0x100 2592
  let mu := shake256 64 (shake256 64 pk ++ [0, 0] ++ m)
  imgNum img 0x80 1 == 4 && p384.onCurve (beVal (sliceB img 0x81 48)) (beVal (sliceB img 0xB1 48)) && decide (beVal (sliceB img 0xB50 48) < p384.n) &&
  p384.verify (beVal (sliceB img 0x81 48)) (beVal (sliceB img 0xB1 48)) (beVal (sha384 m)) (beVal (sliceB img 0xB20 48)) (beVal (sliceB img 0xB50 48)) &&
  dVerify dsa87 pk mu (sliceB img 0xC00 4627)

/-- The payload of an image. -/
def imgPayload (img : List Byte) : List Byte := sliceB img 8192 (imgNum img 0x10 4)

/-- An owner key slot that is programmed and not revoked holds a digest. -/
def Dev.ownerKey (d : Dev) (digest : List Byte) : Bool :=
  (List.range 4).any fun i => !d.boot.revoked.contains i &&
    (if i = 0 then digest == Config.ownerSlotZero else d.boot.slots.at [] i == digest && !digest.isEmpty)

/-- The first check of R394 that an image fails, as STATUS and LAST_FAIL number them: 1 BADHDR, 2 KEY, 3 SIG, 4 SVN, 5 HASH; 0 when it verifies. -/
def Dev.imgFails (d : Dev) (kinds : List Nat) (area : Nat) (img : List Byte) (svn : Bool) : Nat :=
  if ¬ imgHeaderOk kinds area img then 1
  else if ¬ d.ownerKey (sha384 (imgKeys img)) then 2
  else if ¬ imgSigOk img then 3
  else if svn ∧ imgNum img 8 8 < d.boot.minSvn then 4
  else if sha384 (imgPayload img) ≠ sliceB img 0x20 48 then 5
  else 0

/-! ### Banks and the configuration store (R390, R395, R401, R402) -/

def bankBase (b : Nat) : Nat := if b = 0 then 0x10000 else 0x790000
def bankSize : Nat := 0x780000
def storeBase : Nat := 0xF10000
def storeSize : Nat := 0xF0000 - 4096

/-- The image at an address of flash. -/
def Dev.flashImage (d : Dev) (a : Nat) : List Byte := d.memBytes a (8192 + min (d.memVal (a + 0x10) 4) bankSize)

/-- What stage 1 of a bank fails; the image of manufacture verifies (R39). -/
def Dev.bankFails (d : Dev) (b : Nat) : Nat :=
  if d.boot.programmed.contains b then d.imgFails [1] bankSize (d.flashImage (bankBase b)) true else 0

/-- The configuration store is empty. -/
def Dev.storeEmpty (d : Dev) : Bool := d.memVal storeBase 4 == 0xFFFFFFFF

/-- What a configuration store that is not empty fails. -/
def Dev.storeFails (d : Dev) : Nat := if d.storeEmpty then 0 else d.imgFails [6] storeSize (d.flashImage storeBase) true

/-- The bank that an attempt uses (R401). -/
def Dev.bankChosen (d : Dev) : Nat := if d.attempts % 2 = 0 then d.pref else 1 - d.pref

/-- The failure of an attempt on a bank, as LAST_FAIL records it (R395, R402): stage 1's first, then the store's with bit 3 set; 0 for none. -/
def Dev.attemptFails (d : Dev) (b : Nat) : Nat :=
  let x := d.bankFails b
  if x ≠ 0 then x else if d.storeFails ≠ 0 then 8 + d.storeFails else 0

/-- SHA-384 digests of stage 1 and of the configuration store, zeros when it is empty. -/
def Dev.stage1Digest (d : Dev) (b : Nat) : List Byte :=
  if d.boot.programmed.contains b then d.memBytes (bankBase b + 0x20) 48 else sliceB (Config.factoryDigest b) 0 48
def Dev.stage1Svn (d : Dev) (b : Nat) : Nat :=
  if d.boot.programmed.contains b then d.memVal (bankBase b + 8) 8 else Config.factorySvn b % 2 ^ 64
def Dev.storeDigest (d : Dev) : List Byte := if d.storeEmpty then List.replicate 48 0 else d.memBytes (storeBase + 0x20) 48

/-! ### Retained store (R404 to R406) -/

/-- HMAC with SHA-384 (FIPS 198-1). -/
def hmac384 (key msg : List Byte) : List Byte :=
  let k := sliceB (if 128 < key.length then sha384 key else key) 0 128
  sha384 (k.map (· ^^^ 0x5C) ++ sha384 (k.map (· ^^^ 0x36) ++ msg))

/-- The key of the retained store's MAC, which never leaves the Keystone (R404, R406). -/
def sleepKey : List Byte := Config.sleepKey Config.deviceSecret

/-- The fields of the retained store under its MAC, in order. -/
def Dev.retCovered (d : Dev) : List Byte :=
  d.memBytes retained 4 ++ d.memBytes (retained + 5) 1 ++ d.memBytes (retained + 0x20) (48 + 8 + 48 + 3832)

/-- The conditions of the fast path for a bank. -/
def Dev.fastPath (d : Dev) (b : Nat) : Bool :=
  d.memVal (retained + 4) 1 == 1 && d.memBytes (retained + 0xFC0) 48 == hmac384 sleepKey d.retCovered &&
  d.memVal (retained + 0x50) 8 == d.boot.epoch && d.memVal (retained + 5) 1 == b

/-! ### Boot attempts (R395 to R402) -/

/-- LATENT and FAULT_N follow the proofs, the latent faults noted, the safe state and release (R397, R434, R437, R439). -/
def Dev.showLatent (d : Dev) : Dev :=
  let l := d.fld F.DET_STAT_PASS != 4095 || d.safety.kept
  let d := d.setChip F.ERR_STAT_LATENT (natOf l)
  d.setFault (l || !d.released || d.quiet)

/-- A log entry of a latent fault (R421): CLASS is free, ACTION 0. -/
def Dev.logLatent (d : Dev) (mech kind cell : Nat) : Dev :=
  let c := Config.latentClass d.draws % 4
  { d with draws := d.draws + 1 }.logError c mech kind cell 0 0

/-- The results of the detectors' proofs shown (R437); a proof that fails after it has passed makes an entry. -/
def Dev.showProofs (d : Dev) (pass : Nat) : Dev :=
  let bad := pass % 4096 ≠ 4095 ∧ ¬ d.flag F.ERR_STAT_LATENT
  let d := (d.setChip F.DET_STAT_PASS pass).showLatent
  if bad then d.logLatent 15 0 0 else d

/-- BOOT_ATTEMPT_START (R395, R401, R403, R406, R437): stage 0 proves the detectors (`proofs`, bit m − 1 for code m), chooses the bank, takes the fast path or checks the header, clears SLEPT and starts stage 1. No attempt starts during a wait or a firmware update. -/
def execBootAttemptStart (proofs : Fin 4096) (s : State) : Out := s.on fun d =>
  if d.released ∨ d.boot.attempt ∨ d.boot.updating ∨ d.boot.waitFrom.isSome ∨ d.safety.keystoneHeld then d
  else
    let d := d.showProofs proofs.val
    let b := d.bankChosen
    let fast := d.fastPath b
    let d := d.storeRaw (retained + 4) [0]
    let d := (d.setChip F.BOOT_STAT_BANK b).setChip F.BOOT_STAT_PREFMISS (natOf (b != d.pref))
    let d := (d.setChip F.BOOT_STAT_FAST (natOf fast)).setChip F.BOOT_STAT_CFG_EMPTY (natOf d.storeEmpty)
    let x := d.bankFails b
    let d := d.updBoot fun k => { k with attempt := true }
    if fast then (d.bump .BOOT_CNT 0 0).setChip F.BOOT_STAT_PHASE 1
    else if x = 1 ∨ x = 2 then d
    else d.setChip F.BOOT_STAT_PHASE 1

/-- The attempt in progress passes. -/
def Dev.attemptPasses (d : Dev) : Bool :=
  d.boot.attempt && d.fld F.BOOT_STAT_PHASE == 1 && (d.flag F.BOOT_STAT_FAST || d.attemptFails (d.fld F.BOOT_STAT_BANK) == 0)

/-- Digests that are measured at release: on the fast path those of the record (R406, R410). -/
def Dev.measure (d : Dev) : Dev :=
  let b := d.fld F.BOOT_STAT_BANK
  let fast := d.flag F.BOOT_STAT_FAST
  let s1 := if fast then d.memBytes (retained + 0x20) 48 else d.stage1Digest b
  let cf := if fast then d.memBytes (retained + 0x58) 48 else d.storeDigest
  d.updBoot fun k => { k with stage1 := s1, svn := d.stage1Svn b, config := cf, chain := List.replicate 48 0, attempt := false }

/-! ### Identity (R408) -/

/-- A P-384 private key made of a compound device identifier: 1 to n − 1. -/
def keyOfCdi (cdi : List Byte) : Nat := 1 + Config.keySeed cdi % (p384.n - 1)

/-- The public key of a P-384 private key, x then y. -/
def publicOf (key : Nat) : List Byte := p384.ptBytes (p384.mul key p384.base)

/-- A P-384 signature with SHA-384, r then s; the nonce is of the random bit generator. -/
def signP384 (key : Nat) (msg : List Byte) (draw : Nat) : List Byte :=
  let rs := signTries p384 key (beVal (sha384 msg)) draw 16 0
  beBytes 48 rs.1 ++ beBytes 48 rs.2

/-- CDI0, of the fuses alone, and the DeviceID key, which it gives. -/
def cdi0 : List Byte := Config.kdf Config.deviceSecret (sliceB Config.stage0Digest 0 48)
def deviceIdKey : Nat := keyOfCdi cdi0

/-- CDI1 of what a release has measured. -/
def cdi1Of (stage1 config : List Byte) : List Byte := Config.kdf cdi0 (stage1 ++ config)

/-- The alias certificate: what it says of the alias public key, and the DeviceID key's signature over that. -/
def aliasCertOf (key draw : Nat) : List Byte :=
  let body := Config.certBody (publicOf key)
  body ++ signP384 deviceIdKey body draw

/-- The identifiers and the alias key derived from the measured digests, and the alias key certified. -/
def Dev.deriveIdentity (d : Dev) : Dev :=
  let c := cdi1Of d.boot.stage1 d.boot.config
  let draw := d.draws
  { d with draws := draw + 1 }.updBoot fun k => { k with cdi0 := cdi0, cdi1 := c, aliasKey := keyOfCdi c, aliasCert := aliasCertOf (keyOfCdi c) draw }

/-- A pair device enters ELECT, its timer running (R457); a cascade member begins with itself alone (R443). -/
def Dev.startElection (d : Dev) : Dev :=
  let r := d.fld F.PAIR_STAT_ROLE
  if d.fld F.PAIR_STAT_STATE = 6 ∨ d.flag F.CAS_STAT_DUPID then d
  else if r = 1 ∨ r = 2 then { d.setChip F.PAIR_STAT_STATE 1 with pair := { d.pair with electFrom := some d.clk.now, pinSeen := d.flag F.PAIR_STAT_PEER_PIN } }
  else if r = 3 then ((d.setChip F.CAS_STAT_KNOWN (2 ^ d.board.cascId)).setChip F.CAS_STAT_LIVE (2 ^ d.board.cascId)).setChip F.CAS_STAT_RING_BROKEN 1
  else d

/-- RELEASE (R396, R397, R399, R401, R408, R409): the verifier's pass opens the gates. -/
def execRelease (s : State) : Out := s.on fun d =>
  if d.released ∨ ¬ d.attemptPasses ∨ d.quiet then d
  else
    let d := d.measure.deriveIdentity.factorySetup
    let d := { d.setChip F.BOOT_STAT_PHASE 2 with released := true }
    let d := (d.setChip F.BOOT_REL_US ((d.clk.now - d.boot.t0) / 1650)).recordAttempts 0 d.lastFail
    let d := d.setChip F.LK_CFG_LOCK 1
    let d := d.showLatent
    let d := { d with safety := { d.safety with round := d.clk.now, rounds := 0, lkBeat := d.clk.now }, pair := { d.pair with squelched := false, refresh := d.clk.now } }
    (d.each ((List.range 16).filter d.isPort) fun p d => d.evalDisabled p).startElection

/-- BOOT_ATTEMPT_FAIL (R396, R400, R402): the first check that fails ends the attempt with a chip reset; ATTEMPTS and LAST_FAIL are recorded and the wait starts. -/
def execBootAttemptFail (s : State) : Out := s.on fun d =>
  let x := d.attemptFails (d.fld F.BOOT_STAT_BANK)
  if d.released ∨ ¬ d.boot.attempt ∨ d.flag F.BOOT_STAT_FAST ∨ x = 0 then d
  else
    let d := d.chipReset
    let d := d.recordAttempts (min (d.attempts + 1) 65535) x
    d.updBoot fun k => { k with waitFrom := some d.clk.now }

/-- BOOT_RETRY_WAIT_EXPIRY (R400): 100 ms after the failure. -/
def execBootRetryWaitExpiry (s : State) : Out := s.on fun d =>
  match d.boot.waitFrom with
  | none => d
  | some t => ((d.advanceTo (t + cyclesOfMs 100)).updBoot fun k => { k with waitFrom := none })

/-- The boot record programmed with a preferred bank (R391, R401), unless flash writes are refused (R405). -/
def Dev.programPref (d : Dev) (b : Nat) : Dev :=
  if d.boot.asleep.isSome then d else (d.flashEpoch.storeRaw bootRecord [BitVec.ofNat 8 b]).setChip F.BOOT_CTL_PREF b

/-- BOOT_CTL (R401, R471): SLEEP_EN taken, PREF programmed in the boot record. -/
def bootCtlEffect (k : RegKey) (w : Write) (d : Dev) : Dev :=
  let d := d.setFld F.BOOT_CTL_SLEEP_EN k.n k.i (F.BOOT_CTL_SLEEP_EN.ofWord w.value)
  d.programPref (F.BOOT_CTL_PREF.ofWord w.value)

/-- BOOT_PREF_WRITE (R401). -/
def execBootPrefWrite (ws : List Write) (s : State) : Out := s.on fun d => d.writeReg ⟨.BOOT_CTL, 0, 0, 0⟩ ws bootCtlEffect

/-! ### Deep sleep (R405, R407, R471) -/

/-- DEEP_SLEEP_ENTRY (R405, R471): SLEEP_REQ is sampled asserted with WAKE_IN at a level; new work stops, ports go to DISABLED, FAULT_N is asserted. -/
def execDeepSleepEntry (wakeIn : Bool) (s : State) : Out := s.on fun d =>
  if wakeIn ∨ ¬ d.flag F.BOOT_CTL_SLEEP_EN ∨ d.boot.asleep.isSome then d
  else
    let d := d.updBoot fun k => { k with asleep := some d.clk.now, sleepReq := true }
    let d := d.each ((List.range 16).filter d.isPort) fun p d => d.toDisabled p
    { d with pair := { d.pair with squelched := true } }.setFault true

/-- SLEEP_RECORD_WRITE (R404, R405): the record with SLEPT = 0, its MAC, then SLEPT = 1, when release had taken place; `training` is the DRAM training data. -/
def execSleepRecordWrite (training : List Byte) (s : State) : Out := s.on fun d =>
  if d.boot.asleep.isNone ∨ d.boot.sleepDone ∨ ¬ d.released then d
  else
    let d := d.storeRaw retained (leBytes 4 0x52545331 ++ [0, BitVec.ofNat 8 (d.fld F.BOOT_STAT_BANK)])
    let d := (d.storeRaw (retained + 0x20) d.boot.stage1).storeRaw (retained + 0x50) (leBytes 8 d.boot.epoch)
    let d := (d.storeRaw (retained + 0x58) d.boot.config).storeRaw (retained + 0x88) (sliceB training 0 3832)
    let d := d.storeRaw (retained + 0xFC0) (hmac384 sleepKey d.retCovered)
    ((d.storeRaw (retained + 4) [1]).updBoot fun k => { k with sleepDone := true })

/-- SLEEP_ABORT (R405): SLEEP_REQ deasserted while the rails are present; SLEPT is cleared and a full boot follows. -/
def execSleepAbort (s : State) : Out := s.on fun d =>
  if d.boot.asleep.isNone then d
  else ((d.storeRaw (retained + 4) [0]).updBoot fun k => { k with sleepReq := false }).chipReset

/-- DRAM_TRAINING_COMPLETE (R407). -/
def execDramTrainingComplete (s : State) : Out := s.on fun d => (d.updBoot fun k => { k with dram := true })

/-! ### The loader (R411, R412) -/

/-- The loader's copy of an image: its header read from the source, then as many bytes as it names, at most the staging buffer; the error that ends the command, and the bytes. Reads of a host window end within the command, their translations being asked for on the way: DESIGN CHOICE, entry 206. -/
def Dev.ldrCopy (d : Dev) (src : Nat) (host : List Byte) (ends : ReadEnd) : Dev × Nat × List Byte :=
  let lenAt := if inHostWindow src then imgNum host 0x10 4 else d.memVal (src + 0x10) 4
  let n := 8192 + min lenAt (2 ^ 21)
  if src < 0x1000000 ∨ ¬ d.reaches src n false then (d, 9, [])
  else
    let (d, bs, ms) := (d.askPages src n false).intRead src n host ends .loader
    if ms.any id then (d, 8, []) else (d, 0, bs)

/-- LDR_CMD (R411, R489): GO starts a command with a copy of its image; a write with GO is discarded whole while a command is in progress. `host` is what a read of a host window returns, and `ends` how that read ends. -/
def ldrEffect (host : List Byte) (ends : ReadEnd) (k : RegKey) (w : Write) (d : Dev) : Dev :=
  let go := bitOf w.value.toNat 31
  if go ∧ d.flag F.LDR_CMD_BUSY then d
  else
  let d := d.plainWrite k w.value
  if ¬ go then d
  else
    let src := d.fld F.LDR_SRC_ADDR_HI * 2 ^ 32 + d.fld F.LDR_SRC_ADDR_LO * 4096
    let dst := d.fld F.LDR_DST_ADDR_HI * 2 ^ 32 + d.fld F.LDR_DST_ADDR_LO * 4096
    let copy := d.ldrCopy src host ends
    let d := (copy.1.setChip F.LDR_CMD_BUSY 1).setChip F.LDR_CMD_STATUS 0
    d.updBoot fun k => { k with ldr := some ((d.word ⟨.LDR_CMD, 0, 0, 0⟩).toNat, dst), ldrImage := copy.2.2, ldrErr := copy.2.1 }

/-- A write of LDR_CMD. -/
def Dev.writeLdr (d : Dev) (ws : List Write) (host : List Byte) (ends : ReadEnd) : Dev := d.writeReg ⟨.LDR_CMD, 0, 0, 0⟩ ws (ldrEffect host ends)

/-- INSTALL_SC (R411): loader command 1. -/
def execInstallSc (ws : List Write) (host : List Byte) (ends : ReadEnd) (s : State) : Out := s.on fun d => d.writeLdr ws host ends

/-- INSTALL_PC (R411): loader command 2. -/
def execInstallPc (ws : List Write) (host : List Byte) (ends : ReadEnd) (s : State) : Out := s.on fun d => d.writeLdr ws host ends

/-- INSTALL_ACT (R411): loader command 3. -/
def execInstallAct (ws : List Write) (host : List Byte) (ends : ReadEnd) (s : State) : Out := s.on fun d => d.writeLdr ws host ends

/-- INSTALL_PARSE (R411): loader command 4. -/
def execInstallParse (ws : List Write) (host : List Byte) (ends : ReadEnd) (s : State) : Out := s.on fun d => d.writeLdr ws host ends

/-- A range lies wholly in one locked protected range. -/
def Dev.inLockedRange (d : Dev) (a n : Nat) : Bool :=
  d.flag F.IMP_CFG_LOCK && (List.range 8).any fun k =>
    let b := d.fld F.IMP_RANGE_BASE_HI 0 k * 2 ^ 31 + d.fld F.IMP_RANGE_BASE_LO 0 k * 2 ^ 21
    d.flag F.IMP_RANGE_VALID 0 k && decide (b ≤ a ∧ a + n ≤ b + d.fld F.IMP_RANGE_SIZE_2M 0 k * 2 ^ 21)

/-- 32-bit words of a payload. -/
def wordsOf (bs : List Byte) : List Nat := (List.range (bs.length / 4)).map fun i => leVal (sliceB bs (4 * i) 4)

/-- Words 0 to 3 of entries 0 up of a parse bank's register written in order; words of their reserved bits read 0. -/
def Dev.putParse (d : Dev) (reg : Reg) (r first : Nat) (ws : List Nat) : Dev :=
  d.each (List.range ws.length) fun x d =>
    let k : RegKey := ⟨reg, r, first + x / 4, x % 4⟩
    d.plainWrite k (BitVec.ofNat 32 (ws.getD x 0))

/-- A parse program holds values in range: 254 states of four words, then 1,024 transitions of four words. -/
def parseImageOk (ws : List Nat) : Bool :=
  ws.length == 4 * (254 + 1024) && (List.range 254).all fun i =>
    let w (x : Nat) : Word := BitVec.ofNat 32 (ws.getD (4 * i + x) 0)
    decide (F.CLS_PSTATE_LENF_BITS.ofWord (w 0) ≤ 8 ∧ F.CLS_PSTATE_SEL_BITS.ofWord (w 1) ≤ 32 ∧ F.CLS_PSTATE_FRAG.ofWord (w 1) ≠ 3 ∧
      F.CLS_PSTATE_TRANS_CNT.ofWord (w 2) ≤ 64)

/-- Steps 3 and 4 of R411 for a verified image: its status, and the device with it installed. -/
def Dev.ldrInstall (d : Dev) (cmd dst : Nat) (img : List Byte) : Dev × Nat :=
  let w : Word := BitVec.ofNat 32 cmd
  let op := F.LDR_CMD_OP.ofWord w
  let r := F.LDR_CMD_REGION.ofWord w
  let body := imgPayload img
  let load := imgNum img 0x18 8
  if imgNum img 6 1 ≠ op + 1 then (d, 5)
  else
    match op with
    | 1 =>
      if ¬ d.inDram dst body.length ∨ ¬ d.inLockedRange dst body.length then (d, 5)
      else
        let d := d.storeFree dst body
        ((d.updBoot fun k => { k with scCode := (k.scCode.filter fun x => x != (dst, body.length)) ++ [(dst, body.length)] }), 0)
    | 2 =>
      let b := 4 * r + F.LDR_CMD_BLOCK.ofWord w
      let busy := ((List.range 17).map (17 * b + ·)).any fun c => d.coreState c == 1
      let meets := d.boot.pcCode.any fun x => x.1 == b && decide (load < x.2.2 ∧ x.2.1 < load + body.length)
      if 65536 < load + body.length ∨ load % 4 ≠ 0 ∨ (busy ∧ meets) then (d, 5)
      else
        let d := d.storeFree (codeBase b + load) body
        ((d.updBoot fun k => { k with pcCode := k.pcCode ++ [(b, load, load + body.length)] }), 0)
    | 3 =>
      let ws := wordsOf body
      if body.length % 4 ≠ 0 ∨ ¬ programOk ws then (d, 6)
      else ({ d with progs := d.progs.set [] (256 * r + F.LDR_CMD_SLOT.ofWord w) ws }, 0)
    | 4 =>
      let ws := wordsOf body
      if ¬ parseImageOk ws then (d, 6)
      else
        let b := 1 - d.fld F.CLS_PARSE_CTL_ACTIVE r
        let d := (d.putParse .CLS_PSTATE r (254 * b) (ws.take 1016)).putParse .CLS_PTRANS r (1024 * b) (ws.drop 1016)
        (d.onlyIf (F.LDR_CMD_COMMIT.ofWord w == 1) fun d => d.setFld F.CLS_PARSE_CTL_ACTIVE r 0 b, 0)
    | _ => (d, 5)

/-- The target of an installation as the install chain names it: LDR_DST, or the fields of LDR_CMD. -/
def ldrTarget (cmd dst : Nat) : Nat := if F.LDR_CMD_OP.ofWord (BitVec.ofNat 32 cmd) = 1 then dst else cmd % 2 ^ 22

/-- LOADER_COMMAND_COMPLETE (R394, R409, R411): copy errors first, then the checks of R394 without the SVN, the target, and the installation, which extends the install chain. -/
def execLoaderCommandComplete (s : State) : Out := s.on fun d =>
  match d.boot.ldr with
  | none => d
  | some (cmd, dst) =>
    let img := d.boot.ldrImage
    let x := d.imgFails [2, 3, 4, 5] (2 ^ 21) img false
    let y : Dev × Nat :=
      if d.boot.ldrErr ≠ 0 then (d, d.boot.ldrErr)
      else if x = 5 then (d, 4)
      else if x ≠ 0 then (d, x)
      else d.ldrInstall cmd dst img
    let d := y.1.onlyIf (decide (1 ≤ y.2 ∧ y.2 ≤ 6)) fun d => d.bump .BOOT_CNT 0 1
    let chain := if y.2 = 0 then
        sha384 (d.boot.chain ++ sliceB img 0x20 48 ++ [BitVec.ofNat 8 (imgNum img 6 1)] ++ leBytes 8 (ldrTarget cmd dst)) else d.boot.chain
    let d := (d.setChip F.LDR_CMD_STATUS y.2).setChip F.LDR_CMD_BUSY 0
    d.updBoot fun k => { k with ldr := none, ldrImage := [], ldrErr := 0, chain := chain }

/-- IMP_CFG (R412): a carve-out of 0 to 64 GiB. -/
def impCfgEffect (k : RegKey) (w : Write) (d : Dev) : Dev :=
  if k.w = 2 ∧ 64 < F.IMP_CFG_SIZE_GIB.ofWord (d.wouldBe k w.value) then d else d.plainWrite k w.value

/-- IMP_RANGE (R412): the tags of the valid ranges fit the carve-out. -/
def impRangeEffect (k : RegKey) (w : Write) (d : Dev) : Dev :=
  let e := d.plainWrite k w.value
  let size := ((List.range 8).map fun i => if e.flag F.IMP_RANGE_VALID 0 i then e.fld F.IMP_RANGE_SIZE_2M 0 i else 0).sum
  if e.flag F.IMP_RANGE_VALID 0 k.i ∧ e.fld F.IMP_CFG_SIZE_GIB * 2 ^ 30 < size * 2 ^ 18 then d else e

/-! ### Firmware update, monitoring and measurement (R403, R409, R410, R413, R414) -/

/-- PLDM_REQUEST_UPDATE (R403). -/
def execPldmRequestUpdate (s : State) : Out := s.on fun d =>
  if d.boot.updating then d.emit (.pldm 1 []) else (d.updBoot fun k => { k with updating := true, updated := none }).emit (.pldm 0 [])

/-- PLDM_CANCEL_UPDATE (R403). -/
def execPldmCancelUpdate (s : State) : Out := s.on fun d =>
  if d.boot.updating then (d.updBoot fun k => { k with updating := false, updated := none }).emit (.pldm 0 []) else d.emit (.pldm 1 [])

/-- PLDM_ACTIVATE_FIRMWARE (R403): PREF becomes the bank that was written. -/
def execPldmActivateFirmware (s : State) : Out := s.on fun d =>
  if ¬ d.boot.updating ∨ d.boot.asleep.isSome then d.emit (.pldm 1 [])
  else
    let b := d.boot.updated
    let d := d.updBoot fun k => { k with updating := false, updated := none }
    let d := match b with
      | some b => d.programPref b
      | none => d
    d.emit (.pldm 0 [])

/-- The bank whose stage 1 runs, if one does. -/
def Dev.runningBank (d : Dev) : Option Nat := if d.fld F.BOOT_STAT_PHASE = 0 then none else some (d.fld F.BOOT_STAT_BANK)

/-- The part of flash that a firmware update may write holds a range: bank 0 or 1, or the configuration store without its boot record (2). -/
def flashPart (a n : Nat) : Option Nat :=
  if 0x10000 ≤ a ∧ a + n ≤ 0x790000 then some 0
  else if 0x790000 ≤ a ∧ a + n ≤ 0xF10000 then some 1
  else if 0xF10000 ≤ a ∧ a + n ≤ 0xFFF000 then some 2
  else none

/-- A range of flash changed by stage 0 under an update: refused outside the update's parts, on the running bank, and in deep-sleep entry. -/
def Dev.flashChange (d : Dev) (a : Nat) (data : List Byte) : Dev :=
  match flashPart a data.length with
  | none => d.emit (.pldm 1 [])
  | some p =>
    if p < 2 ∧ d.runningBank = some p then d.emit (.pldm 1 [])
    else
      let d := d.flashEpoch.storeRaw a data
      let d := if p = 2 then d
        else (d.updBoot fun k => { k with programmed := insertNum p k.programmed, updated := some p })
      d.emit (.pldm 0 [])

/-- PLDM_COMPONENT_TRANSFER (R391, R392, R403): one operation on flash or fuses, inside an update. A fuse bit once set stays set. -/
def execPldmComponentTransfer (op : FlashOp) (s : State) : Out := s.on fun d =>
  if ¬ d.boot.updating ∨ d.boot.asleep.isSome then d.emit (.pldm 1 [])
  else
    match op with
    | .program a data => d.flashChange a data
    | .erase a n => d.flashChange a (List.replicate n 0xFF)
    | .slot i digest =>
      if i.val = 0 then d.emit (.pldm 1 [])
      else
        let old := sliceB (d.boot.slots.at [] i.val) 0 48
        (d.updBoot fun k => { k with slots := k.slots.set [] i.val (List.zipWith (· ||| ·) old (sliceB digest 0 48)) }).emit (.pldm 0 [])
    | .revoke i => (d.updBoot fun k => { k with revoked := insertNum i.val k.revoked }).emit (.pldm 0 [])
    | .svn n => (d.updBoot fun k => { k with minSvn := max k.minSvn (min n 64) }).emit (.pldm 0 [])

/-- A management path answers (R164, R410, R413): I3C while it is enabled, PCI Express after release, and Flume for an authenticated peer. -/
def Dev.pathServes (d : Dev) : MgmtPath → Bool
  | .smbus => true
  | .i3c => d.flag F.SB_CFG_I3C_EN
  | .vdm => d.released
  | .doe => d.released
  | .flume => d.released && (d.flag F.FLM_STAT_UP 0 0 || d.flag F.FLM_STAT_UP 0 1)

/-- PLDM_MONITORING (R413): four temperatures, power, and voltage and current of eight rails. -/
def execPldmMonitoring (path : MgmtPath) (s : State) : Out := s.on fun d =>
  if d.pathServes path then { d with draws := d.draws + 1 }.emit (.pldm 0 ((List.range 21).map fun i => Config.sensor d.draws i)) else d

/-- The measurement blocks (R409, R410): before release only those of stage 0 and of the boot state. -/
def Dev.measurementBlocks (d : Dev) : List (Nat × List Byte) :=
  let state := leBytes 1 (d.fld F.BOOT_STAT_BANK) ++ leBytes 1 (d.fld F.BOOT_STAT_PREFMISS) ++ leBytes 1 (d.fld F.BOOT_STAT_FAST) ++
    leBytes 2 (d.fld F.BOOT_STAT_ATTEMPTS) ++ leBytes 1 (d.fld F.BOOT_STAT_LAST_FAIL) ++ leBytes 1 (d.fld F.BOOT_STAT_PHASE)
  let b1 := (1, sliceB Config.stage0Digest 0 48)
  if d.released then [b1, (2, d.boot.stage1 ++ leBytes 8 d.boot.svn), (3, d.boot.config), (4, state), (5, d.boot.chain)] else [b1, (4, state)]

/-- The measurement blocks in one string: index and content of each. -/
def blockBytes (l : List (Nat × List Byte)) : List Byte := l.flatMap fun b => BitVec.ofNat 8 b.1 :: b.2

/-- GET_MEASUREMENTS (R408, R410): signed with the alias key after release, with the DeviceID key before. -/
def execGetMeasurements (path : MgmtPath) (s : State) : Out := s.on fun d =>
  if ¬ d.pathServes path then d
  else
    let key := if d.released then d.boot.aliasKey else deviceIdKey
    let sig := signP384 key (Config.transcript d.draws (blockBytes d.measurementBlocks)) (d.draws + 1)
    { d with draws := d.draws + 2 }.emit (.measurements (natOf d.released) d.measurementBlocks sig)

/-- SPDM_SECURE_SESSION (R414): a key exchange on a path that is served. -/
def execSpdmSecureSession (path : MgmtPath) (s : State) : Out := s.on fun d =>
  if d.pathServes path then (d.updBoot fun k => { k with session := true }) else d

end Sys2Proof.Machine
end

