-- ==== Sys2Proof/Machine/Chains.lean ====
section
/-! DEFINITION. Chain engines, copy engines 0 to 3 and crypto engines 4 to 7: their entries and commands, and the public-key engine behind the latter (R221 to R224, R289 to R293). A chain engine is named by 8 × region + engine. -/

namespace Sys2Proof.Machine

open Sys2Proof

def Dev.chain (d : Dev) (n : Nat) : Chain := d.chains.at {} n
def Dev.updChain (d : Dev) (n : Nat) (f : Chain → Chain) : Dev := { d with chains := d.chains.set {} n (f (d.chain n)) }

def Dev.chnState (d : Dev) (n : Nat) : Nat := d.fld F.CHN_STAT_STATE (n / 8) (n % 8)
def Dev.setChnState (d : Dev) (n st : Nat) : Dev := d.setFld F.CHN_STAT_STATE (n / 8) (n % 8) st

/-! ### Entries and links (R221, R222) -/

/-- LINK as read at an entry. -/
def Dev.linkAt (d : Dev) (a : Nat) : Nat := d.memVal (a + 32) 8

/-- The next entry that a LINK names, whatever stands beside it and END. -/
def linkTarget (l : Nat) : Nat := l % 2 ^ 48 - l % 2

/-- The entry at which an engine stands, as a job. -/
def Dev.chainJob (d : Dev) (n : Nat) : Job := { desc := (d.chain n).entry }

/-- The read of an entry's source in a host window begins, once its pages have their host addresses and the link has room (R180, R183, R185). FILL has no source. -/
def Dev.chainAsk (d : Dev) (n : Nat) : Dev :=
  let x := d.chainJob n
  if (d.chain n).asked ∨ ¬ inHostWindow x.addr ∨ x.op = 5 ∨ x.len = 0 ∨ 1048576 < x.len ∨ ¬ d.reaches x.addr x.len false then d
  else if ¬ d.hostReady x.addr x.len false then d.askPages x.addr x.len false
  else if ¬ d.readRoom ((x.addr - 0x80000000000) / 0x400000000) then d
  else (d.askWindow x.addr x.len (.chain n)).updChain n fun c => { c with asked := true }

/-- The engine goes to an entry: it is read whole and its job begins, or the engine stops in ERROR when its address is unaligned or outside region shared SRAM. -/
def Dev.chainGo (d : Dev) (n a : Nat) : Dev :=
  if a % 64 ≠ 0 ∨ (sramRegion a).isNone then ((d.setFld F.CHN_STAT_BADADDR (n / 8) (n % 8) 1).setChnState n 3).updChain n fun c => { starter := c.starter }
  else
    let e := d.memBytes a 64
    ((d.setChnState n 1).updChain n fun c => { cur := a, entry := e, halting := c.halting, starter := c.starter }).chainAsk n

/-- The LINK of a stopped or finished tail read once more: on to the entry it names, or STOPPED there. -/
def Dev.reread (d : Dev) (n a : Nat) : Dev :=
  let l := d.linkAt a
  if l % 2 = 0 then d.chainGo n (linkTarget l)
  else
    let d := (d.setFld F.CHN_STOP_AT_ADDR_LO (n / 8) (n % 8) (a / 64)).setFld F.CHN_STOP_AT_ADDR_HI (n / 8) (n % 8) (a / 2 ^ 32)
    (d.setChnState n 2).updChain n fun c => { cur := a, starter := c.starter }

/-- An entry's result written (R221). -/
def Dev.chainResult (d : Dev) (a status bytes : Nat) (pkstat : Option Nat) : Dev :=
  let d := d.storeVal (a + 40) 1 status
  let d := match pkstat with
    | some x => d.storeVal (a + 41) 1 x
    | none => d
  d.storeVal (a + 44) 4 bytes

/-- The engine goes on after an entry whose result is written. -/
def Dev.chainNext (d : Dev) (n : Nat) : Dev :=
  let c := d.chain n
  if c.halting then (d.setChnState n 0).updChain n fun _ => {}
  else
    let l := leVal (sliceB c.entry 32 8)
    if l % 2 = 0 then d.chainGo n (linkTarget l) else d.reread n c.cur

/-- An engine of a region in service: a fence stops the region's engines (R419). -/
def Dev.chainRuns (d : Dev) (n : Nat) : Bool := d.chnState n == 1 && !d.fenced (n / 8)

/-! ### Commands (R222) -/

/-- CHN_CTL: at most one of START, RESUME and HALT. -/
def chnCtlEffect (k : RegKey) (w : Write) (d : Dev) : Dev :=
  let n := 8 * k.n + k.i
  let v := w.value.toNat / 2 ^ 29
  let head := d.fld F.CHN_HEAD_ADDR_HI k.n k.i * 2 ^ 32 + d.fld F.CHN_HEAD_ADDR_LO k.n k.i * 64
  match v, d.chnState n with
  | 4, 1 => d
  | 4, _ => (d.updChain n fun _ => { starter := w.writer }).chainGo n head
  | 2, 2 => (d.updChain n fun c => { c with starter := w.writer }).reread n (d.chain n).cur
  | 1, 1 => d.updChain n fun c => { c with halting := true }
  | 1, 2 => (d.setChnState n 0).updChain n fun _ => {}
  | 1, 3 => d.setChnState n 0
  | _, _ => d

/-- A write of CHN_CTL. -/
def Dev.writeChn (d : Dev) (r e : Nat) (ws : List Write) : Dev := d.writeReg ⟨.CHN_CTL, r, e, 0⟩ ws chnCtlEffect

/-- CHAIN_START (R222). -/
def execChainStart (region : Fin 4) (engine : Fin 8) (ws : List Write) (s : State) : Out := s.on fun d => d.writeChn region.val engine.val ws

/-- CHAIN_RESUME (R222). -/
def execChainResume (region : Fin 4) (engine : Fin 8) (ws : List Write) (s : State) : Out := s.on fun d => d.writeChn region.val engine.val ws

/-- CHAIN_HALT (R222). -/
def execChainHalt (region : Fin 4) (engine : Fin 8) (ws : List Write) (s : State) : Out := s.on fun d => d.writeChn region.val engine.val ws

/-! ### Jobs of an entry -/

/-- OP, PARAM and SIZE of a public-key entry. -/
def Job.pkOp (j : Job) : Nat := leVal (sliceB j.desc 16 1)
def Job.pkParam (j : Job) : Nat := leVal (sliceB j.desc 17 1)
def Job.pkSize (j : Job) : Nat := leVal (sliceB j.desc 18 2)

/-- Why a public-key entry ends at once, if it does: `LENGTH` or `ACCESS` (R291, R483). -/
def Dev.pkBad (d : Dev) (x : Job) : Option Nat :=
  match pkShape x.pkOp x.pkParam x.pkSize with
  | none => some 4
  | some (lo, hi, n, _) =>
    if x.hdrLen ≠ 0 ∨ x.len < lo ∨ hi < x.len then some 4
    else if ¬ d.reaches x.addr x.len false ∨ ¬ d.reaches x.addr2 n true then some 5
    else none

/-! ### The public-key engine (R289 to R293) -/

/-- Chain engines 4 to 7 of a region whose entry waits for the public-key engine. -/
def Dev.pkWaits (d : Dev) (r e : Nat) : Bool :=
  let n := 8 * r + e
  let x := d.chainJob n
  d.chainRuns n && x.op == 0x40 && !(d.chain n).finished && (d.pkBad x).isNone && (!inHostWindow x.addr || (d.chain n).asked)

/-- The chain engine that is served next, in round robin after the one served last. -/
def Dev.pkTurn (d : Dev) (r : Nat) : Option Nat :=
  ((List.range 4).map fun i => 4 + (d.pkLast.at 3 r - 3 + i) % 4).find? (d.pkWaits r)

/-- A public-key operation starts, when the engine is free and the next entry it serves asks for it: operands read, outcome fixed, time begun. -/
def Dev.pkStart (d : Dev) (r op : Nat) (host : List Byte) (ends : ReadEnd) : Dev :=
  let d := d.each (List.range 4) fun i d => d.onlyIf (d.chainRuns (8 * r + 4 + i)) fun d => d.chainAsk (8 * r + 4 + i)
  if (d.pk.at none r).isSome then d
  else
    match d.pkTurn r with
    | none => d
    | some e =>
      let x := d.chainJob (8 * r + e)
      if x.pkOp ≠ op then d
      else
        match pkShape x.pkOp x.pkParam x.pkSize with
        | none => d
        | some (_, _, n, us) =>
          let (d, bs, ms) := (d.touchPages r x.addr x.len).intRead x.addr x.len host ends (.chain (8 * r + e))
          let mark := ms.any id
          let draw := d.draws
          let (st, out) := pkCompute op x.pkParam x.pkSize bs draw
          let out := if mark ∨ st ≠ 0 then List.replicate n 0 else out
          let run : PkRun := { engine := e, due := d.clk.now + cyclesOfUs us, out := out, pkstat := if mark then 0 else st, mark := mark }
          { d with draws := draw + 1, pk := d.pk.set none r (some run), pkLast := d.pkLast.set 3 r e }

/-- PK_OPERATION_COMPLETE (R183, R291): the result, STATUS and PKSTAT are written when the operation's time has passed and the page that takes the result has its host address. -/
def execPkOperationComplete (region : Fin 4) (s : State) : Out := s.on fun d =>
  let r := region.val
  match d.pk.at none r with
  | none => d
  | some k =>
    let n := 8 * r + k.engine
    let d := d.advanceTo k.due
    let x := d.chainJob n
    if ¬ d.hostReady x.addr2 k.out.length true then d.askPages x.addr2 k.out.length true else
    let d : Dev := { d with pk := d.pk.set none r none }
    if ¬ d.reaches x.addr2 k.out.length true then
      ((d.forgetDenied x.addr2).chainResult (d.chain n).cur 5 0 (some 0)).updChain n fun c => { c with finished := true }
    else
    let d := ((d.touchPages r x.addr2 k.out.length).intWrite x.addr2 k.out (List.replicate (if k.mark then k.out.length else 0) true)).tally (tlyRgn r + 0x68) 1
    let d := d.chainResult (d.chain n).cur (if k.mark then 3 else 0) k.out.length (some k.pkstat)
    d.updChain n fun c => { c with finished := true }

/-- MODEXP (R290). -/
def execModexp (region : Fin 4) (host : List Byte) (ends : ReadEnd) (s : State) : Out := s.on fun d => d.pkStart region.val 0x01 host ends

/-- EC_PUBKEY (R290). -/
def execEcPubkey (region : Fin 4) (host : List Byte) (ends : ReadEnd) (s : State) : Out := s.on fun d => d.pkStart region.val 0x10 host ends

/-- ECDSA_SIGN (R290). -/
def execEcdsaSign (region : Fin 4) (host : List Byte) (ends : ReadEnd) (s : State) : Out := s.on fun d => d.pkStart region.val 0x11 host ends

/-- ECDSA_VERIFY (R290). -/
def execEcdsaVerify (region : Fin 4) (host : List Byte) (ends : ReadEnd) (s : State) : Out := s.on fun d => d.pkStart region.val 0x12 host ends

/-- ECDH (R290). -/
def execEcdh (region : Fin 4) (host : List Byte) (ends : ReadEnd) (s : State) : Out := s.on fun d => d.pkStart region.val 0x13 host ends

/-- ED25519_PUBKEY (R290). -/
def execEd25519Pubkey (region : Fin 4) (host : List Byte) (ends : ReadEnd) (s : State) : Out := s.on fun d => d.pkStart region.val 0x20 host ends

/-- ED25519_SIGN (R290). -/
def execEd25519Sign (region : Fin 4) (host : List Byte) (ends : ReadEnd) (s : State) : Out := s.on fun d => d.pkStart region.val 0x21 host ends

/-- ED25519_VERIFY (R290). -/
def execEd25519Verify (region : Fin 4) (host : List Byte) (ends : ReadEnd) (s : State) : Out := s.on fun d => d.pkStart region.val 0x22 host ends

/-- X25519 (R290). -/
def execX25519 (region : Fin 4) (host : List Byte) (ends : ReadEnd) (s : State) : Out := s.on fun d => d.pkStart region.val 0x23 host ends

/-- ML_KEM_KEYGEN (R290). -/
def execMlKemKeygen (region : Fin 4) (host : List Byte) (ends : ReadEnd) (s : State) : Out := s.on fun d => d.pkStart region.val 0x30 host ends

/-- ML_KEM_ENCAPS (R290). -/
def execMlKemEncaps (region : Fin 4) (host : List Byte) (ends : ReadEnd) (s : State) : Out := s.on fun d => d.pkStart region.val 0x31 host ends

/-- ML_KEM_DECAPS (R290). -/
def execMlKemDecaps (region : Fin 4) (host : List Byte) (ends : ReadEnd) (s : State) : Out := s.on fun d => d.pkStart region.val 0x32 host ends

/-- ML_DSA_KEYGEN (R290). -/
def execMlDsaKeygen (region : Fin 4) (host : List Byte) (ends : ReadEnd) (s : State) : Out := s.on fun d => d.pkStart region.val 0x40 host ends

/-- ML_DSA_SIGN (R290, R293). -/
def execMlDsaSign (region : Fin 4) (host : List Byte) (ends : ReadEnd) (s : State) : Out := s.on fun d => d.pkStart region.val 0x41 host ends

/-- ML_DSA_VERIFY (R290). -/
def execMlDsaVerify (region : Fin 4) (host : List Byte) (ends : ReadEnd) (s : State) : Out := s.on fun d => d.pkStart region.val 0x42 host ends

end Sys2Proof.Machine
end

