-- ==== Sys2Proof/Machine/Faults.lean ====
section
/-! DEFINITION. Cells, spares, fences, diagnostics, self-test and the Lookout (R13 to R15, R351, R416 to R439, R445). -/

namespace Sys2Proof.Machine

open Sys2Proof

/-! ### Packets and jobs lost (R419, R426) -/

/-- Packets taken out of every queue and forgotten. -/
def Dev.losePkts (d : Dev) (ids : List Nat) : Dev :=
  let out (l : List Nat) : List Nat := l.filter fun i => !ids.contains i
  let strip (m : NMap (List Nat)) : NMap (List Nat) := m.foldl (fun (a : NMap (List Nat)) e => a.set [] e.1 (out e.2)) []
  let d := d.each d.egressQ fun (e : Nat × List Nat) d =>
    let gone := e.2.filter ids.contains
    if gone.isEmpty then d
    else
      let bytes := (gone.map fun id => (d.pkt id).frameLen).sum
      d.setFld F.SCH_QDEPTH_BYTES (e.1 / 16384) (e.1 % 16384) (d.fld F.SCH_QDEPTH_BYTES (e.1 / 16384) (e.1 % 16384) - bytes)
  let pools := (d.poolQ.filter fun e => e.2.any ids.contains).map (·.1)
  let cs : NMap Ctx := d.ctxs.map fun (e : Nat × Ctx) =>
    let c : Ctx := e.2
    (e.1, { c with current := c.current.filter fun i => !ids.contains i, inbox := c.inbox.filter fun x => !ids.contains x.1 })
  let ps : NMap PortSt := d.ports.map fun (e : Nat × PortSt) =>
    let p : PortSt := e.2
    (e.1, { p with txPkt := p.txPkt.filter fun i => !ids.contains i })
  let d := { d with inputQ := strip d.inputQ, pipeQ := strip d.pipeQ, egressQ := strip d.egressQ, poolQ := strip d.poolQ
                    hostQ := strip d.hostQ, fbHold := strip d.fbHold, ctxs := cs, ports := ps }
  let d := d.each pools fun k d => d.showPool (k / 64) (k % 64)
  d.each ids fun id d => d.onlyIf (d.hasPkt id) fun d => d.freePkt id

/-- A job ended UNIT_FAULT, and counted. -/
def Dev.unitFault (d : Dev) (j : Nat) : Dev := if (d.job j).state = .done then d else (d.endJob j 1 0).errCount 3

/-- Packets lost with a unit: counted, and the jobs that wait for them ended UNIT_FAULT. -/
def Dev.unitLoss (d : Dev) (ids : List Nat) : Dev :=
  let jobs := ids.filterMap fun id => (d.pkt id).tsJob
  ((d.errCount 2 ids.length).losePkts ids).each jobs fun j d => d.unitFault j

/-- A packet lies inside a region's units (R419). -/
def inRegion (r : Nat) (k : Pkt) : Bool :=
  match k.place with
  | .queue q _ => q == r
  | .wire p => p / 4 == r
  | .host _ _ => false
  | .core c _ => c / 68 == r
  | .flume => false
  | _ => k.region == r

/-! ### Region fences (R419, R420) -/

/-- QP contexts that a region serves go to other regions (R419, R365): to the freest SRAM that admits them, else to a home slot served elsewhere. -/
def Dev.moveQps (d : Dev) (r : Nat) : Dev :=
  let others := (List.range 4).filter fun x => x != r && !d.fenced x
  d.each (d.qpctxs.map (·.1)) fun q d =>
    let id := qpctxId q
    match d.parcel id with
    | none => d
    | some p =>
      if (p.sram.getD p.home) ≠ r ∨ others.isEmpty then d
      else
        let x := d.freest others
        let dest := if d.room x p.majority p.tenant p.bytes then some x else none
        let d := (d.uncharge p.sram p.majority p.tenant p.bytes).charge dest p.majority p.tenant p.bytes
        (d.setParcel id { p with sram := dest, home := x, move := none }).bump .CRU_CNT 0 5

/-- Work of a region's engines ended: public-key operations and running chains stop with UNIT_FAULT. -/
def Dev.stopEngines (d : Dev) (r : Nat) : Dev :=
  let d := { d with pk := d.pk.set none r none }
  d.each ((List.range 8).map (8 * r + ·)) fun n d =>
    if d.chnState n = 1 then (((d.chainResult (d.chain n).cur 1 0 none).errCount 3).setChnState n 0).updChain n fun _ => {} else d

/-- A region fenced (R14, R419): its units stop, what is inside them is lost, its ports go to DISABLED; in a pair with RGN_FO the active device fails (R453). -/
def Dev.regionFence (d : Dev) (r mech kind cell : Nat) : Dev :=
  if d.fenced r then d
  else if d.flag F.ERR_STAT_SAFE then d.logError 2 mech kind cell 0 0
  else
    let d := (d.logError 2 mech kind cell 5 0).supersede fun k n => cellRegion k n == some r
    let d := (d.chipEvent 5 r).errCount 5
    let d := (d.setFld F.ERR_RGN_FENCED 0 r 1).setChip F.ERR_STAT_FENCED (withBit (d.fld F.ERR_STAT_FENCED) r true)
    let d := d.each ((List.range 16).filter fun p => d.isPort p && (List.range (d.portWidth p)).any fun j => (p + j) / 4 == r) fun p d => d.toDisabled p
    let d := d.unitLoss ((d.pkts.filter fun e => inRegion r e.2).map (·.1))
    let d := { d with rx := d.rx.filter fun e => e.1 / 4 != r, fetches := d.fetches.filter fun f => f.region != r }
    let d := d.stopEngines r
    let d := d.each ((List.range 68).map (68 * r + ·)) fun c d =>
      let d := d.onlyIf (d.coreState c == 1) fun d => d.stopCore c 9
      (d.setCoreState c 2).each (List.range 16) fun t d => d.updCtx c t fun k => { k with stores := [] }
    let d := d.each (List.range 13) fun i d => d.setFld F.SCC_CORE_STATE r i 2
    let d := d.moveQps r
    let st := d.fld F.PAIR_STAT_STATE
    if d.flag F.ERR_CTL_RGN_FO && (d.inCascade || (d.board.role != 0 && st == 2)) then d.stopFlume.enterSafe else d

/-- An error that the region controller decides (R13, R419): the region fenced, or, where that would stop its shared SRAM or a memory channel, the error passed to the Keystone as FATAL. -/
def Dev.regionError (d : Dev) (r mech kind cell : Nat) (stopsMemory : Bool) : Dev :=
  if stopsMemory then d.fatal mech kind cell 0 else d.regionFence r mech kind cell

/-! ### Cell fences (R425 to R431, R445) -/

/-- RING_BROKEN of a cascade member: one of its ring links is down. -/
def Dev.showRing (d : Dev) : Dev :=
  if d.inCascade then d.setChip F.CAS_STAT_RING_BROKEN (natOf !(d.flag F.FLM_STAT_UP 0 0 && d.flag F.FLM_STAT_UP 0 1)) else d

/-- Width, spare and state of a Flume port from its good lanes (R445). -/
def Dev.showFlume (d : Dev) (k : Nat) : Dev :=
  let g := ((List.range 5).filter fun i => !d.cellGone 8 (5 * k + i)).length
  let w := if 4 ≤ g then 4 else if 2 ≤ g then 2 else 0
  let d := if w = 0 then (d.setFld F.FLM_STAT_UP 0 k 0).setFld F.FLM_STAT_WIDTH 0 k 0
    else if d.flag F.FLM_STAT_UP 0 k then d.setFld F.FLM_STAT_WIDTH 0 k w else d
  (d.setFld F.FLM_STAT_SPARE_IN 0 k (natOf (g == 4))).showRing

/-- One spare fewer of a kind; SPARES_LOW in the cycle in which it falls below the figure of R425 (R431). -/
def Dev.useSpare (d : Dev) (kind : Nat) : Dev :=
  let n := d.fld F.SPARE_STAT_LEFT 0 kind
  let d := d.setFld F.SPARE_STAT_LEFT 0 kind (n - 1)
  d.onlyIf (decide (1 ≤ n) && decide (n = sparesLow kind)) fun d => d.chipEvent 0x0F kind

/-- Local memory of a packet core cleared (R426). -/
def Dev.clearLocal (d : Dev) (c : Nat) : Dev := d.clearMem (localBase c) (localBase c + 2 ^ 18)

/-- The work of a packet core taken up by another of its block: ENTRY and pool membership, from context 0 with cleared local memory (R426). -/
def Dev.takeWork (d : Dev) (c s : Nat) : Dev :=
  let r := coreRegion c
  let d := d.setFld F.PCB_CORE_ENTRY r (coreIndex s) (d.fld F.PCB_CORE_ENTRY r (coreIndex c))
  let d := d.each (List.range 16) fun t d =>
    d.setWord ⟨.PCB_POOLMAP, r, 16 * coreIndex s + t, 0⟩ (d.word ⟨.PCB_POOLMAP, r, 16 * coreIndex c + t, 0⟩)
  let d := (d.clearLocal s).updCore s fun k => { k with away := false }
  (d.setFld F.PCB_CORE_RUN r (coreIndex s) 1).startCore s

/-- Both threads of a service core carried to another. -/
def Dev.takeThreads (d : Dev) (i s : Nat) : Dev :=
  let d := (d.updThr (2 * s) fun _ => d.thr (2 * i)).updThr (2 * s + 1) fun _ => d.thr (2 * i + 1)
  let d := { d with scActive := d.scActive.set 0 s (d.scActive.at 0 i), xlats := d.xlats.set [] s (d.xlats.at [] i) }
  let d := d.each (List.range 3) fun w d => d.setWord ⟨.SCC_CORE, s / 13, s % 13, w⟩ (d.word ⟨.SCC_CORE, i / 13, i % 13, w⟩)
  d.setFld F.SCC_CORE_STATE (i / 13) (i % 13) 0

/-- What is held in a cell is lost with it (R426). -/
def Dev.loseWork (d : Dev) (kind n : Nat) : Dev :=
  match kind with
  | 1 =>
    let d := d.onlyIf (d.coreState n == 1) fun d => d.stopCore n 9
    (d.setCoreState n 2).each (List.range 16) fun t d => d.updCtx n t fun k => { k with stores := [] }
  | 2 => d.setFld F.SCC_CORE_STATE (n / 13) (n % 13) 2
  | 4 => d.unitLoss ((d.pkts.filter fun e => e.2.region == n / 13 && e.2.place == .stage (n % 13)).map (·.1))
  | 5 => d.toDisabled (portIn d.laneMap n)
  | 8 => d.showFlume (n / 5)
  | _ => d

/-- A cell without a spare is one that its region cannot do without (R427): a stage, a trie memory, or a bank that holds part of a packet buffer or of a directory. -/
def vital (kind : Nat) (bufferBank : Bool) : Bool := kind == 4 || kind == 7 || (kind == 3 && bufferBank)

/-- A cell fails or is retired (R426, R427): one log entry, UNIT_RETIRED, its work lost unless it already lies on the spare (`held`), and a spare brought in or, without one, the scope left short or the error passed to the region. -/
def Dev.fenceCell (d : Dev) (kind n mech detail : Nat) (held bufferBank : Bool) : Dev :=
  let fencedRegion : Bool := match cellRegion kind n with
    | some r => d.fenced r
    | none => false
  if d.cellGone kind n ∨ fencedRegion ∨ cellCount kind ≤ n ∨ kind = 0 then d
  else if d.flag F.ERR_STAT_SAFE then d.logError 1 mech kind n 0 detail
  else
    let idle := d.isSpare kind n
    let spare := d.spareLeft kind n && !idle
    if ¬ spare ∧ ¬ idle ∧ vital kind bufferBank then
      match cellRegion kind n with
      | some r => (d.safe fun f => { f with gone := insertNum (cellKey kind n) f.gone }).regionFence r mech kind n
      | none => d
    else
      let d := d.safe fun f =>
        { f with gone := insertNum (cellKey kind n) f.gone, tests := f.tests.filter fun t => !(t.kind == kind && t.cell == n)
                 spareUsed := if spare then insertNum (scopeKey kind n) f.spareUsed else f.spareUsed }
      let d := d.logError 1 mech kind n (if spare then 3 else 4) detail
      let d := (d.chipEvent 4 (kind * 2 ^ 24 + n)).errCount 4
      let d := d.setFld F.SPARE_STAT_RETIRED 0 kind (d.fld F.SPARE_STAT_RETIRED 0 kind + 1)
      let d := d.onlyIf (spare || idle) fun d => d.useSpare kind
      let d := if held then d else d.loseWork kind n
      let d := d.onlyIf (kind == 2) fun d => d.assignTasks
      d.onlyIf (spare && !held) fun d => d.safe fun f => { f with subs := f.subs ++ [(kind, n, d.clk.now)] }

/-- A failure while the spare of the scope carries a cell under test ends that test at once: the healthy cell takes over the failed cell's work, the spare keeps what it carries, and the test is repeated in the next frame (R428). -/
def Dev.cellFails (d : Dev) (kind n mech detail : Nat) (bufferBank : Bool := false) : Dev :=
  match d.safety.tests.find? fun t => t.kind == kind && t.onSpare && scopeKey kind t.cell == scopeKey kind n && t.cell != n with
  | none => d.fenceCell kind n mech detail false bufferBank
  | some t =>
    let d := d.safe fun f => { f with tests := f.tests.erase t, retest := if kind = 1 then f.retest else f.retest ++ [(kind, t.cell, (f.rounds - 1) / 20)] }
    (d.errCount 7).fenceCell kind n mech detail false bufferBank

/-- The cell that takes up the work of a fenced cell: the spare, or the healthy cell of an aborted test, which is the one that does not run. -/
def Dev.standIn (d : Dev) (kind n : Nat) : Nat :=
  let s := spareCell kind n
  if kind = 1 ∧ d.coreState s = 1 then
    (((List.range 17).map (17 * (n / 17) + ·)).find? fun c => d.coreState c == 0 && !d.cellGone 1 c).getD s
  else if kind = 2 ∧ d.fld F.SCC_CORE_STATE (s / 13) (s % 13) = 1 then
    (((List.range 13).map (13 * (n / 13) + ·)).find? fun c => d.fld F.SCC_CORE_STATE (c / 13) (c % 13) == 0 && !d.cellGone 2 c).getD s
  else s

/-- SPARE_SUBSTITUTION_COMPLETE (R426): at most 200 µs after detection the spare carries the work of the oldest fenced cell that waits for it. -/
def execSpareSubstitutionComplete (s : State) : Out := s.on fun d =>
  match d.safety.subs with
  | [] => d
  | (kind, n, _) :: rest =>
    let d := d.safe fun f => { f with subs := rest }
    match kind with
    | 1 => d.takeWork n (d.standIn 1 n)
    | 2 =>
      let x := d.standIn 2 n
      let pc := d.fld F.SCC_CORE_ENTRY_HI (n / 13) (n % 13) * 2 ^ 32 + d.fld F.SCC_CORE_ENTRY_LO (n / 13) (n % 13) * 4096
      if d.flag F.SCC_CORE_RUN (n / 13) (n % 13) then
        let d := d.each (List.range 3) fun w d => d.setWord ⟨.SCC_CORE, x / 13, x % 13, w⟩ (d.word ⟨.SCC_CORE, n / 13, n % 13, w⟩)
        let d := (d.updThr (2 * x) fun _ => { pc := pc }).updThr (2 * x + 1) fun _ => { pc := pc }
        (d.setFld F.SCC_CORE_STATE (x / 13) (x % 13) 1).assignTasks
      else d.assignTasks
    | 8 => d.showFlume (n / 5)
    | _ => d

/-- FLUME_LANE_LOSS (R445): a lane of a Flume port fails. -/
def execFlumeLaneLoss (lane : Fin 10) (s : State) : Out := s.on fun d => (d.cellFails 8 lane.val 9 0).showFlume (lane.val / 5)

/-! ### Supervisor faults (R351, R352) -/

/-- A supervisor fault of a packet core (R351): it stops, the record and SFAULT are written, and the handler acts; an owner finds its EXT raised by the record. -/
def Dev.supervisorFault (d : Dev) (c cause pc : Nat) (tinfo : DWord) : Dev :=
  let r := coreRegion c
  let i := coreIndex c
  let d := d.stopCore c 2
  let d := ((d.setFld F.PCB_CORE_SCAUSE r i cause).setFld F.PCB_CORE_SPC r i pc).setFld F.PCB_CORE_STINFO_LO r i tinfo.toNat
  let d := (d.setFld F.PCB_CORE_STINFO_HI r i (tinfo.toNat / 2 ^ 32)).setFld F.PCB_CORE_SFAULT r i 1
  let b := coreBlock c % 4
  if cause = 0x11 then d.cellFails 1 c 10 cause
  else if d.flag F.PCB_CTL_OWN_EN r b then
    { d with sfaultAt := d.sfaultAt.set 0 c (d.clk.now + 1) }
  else d.regionFence r 10 1 c

/-- SFAULT_ACK_TIMEOUT (R351, R13): SFAULT still stands ACK_US after it was set; the error goes to the region. -/
def execSfaultAckTimeout (core : Fin 272) (s : State) : Out := s.on fun d =>
  let c := core.val
  let t := d.sfaultAt.at 0 c
  if t = 0 ∨ ¬ d.flag F.PCB_CORE_SFAULT (coreRegion c) (coreIndex c) then { d with sfaultAt := d.sfaultAt.set 0 c 0 }
  else
    let d := d.advanceTo (t - 1 + cyclesOfUs (d.fld F.PCB_CTL_ACK_US (coreRegion c) (coreBlock c % 4)))
    { d with sfaultAt := d.sfaultAt.set 0 c 0 }.regionFence (coreRegion c) 10 1 c

/-- A service core stopped by a double trap (R325, R352): the record raises EXT at the Keystone while it stands. -/
def Dev.doubleTrap (d : Dev) (i : Nat) : Dev :=
  (d.setFld F.SCC_CORE_STATE (i / 13) (i % 13) 2).setFld F.SCC_CORE_SFAULT (i / 13) (i % 13) 1

/-! ### Errors found by ECC and parity (R422 to R424, R429) -/

/-- One more correction or parity discard of a cell in this span; beyond CORR_LIMIT it is retired as for wear (R429), and the error that does so is logged (R421). -/
def Dev.correction (d : Dev) (kind n mech detail cls action : Nat) : Dev :=
  let k := cellKey kind n
  let d := d.safe fun f => { f with corr := f.corr.set 0 k (f.corr.at 0 k + 1) }
  if d.safety.corr.at 0 k = d.fld F.ERR_CTL_CORR_LIMIT + 1 then
    (d.logError cls mech kind n action detail).fenceCell kind n mech detail true false
  else d

/-- A bucket rewritten empty (R424), its records freed. -/
def Dev.emptyBucket (d : Dev) (h t b : Nat) : Dev :=
  let ways := (List.range 4).filterMap fun w => (d.tbl h t).ways.at none (4 * b + w)
  let d := d.updTbl h t fun x => { x with ways := (List.range 4).foldl (fun (m : NMap (Option Way)) w => m.set none (4 * b + w) none) x.ways }
  let d := d.onlyIf (d.keyWords h t == 4) fun d => d.each ways fun (w : Way) d => d.dropPage h t w.record
  (d.errCount 8).showEntries h t

/-- The bucket that holds the entry of a record. -/
def Dev.bucketWith (d : Dev) (h t record : Nat) : Option Nat :=
  ((d.tbl h t).ways.find? fun e => match e.2 with
    | some w => w.record == record
    | none => false).map (·.1 / 4)

/-- Data beyond correction marked (R191, R424): a flit of memory, a bucket or record (its bucket rewritten empty), a QP context. -/
def Dev.markPlace (d : Dev) : ErrPlace → Dev
  | .memory a => { d with marks := d.marks.set false (a / 32) true }
  | .parcel id rec =>
    match idKind id with
    | 1 => d.emptyBucket (idRegion id) (idTable id) (idIndex id)
    | 2 => match d.bucketWith (idRegion id) (idTable id) rec with
      | some b => d.emptyBucket (idRegion id) (idTable id) b
      | none => d
    | 3 => d.updQctx (idIndex id) fun c => { c with bad := true }
    | _ => d
  | .other => d

/-- DETAIL of an entry of codes 1 to 3, 8 and 11: address bits 37:6. -/
def placeDetail : ErrPlace → Nat
  | .memory a => a / 64 % 2 ^ 32
  | _ => 0

/-- An ECC error of a cell (R422 codes 1 and 2): corrected and counted, or marked and logged. -/
def Dev.eccError (d : Dev) (kind n : Nat) (place : ErrPlace) (beyond : Bool) : Dev :=
  if beyond then ((d.errCount 1).markPlace place).logError 1 2 kind n 2 (placeDetail place)
  else
    let d := d.errCount 0
    let d := match cellRegion kind n with
      | some r => d.tally (tlyRgn r + 0x80) 1
      | none => d
    d.correction kind n 1 (placeDetail place) 0 1

/-- A DRAM device has fewer than a quarter of its repair rows left. -/
def Dev.rowsLow (d : Dev) (n : Nat) : Bool := decide (4 * d.rowsLeft n < d.board.repairRows)

/-- A repair row of a DRAM device used, if one is left (R422 code 3, R425); SPARES_LOW once for its channel (R431). -/
def Dev.repairRow (d : Dev) (n : Nat) : Dev :=
  if d.rowsLeft n = 0 then d
  else
    let said := (List.range 8).any fun i => d.rowsLow (n / 8 * 8 + i)
    let d := d.safe fun f => { f with repaired := n :: f.repaired }
    let d := (d.setFld F.SPARE_STAT_RETIRED 0 9 (d.fld F.SPARE_STAT_RETIRED 0 9 + 1)).setFld F.SPARE_STAT_LEFT 0 9 (min 255 d.rowsLeast)
    d.onlyIf (d.rowsLow n && !said) fun d => d.chipEvent 0x0F 9

/-- ECC_ERROR_DETECTED (R422, R424): a read finds an error in a cell; `device` is the failure of one DRAM device, corrected and its row repaired (code 3). -/
def execEccErrorDetected (kind : Fin 10) (cell : Fin 1024) (place : ErrPlace) (beyond device : Bool) (s : State) : Out := s.on fun d =>
  if device ∧ kind.val = 9 then
    ((d.errCount 0).tally (tlyRgn (cell.val / 16 % 4) + 0x80) 1).repairRow cell.val
  else d.eccError kind.val cell.val place beyond

/-- SCRUB_VISIT (R423): a line is read on its period; what is corrected is written back, and what is beyond correction is written back marked. -/
def execScrubVisit (kind : Fin 10) (cell : Fin 1024) (place : ErrPlace) (error beyond : Bool) (s : State) : Out := s.on fun d =>
  if error then d.eccError kind.val cell.val place beyond else d

/-- PARITY_ERROR_DETECTED (R422 code 8): the frame is discarded or the job ended UNIT_FAULT, and the error counted against the cell that wrote the flit. -/
def execParityErrorDetected (kind : Fin 10) (cell : Fin 1024) (victim : Victim) (s : State) : Out := s.on fun d =>
  let d : Dev := match victim with
    | .packet id => if d.hasPkt id then d.losePkts [id] else d
    | .job j => if d.jobs.any fun e => e.1 == j then d.unitFault j else d
    | .other => d
  let d := d.errCount 6
  let d := match cellRegion kind.val cell.val with
    | some r => d.tally (tlyRgn r + 0x88) 1
    | none => d
  d.correction kind.val cell.val 8 0 1 0

/-! ### Fatal detections and the Lookout (R417, R418, R422, R438, R439) -/

/-- Takeover by the Lookout (R438): 1 miscompare, 2 watchdog. It stops in deep sleep and without VRET. -/
def Dev.takeover (d : Dev) (cause mech : Nat) : Dev :=
  if ¬ d.boot.vret ∨ d.safety.keystoneHeld then d
  else
    let d := (d.setChip F.LK_STAT_TOOK 1).setChip F.LK_STAT_CAUSE cause
    let d := d.setChip F.LK_STAT_COUNT (min (d.fld F.LK_STAT_COUNT + 1) 65535)
    let d := d.safe fun f => { f with keystoneHeld := true }
    let d := d.fatal mech 0 0 0
    d.safe fun f => { f with safeAt := some d.clk.now }

/-- LOCKSTEP_MISCOMPARE (R438). -/
def execLockstepMiscompare (s : State) : Out := s.on fun d => d.takeover 1 4

/-- LOOKOUT_WATCHDOG_EXPIRY (R438): no heartbeat for WD_US. -/
def execLookoutWatchdogExpiry (s : State) : Out := s.on fun d =>
  (d.advanceTo (d.safety.lkBeat + cyclesOfUs (d.fld F.LK_CFG_WD_US))).takeover 2 5

/-- CLOCK_MONITOR_TRIP (R422 code 6). -/
def execClockMonitorTrip (clock : ClockLost) (s : State) : Out := s.on fun d =>
  match clock with
  | .root => d.fatal 6 0 0 0
  | .divided => d.fatal 6 0 0 0
  | .serdes lanes => d.each lanes fun l d => d.toDisabled (portIn d.laneMap l.val)
  | .phy h => d.each (List.range 4) fun k d => d.dropLink h.val k

/-- Nominal voltages in mV of the rails in the order of R464, and the monitors' windows in thousandths (R464, R479). -/
def railNominal (rail : Nat) : Nat := [1800, 1800, 1800, 850, 750, 900, 1200, 1100].getD rail 0
def railWindow (rail : Nat) : Nat := if rail = 0 then 80 else 50

/-- VOLTAGE_MONITOR_TRIP (R422 code 7, R468, R479): a rail at a voltage in µV. -/
def execVoltageMonitorTrip (rail : Fin 8) (microvolts : Nat) (s : State) : Out := s.on fun d =>
  let n := railNominal rail.val
  let w := railWindow rail.val
  if microvolts < n * (1000 - w) ∨ n * (1000 + w) < microvolts then d.fatal 7 0 0 0 else d

/-- THERMAL_TRIP (R422 code 12): a junction temperature in tenths of a degree Celsius, at or above 130 °C. -/
def execThermalTrip (region : Fin 4) (decidegrees : Int) (s : State) : Out := s.on fun d =>
  if 1300 ≤ decidegrees ∧ region.val < 4 then d.fatal 12 0 0 0 else d

/-- CHIP_REBOOT_TIMER (R418, R438): REBOOT_MS after the safe state is complete; after a takeover 1 ms more, also with REBOOT_MS = 0. -/
def execChipRebootTimer (s : State) : Out := s.on fun d =>
  let ms := d.fld F.ERR_CTL_REBOOT_MS
  match d.safety.safeAt with
  | none => d
  | some t =>
    if d.safety.keystoneHeld then (d.advanceTo (t + cyclesOfMs (1 + ms))).chipReset
    else if ms = 0 then d
    else (d.advanceTo (t + cyclesOfMs ms)).chipReset

/-- ERR_STAT (R418): RESET leaves the safe state by a chip reset; OVF clears. -/
def errStatEffect (k : RegKey) (w : Write) (d : Dev) : Dev :=
  let d := d.plainWrite k w.value
  if bitOf w.value.toNat 25 ∧ d.flag F.ERR_STAT_SAFE then d.chipReset else d

/-- SAFE_STATE_RESET (R418): a write of ERR_STAT. -/
def execSafeStateReset (ws : List Write) (s : State) : Out := s.on fun d => d.writeReg ⟨.ERR_STAT, 0, 0, 0⟩ ws errStatEffect

/-- ERR_CTL: CORR_LIMIT of 1 to 127. -/
def errCtlEffect (k : RegKey) (w : Write) (d : Dev) : Dev := if F.ERR_CTL_CORR_LIMIT.ofWord w.value = 0 then d else d.plainWrite k w.value

/-- LK_CFG: WD_US of 100 to 5,000. -/
def lkCfgEffect (k : RegKey) (w : Write) (d : Dev) : Dev :=
  let x := F.LK_CFG_WD_US.ofWord (d.wouldBe k w.value)
  if x < 100 ∨ 5000 < x then d else d.plainWrite k w.value

/-! ### Return of a region (R420) -/

/-- A region reset loses an SA: one of the region's cluster, or a MACsec SA of a port that uses one of its lanes (R283). -/
def Dev.losesSa (d : Dev) (r id : Nat) : Bool :=
  if saMacsec id then saPort id / 4 == r || (List.range (d.portWidth (saPort id))).any fun j => (saPort id + j) / 4 == r else saHome id == r

/-- The region reset (R7, R283, R420): every register of the region's block and of its lanes, its security associations, and what those registers described. -/
def Dev.regionReset (d : Dev) (r : Nat) : Dev :=
  let sas : NMap (Option Sa) := d.sas.filter fun e => !d.losesSa r e.1
  let gone := (d.tblPlaces.filter fun e => e.1 / 64 == r).map (·.1)
  let d := d.each gone fun k d => d.freeBuckets r (k % 64)
  let d := d.resetRegs fun k => (k.reg.layout.kind == .rgn && k.n == r) || (k.reg.layout.kind == .lane && k.n / 4 == r)
  { d with sas := sas, tbls := d.tbls.filter fun e => e.1 / 64 != r, ports := d.ports.filter fun e => e.1 / 4 != r, pause := d.pause.filter fun e => e.1 / 32 != r
           sched := d.sched.filter fun e => e.1 / 32768 != r, pols := d.pols.filter fun e => e.1 / 65536 != r, arbs := d.arbs.filter fun e => e.1 != r
           sweeps := d.sweeps.filter fun e => e.1 / 64 != r, learnReqs := d.learnReqs.filter fun e => e.1 != r, learnIns := d.learnIns.filter fun e => e.1 != r
           swapAt := d.swapAt.filter fun e => e.1 != r, swapFrozen := d.swapFrozen.filter fun e => e.1 != r, chains := d.chains.filter fun e => e.1 / 8 != r
           ctxs := d.ctxs.filter fun e => e.1 / 1088 != r, pktCores := d.pktCores.filter fun e => e.1 / 68 != r, fifos := d.fifos.filter fun e => e.1 / 1024 != r
           fbMoves := d.fbMoves.filter fun (m : WorkMove) => idRegion m.id != r || idKind m.id != 5, plans := d.plans.filter fun e => e.1 != r }

/-- ERR_RGN (R420): RESTORE starts the return of a fenced region. -/
def errRgnEffect (k : RegKey) (w : Write) (d : Dev) : Dev :=
  let r := k.i
  if ¬ bitOf w.value.toNat 30 ∨ ¬ d.fenced r ∨ (d.safety.restores.at none r).isSome then d
  else
    let d := d.regionReset r
    { d.safe fun f => { f with restores := f.restores.set none r (some d.clk.now) } with rebuilding := insertNum r d.rebuilding }

/-- REGION_RESTORE (R420): a write of ERR_RGN. -/
def execRegionRestore (region : Fin 4) (ws : List Write) (s : State) : Out := s.on fun d => d.writeReg ⟨.ERR_RGN, 0, region.val, 0⟩ ws errRgnEffect

/-- Fenced and retired cells of a region show as such. -/
def Dev.showGone (d : Dev) (r : Nat) : Dev :=
  let d := d.each ((List.range 68).filter fun i => d.cellGone 1 (68 * r + i)) fun i d => d.setCoreState (68 * r + i) 2
  d.each ((List.range 13).filter fun i => d.cellGone 2 (13 * r + i)) fun i d => d.setFld F.SCC_CORE_STATE r i 2

/-- REGION_REJOIN (R420): the self-test of every cell of the region has ended; it rejoins, its tries rebuilt and its ports re-evaluated, or stays fenced. -/
def execRegionRejoin (region : Fin 4) (pass : Bool) (s : State) : Out := s.on fun d =>
  let r := region.val
  if (d.safety.restores.at none r).isNone then d
  else
    let d := { d.safe fun f => { f with restores := f.restores.set none r none } with rebuilding := d.rebuilding.erase r }
    if ¬ pass then d
    else
      let d := (d.setFld F.ERR_RGN_FENCED 0 r 0).setChip F.ERR_STAT_FENCED (withBit (d.fld F.ERR_STAT_FENCED) r false)
      let d := d.showGone r
      d.each ((List.range 16).filter fun p => d.isPort p && (List.range (d.portWidth p)).any fun j => (p + j) / 4 == r) fun p d => d.evalDisabled p

/-! ### Rolling self-test (R432 to R435) -/

/-- The rotation of a region's 218 other cells: 17 groups of a service core, a stage, a crypto engine and a trie memory as far as there are any, and ten banks. -/
def rotationCells (r : Nat) : List (Nat × Nat) :=
  (List.range 17).flatMap fun j =>
    (if j < 13 then [(2, 13 * r + j), (4, 13 * r + j)] else []) ++ (if j < 5 then [(6, 5 * r + j)] else []) ++ [(7, 17 * r + j)] ++
    (List.range 10).map fun i => (3, 170 * r + 10 * j + i)

/-- A packet core holds packets. -/
def Dev.coreHolds (d : Dev) (c : Nat) : Bool := (List.range 16).any fun t => (d.ctx c t).current.isSome || (d.ctx c t).inbox.isSome

/-- A cell is evacuated for its test (R383, R432, R434): onto the spare of its scope when it has one; a packet core that still holds packets leaves dispatch and drains first. -/
def Dev.evacuate (d : Dev) (kind n : Nat) : Dev :=
  let spare := d.spareLeft kind n && !d.isSpare kind n
  let busy := kind == 1 && d.coreState n == 1 && d.coreHolds n
  let d := d.safe fun f => { f with tests := f.tests ++ [{ kind := kind, cell := n, t0 := d.clk.now, onSpare := spare && !busy }] }
  match kind with
  | 1 =>
    if d.coreState n ≠ 1 then d
    else if busy then d.updCore n fun k => { k with away := true }
    else
      let d := d.stopCore n 2
      if spare then d.takeWork n (spareCell 1 n) else d.updCore n fun k => { k with away := true }
  | 2 => if spare ∧ d.fld F.SCC_CORE_STATE (n / 13) (n % 13) = 1 then d.takeThreads n (spareCell 2 n) else d.assignTasks
  | _ => d

/-- A cell may be tested now: present, in a region in service, and not already under test, with no other test on its scope's spare. -/
def Dev.testable (d : Dev) (kind n : Nat) : Bool :=
  !d.cellGone kind n && !(match cellRegion kind n with
    | some r => d.fenced r
    | none => false) && !d.safety.tests.any fun t => t.kind == kind && (t.cell == n || (kind != 3 && scopeKey kind t.cell == scopeKey kind n))

/-- The age of the oldest test of a kind shown (R434). -/
def Dev.showOldest (d : Dev) (kind : Nat) : Dev :=
  let live := (List.range (cellCount kind)).filter fun i => !d.cellGone kind i
  let age := (live.map fun i => (d.clk.now - d.safety.lastTest.at 0 (cellKey kind i)) / 1650000).foldl max 0
  d.setFld F.ST_REPORT_OLDEST_MS 0 kind (min age 65535)

/-- A stage, trie memory or bank that its region cannot do without cannot be tested once its scope has no spare: when its last test is older than 190 ms, a latent fault is noted, once for the cell (R434). -/
def Dev.untestable (d : Dev) (kind n : Nat) : Dev :=
  let k := cellKey kind n
  let d := d.showOldest kind
  if d.safety.lastTest.at 0 k + cyclesOfMs 190 < d.clk.now ∧ ¬ d.safety.stale.contains k then
    ((d.logLatent 13 kind n).safe fun f => { f with kept := true, stale := k :: f.stale }).showLatent
  else d

/-- A packet core still undrained at round 19 loses its packets (R433). -/
def Dev.forceDrain (d : Dev) (c : Nat) : Dev :=
  let ids := (List.range 16).flatMap fun t => (d.ctx c t).current.toList ++ ((d.ctx c t).inbox.map (·.1)).toList
  d.unitLoss ids

/-- A cell drawn for a round is evacuated for its test, unless none of it is possible. -/
def Dev.drawCell (d : Dev) (x : Nat × Nat) : Dev :=
  if ¬ d.testable x.1 x.2 then d
  else if (x.1 = 4 ∨ x.1 = 7) ∧ ¬ d.spareLeft x.1 x.2 ∧ ¬ d.isSpare x.1 x.2 then d.untestable x.1 x.2
  else d.evacuate x.1 x.2

/-- The cells of a region drawn for a round, at most `n`: those whose test an earlier frame aborted (R428), then the next of the rotation. -/
def Dev.drawCells (d : Dev) (r n : Nat) : Dev :=
  let l := rotationCells r
  let frame := (d.safety.rounds - 1) / 20
  let again := (d.safety.retest.filter fun x => cellRegion x.1 x.2.1 == some r && x.2.2 != frame).take n
  let d := d.safe fun f => { f with retest := f.retest.filter fun x => !again.contains x }
  let d := d.each again fun (x : Nat × Nat × Nat) d => d.drawCell (x.1, x.2.1)
  let m := n - again.length
  let p := d.safety.rotation.at 0 r
  let d := d.each ((List.range m).map fun i => l.getD ((p + i) % 218) (0, 0)) fun (x : Nat × Nat) d => d.drawCell x
  d.safe fun f => { f with rotation := f.rotation.set 0 r ((p + m) % 218) }

/-- SELFTEST_ROUND (R432, R433, R437): a round begins 500 µs after the one before it; `proofs` are the detectors' results when the rotation has run their proofs. -/
def execSelftestRound (proofs : Option (Fin 4096)) (s : State) : Out := s.on fun d =>
  if ¬ d.released ∨ d.flag F.ERR_STAT_SAFE then d
  else
    let d := d.advanceTo d.safety.round
    let n := d.safety.rounds
    let c := n % 20
    let d := d.safe fun f => { f with round := f.round + cyclesOfUs 500, rounds := n + 1 }
    let d := (d.setChip F.ST_STAT_ROUND c).setChip F.ST_STAT_FRAME (n / 20)
    let d := match proofs with
      | some p => d.showProofs p.val
      | none => d
    if c < 17 then
      d.each ((List.range 16).map fun b => 17 * b + c) fun k d => d.onlyIf (d.testable 1 k) fun d => d.evacuate 1 k
    else
      let again := (d.safety.deferred.filter (d.testable 1)).take 16
      let d := d.onlyIf (c == 19) fun d => d.each again fun k d => d.forceDrain k
      let d := d.each again fun k d => d.evacuate 1 k
      let d := d.safe fun f => { f with deferred := f.deferred.filter fun k => !again.contains k }
      (d.each (List.range 4) fun r d => d.drawCells r (4 - min 4 ((again.filter fun k => k / 68 == r).length)))

/-- A wear measurement lies below the margin of its kind (R430): a slowdown above the threshold, a voltage or eye margin under it. -/
def Dev.worn (d : Dev) (kind measure : Nat) : Bool :=
  let t := d.fld F.WEAR_THR_THRESH 0 kind
  if kind = 3 ∨ kind = 5 ∨ kind = 8 then decide (measure < t) else decide (t < measure)

/-- The cells of a kind tested in its cycle: TESTED shows the last complete one. -/
def Dev.countTest (d : Dev) (kind n : Nat) : Dev :=
  let d := d.safe fun f => { f with lastTest := f.lastTest.set 0 (cellKey kind n) d.clk.now, tested := f.tested.set 0 kind (f.tested.at 0 kind + 1) }
  let live := (List.range (cellCount kind)).filter fun i => !d.cellGone kind i
  let d := if live.length ≤ d.safety.tested.at 0 kind then
      (d.setFld F.ST_REPORT_TESTED 0 kind (d.safety.tested.at 0 kind)).safe fun f => { f with tested := f.tested.set 0 kind 0 }
    else d
  (d.safe fun f => { f with stale := f.stale.erase (cellKey kind n) }).showOldest kind

/-- A tested cell returns to service (R432): its work comes back from the spare. -/
def Dev.comeBack (d : Dev) (t : CellTest) : Dev :=
  let s := spareCell t.kind t.cell
  match t.kind with
  | 1 =>
    if t.onSpare then (d.stopCore s 2).takeWork s t.cell
    else d.updCore t.cell fun k => { k with away := false }
  | 2 => if t.onSpare ∧ d.fld F.SCC_CORE_STATE (s / 13) (s % 13) = 1 then d.takeThreads s t.cell else d
  | _ => d

/-- A self-test ends: the cell failed its BIST (code 13), is worn (code 14), or returns. -/
def Dev.endTest (d : Dev) (t : CellTest) (pass : Bool) (measure : Nat) (bufferBank : Bool) : Dev :=
  let d := d.safe fun f => { f with tests := f.tests.erase t }
  let d := d.countTest t.kind t.cell
  if pass ∧ ¬ d.worn t.kind measure then d.comeBack t
  else
    let d := d.setFld F.ST_REPORT_FAILED 0 t.kind (d.fld F.ST_REPORT_FAILED 0 t.kind + 1)
    let held := t.onSpare || t.kind != 1
    if pass then d.fenceCell t.kind t.cell 14 measure held bufferBank else d.fenceCell t.kind t.cell 13 0 held bufferBank

/-- BIST_COMPLETE (R430, R433, R435): the BIST of a cell ends and its wear is measured. A packet core that has not drained is not tested: the test is put off (ST_DEFER). A core whose work lies on a spare waits until the spare holds no packet. A SerDes lane has no test in the rotation: its eye is measured in place, and a worn MAC lane stays in service. -/
def execBistComplete (kind : Fin 10) (cell : Fin 1024) (pass : Bool) (measure : Fin 65536) (bufferBank : Bool) (s : State) : Out := s.on fun d =>
  let k := kind.val
  let n := cell.val
  match d.safety.tests.find? fun t => t.kind == k && t.cell == n with
  | none =>
    if k = 5 ∧ n < 16 then
      let d := d.countTest 5 n
      if d.worn 5 measure.val then d.logError 1 14 5 n 0 measure.val else d
    else if k = 8 ∧ n < 10 ∧ ¬ d.cellGone 8 n then
      let d := d.countTest 8 n
      if d.worn 8 measure.val then (d.fenceCell 8 n 14 measure.val false false).showFlume (n / 5) else d
    else d
  | some t =>
    if k = 1 ∧ ¬ t.onSpare ∧ d.coreState n = 1 ∧ d.coreHolds n then
      let d := d.safe fun f => { f with tests := f.tests.erase t, deferred := insertNum n f.deferred }
      (d.errCount 7).updCore n fun x => { x with away := false }
    else if k = 3 ∧ bufferBank ∧ ¬ t.onSpare ∧ ¬ d.isSpare 3 n then (d.safe fun f => { f with tests := f.tests.erase t }).untestable 3 n
    else if k = 1 ∧ t.onSpare ∧ d.coreHolds (spareCell 1 n) then d.updCore (spareCell 1 n) fun x => { x with away := true }
    else d.endTest t pass measure.val bufferBank

/-- A unit gave no heartbeat for a span (R15, R33, R422 code 9, R439). -/
def Dev.silence (d : Dev) : SilentUnit → Dev
  | .cell k n => d.cellFails k.val n 9 0
  | .region r => d.regionError r.val 9 0 0 false
  | .memory r => d.regionError r.val 9 0 0 true
  | .chip => d.fatal 9 0 0 0
  | .lookout => ((d.logLatent 15 0 0).safe fun f => { f with kept := true }).showLatent

end Sys2Proof.Machine
end

