-- ==== Sys2Proof/Machine/Capture.lean ====
section
/-! DEFINITION. What a mirror commit, a bulk copy and a cascade master's replication carry: the state captured at a boundary and its change since the capture before (R387, R448, R459, R460). -/

namespace Sys2Proof.Machine

open Sys2Proof

/-- The bits of a register word that class T covers. -/
def RegKey.mirrorMask (k : RegKey) : Word := let a := k.reg.access k.w; a.rw ||| a.rws ||| a.rwl

/-! ### Class T (R448) -/

/-- Register words of class T that differ from their cold reset values. -/
def Dev.captureRegs (d : Dev) : List CommitItem :=
  (d.csr.filter fun e => e.1.mirroredReg).map fun e => .reg e.1.addr (e.2 &&& e.1.mirrorMask)

/-- Entries of the exact-match and direct-index tables, and their stashes. -/
def Dev.captureTables (d : Dev) : List CommitItem :=
  let item (n pos : Nat) (stash : Bool) (w : Way) : CommitItem := .way (n / 64) (n % 64) pos stash (some (w.key, w.alt, w.hit, w.action, w.adata, w.record))
  d.tbls.flatMap fun e =>
    (e.2.ways.filterMap fun x => x.2.map (item e.1 x.1 false)) ++ e.2.stash.filterMap fun x => x.2.map (item e.1 x.1 true)

/-- Trie contents, next hops, templates and action programs. -/
def Dev.captureRoutes (d : Dev) : List CommitItem :=
  (d.trie.routes.map fun e => .route e.1.v6 e.1.vrf e.1.len e.1.bits (some e.2)) ++
  (d.trie.nhs.map fun e => .nextHop e.1 e.2) ++
  (d.tmpls.map fun e => .template (e.1 / 4096) (e.1 % 4096) e.2.bytes e.2.len e.2.fixes) ++
  d.progs.map fun e => .program (e.1 / 256) (e.1 % 256) e.2

/-- Installed images of packet-core blocks and of service cores. -/
def Dev.captureImages (d : Dev) : List CommitItem :=
  (d.boot.pcCode.map fun x => .image (some x.1) x.2.1 (d.memBytes (codeBase x.1 + x.2.1) (x.2.2 - x.2.1))) ++
  d.boot.scCode.map fun x => .image none x.1 (d.memBytes x.1 x.2)

/-- Security associations with their keys, NEXT and replay state. -/
def Dev.captureSas (d : Dev) : List CommitItem :=
  d.sas.filterMap fun e => e.2.map fun x => .sa e.1 (some (x.imageWith x.key)) x.seen

/-- Cruiser state: the places of tables' buckets, every other parcel's place, PIN and hint, and the contents of firmware pages. -/
def Dev.captureParcels (d : Dev) : List CommitItem :=
  (d.tblPlaces.filterMap fun e => e.2.map fun x => .buckets (e.1 / 64) (e.1 % 64) x.sram x.nb x.tenant) ++
  (d.parcels.filterMap fun e => e.2.map fun p => .parcel e.1 p.sram p.home p.bytes p.tenant p.pin p.hint) ++
  (d.parcels.filter fun e => idKind e.1 == 4 && e.2.isSome).map fun e =>
    let a := 0x400000000 + 4096 * idIndex e.1
    .memory a (d.memBytes a 4096)

/-! ### Class C, class S and the ring indices (R448) -/

/-- Transport QP contexts and memory key contexts. -/
def Dev.captureContexts (d : Dev) : List CommitItem :=
  (d.qpctxs.map fun e => .qpContext e.1 (some (e.2.fn, e.2.img))) ++ d.keys.map fun e => .key e.1 e.2

/-- The PSN last acknowledged on a path: the one before its oldest packet without an acknowledgement. -/
def RmPath.acked (x : RmPath) : Nat := (match x.unacked with
  | p :: _ => p.psn
  | [] => x.next) + 2 ^ 24 - 1

/-- The transport points of the QPs whose number is the commit's SEQ modulo 8. -/
def Dev.capturePoints (d : Dev) (seq : Nat) : List CommitItem :=
  (d.qpctxs.filter fun e => e.1 % 8 == seq % 8).flatMap fun e =>
    (List.range e.2.paths.length).map fun p =>
      let x := e.2.paths.getD p {}
      .transport e.1 p (x.acked % 2 ^ 24) x.expect e.2.rmsn e.2.rsn

/-- Accumulating counters, and the slot of the tally bank just written. -/
def Dev.captureCounts (d : Dev) (seq : Nat) (tallies : List (Nat × Nat)) : List CommitItem :=
  (d.cnt.map fun e => .counter e.1.addr e.2) ++
  if d.flag F.TLY_BASE_EN then
    let slot := 0x800000 * (seq % 16)
    .tally slot (seq % 2 ^ 31) :: tallies.map fun e => .tally (slot + e.1) e.2
  else []

/-- The queue pairs that may hold an index. -/
def Dev.ringPairs (d : Dev) : List Nat :=
  (d.qps.map (·.1) ++ d.csr.filterMap fun e => if e.1.reg = Reg.QCP_IDX ∨ e.1.reg = Reg.QCP_STAT then some e.1.n else none).eraseDups

/-- Ring indices and tag states. -/
def Dev.captureRings (d : Dev) : List CommitItem :=
  (d.ringPairs.map fun n =>
    .indices n (d.fld F.QCP_IDX_SQ_CI n) (d.qp n).sqPi (d.fld F.QCP_IDX_RQ_CI n) (d.qp n).rqPi (d.fld F.QCP_STAT_CQ_PI n)) ++
  ((d.csr.filterMap fun e => if e.1.reg = Reg.EQC_STAT then some e.1.n else none).map fun n => .eqIndices n (d.fld F.EQC_STAT_PI n) (d.fld F.EQC_STAT_CI n)) ++
  (d.nvmes.map fun e => .nvmeRegs e.1 e.2.intms e.2.cc e.2.aqa e.2.asq e.2.acq e.2.rdy) ++
  (d.nvmes.flatMap fun e =>
    let item (c : Bool) (x : Nat × Option NvmeQ) : Option CommitItem :=
      x.2.map fun q => .nvmeQueue e.1 c x.1 q.base q.size q.head q.tail q.cq q.phase q.ien q.iv
    e.2.sqs.filterMap (item false) ++ e.2.cqs.filterMap (item true)) ++
  d.cbfs.map fun e => .cbfTags e.1 (e.2.slots.filter fun x => d.tagBit e.1 x.1) (d.fld F.CBF_DONE_TAGS e.1)

/-! ### Changes -/

/-- An item with its value taken out: what two items for one piece of state have in common. -/
def slotOf : CommitItem → CommitItem
  | .reg a _ => .reg a 0
  | .counter a _ => .counter a 0
  | .tally o _ => .tally o 0
  | .way r t pos stash _ => .way r t pos stash none
  | .memory a _ => .memory a []
  | .template r n _ _ _ => .template r n [] 0 []
  | .program r s _ => .program r s []
  | .route v6 vrf len bits _ => .route v6 vrf len bits none
  | .nextHop n _ => .nextHop n (0, 0)
  | .sa id _ _ => .sa id none 0
  | .image b a _ => .image b a []
  | .buckets r t _ _ _ => .buckets r t none 0 0
  | .parcel id _ _ _ _ _ _ => .parcel id none 0 0 0 none none
  | .qpContext q _ => .qpContext q none
  | .transport q p _ _ _ _ => .transport q p 0 0 0 0
  | .key i _ => .key i []
  | .indices n _ _ _ _ _ => .indices n 0 0 0 0 0
  | .eqIndices n _ _ => .eqIndices n 0 0
  | .nvmeRegs f _ _ _ _ _ _ => .nvmeRegs f 0 0 0 0 0 false
  | .nvmeQueue f c id _ _ _ _ _ _ _ _ => .nvmeQueue f c id 0 0 0 0 0 true false 0
  | .cbfTags f _ _ => .cbfTags f [] 0

/-- What tells that a piece of state is back at its reset value, or gone: its item without a value; a register's is its cold reset value. -/
def goneItem (x : CommitItem) : CommitItem := match x with
  | .reg a _ => match locate a with
    | .word k => .reg a (k.resetWord &&& k.mirrorMask)
    | _ => slotOf x
  | _ => slotOf x

/-- Items whose state a capture no longer lists. -/
def vanished (old new : List CommitItem) : List CommitItem :=
  let slots := new.map slotOf
  (old.filter fun x => !slots.contains (slotOf x)).map goneItem

/-- Every change from one capture to the next. -/
def changes (old new : List CommitItem) : List CommitItem := vanished old new ++ new.filter fun x => !old.contains x

/-- Class T and the contexts of class C, of which commits carry the changes. -/
def Dev.captureState (d : Dev) : List CommitItem :=
  d.captureRegs ++ d.captureParcels ++ d.captureTables ++ d.captureRoutes ++ d.captureImages ++ d.captureSas ++ d.captureContexts

/-- Replicated state of a cascade (R460). -/
def Dev.captureReplicas (d : Dev) : List CommitItem :=
  ((d.csr.filter fun e => e.1.reg.replicated).map fun e => .reg e.1.addr (e.2 &&& e.1.mirrorMask)) ++ d.captureTables ++ d.captureRoutes

end Sys2Proof.Machine
end

