-- ==== Sys2Proof/Machine/Pairs.lean ====
section
/-! DEFINITION. Pairs and cascades: Flume ports, heartbeats, election, commits and intent records, promotion, and the ring (R442 to R463). -/

namespace Sys2Proof.Machine

open Sys2Proof

def Dev.updPair (d : Dev) (f : Pair → Pair) : Dev := { d with pair := f d.pair }

def Dev.pairState (d : Dev) : Nat := d.fld F.PAIR_STAT_STATE

/-! ### Flume ports (R444 to R447) -/

/-- A Flume port sends: the device is released and in a pair or cascade, the port is up, and the controller runs. -/
def Dev.flumeLive (d : Dev) (fl : Nat) : Bool :=
  d.released && !d.quiet && !d.pair.squelched && (d.inPair || d.inCascade) && d.flag F.FLM_STAT_UP 0 fl

/-- The first Flume port that sends. -/
def Dev.flumeOut (d : Dev) : Nat := if d.flumeLive 0 then 0 else 1

/-- FLUME_PORT_UP (R444 to R446): link training ends and the SPDM session stands; a neighbour that fails authentication is treated as absent. A stand-alone device keeps its ports squelched. -/
def execFlumePortUp (fl : Fin 2) (authentic : Bool) (s : State) : Out := s.on fun d =>
  let k := fl.val
  let g := ((List.range 5).filter fun i => !d.cellGone 8 (5 * k + i)).length
  if ¬ authentic ∨ ¬ d.released ∨ d.quiet ∨ d.pair.squelched ∨ ¬ (d.inPair || d.inCascade) ∨ g < 2 then d
  else ((d.setFld F.FLM_STAT_UP 0 k 1).setFld F.FLM_STAT_WIDTH 0 k (if 4 ≤ g then 4 else 2)).showRing

/-- The numbers of a heartbeat: role, member, state, sequence number of the last commit, priority, serial number, concession, time. -/
def beatFields (h : Heartbeat) : List Nat :=
  [h.role.val, h.member.val, h.state.val, h.seq.toNat, h.prio.val, h.serial, natOf h.conceded, h.tc]

/-- FLUME_HEARTBEAT_SEND (R446, R447): one heartbeat of a port, from a controller that the Keystone refreshes. -/
def execFlumeHeartbeatSend (fl : Fin 2) (s : State) : Out := s.on fun d =>
  if ¬ d.flumeLive fl.val then d
  else
    let now := d.clk.now
    (d.updPair fun p => { p with refresh := now }).emit (.flume fl.val 1 [d.fld F.PAIR_STAT_ROLE, d.board.cascId, d.pairState, d.fld F.PAIR_SEQ_SEQ,
      d.fld F.PAIR_CFG_PRIO, d.board.serial, natOf d.pair.conceded, d.clk.tc])

/-- FLUME_REFRESH_TIMEOUT (R447): 30 µs without a refresh by the Keystone. -/
def execFlumeRefreshTimeout (s : State) : Out := s.on fun d =>
  if ¬ d.released ∨ d.pair.squelched ∨ ¬ (d.inPair || d.inCascade) then d
  else (d.advanceTo (d.pair.refresh + cyclesOfUs 30)).stopFlume

/-! ### States of a pair device (R457) -/

/-- SYNC: a bulk copy begins, and what was known is forgotten (R459). -/
def Dev.enterSync (d : Dev) : Dev :=
  (((d.setChip F.PAIR_STAT_STATE 3).setChip F.PAIR_STAT_SYNC_PCT 0).setChip F.PAIR_STAT_PROTECTED 0).updPair fun p =>
    { p with electFrom := none, copied := false, applied := false, received := [], recvNext := none }

/-- ACTIVE: ACTIVE_N asserted. -/
def Dev.enterActive (d : Dev) : Dev := ((d.setChip F.PAIR_STAT_STATE 2).updPair fun p => { p with electFrom := none, conceded := false }).setActive true

/-- DETACHED: never promotes itself. -/
def Dev.detach (d : Dev) : Dev := ((d.setChip F.PAIR_STAT_STATE 5).updPair fun p => { p with electFrom := none }).setActive false

/-- The peer's CLAIM is higher than this device's (R457). -/
def Dev.peerHigher (d : Dev) : Bool :=
  let own := d.fld F.PAIR_CFG_PRIO
  decide (own < d.pair.peerPrio ∨ (own = d.pair.peerPrio ∧ d.board.serial < d.pair.peerSerial))

/-- Nothing of class REGION or above stands (R452). -/
def Dev.recovered (d : Dev) : Bool := d.fld F.ERR_STAT_FENCED == 0 && !d.flag F.ERR_STAT_SAFE

/-- What a heartbeat of the peer brings about, by state (R443, R457). -/
def Dev.pairEvent (d : Dev) (h : Heartbeat) : Dev :=
  let sameSide := h.role.val == d.fld F.PAIR_STAT_ROLE
  match d.pairState with
  | 1 =>
    if sameSide then (d.setChip F.PAIR_STAT_STATE 6).updPair fun p => { p with electFrom := none }
    else if h.state.val = 2 then d.enterSync
    else if d.peerHigher then ((d.bump .PAIR_CNT 0 6).updPair fun p => { p with conceded := true }).enterSync
    else if h.conceded then d.enterActive
    else d
  | 2 =>
    if h.state.val = 2 ∧ d.peerHigher then (d.bump .PAIR_CNT 0 6).enterSafe
    else
      let d := d.setChip F.PAIR_STAT_PROTECTED (natOf (h.state.val == 4))
      if h.state.val = 3 ∧ ¬ d.pair.copying then
        let items := d.captureState
        (d.updPair fun p => { p with copying := true, sent := items, counted := [] }).emit (.bulkCopy d.flumeOut items)
      else d.updPair fun p => { p with copying := h.state.val == 3 }
  | 5 => if h.state.val = 2 ∧ d.recovered then d.enterSync else d
  | _ => d

/-- A heartbeat of the pair peer: what it carries is noted, a standby slaves its time to it (R451), and the state follows. -/
def Dev.pairBeat (d : Dev) (fl : Nat) (h : Heartbeat) : Dev :=
  let now := d.clk.now
  let d := d.updPair fun p =>
    { p with beat := p.beat.set 0 fl (now + 1), missed := p.missed.set false fl false, peerSeen := true, peerState := h.state.val
             peerPrio := h.prio.val, peerSerial := h.serial, peerConceded := h.conceded }
  let d := ((d.setChip F.PAIR_STAT_HB 1).setChip F.PAIR_PEER_LO h.serial).setWord ⟨.PAIR_PEER, 0, 0, 1⟩ (BitVec.ofNat 32 (h.serial / 2 ^ 32))
  let d := if d.mirrored then { d with clk := { d.clk with tc := h.tc % tcModulus } } else d
  d.pairEvent h

/-! ### The ring (R460 to R462) -/

/-- A heartbeat of a cascade member: relayed once around; its sender is known and live, or a duplicate of this device (R443, R462). -/
def Dev.ringBeat (d : Dev) (fl : Nat) (h : Heartbeat) : Dev :=
  let m := h.member.val
  let relay (d : Dev) : Dev := if d.flumeLive (1 - fl) then d.emit (.flume (1 - fl) 1 (beatFields h)) else d
  if m = d.board.cascId then
    if h.serial = d.board.serial then d
    else relay (((d.setChip F.CAS_STAT_DUPID 1).setChip F.CAS_STAT_LIVE 0).setChip F.CAS_STAT_KNOWN 0)
  else if d.flag F.CAS_STAT_DUPID then relay d
  else
    let now := d.clk.now
    let d := d.onlyIf (d.board.cascId == 0 && !bitOf (d.fld F.CAS_STAT_LIVE) m) fun d => d.updPair fun p => { p with fullDue := true }
    let d := (d.setChip F.CAS_STAT_KNOWN (withBit (d.fld F.CAS_STAT_KNOWN) m true)).setChip F.CAS_STAT_LIVE (withBit (d.fld F.CAS_STAT_LIVE) m true)
    relay (d.updPair fun p => { p with memberBeat := p.memberBeat.set 0 m now })

/-- FLUME_HEARTBEAT_RECEIVE (R443, R446, R451, R457, R462): a heartbeat of an authenticated neighbour. -/
def execFlumeHeartbeatReceive (fl : Fin 2) (beat : Heartbeat) (s : State) : Out := s.on fun d =>
  if ¬ d.released ∨ d.quiet ∨ ¬ d.flag F.FLM_STAT_UP 0 fl.val then d
  else if d.inCascade then (if beat.role.val = 3 then d.ringBeat fl.val beat else d)
  else if d.inPair ∧ (beat.role.val = 1 ∨ beat.role.val = 2) then d.pairBeat fl.val beat
  else d

/-- Three heartbeats of a pair peer missed on every port that carried any (R453): with PEER_ACTIVE_N asserted the Flume has failed. -/
def Dev.beatsStopped (d : Dev) : Dev :=
  let d := (d.setChip F.PAIR_STAT_HB 0).setChip F.PAIR_STAT_PROTECTED 0
  if d.mirrored ∧ d.flag F.PAIR_STAT_PEER_PIN then d.detach else d

/-- PEER_HEARTBEAT_TIMEOUT (R453, R462): the third heartbeat in a row is missed, on a port of a pair or from a cascade member. -/
def execPeerHeartbeatTimeout (fl : Fin 2) (member : Fin 8) (s : State) : Out := s.on fun d =>
  let m := member.val
  if d.inCascade then
    if ¬ bitOf (d.fld F.CAS_STAT_LIVE) m ∨ m = d.board.cascId then d
    else
      let d := (d.advanceTo (d.pair.memberBeat.at 0 m + cyclesOfUs 30)).bump .PAIR_CNT 0 2 3
      let d := (d.setChip F.CAS_STAT_LIVE (withBit (d.fld F.CAS_STAT_LIVE) m false)).chipEvent 0x0E m
      if m = 0 then d.setChip F.CAS_STAT_HEADLESS 1 else d
  else
    let t := d.pair.beat.at 0 fl.val
    if ¬ d.inPair ∨ t = 0 ∨ d.pair.missed.at false fl.val then d
    else
      let d := (d.advanceTo (t - 1 + cyclesOfUs 30)).bump .PAIR_CNT 0 2 3
      let d := d.updPair fun p => { p with missed := p.missed.set false fl.val true }
      if (List.range 2).all fun k => d.pair.beat.at 0 k == 0 || d.pair.missed.at false k then d.beatsStopped else d

/-- PEER_ACTIVE_CHANGE (R453, R457, R458): a new level of PEER_ACTIVE_N. A standby that still hears heartbeats logs a failed pin; side B gives way to a peer that asserted with it. -/
def execPeerActiveChange (asserted : Bool) (s : State) : Out := s.on fun d =>
  let d := d.setChip F.PAIR_STAT_PEER_PIN (natOf asserted)
  match d.pairState with
  | 1 => d.updPair fun p => { p with pinSeen := p.pinSeen || asserted }
  | 2 =>
    match d.pair.pinRule with
    | none => d
    | some t =>
      let d := d.updPair fun p => { p with pinRule := none }
      if asserted ∧ d.clk.now ≤ t + cyclesOfUs 1 ∧ d.fld F.PAIR_STAT_ROLE = 2 then d.detach else d
  | 4 =>
    if asserted ∨ ¬ d.flag F.PAIR_STAT_HB then d
    else
      let x := d.draws
      { d.logError (Config.latentClass x % 4) (Config.pinFault x % 16) 0 0 0 0 with draws := x + 1 }
  | _ => d

/-- ELECT_TIMER_EXPIRY (R457, R458): a lower CLAIM gives way; without a heartbeat the pin decides. -/
def execElectTimerExpiry (s : State) : Out := s.on fun d =>
  match d.pair.electFrom with
  | none => d
  | some t =>
    if d.pairState ≠ 1 then d
    else
      let d := (d.advanceTo (t + cyclesOfUs (d.fld F.PAIR_CFG_ELECT_US))).updPair fun p => { p with electFrom := none }
      if d.pair.peerSeen then d.enterActive
      else if d.pair.pinSeen ∨ d.flag F.PAIR_STAT_PEER_PIN then d.detach
      else let now := d.clk.now; d.enterActive.updPair fun p => { p with pinRule := some now }

/-! ### Intent records (R450) -/

/-- The action of an intent record takes effect. -/
def Dev.landIntent (d : Dev) : Intent → Dev
  | .doorbell n rq v => d.ringDoorbell n rq v
  | .eqDoorbell f e v => d.eqDoorbell f e v
  | .cqIndex n v => d.cqIndexWrite n v
  | .cbf f done v => if done then d.freeTags f v else d.issueTags f v
  | .nvme f o v => d.nvDoorbell f o v
  | .entry f _ _ _ addr pasid bs vec => d.landEntry f addr pasid bs vec

/-- What a received record tells a promoted device: as the action itself, but an entry only shows how far its ring had come (R454, R455). -/
def Dev.replayIntent (d : Dev) : Intent → Dev
  | .entry f ring number index _ _ _ _ =>
    match ring with
    | 0 => d.setFld F.QCP_STAT_CQ_PI number 0 index
    | 1 => d.setFld F.EQC_STAT_PI number 0 index
    | _ =>
      match (d.nvme f).cqs.at none number with
      | none => d
      | some q => d.updNvme f fun c => { c with cqs := c.cqs.set none number (some { q with tail := index, phase := if index < q.tail then !q.phase else q.phase }) }
  | i => d.landIntent i

/-- INTENT_RECORD (R450): the active sends its next record; `received` is a record that arrives at the standby, which acknowledges it, or finds a gap and goes to DETACHED. -/
def execIntentRecord (received : Option (Nat × Intent)) (s : State) : Out := s.on fun d =>
  match received with
  | none =>
    match d.pair.intents.find? fun x => x.2.1.isNone with
    | none => d
    | some x =>
      let now := d.clk.now
      (d.updPair fun p => { p with intents := p.intents.map fun y => if y.1 = x.1 then (y.1, some now, y.2.2) else y }).emit (.intent x.1 x.2.2)
  | some (n, i) =>
    if ¬ d.mirrored then d
    else if d.pair.recvNext.getD n ≠ n then d.detach
    else (d.updPair fun p => { p with received := p.received ++ [(n, i)], recvNext := some (n + 1) }).emit (.flume d.flumeOut 3 [n])

/-- INTENT_ACK (R450): the action takes effect. -/
def execIntentAck (number : Nat) (s : State) : Out := s.on fun d =>
  match d.pair.intents.find? fun x => x.1 == number && x.2.1.isSome with
  | none => d
  | some x => (d.updPair fun p => { p with intents := p.intents.erase x }).landIntent x.2.2

/-- INTENT_TIMEOUT (R450): the oldest record sent has not been acknowledged within 5 µs; its action takes effect anyway. -/
def execIntentTimeout (s : State) : Out := s.on fun d =>
  match d.pair.intents with
  | (n, some t, i) :: rest =>
    let d := (d.advanceTo (t + cyclesOfUs 5)).updPair fun p => { p with intents := rest.filter fun x => x.1 != n }
    ((d.bump .PAIR_CNT 0 3).setChip F.PAIR_STAT_PROTECTED 0).landIntent i
  | _ => d

/-! ### Commits of the active device (R448, R449) -/

/-- At a span boundary the active captures a commit for a peer that mirrors, and counts those two boundaries late: what has changed of classes T and C since the capture before, and transport points, counters, tallies and ring indices as they stand. -/
def Dev.captureCommit (d : Dev) (seq : Nat) (tallies : List (Nat × Nat)) : Dev :=
  if ¬ d.peerWaits then d.updPair fun p => { p with commits := [] }
  else
    let d := d.updPair fun p => { p with commits := p.commits.map fun c => (c.1, c.2.1, c.2.2 + 1) }
    let late := (d.pair.commits.filter fun c => c.2.2 == 2).length
    let d := d.onlyIf (late != 0) fun d => d.bump .PAIR_CNT 0 1 late
    let covers := match d.pair.intents with
      | x :: _ => x.1
      | [] => d.pair.nextIntent
    let now := d.clk.now
    let x := d.draws
    let d := { d.tally 0x38 (Config.commitBytes x) with draws := x + 1 }
    let items := d.captureState
    let counts := d.captureCounts seq tallies ++ d.captureRings
    let body := changes d.pair.sent items ++ vanished d.pair.counted counts ++ counts ++ d.capturePoints seq
    (d.updPair fun p => { p with commits := p.commits ++ [(seq, now, 0)], sent := items, counted := counts }).emit (.commit d.flumeOut seq covers body)

/-- COMMIT_ACK (R449): the standby has applied a commit. -/
def execCommitAck (seq : Word) (s : State) : Out := s.on fun d =>
  match d.pair.commits.find? fun c => c.1 == seq.toNat with
  | none => d
  | some c =>
    let d := (d.setChip F.PAIR_SEQ_SEQ seq.toNat).bump .PAIR_CNT 0 0
    (d.tallyMax 0x64 (nsOfCycles (d.clk.now - c.2.1))).updPair fun p => { p with commits := p.commits.filter fun x => decide (c.2.1 < x.2.1) }

/-! ### Promotion (R288, R454 to R456) -/

/-- The announcement frames, sent before any other frame on their ports (R454, R463). -/
def Dev.announce (d : Dev) : Dev :=
  d.each (List.range 64) fun k d =>
    let p := d.fld F.PAIR_ANN_PORT 0 k
    if ¬ d.flag F.PAIR_ANN_VALID 0 k ∨ ¬ d.isPort p ∨ ¬ d.portUp p then d
    else
      let t := d.tmpl (p / 4) (d.fld F.PAIR_ANN_TEMPLATE 0 k)
      let b := t.bytes.take t.len
      let b := b ++ List.replicate (60 - b.length) 0
      let f := b ++ fcsOf b
      let d := ((d.emit (.frame p f)).portCount p 2 f.length).portCount p 3
      let d := d.onlyIf (bitOf (f.headD 0).toNat 0) fun d => d.portCount p (if be f 0 6 = 2 ^ 48 - 1 then 12 else 13)
      (d.tally (tlyPort p + 0x08) f.length).tally (tlyPort p + 0x18) 1

/-- The replay sets of the rings: every job between the device's and the producer index, every tag BUSY (R455). -/
def Dev.replaySets (d : Dev) : Dev :=
  let d := d.each ((d.qps.map (·.1)).filter fun n => d.flag F.QCP_CTL_EN n) fun n d => d.updQp n fun q =>
    { q with replaySq := idxDist q.sqPi (d.fld F.QCP_IDX_SQ_CI n), replayRq := idxDist q.rqPi (d.fld F.QCP_IDX_RQ_CI n) }
  let d := d.each (d.nvmes.map (·.1)) fun f d => d.updNvme f fun c =>
    { c with sqs := c.sqs.map fun (e : Nat × Option NvmeQ) => (e.1, e.2.map fun (q : NvmeQ) => { q with replay := (q.tail + q.size - q.head) % q.size }) }
  d.each (d.cbfs.map (·.1)) fun f d =>
    let tags := (List.range 32).filter (d.tagBit f)
    d.updCbf f fun c => { c with order := [], ended := tags.map fun t => (t, slotOp (c.slots.at [] t), .replay, 0) }

/-- Transport QPs resume from their transport points (R456). -/
def Dev.resumeQps (d : Dev) : Dev :=
  d.each (d.qpctxs.map (·.1)) fun q d =>
    let c := d.qctx q
    if c.state ≠ 2 ∧ c.state ≠ 3 then d
    else
      let d := d.updQctx q fun c =>
        { c with trackers := [], binds := [], atomics := [], answers := [], capsules := [], stall := none
                 paths := c.paths.map fun (p : RmPath) => { p with unacked := [], timer := none, rnrUntil := none, again := false, nakSent := false, resync := 1 } }
      if c.state = 3 then d.probePaths q else d

/-- A promotion, all of R454's steps in its cycle; DRAM namespaces read as zeros from it on (R255). -/
def Dev.promote (d : Dev) : Dev :=
  let d := d.enterActive.zeroNamespaces.bump .PAIR_CNT 0 4
  let d := d.raiseExt (d.fld F.ERR_CTL_EXT_SC) (d.fld F.ERR_CTL_EXT_T)
  let d := (d.each d.pair.received fun x d => d.replayIntent x.2).updPair fun p => { p with received := [], recvNext := none, intents := [], commits := [], copying := false }
  let parcels : NMap (Option Parcel) := d.parcels.map fun (e : Nat × Option Parcel) => (e.1, e.2.map fun (p : Parcel) => { p with heat := 0, count := [], last := 0 })
  let d := { d with parcels := parcels }
  let d := (d.announce.advanceSas.replaySets).resumeQps
  d.chipEvent 6 (d.fld F.PAIR_STAT_ROLE - 1)

/-- PROMOTION (R453, R454): a standby whose active has stopped its heartbeats and deasserted ACTIVE_N. -/
def execPromotion (s : State) : Out := s.on fun d =>
  if d.inPair ∧ d.pairState = 4 ∧ ¬ d.flag F.PAIR_STAT_HB ∧ ¬ d.flag F.PAIR_STAT_PEER_PIN then d.promote else d

/-- PAIR_CTL (R457): PROMOTE in DETACHED, SWITCH of a protected active. -/
def pairCtlEffect (_ : RegKey) (w : Write) (d : Dev) : Dev :=
  let v := w.value.toNat
  if ¬ d.inPair then d
  else if bitOf v 31 ∧ d.pairState = 5 then d.promote
  else if bitOf v 30 ∧ d.pairState = 2 ∧ d.flag F.PAIR_STAT_PROTECTED then d.updPair fun p => { p with switching := true }
  else d

/-- PROMOTE (R457): a write of PAIR_CTL. -/
def execPromote (ws : List Write) (s : State) : Out := s.on fun d => d.writeReg ⟨.PAIR_CTL, 0, 0, 0⟩ ws pairCtlEffect

/-- SWITCH (R457): a write of PAIR_CTL. -/
def execSwitch (ws : List Write) (s : State) : Out := s.on fun d => d.writeReg ⟨.PAIR_CTL, 0, 0, 0⟩ ws pairCtlEffect

/-- The cascade master sends the change of the replicated state round the ring, or all of it once a member has joined (R460, R462). -/
def Dev.replicate (d : Dev) : Dev :=
  if ¬ (d.inCascade ∧ d.board.cascId = 0 ∧ d.flumeLive d.flumeOut) then d
  else
    let items := d.captureReplicas
    let full := d.pair.fullDue
    let body := if full then items else changes d.pair.sent items
    (d.updPair fun p => { p with sent := items, fullDue := false }).emit (.replicate d.flumeOut full body)

/-- The boundary's part in the pair (R448, R457, R460): a commit, the cascade master's replication, and a planned switchover, which stops the device and resets it. -/
def Dev.pairBoundary (d : Dev) (seq : Nat) (tallies : List (Nat × Nat)) : Dev :=
  let d := (d.captureCommit seq tallies).replicate
  if d.pair.switching then d.stopFlume.chipReset else d

/-! ### Remote frames (R461) -/

/-- A packet built from the metadata of R81 as it crosses the ring. -/
def packetOfMd (md bytes : List Byte) : Pkt :=
  let v (o n : Nat) : Nat := leVal (sliceB md o n)
  let f := v 0 1
  { bytes := bytes, pass := f / 64, deep := bitOf f 5, frag := bitOf f 4, malformed := bitOf f 3, partialKey := bitOf f 2, colour := f % 4
    nextTbl := v 1 1, disp := v 2 1 / 16, resume := v 2 1 % 16, malclass := v 3 1, flowHash := v 4 4, source := v 8 1, prio := v 9 1
    bd := v 10 2, tenant := v 12 2, dispArg := v 14 2, user := sliceB md 16 48 }

/-- FLUME_REMOTE_FRAME_RECEIVE (R461): a frame from the ring, for this member's port or recirculation queue, or to be relayed; one for an absent member is counted and dropped. -/
def execFlumeRemoteFrameReceive (fl : Fin 2) (member : Fin 8) (port : Fin 16) (cls : Fin 8) (md bytes : List Byte) (s : State) : Out := s.on fun d =>
  let m := member.val
  if ¬ d.inCascade ∨ ¬ d.released ∨ d.quiet ∨ ¬ d.flag F.FLM_STAT_UP 0 fl.val then d
  else if m ≠ d.board.cascId ∨ d.flag F.CAS_STAT_DUPID then
    let out := if d.flumeLive (1 - fl.val) then 1 - fl.val else fl.val
    if (¬ bitOf (d.fld F.CAS_STAT_LIVE) m ∧ ¬ d.flag F.CAS_STAT_DUPID) ∨ ¬ d.flumeLive out then d.bump .PAIR_CNT 0 7
    else d.emit (.ringPacket out m port.val cls.val md bytes)
  else
    let r := if port.val = 15 then Config.ringRegion d.draws % 4 else port.val / 4
    let d := if port.val = 15 then { d with draws := d.draws + 1 } else d
    let (d, id) := d.newPkt { packetOfMd md bytes with region := r, buf := d.nextPkt, rxNs := d.ptpNs }
    let d := ({ d with bufs := d.bufs.set {} id { region := r, refs := 1 } }).takeCells id (cellsFor (bytes.length + 4))
    if port.val = 15 then (d.updPkt id fun k => { k with pass := 0, disp := 0, resumed := false }).joinRecirc id r
    else d.enqueue id port.val cls.val

end Sys2Proof.Machine
end

