-- ==== Sys2Proof/Machine/Power.lean ====
section
/-! DEFINITION. PWRGD, the straps, VRET and the test access port (R439, R442, R466, R474, R476). -/

namespace Sys2Proof.Machine

open Sys2Proof

/-- PWRGD_RISE (R442, R466, R474): the edge ends the cold reset that PWRGD held, is t0 of the boot, and samples the straps and WAKE_IN. -/
def execPwrgdRise (role : Fin 4) (cascId : Fin 8) (wakeIn : Bool) (s : State) : Out := s.always fun d =>
  let d := { d with boot := { d.boot with pwrgd := true, vret := true, wakeIn := wakeIn }
                    board := { d.board with role := role.val, cascId := cascId.val }
                    tap := { d.tap with instr := if 3 ≤ d.tap.instr then 0 else d.tap.instr } }
  d.coldReset

/-- PWRGD_LOW_PULSE (R466): PWRGD is low for at least 1 µs: a cold reset, in which the device is held until PWRGD rises. The retained store and LK_STAT survive it. -/
def execPwrgdLowPulse (s : State) : Out := s.always fun d =>
  let d := d.coldReset
  d.updBoot fun k => { k with pwrgd := false }

/-- VRET_LOSS (R404, R439, R473): the retained store and LK_STAT are cleared, the Lookout stops, and the pins of the VRET domain are no longer driven, so that FAULT_N reads as asserted. -/
def execVretLoss (s : State) : Out := s.always fun d =>
  let d := ((d.clearMem retained (retained + 4096)).setWord ⟨.LK_STAT, 0, 0, 0⟩ (RegKey.resetWord ⟨.LK_STAT, 0, 0, 0⟩)).gate
  d.updBoot fun k => { k with vret := false }

/-! ### The test access port (R476) -/

def Dev.setTap (d : Dev) (i : Nat) : Dev := { d with tap := { d.tap with instr := i } }

/-- An instruction that drives pins: in effect only while PWRGD is deasserted; while it is asserted BYPASS is selected instead. -/
def Dev.tapDrive (d : Dev) (i : Nat) (levels : List Bool) : Dev :=
  if d.boot.pwrgd then d.setTap 0 else (d.setTap i).emit (.pins levels)

/-- The number that a list of levels spells, the first bit shifted out as bit 0. -/
def shiftedOut (l : List Bool) : Nat := l.foldr (fun b a => natOf b + 2 * a) 0

/-- BYPASS (R476): the one-bit register is selected; it captures 0. -/
def execBypass (s : State) : Out := s.always fun d => (d.setTap 0).emit (.tdo 0)

/-- IDCODE (R476). -/
def execIdcode (s : State) : Out := s.always fun d => (d.setTap 1).emit (.tdo 0x33200A1B)

/-- SAMPLE_PRELOAD (R476): the levels of the pins are shifted out, and the boundary register takes the levels shifted in. -/
def execSamplePreload (sampled preload : List Bool) (s : State) : Out := s.always fun d =>
  let d := d.setTap 2
  { d with tap := { d.tap with boundary := preload } }.emit (.tdo (shiftedOut sampled))

/-- EXTEST (R476). -/
def execExtest (s : State) : Out := s.always fun d => d.tapDrive 3 d.tap.boundary

/-- CLAMP (R476). -/
def execClamp (s : State) : Out := s.always fun d => d.tapDrive 4 d.tap.boundary

/-- HIGHZ (R476): every pin is released. -/
def execHighz (s : State) : Out := s.always fun d => d.tapDrive 5 []

end Sys2Proof.Machine
end

