-- ==== Sys2Proof/Machine/Control.lean ====
section
/-! DEFINITION. Register access: what lies at an address, what a write does and what a read shows, the arbitration of read-clear accesses and of sideband messages (R4, R6, R16 to R24, R173, R413, R414, R483, R484, R489). -/

namespace Sys2Proof.Machine

open Sys2Proof

/-! ### What lies at an address -/

/-- What a register access reaches: nothing (R483), a hole (R173, R484), a register word, an offset of a function's discovery table (R174), or one of an NVMe controller's registers (R258). -/
inductive Reach where
  | nowhere
  | hole
  | word (k : RegKey)
  | disc (f off : Nat)
  | nvme (f off : Nat)
  deriving DecidableEq, Repr

/-- A register that stands at its address: the set of a covered lane holds only the module bus registers and MAC_PORT_STAT, and a function's pages only what it has been given (R173). -/
def Dev.stands (d : Dev) (k : RegKey) : Bool :=
  d.given k && (k.reg.layout.kind != .lane || d.isPort k.n || [Reg.MAC_MOD_CMD, .MAC_MOD_STAT, .MAC_MOD_DATA, .MAC_PORT_STAT].contains k.reg)

def Dev.reachWord (d : Dev) (a : Nat) : Reach :=
  match locate a with
  | .nowhere => .nowhere
  | .hole => .hole
  | .word k => if d.stands k then .word k else .hole

/-- What lies at a 32-bit aligned address of the CSR blocks; a function's check-value slots lead to its units, rising (R294). -/
def Dev.reach (d : Dev) (a : Nat) : Reach :=
  let f := (a - 0x280000000) / 0x200000
  let o := (a - 0x280000000) % 0x200000
  if a < 0x280000000 ∨ 0x2C0000000 ≤ a then d.reachWord a
  else if o < 0x1000 then .disc f o
  else if 0x20000 ≤ o ∧ o < 0x60000 then
    match (d.cvusOf f)[(o - 0x20000) / 0x1000]? with
    | some u => d.reachWord (0x207010000 + 0x1000 * u + o % 0x1000)
    | none => .hole
  else if 0x60000 ≤ o ∧ o < 0x64000 then (if (d.res f).nvme then .nvme f (o - 0x60000) else .hole)
  else d.reachWord a

/-! ### Writes -/

/-- HIF_OTT (R181, R199): a LOG2 of 12 to 34, and a base aligned to the size of an entry in use. -/
def ottEffect (k : RegKey) (w : Write) (d : Dev) : Dev :=
  let d' := d.plainWrite k w.value
  let lg := d'.fld F.HIF_OTT_LOG2 0 k.i
  let base := d'.fld F.HIF_OTT_OBASE_HI 0 k.i * 2 ^ 32 + d'.fld F.HIF_OTT_OBASE_LO 0 k.i * 4096
  if ¬ d'.keepsPort w.writer (d'.fld F.HIF_OTT_FUNC 0 k.i) then d.status w.writer k.addr 5
  else if lg < 12 ∨ 34 < lg ∨ (d'.flag F.HIF_OTT_VALID 0 k.i ∧ base % 2 ^ lg ≠ 0) then d
  else d'

/-- RMA_CTX_CFG (R227): KEY_MAX stays while any QP is not in RESET. -/
def rmaCtxEffect (k : RegKey) (w : Write) (d : Dev) : Dev :=
  if k.w = 3 ∧ d.wouldBe k w.value ≠ d.word k ∧ d.qpctxs.any (fun e => e.2.state != 0) then d else d.plainWrite k w.value

/-- A register written by its access masks alone. -/
def plainEffect (k : RegKey) (w : Write) (d : Dev) : Dev := d.plainWrite k w.value

/-- Effects of the registers of chapters 01 to 05. -/
def effectMac (r : Reg) : Option (RegKey → Write → Dev → Dev) :=
  match r with
  | .SPAN_CFG => some spanCfgEffect
  | .MAC_TC_ADJ => some (tcAdjEffect Dev.restartGates)
  | .MAC_TC_CTL => some tcCtlEffect
  | .TLY_BASE => some tlyBaseEffect
  | .MAC_LANE_MAP => some laneMapEffect
  | .MAC_PORT_CFG => some portCfgEffect
  | .MAC_PFC_CFG => some pfcCfgEffect
  | .MAC_PAUSE_HWM => some watermarkEffect
  | .MAC_PAUSE_LWM => some watermarkEffect
  | .MAC_WD_CFG => some wdCfgEffect
  | .MAC_GCL_CTL => some gclCtlEffect
  | .MAC_MOD_CMD => some (modCmdEffect false)
  | .CLS_PARSE_CTL => some parseCtlEffect
  | .CLS_PSTATE => some parseEntryEffect
  | .CLS_PTRANS => some parseEntryEffect
  | .CLS_TBL => some tblEffect
  | .CLS_KEX => some kexEffect
  | .CLS_TCMD => some tcmdEffect
  | .FWD_TUQ_CTL => some tuqCtlEffect
  | .FWD_BRT => some brtEffect
  | .FWD_AGE => some ageEffect
  | .SCH_SHAPE => some shapeEffect
  | .SCH_TNODE => some tnodeEffect
  | .SCH_POL => some polEffect
  | _ => none

/-- Effects of the registers of chapters 06 to 10. -/
def effectHost (r : Reg) : Option (RegKey → Write → Dev → Dev) :=
  match r with
  | .HIF_PORT_CFG => some hifPortEffect
  | .HIF_PF_CFG => some pfCfgEffect
  | .HIF_FUNC_RES => some funcResEffect
  | .RMA_FUNC => some funcResEffect
  | .STO_FUNC => some funcResEffect
  | .HIF_ITT => some ittEffect
  | .HIF_OTT => some ottEffect
  | .QCP_RING => some ringEffect
  | .EQC_RING => some ringEffect
  | .QCP_CTL => some qcpCtlEffect
  | .QCP_SCHED => some qcpSchedEffect
  | .QCP_CQ_ARM => some cqArmEffect
  | .EQC_CTL => some eqcCtlEffect
  | .CHN_CTL => some chnCtlEffect
  | .RMA_CTX_CFG => some rmaCtxEffect
  | .RMW_CMD => some rmwCmdEffect
  | .STO_PATH => some stoPathEffect
  | .STO_NS => some nsEffect
  | .CBF_ISSUE => some cbfIssueEffect
  | .CBF_DONE => some cbfDoneEffect
  | .CBF_SLOT => some cbfSlotEffect
  | .CBF_PWR => some cbfPwrEffect
  | .CRY_SACMD => some sacmdEffect
  | .CVU_ASSIGN => some cvuAssignEffect
  | .CVU_CFG => some cvuCfgEffect
  | .CVU_CTL => some cvuCtlEffect
  | .CVU_ALIVE => some cvuAliveEffect
  | .CVU_ALIVE_CTR => some cvuCtrEffect
  | .CVU_FEED => some (cvuFeedEffect 4)
  | _ => none

/-- Effects of the registers of chapters 12 to 16. -/
def effectCore (r : Reg) : Option (RegKey → Write → Dev → Dev) :=
  match r with
  | .PCB_CORE => some pcbCoreEffect
  | .PCB_CTL => some pcbCtlEffect
  | .PCB_POOLMAP => some poolmapEffect
  | .PCB_POOLCFG => some poolcfgEffect
  | .PCB_WIN => some pcbWinEffect
  | .SCC_CORE => some sccCoreEffect
  | .SCC_MSG => some sccMsgEffect
  | .CRU_CTL => some cruCtlEffect
  | .CRU_WORK => some cruWorkEffect
  | .CRU_FREEZE => some cruFreezeEffect
  | .CRU_HOME => some cruHomeEffect
  | .CRU_PCMD => some cruPcmdEffect
  | .CRU_LOG_CTL => some cruLogCtlEffect
  | .CRU_TENANT => some cruTenantEffect
  | .CRU_TBLCLS => some cruTblclsEffect
  | .CRU_TASK => some cruTaskEffect
  | .CRU_RGN => some cruRgnEffect
  | .CRU_SWAP => some cruSwapEffect
  | .CRU_FBMAP => some fbmapEffect
  | .BOOT_CTL => some bootCtlEffect
  | .LDR_CMD => some (ldrEffect [] .good)
  | .IMP_CFG => some impCfgEffect
  | .IMP_RANGE => some impRangeEffect
  | .ERR_CTL => some errCtlEffect
  | .ERR_STAT => some errStatEffect
  | .LK_CFG => some lkCfgEffect
  | .ERR_RGN => some errRgnEffect
  | .PAIR_CTL => some pairCtlEffect
  | _ => none

/-- What a write that takes effect does to the device: the register's own effect, or its access masks. -/
def regEffect (k : RegKey) (w : Write) (d : Dev) : Dev :=
  (((effectMac k.reg).orElse fun _ => effectHost k.reg).orElse fun _ => effectCore k.reg).getD plainEffect k w d

/-- The function that owns a controller, and firmware, write its registers. -/
def nvmeWriter (f : Nat) (w : Writer) : Bool := w == .keystone || isServiceW w || functionW w == some f

/-- Writes of one cycle on the 32-bit word at an address (R16 to R24); a write to a hole or to a discovery table is discarded (R174, R484). -/
def Dev.writeWord (d : Dev) (a : Nat) (ws : List Write) : Dev :=
  match d.reach a with
  | .word k => d.writeReg k ws regEffect
  | .nvme f o =>
    match d.arbitrate (nvmeWriter f) a ws with
    | (d, some w) => d.nvWrite f o w.value.toNat
    | (d, none) => d
  | _ => d

/-! ### Reads -/

/-- A counter's value in 32-bit halves. -/
def Dev.counterHalf (d : Dev) (k : RegKey) : Nat := d.counter k.reg k.n k.i / 2 ^ (32 * k.w) % 2 ^ 32

/-- What a read of a register word shows. The key of an SA image is write-only (R275). EVAC of CRU_STAT counts cells whose work is being moved. -/
def Dev.shown (d : Dev) (k : RegKey) : Nat :=
  match d.cbfRead k with
  | some v => v.toNat
  | none =>
    if k.reg.isCounter then d.counterHalf k
    else if k.reg = .CRY_SADATA ∧ 10 ≤ k.i ∧ k.i < 18 then 0
    else if k.reg = .CRU_STAT then (F.CRU_STAT_EVAC.into (d.word k) (min 16 (d.safety.subs.length + d.safety.tests.length))).toNat
    else (d.word k).toNat

/-- A read of MAC_TC_TIME[0] word +0x0 latches the live time. -/
def Dev.latchTime (d : Dev) (k : RegKey) : Dev :=
  if k.reg = .MAC_TC_TIME ∧ k.i = 0 ∧ k.w = 0 then
    let t := d.ptpNs
    ((d.setFld F.MAC_TC_TIME_NS 0 0 (t % 10 ^ 9)).setFld F.MAC_TC_TIME_SEC_LO 0 0 (t / 10 ^ 9)).setFld F.MAC_TC_TIME_SEC_HI 0 0 (t / 10 ^ 9 / 2 ^ 32)
  else d

/-- A 32-bit word read at an address; nothing is cleared. -/
def Dev.readWord (d : Dev) (a : Nat) : Dev × Nat :=
  match d.reach a with
  | .word k => let d := d.latchTime k; (d, d.shown k)
  | .disc f o => (d, leVal (sliceB (d.fn f).disc o 4))
  | .nvme f o => (d, d.nvRead f o % 2 ^ 32)
  | _ => (d, 0)

/-- A counter that a read clears: every one but CLS_TBYTES, which is read-only. -/
def Reg.clears (r : Reg) : Bool := r.isCounter && r != .CLS_TBYTES

/-- The counter whose low half lies at an address. -/
def Dev.counterAt (d : Dev) (a : Nat) : Option RegKey :=
  match d.reach a with
  | .word k => if k.reg.clears ∧ k.w = 0 then some k else none
  | _ => none

/-- A message whose message time is over has committed (R18). -/
def Dev.settleMessage (d : Dev) : Dev :=
  match d.sb with
  | none => d
  | some m =>
    if ¬ d.sbOver then d
    else
      match d.reach m.addr with
      | .word k => d.endMessage k regEffect
      | _ => { d with sb := none }

/-- One read-clear access of a counter (R6, R21): the count, which is then 0, or, when a higher read-clear or write of the sideband has the counter in its message time, the value after that clear, the loss being logged. -/
def Dev.readClear (d : Dev) (k : RegKey) (w : Writer) : Dev × Nat :=
  let v := d.counter k.reg k.n k.i
  match d.sbTop k.addr with
  | none => (d.setCounter k.reg k.n k.i 0, v)
  | some (r, code) =>
    if r < d.rank w then (d.loseToMessage k.addr code w, 0)
    else ((d.beatMessage k.addr).setCounter k.reg k.n k.i 0, v)

/-- Words of CSR space from an address on, in one access of a reader: a counter that it covers whole is cleared (R6). -/
def Dev.readWords (d : Dev) (w : Writer) (a : Nat) : Nat → Dev × List Byte
  | 0 => (d, [])
  | 1 => let (d, v) := d.readWord a; (d, leBytes 4 v)
  | n + 2 =>
    match d.counterAt a with
    | some k =>
      let (d, v) := d.readClear k w
      let (d, t) := d.readWords w (a + 8) n
      (d, leBytes 8 v ++ t)
    | none =>
      let (d, v) := d.readWord a
      let (d, t) := d.readWords w (a + 4) (n + 1)
      (d, leBytes 4 v ++ t)

/-- Bytes of CSR space for a reader. -/
def Dev.csrRead (d : Dev) (w : Writer) (a n : Nat) : Dev × List Byte :=
  let b := a - a % 4
  let (d, bs) := d.settleMessage.readWords w b (ceilDiv (a + n - b) 4)
  (d, sliceB bs (a - b) n)

/-- A feed window of a check-value unit at an address, and the word after it, which an 8-byte write reaches (R296). -/
def Dev.feedAt (d : Dev) (a : Nat) : Option RegKey :=
  match d.reach a with
  | .word k => if k.reg = .CVU_FEED then some k else none
  | _ => none

/-- Bytes stored in CSR space by one access: whole aligned words are written, lowest first; a feed takes 1, 2, 4 or 8 bytes (R296). -/
def Dev.csrWrite (d : Dev) (w : Writer) (a : Nat) (bs : List Byte) : Dev :=
  match d.feedAt a with
  | some k =>
    let feed (d : Dev) (c : List Byte) : Dev := d.writeReg k [⟨w, BitVec.ofNat 32 (leVal c)⟩] (cvuFeedEffect c.length)
    if bs.length = 8 then feed (feed d (bs.take 4)) (bs.drop 4) else if [1, 2, 4].contains bs.length then feed d bs else d
  | none =>
    let first := (4 - a % 4) % 4
    d.each (List.range ((bs.length - first) / 4)) fun i d => d.writeWord (a + first + 4 * i) [⟨w, BitVec.ofNat 32 (leVal (sliceB bs (first + 4 * i) 4))⟩]

/-- Bytes stored in a doorbell block: 4 or 8 bytes at the start of a slot (R208). -/
def Dev.doorbellWrite (d : Dev) (a : Nat) (bs : List Byte) : Dev :=
  let f := (a - 0x2C0000000) / 65536
  let o := (a - 0x2C0000000) % 65536
  if o % 64 = 0 ∧ (bs.length = 4 ∨ bs.length = 8) then d.slotDoorbell f (o / 64) (leVal (bs.take 4)) else d

/-- An address of the CSR blocks, and one of the doorbell blocks. -/
def inCsr (a : Nat) : Bool := (blockOf a).isSome
def inDoorbells (a : Nat) : Bool := decide (0x2C0000000 ≤ a ∧ a < 0x2C2000000)

/-! ### Commands -/

/-- Readers of a register word in a cycle each get what it shows before the cycle's writes (R22); nothing lies at an unpopulated address, and the access ends with `ACCESS` (R483). -/
def Dev.readers (d : Dev) (a : Nat) (rs : List Writer) : Dev :=
  d.each rs fun w d =>
    if d.reach a = .nowhere then d.emit (.regStatus w a 5)
    else let (d, v) := d.readWord a; d.emit (.regValue w a v)

/-- REGISTER_WRITE (R16 to R24, R483, R489): writes of one cycle on the 32-bit register at an address, and the plain reads of that cycle, which see the value held before it. A write where nothing lies ends with `ACCESS` where its path carries a status. -/
def execRegisterWrite (addr : Nat) (cycle : Meeting) (s : State) : Out := s.on fun d =>
  let a := addr - addr % 4
  let d := d.settleMessage.readers a cycle.readers
  if d.reach a = .nowhere then d.each cycle.writes fun w d => d.status w.writer a 5 else d.writeWord a cycle.writes

/-- Readers below the highest-ranked one get the value after the clear, and are logged as preempted (R21). -/
def Dev.lateReaders (d : Dev) (a winner : Nat) (ws : List Writer) : Dev :=
  d.each ws fun w d => (d.emit (.regValue w a 0)).logConflict a winner w

/-- COUNTER_READ_CLEAR (R6, R21): the highest-ranked reader of a cycle, a sideband message in its message time counting as one, receives the count and clears it. CLS_TBYTES is read and stays; where no counter stands the readers see 0 (R484), and nothing lies at an unpopulated address (R483). -/
def execCounterReadClear (addr : Nat) (readers : List Writer) (s : State) : Out := s.on fun d =>
  let d := d.settleMessage
  match d.reach (addr - addr % 8) with
  | .word k =>
    if k.reg.isCounter ∧ ¬ k.reg.clears then d.each readers fun w d => d.emit (.regValue w k.addr (d.counter k.reg k.n k.i))
    else if ¬ k.reg.clears then d.readers (addr - addr % 4) readers
    else
      match d.topWrite (readers.map fun r => ({ writer := r, value := 0 } : Write)) with
      | none => d
      | some top =>
        let lost := match d.sbTop k.addr with
          | some (r, code) => if r < d.rank top.writer then some code else none
          | none => none
        match lost with
        | some code => d.each readers fun w d => (d.emit (.regValue w k.addr 0)).loseToMessage k.addr code w
        | none =>
          let (d, v) := d.readClear k top.writer
          (d.emit (.regValue top.writer k.addr v)).lateReaders k.addr (d.writerCode top.writer) (readers.filter (· != top.writer))
  | _ => d.readers (addr - addr % 4) readers

/-! ### Sideband messages (R18, R413, R414) -/

/-- Register messages come by MCTP over SMBus, I3C or PCI Express VDM. -/
def registerPath (p : MgmtPath) : Bool := p == .smbus || p == .i3c || p == .vdm

/-- Why a register message is refused: not ready before release, or ACCESS over VDM without VDM_REG and, for a write, outside a session while REQ_SESSION is set (R414). The not-ready completion, which R216 has no code for, is shown as 0xFF. -/
def Dev.sbRefuses (d : Dev) (p : MgmtPath) (inSession wr : Bool) : Option Nat :=
  if ¬ d.released then some 0xFF
  else if (p == .vdm && !d.flag F.SB_CFG_VDM_REG) || (wr && d.flag F.SB_CFG_REQ_SESSION && !(inSession && d.boot.session)) then some 5
  else none

/-- A path that carries register messages and is open. -/
def Dev.sbOpen (d : Dev) (p : MgmtPath) : Bool := registerPath p && (p != .i3c || d.flag F.SB_CFG_I3C_EN)

/-- SIDEBAND_REGISTER_WRITE (R18, R413, R414): a write message is accepted whole, one at a time. -/
def execSidebandRegisterWrite (path : MgmtPath) (inSession : Bool) (addr : Nat) (value : Word) (s : State) : Out := s.on fun d =>
  let d := d.settleMessage
  if ¬ d.sbOpen path ∨ d.sb.isSome then d
  else
    match d.sbRefuses path inSession true with
    | some st => d.emit (.regStatus .sideband addr st)
    | none =>
      match d.reach (addr - addr % 4) with
      | .word k =>
        if d.permits k .sideband then { d with sb := some { addr := k.addr, value := value, accepted := d.clk.now } }
        else d.emit (.regStatus .sideband addr 5)
      | .nvme _ _ => d.emit (.regStatus .sideband addr 5)
      | .nowhere => d.emit (.regStatus .sideband addr 5)
      | _ => d

/-- SIDEBAND_REGISTER_READ (R18, R22, R413, R414, R483): a register's value; a read of a counter is accepted as a read-clear access with a message time. -/
def execSidebandRegisterRead (path : MgmtPath) (inSession : Bool) (addr : Nat) (s : State) : Out := s.on fun d =>
  let d := d.settleMessage
  if ¬ d.sbOpen path ∨ d.sb.isSome then d
  else
    match d.sbRefuses path inSession false with
    | some st => d.emit (.regStatus .sideband addr st)
    | none =>
      match d.counterAt (addr - addr % 8) with
      | some k => { d with sb := some { addr := k.addr, value := 0, accepted := d.clk.now, clear := true } }
      | none => d.readers (addr - addr % 4) [.sideband]

/-- SIDEBAND_WRITE_COMMIT (R18, R19): the end of the message time, at most 64 cycles with both ends; `others` are the writes of that cycle on the same control. -/
def execSidebandWriteCommit (others : List Write) (s : State) : Out := s.on fun d =>
  match d.sb with
  | none => d
  | some m =>
    match d.reach m.addr with
    | .word k => ((if m.clear then d else d.writeReg k others regEffect)).endMessage k regEffect
    | _ => { d with sb := none }

end Sys2Proof.Machine
end

