-- ==== Sys2Proof/Machine/Threads.lean ====
section
/-! DEFINITION. Threads that issue Stavte instructions: registers, privilege, traps and interrupts, the MMU of service cores, and the fetch of an instruction (R300 to R302, R312, R323 to R327, R330, R331, R335, R342, R412). -/

namespace Sys2Proof.Machine

open Sys2Proof

/-! ### Threads -/

/-- Profile of a thread's element: T packet core, G service core, K Keystone (R300). -/
inductive Profile where
  | t | g | k
  deriving DecidableEq, Repr

def profileOf : Thread → Profile
  | .packet _ _ => .t
  | .service _ _ => .g
  | .keystone => .k

/-- Number of a service-core thread or of the Keystone's. -/
def thrOf : Thread → Nat
  | .service c t => 2 * c.val + t.val
  | _ => keystoneThr

/-- The region whose access an access of the thread is; the Keystone lies in none. -/
def regionOf : Thread → Option Nat
  | .packet c _ => some (c.val / 68)
  | .service c _ => some (c.val / 13)
  | .keystone => none

/-- The writer that a thread's stores to CSR space are (R16). -/
def writerOf : Thread → Writer
  | .packet c _ => .packetCore c
  | .service c _ => .serviceCore c
  | .keystone => .keystone

/-- Cell kind and number of the core, for the error log. -/
def cellOf : Thread → Nat × Nat
  | .packet c _ => (1, c.val)
  | .service c _ => (2, c.val)
  | .keystone => (0, 0)

/-- General registers of a thread. -/
def Dev.tregs (d : Dev) : Thread → List DWord
  | .packet c t => (d.ctx c.val t.val).regs
  | th => (d.thr (thrOf th)).regs

/-- Program counter of a thread. -/
def Dev.tpc (d : Dev) : Thread → Nat
  | .packet c t => (d.ctx c.val t.val).pc
  | th => (d.thr (thrOf th)).pc

/-- Privilege of a thread: 0 T, 1 S, 2 M (R300). -/
def Dev.tpriv (d : Dev) : Thread → Nat
  | .packet _ t => if t.val = 0 then 1 else 0
  | th => (d.thr (thrOf th)).tstate % 4

/-- The word of the access or instruction that a thread waits in. -/
def Dev.tblocked (d : Dev) : Thread → Option Nat
  | .packet c t => (d.ctx c.val t.val).blocked
  | th => (d.thr (thrOf th)).blocked

/-- An instruction completes: its result, the next program counter, one more in RETIRED. -/
def Dev.leave (d : Dev) (th : Thread) (rd : Fin 32) (v : DWord) (pc : Nat) : Dev :=
  match th with
  | .packet c t => d.updCtx c.val t.val fun k => { k with regs := gset k.regs rd v, pc := pc % 2 ^ 64, retired := k.retired + 1, blocked := none }
  | _ => d.updThr (thrOf th) fun k => { k with regs := gset k.regs rd v, pc := pc % 2 ^ 64, retired := k.retired + 1, blocked := none, wfe := false }

/-- An instruction holds its thread (R336). -/
def Dev.block (d : Dev) (th : Thread) (w : Nat) : Dev :=
  match th with
  | .packet c t => d.updCtx c.val t.val fun k => { k with blocked := some w }
  | _ => d.updThr (thrOf th) fun k => { k with blocked := some w }

/-! ### Interrupts (R326, R351, R352, R355) -/

/-- EXT at a thread, a level: an entry of the error log not yet served, the supervisor faults of a block whose owner it is, or at the Keystone the double traps of service cores. -/
def Dev.extLevel (d : Dev) (k : Nat) : Bool :=
  (d.thr k).ext ||
  (if k = keystoneThr then d.csr.any fun e => e.1.reg == Reg.SCC_CORE && e.1.w == 0 && F.SCC_CORE_SFAULT.ofWord e.2 == 1
   else d.csr.any fun e => e.1.reg == Reg.PCB_CORE && e.1.w == 0 && F.PCB_CORE_SFAULT.ofWord e.2 == 1 &&
     d.fld F.PCB_CORE_SCAUSE e.1.n e.1.i != 0x11 && d.flag F.PCB_CTL_OWN_EN e.1.n (e.1.i / 17) &&
     2 * d.fld F.PCB_CTL_OWNER e.1.n (e.1.i / 17) + d.fld F.PCB_CTL_OWNER_T e.1.n (e.1.i / 17) == k)

/-- TIMER at a thread, a level: CYCLE has reached TICKCMP. -/
def Dev.timerLevel (d : Dev) (k : Nat) : Bool := decide ((d.thr k).tickcmp ≤ if k = keystoneThr then d.clk.now / 3 else 2 * d.clk.now)

/-- IRQPEND: 3 EXT, 2 MSG, 1 TIMER, 0 SPAN. -/
def Dev.irqs (d : Dev) (k : Nat) : Nat := withBit ((d.thr k).irqPend % 8) 1 (d.timerLevel k) + 8 * natOf (d.extLevel k)

/-- Pending sources that are enabled. -/
def Dev.irqsOn (d : Dev) (k : Nat) : Nat := d.irqs k &&& (d.thr k).irqEn

/-- An interrupt is to be taken before the next instruction. -/
def Dev.irqReady (d : Dev) (k : Nat) : Bool :=
  let s := (d.thr k).tstate
  bitOf s 3 && !bitOf s 7 && d.irqsOn k != 0

/-! ### Traps (R323 to R325, R349, R351) -/

/-- TSTATE on the entry of a handler: PRIV and IE saved, IE cleared, INTRAP set, PRIV the target's. -/
def trapState (s target : Nat) : Nat := 128 + natOf (bitOf s 3) * 64 + s % 4 * 16 + target

/-- The privilege that handles traps: S on a service core, M on the Keystone. -/
def trapPriv (k : Nat) : Nat := if k = keystoneThr then 2 else 1

/-- Entry of a handler at an offset from TENTRY (R324). -/
def Dev.enterTrap (d : Dev) (k code tpc : Nat) (tinfo : DWord) (off : Nat) : Dev :=
  d.updThr k fun x => { x with
    tpc := tpc % 2 ^ 64, tcode := code, tinfo := tinfo.toNat, tstate := trapState x.tstate (trapPriv k)
    pc := (x.tentry - x.tentry % 1024 + off) % 2 ^ 64, blocked := none, wfe := false }

/-- A trap within a handler is not taken: the core stops (R325). The Keystone's block is the chip's; its silence is what the Lookout finds (R422). -/
def Dev.trapTwice (d : Dev) (th : Thread) : Dev :=
  match th with
  | .service c _ => d.doubleTrap c.val
  | _ => d.updThr (thrOf th) fun x => { x with stopped := true, blocked := none, wfe := false }

/-- A store of a packet core that is outstanding reaches its place (R328): address, bytes, value. -/
def Dev.landStore (d : Dev) (c : Nat) (s : Nat × Nat × Nat) : Dev :=
  let bs := leBytes s.2.1 s.2.2
  if inCsr s.1 then d.csrWrite (.packetCore (Fin.ofNat 272 c)) s.1 bs
  else if inDoorbells s.1 then d.doorbellWrite s.1 bs
  else if inHostWindow s.1 then d.intWrite s.1 bs []
  else (d.touchPages (coreRegion c) s.1 s.2.1).store s.1 bs

/-- DRAM that is not trained holds an access (R407). -/
def Dev.held (d : Dev) (a : Nat) : Bool := !d.boot.dram && d.inDram a 1

/-- What holds a store: DRAM that is not trained, or a page of a host window whose translation has yet to come (R183). -/
def Dev.storeHeld (d : Dev) (s : Nat × Nat × Nat) : Bool := d.held s.1 || !d.hostReady s.1 s.2.1 true

/-- Outstanding stores that a condition selects reach their places, in program order; what is held stays. -/
def Dev.landStores (d : Dev) (c t : Nat) (sel : Nat × Nat × Nat → Bool) : Dev :=
  let go (s : Nat × Nat × Nat) : Bool := sel s && !d.storeHeld s
  let l := (d.ctx c t).stores
  let d := d.each (l.filter go) fun s d => d.landStore c s
  d.updCtx c t fun k => { k with stores := k.stores.filter fun s => !go s }

/-- A trap of a thread: cause code, the address of its instruction, TINFO. A MEM_ERROR is reported to the block controller as well, which brings in a spare (R323, R351, R422). -/
def Dev.trap (d : Dev) (th : Thread) (cause pc : Nat) (tinfo : DWord) : Dev :=
  match th with
  | .packet c t =>
    let d := d.landStores c.val t.val fun _ => true
    if t.val = 0 then d.supervisorFault c.val cause pc tinfo
    else
      let d := d.haltCtx c.val t.val cause pc tinfo
      if cause = 0x11 then d.cellFails 1 c.val 10 cause else d
  | _ =>
    let k := thrOf th
    let s := (d.thr k).tstate
    if bitOf s 7 then d.trapTwice th
    else
      let call := cause == 0x10
      let off := if call then 0x300 else if s % 4 = 0 then 0 else 0x100
      let d := d.enterTrap k cause (if call then pc + 4 else pc) tinfo off
      match th with
      | .service c _ => if cause = 0x11 then d.cellFails 2 c.val 10 cause else d
      | _ => d

/-! ### The MMU of service cores (R330, R331) -/

/-- Kinds of access. -/
inductive AccKind where
  | fetch | load | store
  deriving DecidableEq, Repr

/-- What translation gives: an internal address, one that the privilege may not reach so, a page fault, an access fault, poison, or a wait for DRAM. -/
inductive Xres where
  | at_ (pa : Nat)
  | denied (pa : Nat)
  | page
  | access
  | poison
  | wait
  deriving DecidableEq, Repr

/-- An access code grants a kind of access: 1 read, 2 read and write, 3 read and execute. -/
def grants (acc : Nat) : AccKind → Bool
  | .fetch => acc == 3
  | .load => acc != 0
  | .store => acc == 2

/-- The access code of a leaf for a privilege: TACC for T, SACC for S. -/
def leafAcc (e priv : Nat) : Nat := if priv = 0 then bitsOf e 5 4 else bitsOf e 3 2

/-- A line of a protected range whose tag fails (R412): marked, counted and logged. -/
def Dev.tagFail (d : Dev) (th : Thread) (a : Nat) : Dev :=
  let f := a / 64 * 2
  let d := { d with marks := (d.marks.set false f true).set false (f + 1) true }.bump .BOOT_CNT 0 2
  d.logError 1 11 (cellOf th).1 (cellOf th).2 2 (a / 64 % 2 ^ 32)

/-- Code that the loader has installed for service cores covers a range (R411). -/
def Dev.installed (d : Dev) (a n : Nat) : Bool := d.boot.scCode.any fun x => decide (x.1 ≤ a ∧ a + n ≤ x.1 + x.2)

/-- A read in a protected range of what the loader has not installed there fails its tag. -/
def Dev.tagBad (d : Dev) (a n : Nat) : Bool := d.protected a n && !d.installed a n

/-- A walk from a table at level `lvl` down (3 the first, 0 the fourth); a leaf that serves the access gets USED, and DIRTY for a store, and is cached. -/
def Dev.walk (d : Dev) (core asid priv : Nat) (kind : AccKind) (va : Nat) : Nat → Nat → Dev × Xres
  | 0, _ => (d, .page)
  | n + 1, table =>
    let a := table + 8 * (va / 2 ^ (12 + 9 * n) % 512)
    if ¬ d.openAt a false then (d, .access)
    else if d.held a then (d, .wait)
    else if d.marked a 8 then (d, .poison)
    else
      let e := d.memVal a 8
      let addr := bitsOf e 47 12 * 4096
      if ¬ bitOf e 0 ∨ bitsOf e 63 60 ≠ 0 ∨ bitsOf e 55 48 ≠ 0 ∨ bitsOf e 11 9 ≠ 0 then (d, .page)
      else if ¬ bitOf e 1 then
        if bitsOf e 8 2 ≠ 0 then (d, .page) else d.walk core asid priv kind va n addr
      else
        let size := 12 + 9 * n
        let pa := addr + va % 2 ^ size
        if n = 3 ∨ addr % 2 ^ size ≠ 0 ∨ (bitsOf e 5 4 ≠ 0 ∧ bitsOf e 3 2 = 3) then (d, .page)
        else if ¬ grants (leafAcc e priv) kind then (d, .denied pa)
        else
          let e' := withBit (if kind = .store then withBit e 7 true else e) 6 true
          if e' ≠ e ∧ ¬ d.openAt a true then (d, .access)
          else
            let d := if e' = e then d else d.storeVal a 8 e'
            let x : Xlat := { asid := asid, va := va - va % 2 ^ size, size := size, pte := e', at_ := a }
            let l := (d.xlats.at [] core).filter fun y => !(y.asid == asid && y.va == x.va && y.size == size)
            ({ d with xlats := d.xlats.set [] core (x :: l) }, .at_ pa)

/-- A virtual address translated for a thread; cached translations serve as long as they are kept, but a store through one cached clean walks again. -/
def Dev.translate (d : Dev) (th : Thread) (kind : AccKind) (va : Nat) : Dev × Xres :=
  match th with
  | .service c _ =>
    let p := (d.thr (thrOf th)).ptbase
    if ¬ bitOf p 0 then (d, .at_ va)
    else if bitsOf va 63 47 ≠ 0 ∧ bitsOf va 63 47 ≠ 2 ^ 17 - 1 then (d, .page)
    else
      let asid := bitsOf p 63 48
      let priv := d.tpriv th
      let hit := (d.xlats.at [] c.val).find? fun y => (y.asid == asid || bitOf y.pte 8) && decide (y.va ≤ va ∧ va < y.va + 2 ^ y.size)
      match hit with
      | some y =>
        let pa := bitsOf y.pte 47 12 * 4096 + va % 2 ^ y.size
        if ¬ grants (leafAcc y.pte priv) kind then (d, .denied pa)
        else if kind = .store ∧ ¬ bitOf y.pte 7 then d.walk c.val asid priv kind va 4 (bitsOf p 47 12 * 4096)
        else (d, .at_ pa)
      | none => d.walk c.val asid priv kind va 4 (bitsOf p 47 12 * 4096)
  | _ => (d, .at_ va)

/-! ### Fetch (R305, R323, R342, R390, R411) -/

/-- What the fetch of an instruction gives: its word, a trap with its TINFO, or a wait for DRAM. -/
inductive Fetched where
  | word (w : Nat)
  | trap (cause tinfo : Nat)
  | wait
  deriving DecidableEq, Repr

/-- The installed image of a block covers an instruction. -/
def Dev.codeAt (d : Dev) (b pc : Nat) : Bool := d.boot.pcCode.any fun x => x.1 == b && decide (x.2.1 ≤ pc ∧ pc + 4 ≤ x.2.2)

/-- The Keystone runs from flash and from its private SRAM. -/
def keystoneCode (pc : Nat) : Bool := decide (pc + 4 ≤ 0x1000000 ∨ (0x10000000 ≤ pc ∧ pc + 4 ≤ 0x10800000))

/-- A service core's instruction at an internal address. -/
def Dev.fetchService (d : Dev) (th : Thread) (va pa : Nat) : Dev × Fetched :=
  if d.installed pa 4 then
    if d.held pa then (d, .wait) else if d.marked pa 4 then (d, .trap 0xC va) else (d, .word (d.memVal pa 4))
  else if d.protected pa 4 then (d.tagFail th pa, .trap 0xC va)
  else (d, .trap 5 va)

/-- The instruction at a thread's program counter. -/
def Dev.fetch (d : Dev) (th : Thread) (pc : Nat) : Dev × Fetched :=
  if pc % 4 ≠ 0 then (d, .trap 3 pc)
  else
    match th with
    | .packet c _ =>
      let b := coreBlock c.val
      if d.codeAt b pc then (d, .word (d.memVal (codeBase b + pc) 4)) else (d, .trap 5 pc)
    | .keystone => if keystoneCode pc then (d, .word (d.memVal pc 4)) else (d, .trap 5 pc)
    | .service _ _ =>
      match d.translate th .fetch pc with
      | (d, .at_ pa) => d.fetchService th pc pa
      | (_, .denied _) => (d, .trap 8 pc)
      | (_, .page) => (d, .trap 8 pc)
      | (_, .access) => (d, .trap 5 pc)
      | (_, .poison) => (d, .trap 0xB pc)
      | (_, .wait) => (d, .wait)

/-! ### Issue (R335, R353, R354) -/

/-- A thread of a service core or the Keystone's neither waits nor is stopped, and no interrupt goes first. -/
def Dev.thrIdle (d : Dev) (k : Nat) : Bool :=
  let x := d.thr k
  !x.wfe && x.blocked.isNone && !x.stopped && !d.irqReady k

/-- The core of a thread runs it: a running core's context in RUN, the active thread of a running service core, the Keystone unless the Lookout holds it. -/
def Dev.threadRuns (d : Dev) (th : Thread) : Bool :=
  match th with
  | .packet c t => d.coreState c.val == 1 && (d.ctx c.val t.val).st == 1
  | .service c t => d.scRuns c.val && d.scActive.at 0 c.val == t.val
  | .keystone => !d.safety.keystoneHeld

/-- A wait of a thread may end: its core runs it, or it is the thread that a running service core has switched out (R354). -/
def Dev.mayWake (d : Dev) (th : Thread) : Bool := match th with
  | .service c _ => d.scRuns c.val
  | _ => d.threadRuns th

/-- What follows the end of a thread's wait (R354). -/
def Dev.woken (d : Dev) (th : Thread) : Dev := match th with
  | .service c t => d.resumeThr c.val t.val
  | _ => d

/-- A thread may issue its next instruction. -/
def Dev.mayIssue (d : Dev) (th : Thread) : Bool :=
  d.threadRuns th &&
  match th with
  | .packet c t => (d.ctx c.val t.val).blocked.isNone
  | _ => d.thrIdle (thrOf th)

/-- Something done in a thread's next issue slot, whose CLK_PKT cycle it is told; other threads issue at once. -/
def Dev.inSlot (d : Dev) (th : Thread) (f : Nat → Dev → Dev) : Dev :=
  match th with
  | .packet c t => let x := d.nextSlot c.val t.val; f x (d.takeSlot c.val t.val x)
  | _ => f 0 d

end Sys2Proof.Machine
end

