-- ==== Sys2Proof/Machine/DataAccess.lean ====
section
/-! DEFINITION. Loads, stores and atomics of threads: where an address leads, the faults in their order, what waits, and what is read and written (R312, R314, R323, R328, R336, R340, R341, R407, R412). -/

namespace Sys2Proof.Machine

open Sys2Proof

/-! ### Where an address leads -/

/-- Where an access goes: local memory at its place beside memory, memory, CSR space, doorbells, a host window, or nowhere that the thread may reach. -/
inductive Target where
  | local_ (key : Nat)
  | mem
  | csr
  | bells
  | host
  | nowhere
  deriving DecidableEq, Repr

/-- An access of a packet core falls in its local memory range. -/
def inLocal (th : Thread) (a : Nat) : Bool :=
  match th with
  | .packet _ _ => decide (0x20000000 ≤ a ∧ a < 0x20040000)
  | _ => false

/-- A context's own slice, and the area that contexts share (R340). -/
def sliceOpen (t a n : Nat) : Bool :=
  decide ((0x20000000 + 0x3000 * t ≤ a ∧ a + n ≤ 0x20000000 + 0x3000 * (t + 1)) ∨ (0x20030000 ≤ a ∧ a + n ≤ 0x20040000))

/-- A data window of a block grants an access (R341). -/
def Dev.windowOpen (d : Dev) (c a n : Nat) (wr : Bool) : Bool :=
  let r := coreRegion c
  (List.range 8).any fun k =>
    let i := 8 * (coreBlock c % 4) + k
    let b := d.fld F.PCB_WIN_BASE_HI r i * 2 ^ 32 + d.fld F.PCB_WIN_BASE_LO r i * 4096
    d.flag F.PCB_WIN_VALID r i && (if wr then d.flag F.PCB_WIN_WR r i else d.flag F.PCB_WIN_RD r i) &&
      decide (b ≤ a ∧ a + n ≤ b + 2 ^ d.fld F.PCB_WIN_LOG2 r i)

/-- Where an address outside local memory leads an agent: memory is open to it as to any, and the Keystone's SRAM to the Keystone. -/
def Dev.plainTarget (d : Dev) (keystone : Bool) (a : Nat) (wr : Bool) : Target :=
  if inCsr a then .csr
  else if inDoorbells a then .bells
  else if inHostWindow a then (if d.hostTo a wr = .fails then .nowhere else .host)
  else if d.openAt a wr || (keystone && decide (0x10000000 ≤ a ∧ a < 0x10800000)) then .mem
  else .nowhere

/-- Where an aligned access of a thread goes. -/
def Dev.target (d : Dev) (th : Thread) (a n : Nat) (wr : Bool) : Target :=
  match th with
  | .packet c t =>
    if inLocal th a then (if sliceOpen t.val a n then .local_ (localBase c.val + (a - 0x20000000)) else .nowhere)
    else if d.windowOpen c.val a n wr then d.plainTarget false a wr
    else .nowhere
  | .service _ _ => d.plainTarget false a wr
  | .keystone => d.plainTarget true a wr

/-- Targets that no atomic may name: CSR space with the doorbells, flash, and internal host windows (R314). -/
def atomicBarred (th : Thread) (a : Nat) : Bool :=
  !inLocal th a && (inCsr a || inDoorbells a || inHostWindow a || decide (a < 0x1000000))

/-! ### Steps of an access -/

/-- How an access goes on: done with a value, a trap, or a wait. -/
inductive MemStep where
  | done (d : Dev) (v : Nat)
  | trap (d : Dev) (cause tinfo : Nat)
  | wait (d : Dev)

def isPacket : Thread → Bool
  | .packet _ _ => true
  | _ => false

/-- An access in memory counts toward its page (R368). -/
def Dev.countPage (d : Dev) (th : Thread) (a n : Nat) : Dev :=
  d.touchPages ((regionOf th).getD 4) a n

/-- Outstanding stores of a packet-core thread reach their places. -/
def Dev.landAll (d : Dev) (th : Thread) : Dev :=
  match th with
  | .packet c t => d.landStores c.val t.val fun _ => true
  | _ => d

/-- The read of a host window that a load makes: sent once, when its page has its host address and the link has room (R183, R185). -/
def Dev.askLoad (d : Dev) (th : Thread) (a n : Nat) : Dev :=
  if ¬ d.hostReady a n false then d.askPages a n false
  else if d.waitsRead (.thread th) then d
  else d.askWindow a n (.thread th)

/-- Memory read for a load or atomic: a tag that fails or a marked flit ends in POISON. -/
def Dev.memLoad (d : Dev) (th : Thread) (va key n : Nat) : MemStep :=
  if d.tagBad key n then .trap (d.tagFail th key) 0xB va
  else if d.marked key n then .trap d 0xB va
  else .done (d.countPage th key n) (d.memVal key n)

/-- A load takes effect. -/
def Dev.loadNow (d : Dev) (th : Thread) (va pa n : Nat) : Target → MemStep
  | .local_ key => if d.marked key n then .trap d 0xB va else .done d (d.memVal key n)
  | .mem => d.memLoad th va pa n
  | .csr => let (d, bs) := d.csrRead (writerOf th) pa n; .done d (leVal bs)
  | .bells => .done d 0
  | .host => .trap d 6 va
  | .nowhere => .trap d 6 va

/-- Whether an access holds its thread when it is issued: a packet core's outside local memory, a read of a host window, DRAM that is not trained. -/
def Dev.mustWait (d : Dev) (th : Thread) (a : Nat) : Target → Bool
  | .local_ _ => false
  | .host => true
  | .mem => isPacket th || d.held a
  | _ => isPacket th

/-- Where an access may go once translated, or the fault of its kind. -/
def xfault (page access va : Nat) (d : Dev) : Xres → Option MemStep
  | .at_ _ => none
  | .denied _ => some (.trap d page va)
  | .page => some (.trap d page va)
  | .access => some (.trap d access va)
  | .poison => some (.trap d 0xB va)
  | .wait => some (.wait d)

/-- The internal address of a translation. -/
def Xres.addr : Xres → Nat
  | .at_ a => a
  | .denied a => a
  | _ => 0

/-- A load of `n` bytes; `ends` says how an access that its thread waits for comes back, none when it is issued. -/
def Dev.load (d : Dev) (th : Thread) (va n : Nat) (ends : Option AccessEnd) : MemStep :=
  if va % n ≠ 0 then .trap d 4 va
  else
    let (d1, x) := d.translate th .load va
    match xfault 9 6 va d x with
    | some r => r
    | none =>
      let pa := x.addr
      let tg := d1.target th pa n false
      if tg = .nowhere then .trap (d.forgetDenied pa) 6 va
      else
        match ends with
        | none =>
          if ¬ d1.mustWait th pa tg then d1.loadNow th va pa n tg
          else if tg = .host then .wait ((d1.landAll th).askLoad th pa n)
          else .wait d1
        | some .failed => if tg = .host then .trap (d1.dropReads (.thread th)) 6 va else .wait d1
        | some .uncorrectable => .trap d1 0x11 va
        | some (.ok host ends) =>
          if tg = .host then
            if ¬ d1.waitsRead (.thread th) then .wait (d1.askLoad th pa n)
            else
              let d2 := d1.endReads (.thread th) ends
              if ends = .good then .done d2 (leVal (sliceB host 0 n)) else .trap d2 0xB va
          else if d1.held pa then .wait d1
          else (d1.landAll th).loadNow th va pa n tg

/-- A service core's write is made through its cache: the directories keep their lines (R356). -/
def Dev.cached (d : Dev) (th : Thread) (e : Dev) : Dev := match th with
  | .service _ _ => { e with lines := d.lines }
  | _ => e

/-- A store takes effect. -/
def Dev.storeNow (d : Dev) (th : Thread) (pa n v : Nat) : Target → Dev
  | .local_ key => d.storeFree key (leBytes n v)
  | .mem => d.cached th ((d.countPage th pa n).store pa (leBytes n v))
  | .csr => d.csrWrite (writerOf th) pa (leBytes n v)
  | .bells => d.doorbellWrite pa (leBytes n v)
  | .host => d.intWrite pa (leBytes n v) []
  | .nowhere => d

/-- The oldest store of a packet-core thread that can land does. -/
def Dev.landOldest (d : Dev) (c t : Nat) : Dev :=
  match (d.ctx c t).stores.find? fun s => !d.storeHeld s with
  | none => d.each (d.ctx c t).stores fun (s : Nat × Nat × Nat) d => d.askPages s.1 s.2.1 true
  | some s => (d.updCtx c t fun k => { k with stores := k.stores.erase s }).landStore c s

/-- A store of `n` bytes. A packet core's outside local memory is outstanding until it lands, at most 8 at a time (R336); DRAM that is not trained holds the store of another core. -/
def Dev.storeOut (d : Dev) (th : Thread) (va n v : Nat) (ends : Option AccessEnd) : MemStep :=
  if va % n ≠ 0 then .trap d 4 va
  else
    let (d1, x) := d.translate th .store va
    match xfault 0xA 7 va d x with
    | some r => r
    | none =>
      let pa := x.addr
      match d1.target th pa n true, th with
      | .nowhere, _ => .trap (d.forgetDenied pa) 7 va
      | .local_ key, _ => .done (d1.storeFree key (leBytes n v)) 0
      | tg, .packet c t =>
        if ends = some .uncorrectable then .trap d1 0x11 va
        else
          let d1 := if ends.isSome then d1.landOldest c.val t.val else d1
          if 8 ≤ (d1.ctx c.val t.val).stores.length then .wait d1
          else if tg = .nowhere then .trap d 7 va
          else .done ((d1.askPages pa n true).updCtx c.val t.val fun k => { k with stores := k.stores ++ [(pa, n, v)] }) 0
      | tg, _ => if d1.storeHeld (pa, n, v) then .wait (d1.askPages pa n true) else .done (d1.storeNow th pa n v tg) 0

/-- Memory changed by an atomic, which answers the old value (R314). -/
def Dev.atomicMem (d : Dev) (th : Thread) (op : AtomicOp) (va key n cmp operand : Nat) (loc : Bool) : MemStep :=
  match (if loc then d.loadNow th va key n (.local_ key) else d.memLoad th va key n) with
  | .done d old =>
    match op.eval n old cmp operand with
    | some v => .done (if loc then d.storeFree key (leBytes n v) else d.cached th (d.store key (leBytes n v))) old
    | none => .done d old
  | r => r

/-- An atomic of `n` bytes (R314): the target is judged before the translation's permission; a data window allows one by WR (R323, R341). -/
def Dev.atomic (d : Dev) (th : Thread) (op : AtomicOp) (va n cmp operand : Nat) (ends : Option AccessEnd) : MemStep :=
  if va % n ≠ 0 then .trap d 4 va
  else
    let (d1, x) := d.translate th .store va
    let known : Bool := match x with
      | .at_ _ => true
      | .denied _ => true
      | _ => false
    if known ∧ atomicBarred th x.addr then .trap d 0xD va
    else
      match xfault 0xA 7 va d x with
      | some r => r
      | none =>
        let pa := x.addr
        match d1.target th pa n true with
        | .local_ key => d1.atomicMem th op va key n cmp operand true
        | .mem =>
          match ends with
          | none => if isPacket th || d1.held pa then .wait d1 else d1.atomicMem th op va pa n cmp operand false
          | some .uncorrectable => .trap d1 0x11 va
          | some _ => if d1.held pa then .wait d1 else (d1.landAll th).atomicMem th op va pa n cmp operand false
        | _ => .trap d 7 va

/-! ### The memory instructions -/

/-- Address of a load or store: rs1 + sext(imm) (R312). -/
def effAddr (g : List DWord) (rs1 : Fin 32) (imm : BitVec 16) : Nat := (gget g rs1 + imm.signExtend 64).toNat

/-- The access of a memory instruction, with the register that takes its value and how the value is extended. -/
def Dev.access (d : Dev) (th : Thread) (g : List DWord) (i : SOp) (ends : Option AccessEnd) : Option (MemStep × Fin 32 × Nat × Bool) :=
  match i with
  | .load op rd rs1 imm => some (d.load th (effAddr g rs1 imm) op.shape.1 ends, rd, op.shape.1, op.shape.2)
  | .store op rs rs1 imm => some (d.storeOut th (effAddr g rs1 imm) op.size ((gget g rs).toNat % 2 ^ (8 * op.size)) ends, 0, 8, false)
  | .atomic op word _ _ rd rs1 rs2 =>
    let n := if word then 4 else 8
    some (d.atomic th op (gget g rs1).toNat n (gget g rd).toNat (gget g rs2).toNat ends, rd, n, false)
  | _ => none

/-- A memory instruction issued or come back: it completes, traps, or holds its thread. -/
def Dev.memInstr (d : Dev) (th : Thread) (w pc : Nat) (i : SOp) (ends : Option AccessEnd) : Dev :=
  match d.access th (d.tregs th) i ends with
  | none => d
  | some (.done d v, rd, n, signed) => d.leave th rd (extend n signed v) (pc + 4)
  | some (.trap d cause tinfo, _) => d.trap th cause pc (BitVec.ofNat 64 tinfo)
  | some (.wait d, _) => d.block th w

/-- The memory instruction that a thread waits in, with its word. -/
def Dev.waitsMem (d : Dev) (th : Thread) : Option (Nat × SOp) :=
  match (d.tblocked th).bind fun w => (SOp.decode w).map fun i => (w, i) with
  | some (w, i) => match i with
    | .load .. => some (w, i)
    | .store .. => some (w, i)
    | .atomic .. => some (w, i)
    | _ => none
  | none => none

/-- MEMORY_ACCESS_COMPLETE (R336): the access that a thread waits for comes back, in its first slot after; for a packet-core thread that waits for none, its oldest outstanding store lands. -/
def execMemoryAccessComplete (thread : Thread) (result : AccessEnd) (s : State) : Out := s.on fun d =>
  match d.waitsMem thread with
  | some (w, i) =>
    if d.mayWake thread then (d.inSlot thread fun _ d => d.memInstr thread w (d.tpc thread) i (some result)).woken thread else d
  | none =>
    match thread with
    | .packet c t => d.landOldest c.val t.val
    | _ => d

end Sys2Proof.Machine
end

