-- ==== Sys2Proof/Machine/Execute.lean ====
section
/-! DEFINITION. What each Stavte instruction does once its thread has issued it: profiles and privilege, branches, threads, channels, packets, tables, CSRs and traps (R300 to R329, R335 to R351, R359). -/

namespace Sys2Proof.Machine

open Sys2Proof

/-! ### Profiles and privilege (R301, R306) -/

/-- An instruction belongs to a profile. -/
def SOp.inProfile (i : SOp) (p : Profile) : Bool :=
  match i with
  | .prim _ _ => false
  | .eret => p != .t
  | .wfe => p != .t
  | .fork .. => p == .t
  | .join .. => p == .t
  | .quit _ => p == .t
  | .chin .. => p == .t
  | .chout .. => p == .t
  | .chtest .. => p == .t
  | .pktld .. => p == .t
  | .pktldm .. => p == .t
  | .pktst .. => p == .t
  | .pktstm .. => p == .t
  | .pktlay .. => p == .t
  | .pktend _ => p == .t
  | .table .. => p == .t
  | _ => true

/-- The lowest privilege that may run an instruction; CSRs are judged by their own. -/
def SOp.priv (i : SOp) (p : Profile) : Nat :=
  match i with
  | .eret => if p = .k then 2 else 1
  | .wfe => 1
  | .csrr .. => 0
  | .csrw .. => 0
  | _ => if p = .k then 1 else 0

/-! ### CSRs (R327, R331, R337, R343, R359) -/

/-- Lowest privilege of a CSR of a profile, and whether it is written; none: no such CSR. -/
def csrInfo (p : Profile) (n : Nat) : Option (Nat × Bool) :=
  if n ≤ 5 then some (0, false)
  else
    match p with
    | .t => if n = 0x100 ∨ n = 0x111 then some (1, false) else if n = 0x101 ∨ n = 0x110 then some (1, true) else none
    | .g => if 0x200 ≤ n ∧ n ≤ 0x20A then some (1, true) else none
    | .k => if (0x280 ≤ n ∧ n ≤ 0x287) ∨ n = 0x28A then some (2, true) else none

/-- CYCLE: cycles of the core's own clock; `x` is the slot of a packet-core thread. -/
def Dev.cycleOf (d : Dev) (th : Thread) (x : Nat) : Nat :=
  match th with
  | .packet _ _ => x
  | .service _ _ => 2 * d.clk.now
  | .keystone => d.clk.now / 3

/-- SELF: core number, kind, thread. -/
def selfOf : Thread → Nat
  | .packet c t => c.val * 65536 + t.val
  | .service c t => c.val * 65536 + 256 + t.val
  | .keystone => 512

/-- CTXSTAT: states of the contexts, and those blocked in RUN. -/
def Dev.ctxStat (d : Dev) (c : Nat) : Nat :=
  (List.range 16).foldl (fun a t => a + (d.ctx c t).st * 4 ^ t + natOf ((d.ctx c t).st == 1 && (d.ctx c t).blocked.isSome) * 2 ^ (32 + t)) 0

/-- A trap CSR of a service-core thread or the Keystone, by its number modulo 0x80. -/
def Dev.thrCsr (d : Dev) (k n : Nat) : Nat :=
  let x := d.thr k
  match n with
  | 0 => x.tstate
  | 1 => x.tcode
  | 2 => x.tpc
  | 3 => x.tinfo
  | 4 => x.tentry
  | 5 => x.irqEn
  | 6 => d.irqs k
  | 7 => x.tsave
  | 8 => x.ptbase
  | 10 => x.tickcmp
  | _ => 0

/-- The value of a CSR; a read of TIME_NS latches the seconds. Write-only CSRs read zero (R4). -/
def Dev.csrGet (d : Dev) (th : Thread) (x n : Nat) : Dev × Nat :=
  match n with
  | 0 => (d, d.cycleOf th x)
  | 1 => (d, match th with
    | .packet c t => (d.ctx c.val t.val).retired
    | _ => (d.thr (thrOf th)).retired)
  | 2 =>
    let s := d.ptpNs / 10 ^ 9 % 2 ^ 48
    let d := match th with
      | .packet c t => d.updCtx c.val t.val fun k => { k with secs := s }
      | _ => d.updThr (thrOf th) fun k => { k with secs := s }
    (d, d.ptpNs % 10 ^ 9)
  | 3 => (d, match th with
    | .packet c t => (d.ctx c.val t.val).secs
    | _ => (d.thr (thrOf th)).secs)
  | 4 => (d, d.fld F.SPAN_SEQ_SEQ)
  | 5 => (d, selfOf th)
  | _ =>
    match th with
    | .packet c _ => (d, if n = 0x100 then d.ctxStat c.val else if n = 0x111 then (d.pktCore c.val).bindResult else 0)
    | _ => (d, d.thrCsr (thrOf th) (n % 0x80))

/-- XLINV (R331): the translations that a value names are removed. -/
def Dev.dropXlats (d : Dev) (core v : Nat) : Dev :=
  let asid := bitsOf v 63 48
  let va := bitsOf v 47 12 * 4096
  let named (y : Xlat) : Bool :=
    let page := decide (y.va % 2 ^ 48 ≤ va ∧ va < y.va % 2 ^ 48 + 2 ^ y.size)
    bitOf v 0 || (if bitOf v 1 then y.asid == asid else page && (y.asid == asid || bitOf y.pte 8))
  { d with xlats := d.xlats.set [] core ((d.xlats.at [] core).filter fun y => !named y) }

/-- A trap CSR written, by its number modulo 0x80. A SAVED_PRIV that names no level of the element discards the write. -/
def Dev.thrCsrPut (d : Dev) (th : Thread) (n v : Nat) : Dev :=
  let k := thrOf th
  match n with
  | 0 =>
    if bitsOf v 5 4 = 3 ∨ (bitsOf v 5 4 = 2 ∧ k ≠ keystoneThr) then d
    else d.updThr k fun x => { x with tstate := bitsOf v 7 3 * 8 + x.tstate % 4 }
  | 1 => d.updThr k fun x => { x with tcode := v % 512 }
  | 2 => d.updThr k fun x => { x with tpc := v }
  | 3 => d.updThr k fun x => { x with tinfo := v }
  | 4 => d.updThr k fun x => { x with tentry := v - v % 1024 }
  | 5 => d.updThr k fun x => { x with irqEn := v % 16 }
  | 6 => d.updThr k fun x => { x with irqPend := if bitOf v 0 then withBit (if bitOf v 2 then withBit x.irqPend 2 false else x.irqPend) 0 false
                                                 else if bitOf v 2 then withBit x.irqPend 2 false else x.irqPend }
  | 7 => d.updThr k fun x => { x with tsave := v }
  | 8 => d.updThr k fun x => { x with ptbase := bitsOf v 63 12 * 4096 + v % 2 }
  | 9 => match th with
    | .service c _ => d.dropXlats c.val v
    | _ => d
  | 10 => d.updThr k fun x => { x with tickcmp := v }
  | _ => d

/-- CTXCMD (R337): 1 RESTART of a halted context, 2 KILL of a context in RUN or HALTED; anything else does nothing. -/
def Dev.ctxCmd (d : Dev) (c v : Nat) : Dev :=
  let t := v % 16
  let st := (d.ctx c t).st
  if t = 0 then d
  else
    match bitsOf v 63 62 with
    | 1 => if st = 3 then d.updCtx c t fun k => { k with st := 1, pc := bitsOf v 47 32, blocked := none } else d
    | 2 => if st = 1 ∨ st = 3 then d.endCtx c t (BitVec.allOnes 64) else d
    | _ => d

/-- CHBIND (R343, R359), its result left for CHBSTAT. -/
def Dev.chBind (d : Dev) (c v : Nat) : Dev :=
  let ch := bitsOf v 12 8
  let key := 32 * (v % 16) + ch
  let f := bitsOf v 23 16
  let b := coreBlock c
  let wr := bitOf v 62
  let done (d : Dev) (r : Nat) : Dev := d.updCore c fun k => { k with bindResult := r }
  let old := d.bound c (v % 16) ch
  if ch < 4 then done d 2
  else if bitOf v 63 then
    if old.isSome then done d 3
    else if ¬ wr ∧ (d.readerOf b f).isSome then done d 1
    else done (d.updCore c fun k => { k with binds := k.binds ++ [(key, f, wr)] }) 0
  else
    match old with
    | none => done d 3
    | some (f', wr') =>
      let d := d.updCore c fun k => { k with binds := k.binds.filter fun x => x.1 != key }
      done (if wr' then d else d.setFifo b f' []) 0

/-- A CSR written. -/
def Dev.csrPut (d : Dev) (th : Thread) (n v : Nat) : Dev :=
  match th with
  | .packet c _ => if n = 0x101 then d.ctxCmd c.val v else if n = 0x110 then d.chBind c.val v else d
  | _ => d.thrCsrPut th (n % 0x80) v

/-! ### Channels (R303, R317, R318, R344, R345) -/

/-- A word appended in a cycle, in the order of the cycles. -/
def appendWord (w : DWord × Nat) : List (DWord × Nat) → List (DWord × Nat)
  | [] => [w]
  | y :: t => if w.2 < y.2 then w :: y :: t else y :: appendWord w t

/-- How a channel instruction goes on: done with a value, a trap, or a wait. -/
inductive ChanStep where
  | done (d : Dev) (v : DWord)
  | trap (cause tinfo : Nat)
  | wait

/-- The word that CHIN takes with a packet: FLOW_HASH, pool, window length − 1, frame length (R318). -/
def packetWord (k : Pkt) (pool : Nat) : DWord :=
  BitVec.ofNat 64 (k.flowHash % 2 ^ 32 * 2 ^ 32 + pool % 256 * 2 ^ 24 + (min 256 k.bytes.length - 1) * 65536 + k.bytes.length % 65536)

/-- CHIN in CLK_PKT cycle x. -/
def Dev.chin (d : Dev) (c t x ch : Nat) : ChanStep :=
  let k := d.ctx c t
  match ch with
  | 0 =>
    if k.current.isSome then .trap 0xF 0
    else
      match k.inbox with
      | some (id, p, y) =>
        if y < x then .done (d.updCtx c t fun k => { k with inbox := none, current := some id }) (packetWord (d.pkt id) p) else .wait
      | none => .wait
  | 1 => .trap 0xE 1
  | 2 =>
    match (d.pktCore c).c2 with
    | [] => .wait
    | w :: r => .done (d.updCore c fun k => let q := pumpFaults r k.faults; { k with c2 := q.1, faults := q.2 }) w
  | 3 =>
    match k.results with
    | [] => .wait
    | w :: r => .done (d.updCtx c t fun k => { k with results := r }) w
  | _ =>
    match d.bound c t ch with
    | some (f, false) =>
      match d.fifo (coreBlock c) f with
      | [] => .wait
      | w :: r => if w.2 < x then .done (d.setFifo (coreBlock c) f r) w.1 else .wait
    | _ => .trap 0xE ch

/-- CHOUT in CLK_PKT cycle x: earlier stores are visible first; the word is appended in x for a reader on the same core, 8 cycles later for one on another. -/
def Dev.chout (d : Dev) (c t x ch : Nat) (v : DWord) : ChanStep :=
  if ch < 4 then .trap 0xE ch
  else
    match d.bound c t ch with
    | some (f, true) =>
      let b := coreBlock c
      let d := d.landStores c t fun _ => true
      if ¬ (d.ctx c t).stores.isEmpty then .wait
      else if d.fifoDead b f then .done (d.bump .PCB_CNT (coreRegion c) 4) 0
      else if 4 ≤ (d.fifo b f).length then .wait
      else
        let far : Bool := match d.readerOf b f with
          | some r => r != c
          | none => false
        .done (d.setFifo b f (appendWord (v, if far then x + 8 else x) (d.fifo b f))) 0
    | _ => .trap 0xE ch

/-- CHTEST in CLK_PKT cycle x: words that can be read, or free room. -/
def Dev.chtest (d : Dev) (c t x ch : Nat) (room : Bool) : ChanStep :=
  let k := d.ctx c t
  let say (n : Nat) : ChanStep := .done d (BitVec.ofNat 64 n)
  match ch with
  | 0 =>
    let waits : Bool := match k.inbox with
      | some (_, _, y) => decide (y < x)
      | none => false
    say (if room then 0 else natOf waits)
  | 1 => .trap 0xE 1
  | 2 => say (if room then 4 - (d.pktCore c).c2.length else (d.pktCore c).c2.length)
  | 3 => say (if room then 0 else k.results.length)
  | _ =>
    match d.bound c t ch with
    | some (f, _) =>
      let l := d.fifo (coreBlock c) f
      say (if room then 4 - l.length else readable l x)
    | none => .trap 0xE ch

/-! ### Tables (R321, R322) -/

/-- c3 has room for one more result: each operation takes two of its four words. -/
def Ctx.tableRoom (k : Ctx) : Bool := decide (2 * k.ops.length + k.results.length + 2 ≤ 4)

/-- What a table operation answers: status, ACTION, ADATA. A lookup in an LPM table goes to the trie; one that names a reserved byte is answered ACCESS. -/
def Dev.tableAsk (d : Dev) (r t : Nat) (op : TblOp) (blk : List Byte) (rank : Nat) : Dev × Nat × Nat × Nat :=
  let h := d.homeOf r t
  let key := sliceB blk 0 (4 * d.keyWords h t)
  if (blk.drop 73).any (· != 0) then (d, 6, 0, 0)
  else
    match op with
    | .lookup =>
      d.tableOp r t 0 key 0 0 rank
    | .insert => if d.tblKind h t ≠ 0 then (d, 6, 0, 0) else d.tableOp r t 1 key (leVal (sliceB blk 72 1)) (leVal (sliceB blk 64 8)) rank
    | .delete => if d.tblKind h t ≠ 0 then (d, 6, 0, 0) else d.tableOp r t 2 key 0 0 rank

/-- The two words of a result. -/
def resultWords (op : TblOp) (t st act ad : Nat) : DWord × DWord :=
  let found := op = .lookup ∧ st = 0
  let act := if op = .delete ∨ (op = .lookup ∧ ¬ found) then 0 else act
  (BitVec.ofNat 64 (st % 8 + act % 256 * 256 + t * 65536), if found then BitVec.ofNat 64 ad else 0)

/-- A table operation of a packet-core thread: its request block is read whole from local memory. -/
def Dev.tableInstr (d : Dev) (c : Fin 272) (tt : Fin 16) (w pc a : Nat) (op : TblOp) (t : Nat) : Dev :=
  let th := Thread.packet c tt
  let trap (cause : Nat) : Dev := d.trap th cause pc (BitVec.ofNat 64 a)
  if a % 8 ≠ 0 then trap 4
  else if ¬ inLocal th a ∨ ¬ sliceOpen tt.val a 80 then trap 6
  else
    let key := localBase c.val + (a - 0x20000000)
    if d.marked key 80 then trap 0xB
    else if ¬ (d.ctx c.val tt.val).tableRoom then d.block th w
    else
      let (d, st, act, ad) := d.tableAsk (c.val / 68) t op (d.memBytes key 80) (d.rank (.packetCore c))
      (d.updCtx c.val tt.val fun k => { k with ops := k.ops ++ [resultWords op t st act ad] }).leave th 0 0 (pc + 4)

/-! ### Packet operations (R318 to R320) -/

/-- Bytes of the window replaced. -/
def storeWindow (bs : List Byte) (o n v : Nat) : List Byte := overB bs o (beBytes n v)

/-- PKTFWD, PKTDROP, PKTRECIRC of a context's current packet (R319, R320). -/
def Dev.endPacket (d : Dev) (c t id : Nat) (op : PktEnd) : Dev :=
  let r := coreRegion c
  match op with
  | .drop => d.dropCurrent c t 1
  | .recirc => (d.updCtx c t fun k => { k with current := none }).nextPass id r 0 .CLS_CNT
  | .fwd =>
    let d := d.updCtx c t fun k => { k with current := none }
    if (d.pkt id).pass = 3 then (d.bump .CLS_CNT r 0).freePkt id
    else (d.updPkt id fun k => { k with pass := k.pass + 1, resumed := false, fromCore := true }).joinInput id r 3

/-- A packet instruction; all of them need a current packet. -/
def Dev.pktInstr (d : Dev) (c : Fin 272) (t : Fin 16) (pc : Nat) (g : List DWord) (i : SOp) : Dev :=
  let th := Thread.packet c t
  match (d.ctx c.val t.val).current with
  | none => d.trap th 0xF pc 0
  | some id =>
    match i.readPkt g (d.pkt id) with
    | some (rd, v) => d.leave th rd v (pc + 4)
    | none =>
      match i with
      | .pktst sz rs rs1 off =>
        let o := ((gget g rs1).toNat + off.val) % 2 ^ 64
        let n := 2 ^ sz.val
        if min 256 (d.pkt id).bytes.length < o + n then d.trap th 0xF pc (BitVec.ofNat 64 o)
        else (d.updPkt id fun k => { k with bytes := storeWindow k.bytes o n ((gget g rs).toNat % 2 ^ (8 * n)) }).leave th 0 0 (pc + 4)
      | .pktstm sz rs b =>
        let n := 2 ^ sz.val
        if b.val < 16 ∨ 64 < b.val + n then d.trap th 0xF pc (BitVec.ofNat 64 b.val)
        else (d.updPkt id fun k => k.writeMd b.val n (gget g rs).toNat).leave th 0 0 (pc + 4)
      | .pktend op => (d.endPacket c.val t.val id op).leave th 0 0 (pc + 4)
      | _ => d

/-! ### Threads of a packet core (R316, R337 to R339) -/

/-- FORK in cycle x: the lowest FREE context, or all ones. -/
def Dev.fork (d : Dev) (c t x : Nat) (entry : Nat) (arg : DWord) : Dev × DWord :=
  match (List.range 16).find? fun u => u != 0 && (d.ctx c u).st == 0 with
  | none => (d.bump .PCB_CNT (coreRegion c) 3, BitVec.allOnes 64)
  | some u =>
    let regs := gset (List.replicate 32 0) 1 arg
    (d.updCtx c u fun k => { st := 1, parent := some t, regs := regs, pc := entry, stores := k.stores, next := x + 16 }, BitVec.ofNat 64 u)

/-- JOIN: the value of a DONE child, which is freed; all ones for no child; none: the thread waits. -/
def Dev.join (d : Dev) (c t u : Nat) : Option (Dev × DWord) :=
  let k := d.ctx c u
  if k.parent ≠ some t ∨ k.st = 0 then some (d, BitVec.allOnes 64)
  else if k.st = 2 then some (d.updCtx c u fun k => { k with st := 0, parent := none }, k.value)
  else none

/-- A FENCE selects an outstanding store (R329): an operand of 0 selects all, bit 2 those of ordinary memory, bit 4 those of CSR space and host windows. -/
def fenceSel (bits : Nat) (s : Nat × Nat × Nat) : Bool :=
  let device := inCsr s.1 || inDoorbells s.1 || inHostWindow s.1
  bits == 0 || (if device then bitOf bits 4 else bitOf bits 2)

/-- An instruction that only packet cores have, issued in CLK_PKT cycle x, or tried again (`retry`): a FENCE holds its thread until its stores have landed. -/
def Dev.packetInstr (d : Dev) (c : Fin 272) (t : Fin 16) (x w pc : Nat) (retry : Bool) (i : SOp) : Dev :=
  let th := Thread.packet c t
  let g := d.tregs th
  let chan (rd : Fin 32) (r : ChanStep) : Dev := match r with
    | .done d v => d.leave th rd v (pc + 4)
    | .trap cause ti => d.trap th cause pc (BitVec.ofNat 64 ti)
    | .wait => d.block th w
  match i with
  | .fence bits =>
    let d := if retry then d.landStores c.val t.val (fenceSel bits.val) else d
    if (d.ctx c.val t.val).stores.any (fenceSel bits.val) then d.block th w else d.leave th 0 0 (pc + 4)
  | .fork rd rs1 rs2 =>
    let (d, v) := d.fork c.val t.val x (gget g rs1).toNat (gget g rs2)
    d.leave th rd v (pc + 4)
  | .join rd rs1 =>
    match d.join c.val t.val ((gget g rs1).toNat % 16) with
    | some (d, v) => d.leave th rd v (pc + 4)
    | none => d.block th w
  | .quit rs1 => if t.val = 0 then d.trap th 1 pc (BitVec.ofNat 64 w) else d.endCtx c.val t.val (gget g rs1)
  | .chin rd ch => if ch.val = 2 ∧ t.val ≠ 0 then d.trap th 2 pc (BitVec.ofNat 64 w) else chan rd (d.chin c.val t.val x ch.val)
  | .chout rs ch => chan 0 (d.chout c.val t.val x ch.val (gget g rs))
  | .chtest room rd ch => if ch.val = 2 ∧ t.val ≠ 0 then d.trap th 2 pc (BitVec.ofNat 64 w) else chan rd (d.chtest c.val t.val x ch.val room)
  | .table op rs1 tb => d.tableInstr c t w pc (gget g rs1).toNat op tb.val
  | i => d.pktInstr c t pc g i

/-! ### Flow and system instructions (R313, R324, R326, R327) -/

/-- The address that an offset in words leads to. -/
def jumpTo (pc : Nat) (off : Int) : Nat := (BitVec.ofNat 64 pc + BitVec.ofInt 64 (4 * off)).toNat

/-- ERET: PRIV and IE restored, INTRAP cleared, on at TPC; an unaligned TPC traps. -/
def Dev.eret (d : Dev) (th : Thread) (pc : Nat) : Dev :=
  let k := thrOf th
  let x := d.thr k
  if x.tpc % 4 ≠ 0 then d.trap th 3 pc (BitVec.ofNat 64 x.tpc)
  else
    let s := bitsOf x.tstate 6 4 * 16 + natOf (bitOf x.tstate 6) * 8 + bitsOf x.tstate 5 4
    (d.updThr k fun y => { y with tstate := s }).leave th 0 0 x.tpc

/-- WFE: on at once when an enabled source is pending, else the thread waits. -/
def Dev.wfe (d : Dev) (th : Thread) (pc : Nat) : Dev :=
  if d.irqsOn (thrOf th) ≠ 0 then d.leave th 0 0 (pc + 4) else d.updThr (thrOf th) fun x => { x with wfe := true }

/-- CSRR and CSRW: a number without an entry, or a write of a read-only CSR, is ILLEGAL; too low a privilege is PRIV. -/
def Dev.csrInstr (d : Dev) (th : Thread) (x w pc n : Nat) (wr : Bool) (rd rs1 : Fin 32) : Dev :=
  match csrInfo (profileOf th) n with
  | none => d.trap th 1 pc (BitVec.ofNat 64 w)
  | some (priv, writable) =>
    if wr ∧ ¬ writable then d.trap th 1 pc (BitVec.ofNat 64 w)
    else if d.tpriv th < priv then d.trap th 2 pc (BitVec.ofNat 64 w)
    else if wr then (d.csrPut th n (gget (d.tregs th) rs1).toNat).leave th 0 0 (pc + 4)
    else
      let (d, v) := d.csrGet th x n
      d.leave th rd (BitVec.ofNat 64 v) (pc + 4)

/-- An instruction that any core may have. -/
def Dev.coreInstr (d : Dev) (th : Thread) (x w pc : Nat) (i : SOp) : Dev :=
  let g := d.tregs th
  match i with
  | .branch op rs1 rs2 o => d.leave th 0 0 (if op.holds (gget g rs1) (gget g rs2) then jumpTo pc o.toInt else pc + 4)
  | .jump o => d.leave th 0 0 (jumpTo pc o.toInt)
  | .jal o => d.leave th 31 (BitVec.ofNat 64 (pc + 4)) (jumpTo pc o.toInt)
  | .jalr rd rs1 imm =>
    let a := effAddr g rs1 imm
    if a % 4 ≠ 0 then d.trap th 3 pc (BitVec.ofNat 64 a) else d.leave th rd (BitVec.ofNat 64 (pc + 4)) a
  | .load .. => d.memInstr th w pc i none
  | .store .. => d.memInstr th w pc i none
  | .atomic .. => d.memInstr th w pc i none
  | .csrr rd n => d.csrInstr th x w pc n.val false rd 0
  | .csrw rs1 n => d.csrInstr th x w pc n.val true 0 rs1
  | .trap rs1 => d.trap th 0x10 pc (gget g rs1)
  | .eret => d.eret th pc
  | .wfe => d.wfe th pc
  | i =>
    match th with
    | .packet c t => d.packetInstr c t x w pc false i
    | _ => d.leave th 0 0 (pc + 4)

/-- An instruction of a thread, issued in CLK_PKT cycle x when it is a packet core's: profile, privilege, effect. On service cores and the Keystone, whose accesses are done as they issue, FENCE has nothing to wait for. -/
def Dev.runInstr (d : Dev) (th : Thread) (x w pc : Nat) (i : SOp) : Dev :=
  if ¬ i.inProfile (profileOf th) then d.trap th 1 pc (BitVec.ofNat 64 w)
  else if d.tpriv th < i.priv (profileOf th) then d.trap th 2 pc (BitVec.ofNat 64 w)
  else
    match i.compute (d.tregs th) with
    | some (rd, v) => d.leave th rd v (pc + 4)
    | none => d.coreInstr th x w pc i

/-- A thread issues an instruction. The command names the instruction that stands at the program counter: a fetch that fails, or a word that no instruction has, traps; where another instruction stands nothing happens. DESIGN CHOICE, entry 33. -/
def Dev.issue (d : Dev) (th : Thread) (i : SOp) : Dev :=
  if ¬ d.mayIssue th then d
  else
    let pc := d.tpc th
    match d.fetch th pc with
    | (_, .wait) => d
    | (d', .trap cause ti) => d'.inSlot th fun _ d => d.trap th cause pc (BitVec.ofNat 64 ti)
    | (d', .word w) =>
      if (SOp.decode w).isNone then d'.inSlot th fun _ d => d.trap th 1 pc (BitVec.ofNat 64 w)
      else if w ≠ i.encode then d
      else d'.inSlot th fun x d => d.runInstr th x w pc i

/-- A blocked instruction of a packet-core thread, of a kind, tried again in the thread's next slot. -/
def Dev.retry (d : Dev) (c : Fin 272) (t : Fin 16) (kind : SOp → Bool) : Dev :=
  let th := Thread.packet c t
  match (d.tblocked th).bind fun w => (SOp.decode w).map fun i => (w, i) with
  | some (w, i) => if kind i ∧ d.threadRuns th then d.inSlot th fun x d => d.packetInstr c t x w (d.tpc th) true i else d
  | none => d

end Sys2Proof.Machine
end

