-- ==== Sys2Proof/Machine/Arithmetic.lean ====
section
/-! DEFINITION. The arithmetic instructions of Stavte: ALU and multiply groups, immediates, shifts, bitfields, check values (R307 to R311). -/

namespace Sys2Proof.Machine

open Sys2Proof

/-- ADD (R307): ALU funct 0x000 adds rs1 and rs2. -/
def execAdd (thread : Thread) (rd : Fin 32) (rs1 : Fin 32) (rs2 : Fin 32) (s : State) : Out := s.on fun d => d.issue thread (.alu .add rd rs1 rs2)

/-- SUB (R307): ALU funct 0x001 subtracts rs2 from rs1. -/
def execSub (thread : Thread) (rd : Fin 32) (rs1 : Fin 32) (rs2 : Fin 32) (s : State) : Out := s.on fun d => d.issue thread (.alu .sub rd rs1 rs2)

/-- AND (R307): ALU funct 0x002 bitwise AND. -/
def execAnd (thread : Thread) (rd : Fin 32) (rs1 : Fin 32) (rs2 : Fin 32) (s : State) : Out := s.on fun d => d.issue thread (.alu .and rd rs1 rs2)

/-- OR (R307): ALU funct 0x003 bitwise OR. -/
def execOr (thread : Thread) (rd : Fin 32) (rs1 : Fin 32) (rs2 : Fin 32) (s : State) : Out := s.on fun d => d.issue thread (.alu .or rd rs1 rs2)

/-- XOR (R307): ALU funct 0x004 bitwise XOR. -/
def execXor (thread : Thread) (rd : Fin 32) (rs1 : Fin 32) (rs2 : Fin 32) (s : State) : Out := s.on fun d => d.issue thread (.alu .xor rd rs1 rs2)

/-- ANDN (R307): ALU funct 0x005 rs1 AND NOT rs2. -/
def execAndn (thread : Thread) (rd : Fin 32) (rs1 : Fin 32) (rs2 : Fin 32) (s : State) : Out := s.on fun d => d.issue thread (.alu .andn rd rs1 rs2)

/-- SLL (R307): ALU funct 0x006 shift left logical. -/
def execSll (thread : Thread) (rd : Fin 32) (rs1 : Fin 32) (rs2 : Fin 32) (s : State) : Out := s.on fun d => d.issue thread (.alu .sll rd rs1 rs2)

/-- SRL (R307): ALU funct 0x007 shift right logical. -/
def execSrl (thread : Thread) (rd : Fin 32) (rs1 : Fin 32) (rs2 : Fin 32) (s : State) : Out := s.on fun d => d.issue thread (.alu .srl rd rs1 rs2)

/-- SRA (R307): ALU funct 0x008 shift right arithmetic. -/
def execSra (thread : Thread) (rd : Fin 32) (rs1 : Fin 32) (rs2 : Fin 32) (s : State) : Out := s.on fun d => d.issue thread (.alu .sra rd rs1 rs2)

/-- ROR (R307): ALU funct 0x009 rotate right. -/
def execRor (thread : Thread) (rd : Fin 32) (rs1 : Fin 32) (rs2 : Fin 32) (s : State) : Out := s.on fun d => d.issue thread (.alu .ror rd rs1 rs2)

/-- SLT (R307): ALU funct 0x00A set on signed less than. -/
def execSlt (thread : Thread) (rd : Fin 32) (rs1 : Fin 32) (rs2 : Fin 32) (s : State) : Out := s.on fun d => d.issue thread (.alu .slt rd rs1 rs2)

/-- SLTU (R307): ALU funct 0x00B set on unsigned less than. -/
def execSltu (thread : Thread) (rd : Fin 32) (rs1 : Fin 32) (rs2 : Fin 32) (s : State) : Out := s.on fun d => d.issue thread (.alu .sltu rd rs1 rs2)

/-- MIN (R307): ALU funct 0x00C signed minimum. -/
def execMin (thread : Thread) (rd : Fin 32) (rs1 : Fin 32) (rs2 : Fin 32) (s : State) : Out := s.on fun d => d.issue thread (.alu .min rd rs1 rs2)

/-- MAX (R307): ALU funct 0x00D signed maximum. -/
def execMax (thread : Thread) (rd : Fin 32) (rs1 : Fin 32) (rs2 : Fin 32) (s : State) : Out := s.on fun d => d.issue thread (.alu .max rd rs1 rs2)

/-- MINU (R307): ALU funct 0x00E unsigned minimum. -/
def execMinu (thread : Thread) (rd : Fin 32) (rs1 : Fin 32) (rs2 : Fin 32) (s : State) : Out := s.on fun d => d.issue thread (.alu .minu rd rs1 rs2)

/-- MAXU (R307): ALU funct 0x00F unsigned maximum. -/
def execMaxu (thread : Thread) (rd : Fin 32) (rs1 : Fin 32) (rs2 : Fin 32) (s : State) : Out := s.on fun d => d.issue thread (.alu .maxu rd rs1 rs2)

/-- MUL (R308): writes the low 64 bits of the product. -/
def execMul (thread : Thread) (rd : Fin 32) (rs1 : Fin 32) (rs2 : Fin 32) (s : State) : Out := s.on fun d => d.issue thread (.alu .mul rd rs1 rs2)

/-- MULH (R308): writes the high 64 bits of the signed product. -/
def execMulh (thread : Thread) (rd : Fin 32) (rs1 : Fin 32) (rs2 : Fin 32) (s : State) : Out := s.on fun d => d.issue thread (.alu .mulh rd rs1 rs2)

/-- MULHU (R308): writes the high 64 bits of the unsigned product. -/
def execMulhu (thread : Thread) (rd : Fin 32) (rs1 : Fin 32) (rs2 : Fin 32) (s : State) : Out := s.on fun d => d.issue thread (.alu .mulhu rd rs1 rs2)

/-- DIV (R308): signed division, saturating where the quotient does not fit. -/
def execDiv (thread : Thread) (rd : Fin 32) (rs1 : Fin 32) (rs2 : Fin 32) (s : State) : Out := s.on fun d => d.issue thread (.alu .div rd rs1 rs2)

/-- DIVU (R308): unsigned division, saturating on a zero divisor. -/
def execDivu (thread : Thread) (rd : Fin 32) (rs1 : Fin 32) (rs2 : Fin 32) (s : State) : Out := s.on fun d => d.issue thread (.alu .divu rd rs1 rs2)

/-- REM (R308): signed remainder. -/
def execRem (thread : Thread) (rd : Fin 32) (rs1 : Fin 32) (rs2 : Fin 32) (s : State) : Out := s.on fun d => d.issue thread (.alu .rem rd rs1 rs2)

/-- REMU (R308): unsigned remainder. -/
def execRemu (thread : Thread) (rd : Fin 32) (rs1 : Fin 32) (rs2 : Fin 32) (s : State) : Out := s.on fun d => d.issue thread (.alu .remu rd rs1 rs2)

/-- CLZ (R307): ALU funct 0x010 count leading zeros. -/
def execClz (thread : Thread) (rd : Fin 32) (rs1 : Fin 32) (s : State) : Out := s.on fun d => d.issue thread (.alu .clz rd rs1 0)

/-- CTZ (R307): ALU funct 0x011 count trailing zeros. -/
def execCtz (thread : Thread) (rd : Fin 32) (rs1 : Fin 32) (s : State) : Out := s.on fun d => d.issue thread (.alu .ctz rd rs1 0)

/-- POPC (R307): ALU funct 0x012 population count. -/
def execPopc (thread : Thread) (rd : Fin 32) (rs1 : Fin 32) (s : State) : Out := s.on fun d => d.issue thread (.alu .popc rd rs1 0)

/-- BSWAP (R307): ALU funct 0x013 reverses the 8 bytes. -/
def execBswap (thread : Thread) (rd : Fin 32) (rs1 : Fin 32) (s : State) : Out := s.on fun d => d.issue thread (.alu .bswap rd rs1 0)

/-- ADDI (R309): adds a sign-extended immediate. -/
def execAddi (thread : Thread) (rd : Fin 32) (rs1 : Fin 32) (imm : BitVec 16) (s : State) : Out := s.on fun d => d.issue thread (.imm .addi rd rs1 imm)

/-- ANDI (R309): ANDs a zero-extended immediate. -/
def execAndi (thread : Thread) (rd : Fin 32) (rs1 : Fin 32) (imm : BitVec 16) (s : State) : Out := s.on fun d => d.issue thread (.imm .andi rd rs1 imm)

/-- ORI (R309): ORs a zero-extended immediate. -/
def execOri (thread : Thread) (rd : Fin 32) (rs1 : Fin 32) (imm : BitVec 16) (s : State) : Out := s.on fun d => d.issue thread (.imm .ori rd rs1 imm)

/-- XORI (R309): XORs a zero-extended immediate. -/
def execXori (thread : Thread) (rd : Fin 32) (rs1 : Fin 32) (imm : BitVec 16) (s : State) : Out := s.on fun d => d.issue thread (.imm .xori rd rs1 imm)

/-- SLTI (R309): sets on signed less than a sign-extended immediate. -/
def execSlti (thread : Thread) (rd : Fin 32) (rs1 : Fin 32) (imm : BitVec 16) (s : State) : Out := s.on fun d => d.issue thread (.imm .slti rd rs1 imm)

/-- SLTIU (R309): sets on unsigned less than a sign-extended immediate. -/
def execSltiu (thread : Thread) (rd : Fin 32) (rs1 : Fin 32) (imm : BitVec 16) (s : State) : Out := s.on fun d => d.issue thread (.imm .sltiu rd rs1 imm)

/-- SHORI (R309): writes (rs1 << 16) OR a zero-extended immediate. -/
def execShori (thread : Thread) (rd : Fin 32) (rs1 : Fin 32) (imm : BitVec 16) (s : State) : Out := s.on fun d => d.issue thread (.imm .shori rd rs1 imm)

/-- LUI (R309): writes the sign extension of imm × 2^16. -/
def execLui (thread : Thread) (rd : Fin 32) (imm : BitVec 16) (s : State) : Out := s.on fun d => d.issue thread (.imm .lui rd 0 imm)

/-- SHI_SLL (R306): SHI kind 0 shifts left by an immediate amount. -/
def execShiSll (thread : Thread) (rd : Fin 32) (rs1 : Fin 32) (amount : Fin 64) (s : State) : Out := s.on fun d => d.issue thread (.shi 0 rd rs1 amount)

/-- SHI_SRL (R306): SHI kind 1 shifts right logically by an immediate amount. -/
def execShiSrl (thread : Thread) (rd : Fin 32) (rs1 : Fin 32) (amount : Fin 64) (s : State) : Out := s.on fun d => d.issue thread (.shi 1 rd rs1 amount)

/-- SHI_SRA (R306): SHI kind 2 shifts right arithmetically by an immediate amount. -/
def execShiSra (thread : Thread) (rd : Fin 32) (rs1 : Fin 32) (amount : Fin 64) (s : State) : Out := s.on fun d => d.issue thread (.shi 2 rd rs1 amount)

/-- SHI_ROR (R306): SHI kind 3 rotates right by an immediate amount. -/
def execShiRor (thread : Thread) (rd : Fin 32) (rs1 : Fin 32) (amount : Fin 64) (s : State) : Out := s.on fun d => d.issue thread (.shi 3 rd rs1 amount)

/-- BFX (R310): extracts a bitfield, sign- or zero-extended. -/
def execBfx (thread : Thread) (signed : Bool) (rd : Fin 32) (rs1 : Fin 32) (lsb : Fin 64) (widthM1 : Fin 64) (s : State) : Out := s.on fun d => d.issue thread (.bfx signed rd rs1 lsb widthM1)

/-- BFI (R310): inserts a bitfield into rd. -/
def execBfi (thread : Thread) (rd : Fin 32) (rs1 : Fin 32) (lsb : Fin 64) (widthM1 : Fin 64) (s : State) : Out := s.on fun d => d.issue thread (.bfi rd rs1 lsb widthM1)

/-- CRC (R311): feeds 1 to 8 bytes into a CRC-32C or CRC-32 state. -/
def execCrc (thread : Thread) (ieee : Bool) (size : Fin 4) (rd : Fin 32) (rs1 : Fin 32) (rs2 : Fin 32) (s : State) : Out := s.on fun d => d.issue thread (.crc ieee size rd rs1 rs2)

/-- MIX (R311): mixes rs1 and rs2 by multiply and shift. -/
def execMix (thread : Thread) (rd : Fin 32) (rs1 : Fin 32) (rs2 : Fin 32) (s : State) : Out := s.on fun d => d.issue thread (.mix rd rs1 rs2)

end Sys2Proof.Machine
end

