-- ==== Sys2Proof/Machine/Boundary.lean ====
section
/-! DEFINITION. The span boundary: its four steps in order, and what begins anew with the span (R28 to R38, R73, R156, R242, R326, R429). -/

namespace Sys2Proof.Machine

open Sys2Proof

/-- Time under a hold, or with XOFF asserted, that falls in the ending span is tallied there (R73). -/
def Dev.splitPauses (d : Dev) : Dev :=
  let now := d.clk.now
  d.each (d.pause.map (·.1)) fun k d =>
    let p := k / 8
    let q := k % 8
    let x := d.pauseOf p q
    let d := d.onlyIf x.hold.isSome fun d => d.tally (tlyPort p + 0x28 + 8 * q) (nsOfCycles (min now (x.hold.getD now) - x.holdFrom))
    let d := d.onlyIf x.xoff fun d => d.tally (tlyPort p + 0x68 + 8 * q) (nsOfCycles (now - x.xoffFrom))
    d.updPause p q fun (s : Pause) => { s with holdFrom := if s.hold.isSome then now else s.holdFrom, xoffFrom := if s.xoff then now else s.xoffFrom }

/-- Maximum tallies of quantities that hold on across the boundary start at what they stand at. -/
def Dev.seedMaxima (d : Dev) : Dev :=
  d.each (List.range 4) fun r d =>
    ((d.tallyMax (tlyRgn r + 0xA4) (d.fld F.SCH_BUF_STAT_USED r)).tallyMax (tlyRgn r + 0x90) (d.parked r)).tallyMax (tlyRgn r + 0x98) (d.poolTotal r)

/-- The span-boundary interrupt of every thread of the service cores and of the Keystone (R326). -/
def Dev.spanInterrupt (d : Dev) : Dev :=
  d.each (List.range (keystoneThr + 1)) fun t d => d.updThr t fun (x : Thr) => { x with irqPend := x.irqPend ||| 1 }

/-- SPAN_BOUNDARY (R33): the clock runs to the boundary due; tallies latch; the mirror commit is captured; the Cruiser plans; the Keystone acts on every unit that gave no heartbeat for the ending span, which `silent` names. -/
def execSpanBoundary (silent : List SilentUnit) (s : State) : Out := s.on fun d =>
  let d := d.toBoundary
  let d := d.splitPauses.fixDepths
  let tallies := d.tly
  let d := d.latchSpan
  let seq := d.fld F.SPAN_SEQ_SEQ
  let d := (d.nextSpan.seedMaxima.spanInterrupt).recoverRates
  let d := { d with failRaised := false }.safe fun (f : Safety) => { f with corr := [] }
  let d := (d.pairBoundary seq tallies).cruiserStep
  d.each silent fun u d => d.silence u

end Sys2Proof.Machine
end

