-- ==== Sys2Proof/Machine/ChainJobs.lean ====
section
/-! DEFINITION. The jobs of chain engines: copies, fills and records, in memory, host windows and registers (R204, R216, R221, R222, R284, R482). -/

namespace Sys2Proof.Machine

open Sys2Proof

/-! ### Ranges (R182, R482, R483) -/

/-- A range lies wholly in the CSR blocks, or in the doorbell blocks. -/
def csrRange (a n : Nat) : Bool := (pieces4k a n).all fun p => inCsr p.1 && inCsr (p.1 + p.2 - 1)
def bellRange (a n : Nat) : Bool := (pieces4k a n).all fun p => inDoorbells p.1 && inDoorbells (p.1 + p.2 - 1)

/-- An engine reaches a range: memory or a host window, registers or doorbells. -/
def Dev.engineReaches (d : Dev) (a n : Nat) (wr : Bool) : Bool :=
  if inCsr a then csrRange a n else if inDoorbells a then bellRange a n else d.reaches a n wr

/-- The source of an entry read by an engine: bytes and marks. Registers are read as by the writer that started the engine; doorbells read 0 (R208). -/
def Dev.chainRead (d : Dev) (n : Nat) (x : Job) (host : List Byte) (ends : ReadEnd) : Dev × List Byte × List Bool :=
  if inCsr x.addr then let (d, bs) := d.csrRead (d.chain n).starter x.addr x.len; (d, bs, [])
  else if inDoorbells x.addr then (d, List.replicate x.len 0, [])
  else d.intRead x.addr x.len host ends (.chain n)

/-- The status that a register write returned, if one did. -/
def statusOf : Output → Option Nat
  | .regStatus _ _ st => some st
  | _ => none

/-- Data of an entry written by an engine, and the status that a register refused it with: `ACCESS` (R23) or `PREEMPTED` (R19). Registers are written with the rank and the permissions of the writer that started the engine: DESIGN CHOICE, entry 85. -/
def Dev.chainWrite (d : Dev) (n a : Nat) (bs : List Byte) (ms : List Bool) : Dev × Option Nat :=
  if inCsr a then
    let d' := d.csrWrite (d.chain n).starter a bs
    let new := d'.out.drop d.out.length
    ({ d' with out := d.out ++ new.filter fun o => (statusOf o).isNone }, (new.filterMap statusOf).head?)
  else if inDoorbells a then (d.doorbellWrite a bs, none)
  else (d.intWrite a bs ms, none)

/-- An entry whose job has yet to get its source from a host window, or a host address for its target (R183). -/
def Dev.chainHeld (d : Dev) (n : Nat) (x : Job) (out : Nat) : Bool :=
  (inHostWindow x.addr && x.op != 5 && x.len != 0 && !(d.chain n).asked) || !d.hostReady (if x.op = 5 then x.addr else x.addr2) out true

/-! ### Jobs -/

/-- How an entry's job goes on: it waits, or it ends with a status and a number of bytes. -/
inductive ChainEnd where
  | waits (d : Dev)
  | ends (d : Dev) (status bytes : Nat)

/-- An entry's data written, the job ending with a status unless its target refuses it. -/
def Dev.chainPut (d : Dev) (n a : Nat) (bs : List Byte) (ms : List Bool) (status : Nat) : ChainEnd :=
  match d.chainWrite n a bs ms with
  | (d, some st) => .ends d st 0
  | (d, none) => .ends d status bs.length

/-- An entry whose ranges an engine does not reach ends with ACCESS; what the host denied is asked again by a later one. -/
def Dev.chainDenied (d : Dev) (x : Job) : ChainEnd := .ends ((d.forgetDenied x.addr).forgetDenied x.addr2) 5 0

/-- COPY of a chain entry (R204). -/
def Dev.chainCopy (d : Dev) (n : Nat) (x : Job) (host : List Byte) (ends : ReadEnd) : ChainEnd :=
  if ¬ d.engineReaches x.addr x.len false ∨ ¬ d.engineReaches x.addr2 x.len true then d.chainDenied x
  else if d.chainHeld n x x.len then .waits (d.askPages x.addr2 x.len true)
  else
    let (d, bs, ms) := d.chainRead n x host ends
    d.chainPut n x.addr2 bs ms (if ms.any id then 3 else 0)

/-- FILL of a chain entry (R204). -/
def Dev.chainFill (d : Dev) (n : Nat) (x : Job) : ChainEnd :=
  if ¬ d.engineReaches x.addr x.len true then d.chainDenied x
  else if d.chainHeld n x x.len then .waits (d.askPages x.addr x.len true)
  else d.chainPut n x.addr (fillBytes x.addr2 x.len) [] 0

/-- TLS_SEAL and TLS_OPEN of a chain entry (R284). -/
def Dev.chainTls (d : Dev) (n : Nat) (x : Job) (host : List Byte) (ends : ReadEnd) : ChainEnd :=
  let sealing := x.op == 0x30
  let size := if sealing then x.len + 21 else x.len - 21
  if ¬ tlsLenOk sealing x.len then .ends d 4 0
  else
    match d.tlsSa sealing x.saId none with
    | .inl st => .ends d st 0
    | .inr sa =>
      if ¬ d.engineReaches x.addr x.len false ∨ ¬ d.engineReaches x.addr2 size true then d.chainDenied x
      else if d.chainHeld n x size then .waits (d.askPages x.addr2 size true)
      else
        let (d, bs, ms) := d.chainRead n x host ends
        let mark := ms.any id
        let st := if mark then 3 else 0
        let marks := List.replicate (if mark then size else 0) true
        if sealing then
          match d.takeNext x.saId sa with
          | none => .ends d 5 0
          | some (d, seq) => (d.tally (tlyRgn (saHome x.saId) + 0x58) x.len).chainPut n x.addr2 (tlsSealed sa seq bs) marks st
        else
          match d.tlsOpen x.saId sa bs with
          | (d, none) => .ends ({ d with draws := d.draws + 1 }.chainWrite n x.addr2 (voidBytes d.draws size) []).1 5 0
          | (d, some pt) => d.chainPut n x.addr2 pt marks st

/-- The job of an entry that is not a public-key operation. -/
def Dev.chainRun (d : Dev) (n : Nat) (x : Job) (host : List Byte) (ends : ReadEnd) : ChainEnd :=
  let copy := n % 8 < 4
  if ¬ (if copy then x.op = 4 ∨ x.op = 5 else x.op = 0x30 ∨ x.op = 0x31) then .ends d 5 0
  else if 1048576 < x.len ∨ x.hdrLen ≠ 0 then .ends d 4 0
  else if x.op = 4 then d.chainCopy n x host ends
  else if x.op = 5 then d.chainFill n x
  else d.chainTls n x host ends

/-- CHAIN_ENTRY_DONE (R222): the entry at which an engine stands is finished and its result written, and the engine follows LINK or stops. `host` and `ends` are what its reads of a host window return. An entry that has yet to get its source or its target's host address waits on (R183, R185); a public-key entry is finished by PK_OPERATION_COMPLETE, unless it computes nothing. -/
def execChainEntryDone (region : Fin 4) (engine : Fin 8) (host : List Byte) (ends : ReadEnd) (s : State) : Out := s.on fun d =>
  let n := 8 * region.val + engine.val
  if ¬ d.chainRuns n then d
  else
    let x := d.chainJob n
    let a := (d.chain n).cur
    if 4 ≤ engine.val ∧ x.op = 0x40 then
      if (d.chain n).finished then d.chainNext n
      else
        match d.pkBad x with
        | some st => (d.chainResult a st 0 (some 0)).chainNext n
        | none => d.chainAsk n
    else
      match d.chainRun n x host ends with
      | .waits d => d.chainAsk n
      | .ends d st bytes =>
        let d := d.onlyIf (st == 0 || st == 3) fun d => (d.touchPages region.val x.addr x.len).onlyIf (x.op != 5) fun d => d.touchPages region.val x.addr2 bytes
        (d.chainResult a st bytes none).chainNext n

end Sys2Proof.Machine
end

