-- ==== Sys2Proof/Machine/CsrOps.lean ====
section
/-! DEFINITION. CSR instructions of Stavte, and the CSR writes that have rows of their own (R326, R327, R331, R337, R343, R359). -/

namespace Sys2Proof.Machine

open Sys2Proof

/-- CSRR (R327): reads a 64-bit CSR. -/
def execCsrr (thread : Thread) (rd : Fin 32) (num : Fin 4096) (s : State) : Out := s.on fun d => d.issue thread (.csrr rd num)

/-- CSRW (R327): writes a 64-bit CSR without behaviour of its own. -/
def execCsrw (thread : Thread) (rs1 : Fin 32) (num : Fin 4096) (s : State) : Out := s.on fun d => d.issue thread (.csrw rs1 num)

/-- XLINV (R331): A CSR write removes cached translations by page, ASID or all. -/
def execXlinv (thread : Thread) (rs1 : Fin 32) (s : State) : Out := s.on fun d => d.issue thread (.csrw rs1 0x209)

/-- TICKCMP_WRITE (R326): A write of TICKCMP sets the timer compare value and clears a pending TIMER interrupt. -/
def execTickcmpWrite (thread : Thread) (rs1 : Fin 32) (s : State) : Out := s.on fun d => d.issue thread (if thread = .keystone then .csrw rs1 0x28A else .csrw rs1 0x20A)

/-- CTXCMD_RESTART (R337): CTXCMD op 1 restarts a HALTED context at a given address. -/
def execCtxcmdRestart (thread : Thread) (rs1 : Fin 32) (s : State) : Out := s.on fun d => d.issue thread (.csrw rs1 0x101)

/-- CTXCMD_KILL (R337): CTXCMD op 2 ends a context as by QUIT with all ones. -/
def execCtxcmdKill (thread : Thread) (rs1 : Fin 32) (s : State) : Out := s.on fun d => d.issue thread (.csrw rs1 0x101)

/-- CHBIND_BIND (R343): CHBIND binds a channel of a context to a block FIFO as a read or write end. -/
def execChbindBind (thread : Thread) (rs1 : Fin 32) (s : State) : Out := s.on fun d => d.issue thread (.csrw rs1 0x110)

/-- CHBIND_UNBIND (R343): CHBIND unbinds a channel, discarding the FIFO's words for a read end. -/
def execChbindUnbind (thread : Thread) (rs1 : Fin 32) (s : State) : Out := s.on fun d => d.issue thread (.csrw rs1 0x110)

end Sys2Proof.Machine
end

