-- ==== Sys2Proof/Machine/Flow.lean ====
section
/-! DEFINITION. Control flow of Stavte: branches and jumps, threads of a packet core, traps and interrupts (R313, R316, R324 to R326, R337 to R339). -/

namespace Sys2Proof.Machine

open Sys2Proof

/-- BEQ (R313): branches when rs1 equals rs2. -/
def execBeq (thread : Thread) (rs1 : Fin 32) (rs2 : Fin 32) (offset : BitVec 16) (s : State) : Out := s.on fun d => d.issue thread (.branch .eq rs1 rs2 offset)

/-- BNE (R313): branches when rs1 differs from rs2. -/
def execBne (thread : Thread) (rs1 : Fin 32) (rs2 : Fin 32) (offset : BitVec 16) (s : State) : Out := s.on fun d => d.issue thread (.branch .ne rs1 rs2 offset)

/-- BLT (R313): branches on signed less than. -/
def execBlt (thread : Thread) (rs1 : Fin 32) (rs2 : Fin 32) (offset : BitVec 16) (s : State) : Out := s.on fun d => d.issue thread (.branch .lt rs1 rs2 offset)

/-- BGE (R313): branches on signed greater or equal. -/
def execBge (thread : Thread) (rs1 : Fin 32) (rs2 : Fin 32) (offset : BitVec 16) (s : State) : Out := s.on fun d => d.issue thread (.branch .ge rs1 rs2 offset)

/-- BLTU (R313): branches on unsigned less than. -/
def execBltu (thread : Thread) (rs1 : Fin 32) (rs2 : Fin 32) (offset : BitVec 16) (s : State) : Out := s.on fun d => d.issue thread (.branch .ltu rs1 rs2 offset)

/-- BGEU (R313): branches on unsigned greater or equal. -/
def execBgeu (thread : Thread) (rs1 : Fin 32) (rs2 : Fin 32) (offset : BitVec 16) (s : State) : Out := s.on fun d => d.issue thread (.branch .geu rs1 rs2 offset)

/-- J (R313): jumps by a word offset. -/
def execJ (thread : Thread) (offset : BitVec 26) (s : State) : Out := s.on fun d => d.issue thread (.jump offset)

/-- JAL (R313): jumps and writes the return address into g31. -/
def execJal (thread : Thread) (offset : BitVec 26) (s : State) : Out := s.on fun d => d.issue thread (.jal offset)

/-- JALR (R313): jumps to rs1 plus immediate and writes the return address into rd. -/
def execJalr (thread : Thread) (rd : Fin 32) (rs1 : Fin 32) (imm : BitVec 16) (s : State) : Out := s.on fun d => d.issue thread (.jalr rd rs1 imm)

/-- FORK (R338): starts a new thread in the lowest FREE context, or writes all ones. -/
def execFork (thread : Thread) (rd : Fin 32) (rs1 : Fin 32) (rs2 : Fin 32) (s : State) : Out := s.on fun d => d.issue thread (.fork rd rs1 rs2)

/-- JOIN (R339): takes a DONE child's QUIT value, or blocks, or returns all ones. -/
def execJoin (thread : Thread) (rd : Fin 32) (rs1 : Fin 32) (s : State) : Out := s.on fun d => d.issue thread (.join rd rs1)

/-- QUIT (R337): ends the thread with a value and releases its current packet; ends an action program. -/
def execQuit (thread : Thread) (rs1 : Fin 32) (s : State) : Out := s.on fun d => d.issue thread (.quit rs1)

/-- TRAP (R324): the TRAP instruction takes a trap with TRAP cause. -/
def execTrap (thread : Thread) (rs1 : Fin 32) (s : State) : Out := s.on fun d => d.issue thread (.trap rs1)

/-- ERET (R324): returns from a trap, restoring PRIV and IE. -/
def execEret (thread : Thread) (s : State) : Out := s.on fun d => d.issue thread (.eret)

/-- WFE (R326): waits until an enabled interrupt becomes pending. -/
def execWfe (thread : Thread) (s : State) : Out := s.on fun d => d.issue thread (.wfe)

/-- JOIN_UNBLOCK (R339): the child that a blocked JOIN names is DONE. -/
def execJoinUnblock (core : Fin 272) (ctx : Fin 16) (s : State) : Out := s.on fun d => d.retry core ctx fun i => match i with
  | .join _ _ => true
  | _ => false

/-- A thread that takes interrupts. -/
def takesIrqs (th : Thread) : Bool := match th with
  | .packet _ _ => false
  | _ => true

/-- WFE_WAKE (R326): an enabled source is pending, and the thread goes on after its WFE. -/
def execWfeWake (thread : Thread) (s : State) : Out := s.on fun d =>
  let k := thrOf thread
  if takesIrqs thread ∧ d.mayWake thread ∧ (d.thr k).wfe ∧ d.irqsOn k ≠ 0 then (d.leave thread 0 0 ((d.thr k).pc + 4)).woken thread else d

/-- INTERRUPT_TAKEN (R324, R326): the highest enabled source is taken before the thread's next instruction. The manual gives TINFO no value here. -/
def execInterruptTaken (thread : Thread) (s : State) : Out := s.on fun d =>
  let k := thrOf thread
  let x := d.thr k
  if ¬ takesIrqs thread ∨ ¬ d.threadRuns thread ∨ x.wfe ∨ x.blocked.isSome ∨ x.stopped ∨ ¬ d.irqReady k then d
  else
    let bit := (d.irqsOn k).log2
    let d := d.onlyIf (bit == 3) fun d => d.updThr k fun x => { x with ext := false }
    let n := d.draws
    { d with draws := n + 1 }.enterTrap k (256 + bit) x.pc (Config.interruptInfo n) 0x200

/-- TIMER_COMPARE (R326): the clock runs until CYCLE reaches TICKCMP, from which on TIMER is pending. -/
def execTimerCompare (thread : Thread) (s : State) : Out := s.on fun d =>
  let k := thrOf thread
  if ¬ takesIrqs thread then d
  else
    let t := (d.thr k).tickcmp
    d.advanceTo (if k = keystoneThr then 3 * t else ceilDiv t 2)

end Sys2Proof.Machine
end

