-- ==== Sys2Proof/Machine/HostAccess.lean ====
section
/-! DEFINITION. Host memory requests to the BARs, and the ends of the device's own reads of host memory (R164, R172, R173, R176 to R178, R190 to R197, R208, R452). -/

namespace Sys2Proof.Machine

open Sys2Proof

/-! ### Requests (R178) -/

/-- A request reaches the device: its link is up, and the device may answer (R447). -/
def Dev.requestArrives (d : Dev) (f : Nat) : Bool := d.cfgArrives f && !(d.inPair && d.pair.squelched)

/-- Memory Space Enable of a function: its own, or on a VF that of the PF's SR-IOV capability (R171, R178). -/
def Dev.claims (d : Dev) (f : Nat) : Bool := if f < 16 then d.cfg f .memorySpaceEnable == 1 else d.cfg (d.pfOf f) .vfMemorySpaceEnable == 1

/-- The request is treated as one to a function whose Memory Space Enable is clear (R164, R178). -/
def Dev.unclaimed (d : Dev) (f : Nat) : Bool := !d.released || !(d.fn f).enabled || !d.claims f

/-- An Unsupported Request or a Completer Abort counted and reported (R178, R194). -/
def Dev.unsupported (d : Dev) (f : Nat) : Dev := (d.bump .HIF_CNT 0 0).report f aerUnsupported
def Dev.aborted (d : Dev) (f : Nat) : Dev := (d.bump .HIF_CNT 0 1).report f aerAbort

/-- Pieces of a request, cut where the window that serves it ends or, outside every window, where the next one of the BAR begins: offset, length, window. -/
def Dev.piecesOf (d : Dev) (f bar o n : Nat) : Nat → Dev × List (Nat × Nat × Option Nat)
  | 0 => (d, [])
  | fuel + 1 =>
    if n = 0 then (d, [])
    else
      let (d, w) := d.window f bar o
      let stop := match w with
        | some i => d.ittOff i + 2 ^ d.fld F.HIF_ITT_LOG2 0 i
        | none =>
          (d.ittList.filter fun i => d.flag F.HIF_ITT_VALID 0 i && d.fld F.HIF_ITT_FUNC 0 i == f && d.fld F.HIF_ITT_BAR 0 i == bar && decide (o < d.ittOff i)).foldl
            (fun a i => min a (d.ittOff i)) (o + n)
      let m := min n (stop - o)
      let (d, t) := d.piecesOf f bar (o + m) (n - m) fuel
      (d, (o, m, w) :: t)

/-- The internal address that a window gives an offset. -/
def Dev.innerAddr (d : Dev) (i o : Nat) : Nat := d.ittBase i + (o - d.ittOff i)

/-- One piece of a read answered (R178, R192): Unsupported Request, Completer Abort, or data, with EP when a flit is marked. -/
def Dev.readPiece (d : Dev) (fn : Fin 512) (o n : Nat) (w : Option Nat) : Dev :=
  let f := fn.val
  match w with
  | none => (d.unsupported f).emit (.readReply f 1 false [])
  | some i =>
    if ¬ d.flag F.HIF_ITT_RD 0 i then (d.aborted f).emit (.readReply f 4 false [])
    else
      let a := d.innerAddr i o
      let d := d.tally (tlyHostTx (d.hostOf f)) n
      if inDoorbells a then d.emit (.readReply f 0 false (List.replicate n 0))
      else if inCsr a then let (d, bs) := d.csrRead (.host fn) a n; d.emit (.readReply f 0 false bs)
      else
        let mark := d.marked a n
        ((d.touchPages 4 a n).onlyIf mark fun d => d.bump .HIF_CNT 0 3).emit (.readReply f 0 mark (d.memBytes a n))

/-! ### Writes that later ones may pass (R179) -/

/-- A write of a host becomes visible at its internal address (R178, R190). -/
def Dev.landWrite (d : Dev) (x : HeldWrite) : Dev :=
  if inDoorbells x.addr then d.doorbellWrite x.addr x.data
  else if inCsr x.addr then d.csrWrite (.host x.fn) x.addr x.data
  else (d.touchPages 4 x.addr x.data.length).storeMarked x.addr x.data x.ep

/-- The first writes of those held become visible, in the order of their arrival. -/
def Dev.landFirst (d : Dev) (n : Nat) : Dev := ({ d with heldWrites := d.heldWrites.drop n } : Dev).each (d.heldWrites.take n) fun x d => d.landWrite x

/-- All writes held become visible: no read, no completion passes them. -/
def Dev.landWrites (d : Dev) : Dev := d.landFirst d.heldWrites.length

/-- A write through window i may pass one that arrived before it (R179): the window has ORDER = 0, and the write is relaxed, or ordered by ID and of another function. -/
def Dev.mayPass (d : Dev) (i : Nat) (tlp : Tlp) (fn : Fin 512) (x : HeldWrite) : Bool :=
  !d.flag F.HIF_ITT_ORDER 0 i && (tlp.relaxed || (tlp.idBased && x.fn != fn))

/-- A write arrives (R179): those held that it may not pass become visible first, and it itself at once, unless it is held. -/
def Dev.arriveWrite (d : Dev) (i : Nat) (tlp : Tlp) (x : HeldWrite) : Dev :=
  let d := d.landFirst (d.heldWrites.reverse.dropWhile (d.mayPass i tlp x.fn)).length
  if tlp.held then { d with heldWrites := d.heldWrites ++ [x] } else d.landWrite x

/-- HOST_MEMORY_READ (R164, R178, R192, R194, R195): `bar` is 0, 1 or 2 for BAR 0, 2 or 4; writes that arrived before it are visible to it. -/
def execHostMemoryRead (fn : Fin 512) (bar : Fin 3) (offset : Nat) (req : ReadRequest) (s : State) : Out := s.on fun d =>
  let f := fn.val
  let d := d.landWrites
  if ¬ d.requestArrives f then d
  else
  let (d, ok) := d.takeTlp f req.tlp
  if ¬ ok then d
  else if d.flag F.ERR_STAT_SAFE then (d.aborted f).emit (.readReply f 4 false [])
  else if (d.fn f).inReset.isSome then d.emit (.readReply f 1 false [])
  else if d.unclaimed f then (d.unsupported f).emit (.readReply f 1 false [])
  else
    let (d, l) := d.piecesOf f bar.val offset req.len.val req.len.val
    d.each l fun (x : Nat × Nat × Option Nat) d => d.readPiece fn x.1 x.2.1 x.2.2

/-- One piece of a write (R178, R179, R190, R193): marked data that a window rejects leaves its target alone. -/
def Dev.writePiece (d : Dev) (fn : Fin 512) (o : Nat) (w : Option Nat) (bs : List Byte) (tlp : Tlp) : Dev :=
  let f := fn.val
  match w with
  | none => d.unsupported f
  | some i =>
    if ¬ d.flag F.HIF_ITT_WR 0 i then d.aborted f
    else if tlp.ep ∧ d.flag F.HIF_ITT_POISON_REJ 0 i then (d.bump .HIF_CNT 0 7).report f aerPoisoned
    else
      let a := d.innerAddr i o
      let d := d.onlyIf tlp.ep fun d => (d.bump .HIF_CNT 0 2).report f aerPoisoned
      d.arriveWrite i tlp { fn := fn, addr := a, data := bs, ep := tlp.ep }

/-- HOST_MEMORY_WRITE (R164, R178, R179, R190, R193 to R195, R417, R452). -/
def execHostMemoryWrite (fn : Fin 512) (bar : Fin 3) (offset : Nat) (data : List Byte) (tlp : Tlp) (s : State) : Out := s.on fun d =>
  let f := fn.val
  if ¬ d.requestArrives f then d
  else
  let (d, ok) := d.takeTlp f tlp
  if ¬ ok ∨ d.flag F.ERR_STAT_SAFE ∨ (d.fn f).inReset.isSome then d
  else if d.unclaimed f then d.unsupported f
  else if d.passive then d.standbyDrop
  else
    let d := d.tally (tlyHostRx (d.hostOf f)) data.length
    let (d, l) := d.piecesOf f bar.val offset data.length data.length
    d.each l fun (x : Nat × Nat × Option Nat) d => d.writePiece fn x.1 x.2.2 (sliceB data (x.1 - offset) x.2.1) tlp

/-! ### Ends of reads (R185, R190, R198) -/

/-- The data of a job's read is in the device: the job goes on (R204, R205, R235, R284). -/
def Dev.resumeJob (d : Dev) (j : Nat) : Dev :=
  let op := (d.job j).op
  if op = 1 ∨ op = 2 then d.sendFrames j
  else if op = 4 then d.copyDone j
  else if op = 0x30 ∨ op = 0x31 then d.tlsFinish j
  else d.rmData j

/-- Part of a job's data is here (R190): the bytes from an offset on, and the marks of every flit that they touch; the job, unless it has been abandoned, goes on once all of it has come. -/
def Dev.dataIn (d : Dev) (j off : Nat) (bs : List Byte) (mark : Bool) : Dev :=
  if (d.job j).state ≠ .reading then d
  else
    let d := d.updJob j fun x => { x with
      data := overB x.data off bs, got := x.got + bs.length
      marks := if mark then (flitsOf off bs.length).foldl (fun l i => insertNum i l) x.marks else x.marks }
    if (d.job j).got < (d.job j).len then d else d.resumeJob j

/-- A read ends with its data, or with free bytes after a timeout: its job goes on, or a translation joins the cache; a translation that comes poisoned or not at all is asked for again; an answer of a transport QP goes on (R236). -/
def Dev.endRead (d : Dev) (r : HostRead) (data : List Byte) (ends : ReadEnd) : Dev :=
  let (d, bs) := d.readBytes r.len data ends
  match r.who with
  | .job j off => d.dataIn j off bs (ends != .good)
  | .page page pasid => if ends = .good then d.xlateIn r.fn page pasid (beVal bs) else d
  | .answer q number off => d.ansIn q number off bs ends
  | _ => d

/-- Reads that this command ends: those of a chain engine or a thread end with the command that ends its entry or access. -/
def ReadFor.byTag : ReadFor → Bool
  | .chain _ => false
  | .thread _ => false
  | _ => true

/-- A read of a tag that comes to its end: counted and timed (R190, R198), and what waits for it goes on; further reads follow into the room it leaves. -/
def Dev.finishRead (d : Dev) (tag : Nat) (r : HostRead) (data : List Byte) (ends : ReadEnd) : Dev :=
  let d := { d with reads := d.reads.set none tag none }.readIn r.fn r.len ends
  let d := d.onlyIf (ends != .timedOut) fun d => d.tallyMax (tlyHostLat (d.hostOf r.fn)) (nsOfCycles (d.clk.now - r.at_))
  (d.endRead r data ends).pumpReads.pumpAnswers

/-- HOST_COMPLETION_RECEIVE (R190, R194, R198): the completion that a function gets for the read of a tag; one that no read of its waits for is unexpected: reported, and discarded. -/
def execHostCompletionReceive (read : ReadName) (data : List Byte) (tlp : Tlp) (s : State) : Out := s.on fun d =>
  let fn := read.fn
  let tag := read.tag
  let d := d.landWrites
  if ¬ d.cfgArrives fn.val then d
  else
  let (d, ok) := d.takeTlp fn.val tlp
  if ¬ ok then d
  else
    match d.reads.at none tag with
    | none => d.report fn.val aerUnexpected
    | some r =>
      if r.fn ≠ fn.val then d.report fn.val aerUnexpected
      else if ¬ r.who.byTag then d
      else d.finishRead tag r data (if tlp.ep then .poisoned else .good)

/-- COMPLETION_TIMEOUT (R185, R190, R194): the read of a tag times out; its data is marked, and its bytes are free values. -/
def execCompletionTimeout (tag : Nat) (s : State) : Out := s.on fun d =>
  match d.reads.at none tag with
  | none => d
  | some r => if r.who.byTag then d.finishRead tag r [] .timedOut else d

end Sys2Proof.Machine
end

