-- ==== Sys2Proof/Machine/Memory.lean ====
section
/-! DEFINITION. The memory instructions of Stavte: loads, stores, atomics, fences (R312, R314, R328, R329, R336). -/

namespace Sys2Proof.Machine

open Sys2Proof

/-- LB (R312): loads a sign-extended byte. -/
def execLb (thread : Thread) (rd : Fin 32) (rs1 : Fin 32) (imm : BitVec 16) (s : State) : Out := s.on fun d => d.issue thread (.load .lb rd rs1 imm)

/-- LBU (R312): loads a zero-extended byte. -/
def execLbu (thread : Thread) (rd : Fin 32) (rs1 : Fin 32) (imm : BitVec 16) (s : State) : Out := s.on fun d => d.issue thread (.load .lbu rd rs1 imm)

/-- LH (R312): loads a sign-extended halfword. -/
def execLh (thread : Thread) (rd : Fin 32) (rs1 : Fin 32) (imm : BitVec 16) (s : State) : Out := s.on fun d => d.issue thread (.load .lh rd rs1 imm)

/-- LHU (R312): loads a zero-extended halfword. -/
def execLhu (thread : Thread) (rd : Fin 32) (rs1 : Fin 32) (imm : BitVec 16) (s : State) : Out := s.on fun d => d.issue thread (.load .lhu rd rs1 imm)

/-- LW (R312): loads a sign-extended word. -/
def execLw (thread : Thread) (rd : Fin 32) (rs1 : Fin 32) (imm : BitVec 16) (s : State) : Out := s.on fun d => d.issue thread (.load .lw rd rs1 imm)

/-- LWU (R312): loads a zero-extended word. -/
def execLwu (thread : Thread) (rd : Fin 32) (rs1 : Fin 32) (imm : BitVec 16) (s : State) : Out := s.on fun d => d.issue thread (.load .lwu rd rs1 imm)

/-- LD (R312): loads a doubleword. -/
def execLd (thread : Thread) (rd : Fin 32) (rs1 : Fin 32) (imm : BitVec 16) (s : State) : Out := s.on fun d => d.issue thread (.load .ld rd rs1 imm)

/-- SB (R312): stores a byte. -/
def execSb (thread : Thread) (rs : Fin 32) (rs1 : Fin 32) (imm : BitVec 16) (s : State) : Out := s.on fun d => d.issue thread (.store .sb rs rs1 imm)

/-- SH (R312): stores a halfword. -/
def execSh (thread : Thread) (rs : Fin 32) (rs1 : Fin 32) (imm : BitVec 16) (s : State) : Out := s.on fun d => d.issue thread (.store .sh rs rs1 imm)

/-- SW (R312): stores a word. -/
def execSw (thread : Thread) (rs : Fin 32) (rs1 : Fin 32) (imm : BitVec 16) (s : State) : Out := s.on fun d => d.issue thread (.store .sw rs rs1 imm)

/-- SD (R312): stores a doubleword. -/
def execSd (thread : Thread) (rs : Fin 32) (rs1 : Fin 32) (imm : BitVec 16) (s : State) : Out := s.on fun d => d.issue thread (.store .sd rs rs1 imm)

/-- CAS (R314): atomic compare and swap. -/
def execCas (thread : Thread) (word : Bool) (acq : Bool) (rel : Bool) (rd : Fin 32) (rs1 : Fin 32) (rs2 : Fin 32) (s : State) : Out := s.on fun d => d.issue thread (.atomic .cas word acq rel rd rs1 rs2)

/-- FADD (R314): atomic fetch and add. -/
def execFadd (thread : Thread) (word : Bool) (acq : Bool) (rel : Bool) (rd : Fin 32) (rs1 : Fin 32) (rs2 : Fin 32) (s : State) : Out := s.on fun d => d.issue thread (.atomic .fadd word acq rel rd rs1 rs2)

/-- SWAP (R314): atomic swap. -/
def execSwap (thread : Thread) (word : Bool) (acq : Bool) (rel : Bool) (rd : Fin 32) (rs1 : Fin 32) (rs2 : Fin 32) (s : State) : Out := s.on fun d => d.issue thread (.atomic .swap word acq rel rd rs1 rs2)

/-- FENCE (R329): orders selected earlier accesses before selected later ones. -/
def execFence (thread : Thread) (bits : Fin 32) (s : State) : Out := s.on fun d => d.issue thread (.fence bits)

/-- FENCE_COMPLETE (R336): the accesses that a blocked FENCE selects have been performed. -/
def execFenceComplete (core : Fin 272) (ctx : Fin 16) (s : State) : Out := s.on fun d => d.retry core ctx fun i => match i with
  | .fence _ => true
  | _ => false

end Sys2Proof.Machine
end

