-- ==== Sys2Proof/Machine/Mirror.lean ====
section
/-! DEFINITION. What a standby and a cascade member apply: commits, the bulk copy, and the replicated state of a cascade (R387, R448, R449, R459, R460, R462). -/

namespace Sys2Proof.Machine

open Sys2Proof

/-! ### Items -/

/-- A register word of class T takes the value of the active: with the effect that a Keystone write of its mirrored bits has, and in those bits whatever the effect left (R448, R452). SPAN_CFG takes effect at the boundary at which it did on the active (R451). -/
def Dev.mirrorReg (d : Dev) (k : RegKey) (v : Word) : Dev :=
  let m := k.mirrorMask
  let d' := if k.reg = .SPAN_CFG then (if d.word k &&& m = v &&& m then d else (d.setWord k (v &&& m)).retimeSpan)
    else if k.reg = .QCP_CQ_ARM ∨ d.locked k.reg then d else regEffect k { writer := .keystone, value := v &&& m } d
  d'.setWord k ((d'.word k &&& ~~~m) ||| (v &&& m))

/-- A way or stash position takes its entry. -/
def Dev.mirrorWay (d : Dev) (r t pos : Nat) (stash : Bool) (e : Option (List Byte × Bool × Bool × Nat × Nat × Nat)) : Dev :=
  let w : Option Way := e.map fun x => { key := x.1, alt := x.2.1, hit := x.2.2.1, action := x.2.2.2.1, adata := x.2.2.2.2.1, record := x.2.2.2.2.2 }
  (d.updTbl r t fun x => x.setEntry (if stash then .stash pos else .way pos) w).showEntries r t

/-- A change of the committed trie, which the prepared one follows. -/
def Dev.mirrorTrie (d : Dev) (f : Trie → Trie) : Dev := { d with trie := f d.trie, shadow := f d.shadow }.showTrieUse

/-- A security association with its replay state; deleted without an image. -/
def Dev.mirrorSa (d : Dev) (id : Nat) (image : Option (List Byte)) (seen : Nat) : Dev :=
  match image with
  | none => d.setSa id none
  | some m =>
    let x := (saOfImage m).1
    let f := (m.getD 1 0).toNat
    d.setSa id (some { x with softHit := bitOf f 3, exhausted := bitOf f 4, seen := seen })

/-- A parcel's place, PIN and hint (R387), charged where it now lies. -/
def Dev.mirrorParcel (d : Dev) (id : Nat) (sram : Option Nat) (home bytes tenant : Nat) (pin : Option (Option Nat)) (hint : Option Nat) : Dev :=
  if bytes = 0 then d.freeParcel id
  else
  let d := match d.parcel id with
    | some p => d.each p.places fun x d => d.uncharge x p.majority p.tenant p.bytes
    | none => d
  (d.charge sram home tenant bytes).setParcel id { sram := sram, home := home, bytes := bytes, tenant := tenant, pin := pin, hint := hint, majority := home }

/-- The place of a table's buckets, those apart that stand as parcels of their own (R387). -/
def Dev.mirrorBuckets (d : Dev) (r t : Nat) (sram : Option Nat) (nb tenant : Nat) : Dev :=
  if nb = 0 then d.freeBuckets r t
  else
    let own := (d.parcels.filter fun e => idKind e.1 == 1 && idRegion e.1 == r && idTable e.1 == t && e.2.isSome).length
    let d := match d.tblPlaces.at none (64 * r + t) with
      | some x => d.uncharge x.sram r x.tenant ((x.nb - own) * 64)
      | none => d
    { d.charge sram r tenant ((nb - own) * 64) with tblPlaces := d.tblPlaces.set none (64 * r + t) (some { sram := sram, nb := nb, tenant := tenant }) }

/-- An installed image, as the loader installs it (R411); without bytes it is gone. -/
def Dev.mirrorImage (d : Dev) (block : Option Nat) (a : Nat) (bs : List Byte) : Dev :=
  match block with
  | some b =>
    let d := d.updBoot fun k => { k with pcCode := (k.pcCode.filter fun x => !(x.1 == b && x.2.1 == a)) ++ if bs.isEmpty then [] else [(b, a, a + bs.length)] }
    d.storeFree (codeBase b + a) bs
  | none =>
    let d := d.updBoot fun k => { k with scCode := (k.scCode.filter fun x => x.1 != a) ++ if bs.isEmpty then [] else [(a, bs.length)] }
    d.storeFree a bs

/-- A tally of the bank; a slot's first word begins the slot anew (R448, R487). -/
def Dev.mirrorTally (d : Dev) (o v : Nat) : Dev :=
  let d := d.onlyIf (o % 0x800000 == 0) fun d => d.clearMem (d.tlyBase + o) (d.tlyBase + o + 0x800000)
  d.storeRaw (d.tlyBase + o) (leBytes (if o % 0x800000 < 0x20 ∨ tlyIs32 (o % 0x800000) then 4 else 8) v)

/-- A transport QP's context as created or modified; none: returned to RESET. -/
def Dev.mirrorQp (d : Dev) (q : Nat) (v : Option (Nat × List Byte)) : Dev :=
  match v with
  | none => { d.freeParcel (qpctxId q) with qpctxs := d.qpctxs.set {} q {} }
  | some (f, img) =>
    let old := d.qctx q
    let d := if (d.parcel (qpctxId q)).isSome then d else d.createParcel (qpctxId q) (q % 4) (d.res f).tenant 256
    let c : QpCtx := { old with fn := f, img := img }
    let c : QpCtx := if old.paths.isEmpty then { c with paths := c.initPaths } else c
    let c : QpCtx := if c.state = 3 ∧ old.state ≠ 3 then { c with paths := c.armPaths } else c
    d.updQctx q fun _ => c

/-- A path's transport point: last acknowledged and expected PSN, MSN and RSN (R448). -/
def Dev.mirrorPoint (d : Dev) (q p acked expected msn rsn : Nat) : Dev :=
  d.updQctx q fun c => { c.setPath p (fun x => { x with next := psnAdd acked 1, expect := expected }) with msn := msn, rmsn := msn, rsn := rsn, rbound := rsn }

/-- Indices of a queue pair. -/
def Dev.mirrorIndices (d : Dev) (n sqCi sqPi rqCi rqPi cqPi : Nat) : Dev :=
  let d := ((d.setFld F.QCP_IDX_SQ_CI n 0 sqCi).setFld F.QCP_IDX_RQ_CI n 0 rqCi).setFld F.QCP_STAT_CQ_PI n 0 cqPi
  d.updQp n fun q => { q with sqPi := sqPi, rqPi := rqPi }

/-- An NVMe queue; without entries it is deleted. -/
def Dev.mirrorNvmeQueue (d : Dev) (f : Nat) (completion : Bool) (id : Nat) (q : NvmeQ) : Dev :=
  let v : Option NvmeQ := if q.size = 0 then none else some q
  d.updNvme f fun c => if completion then { c with cqs := c.cqs.set none id v } else { c with sqs := c.sqs.set none id v }

/-- Tag states of a compact block function. -/
def Dev.mirrorTags (d : Dev) (f : Nat) (busy : List (Nat × List Byte)) (done : Nat) : Dev :=
  let bits := busy.foldl (fun n (e : Nat × List Byte) => withBit n e.1 true) 0
  let d := (d.setFld F.CBF_BUSY_TAGS f 0 bits).setFld F.CBF_DONE_TAGS f 0 done
  d.updCbf f fun c => { c with slots := busy, order := [], ended := [] }

/-- One item of a commit or a bulk copy applied. -/
def Dev.applyItem (d : Dev) : CommitItem → Dev
  | .reg a v => match d.reach a with
    | .word k => d.mirrorReg k v
    | _ => d
  | .counter a v => match d.reach a with
    | .word k => if k.reg.isCounter then d.setCounter k.reg k.n k.i v else d
    | _ => d
  | .tally o v => d.mirrorTally o v
  | .way r t pos stash e => d.mirrorWay r t pos stash e
  | .memory a bs => d.storeFree a bs
  | .template r n bs len fixes => { d with tmpls := d.tmpls.set {} (4096 * r + n) { bytes := bs, len := len, fixes := fixes } }
  | .program r slot ws => { d with progs := d.progs.set [] (256 * r + slot) ws }
  | .route v6 vrf len bits nh => d.mirrorTrie fun x => x.put { v6 := v6, vrf := vrf, len := len, bits := bits } nh
  | .nextHop n v => d.mirrorTrie fun x => { x with nhs := x.nhs.set (0, 0) n v }
  | .image b a bs => d.mirrorImage b a bs
  | .buckets r t sram nb tenant => d.mirrorBuckets r t sram nb tenant
  | .sa id image seen => d.mirrorSa id image seen
  | .parcel id sram home bytes tenant pin hint => d.mirrorParcel id sram home bytes tenant pin hint
  | .qpContext q v => d.mirrorQp q v
  | .transport q p acked expected msn rsn => d.mirrorPoint q p acked expected msn rsn
  | .key i img => { d.dropPages i with keys := d.keys.set [] i (if img.all (· == 0) then [] else img) }
  | .indices n sqCi sqPi rqCi rqPi cqPi => d.mirrorIndices n sqCi sqPi rqCi rqPi cqPi
  | .eqIndices n pi ci => (d.setFld F.EQC_STAT_PI n 0 pi).setFld F.EQC_STAT_CI n 0 ci
  | .nvmeRegs f intms cc aqa asq acq rdy => d.updNvme f fun c => { c with intms := intms, cc := cc, aqa := aqa, asq := asq, acq := acq, rdy := rdy }
  | .nvmeQueue f completion id base size head tail cq phase ien iv =>
    d.mirrorNvmeQueue f completion id { base := base, size := size, head := head, tail := tail, cq := cq, phase := phase, ien := ien, iv := iv }
  | .cbfTags f busy done => d.mirrorTags f busy done

def Dev.applyItems (d : Dev) (l : List CommitItem) : Dev := d.each l fun i d => d.applyItem i

/-! ### The pair -/

/-- Once the bulk copy is in and one commit applied, SYNC ends (R457, R459). -/
def Dev.syncDone (d : Dev) : Dev :=
  if d.pairState = 3 ∧ d.pair.copied ∧ d.pair.applied then d.setChip F.PAIR_STAT_STATE 4 else d

/-- COMMIT_APPLY (R448, R449, R451, R457): a commit received whole is applied in one cycle and acknowledged. One that fails its check waits to come again; a gap in SEQ takes the device to DETACHED; before the bulk copy is in, commits queue behind it on the active (R459). -/
def execCommitApply (seq : Word) (covers : Nat) (good : Bool) (items : List CommitItem) (s : State) : Out := s.on fun d =>
  if ¬ d.mirrored ∨ ¬ good ∨ ¬ d.pair.copied then d
  else if d.pair.applied ∧ BitVec.ofNat 32 (d.fld F.PAIR_SEQ_SEQ + 1) ≠ seq then d.detach
  else
    let d := if d.pair.applied then d else d.setChip F.SPAN_SEQ_SEQ (seq.toNat + 1)
    let d := ((d.applyItems items).setChip F.PAIR_SEQ_SEQ seq.toNat).bump .PAIR_CNT 0 0
    let d := d.updPair fun p => { p with applied := true, received := p.received.filter fun x => decide (covers ≤ x.1) }
    (d.emit (.flume d.flumeOut 5 [seq.toNat])).syncDone

/-- BULK_COPY_COMPLETE (R459): the state of the active as the copy brought it. -/
def execBulkCopyComplete (items : List CommitItem) (s : State) : Out := s.on fun d =>
  if ¬ d.inPair ∨ d.pairState ≠ 3 ∨ d.pair.copied then d
  else (((d.applyItems items).setChip F.PAIR_STAT_SYNC_PCT 100).updPair fun p => { p with copied := true }).syncDone

/-! ### The cascade -/

/-- Items that a cascade replicates (R460). -/
def Dev.replicatedItem (d : Dev) : CommitItem → Bool
  | .reg a _ => match d.reach a with
    | .word k => k.reg.replicated
    | _ => false
  | .way .. => true
  | .template .. => true
  | .program .. => true
  | .route .. => true
  | .nextHop .. => true
  | _ => false

/-- Replicated tables with their buckets, tries, templates, programs and registers emptied before a full copy (R462). -/
def Dev.forgetReplicas (d : Dev) : Dev :=
  let keys := d.tbls.map (·.1)
  let d := d.each (d.tblPlaces.map (·.1)) fun n d => d.freeBuckets (n / 64) (n % 64)
  let d := d.each ((d.csr.map (·.1)).filter fun k => k.reg.replicated) fun k d => d.setWord k k.resetWord
  let d := { d with tbls := [], trie := {}, shadow := {}, tmpls := [], progs := [] }
  d.each keys fun n d => d.showEntries (n / 64) (n % 64)

/-- CASCADE_REPLICATION_APPLY (R460, R462): a change comes round the ring and is applied whole in one cycle, then passed on. A headless member takes nothing but a full copy, which replaces its own. -/
def execCascadeReplicationApply (fl : Fin 2) (full : Bool) (items : List CommitItem) (s : State) : Out := s.on fun d =>
  if ¬ d.member ∨ ¬ d.released ∨ d.quiet ∨ ¬ d.flag F.FLM_STAT_UP 0 fl.val then d
  else
    let pass (d : Dev) : Dev := if d.flumeLive (1 - fl.val) then d.emit (.replicate (1 - fl.val) full items) else d
    if d.flag F.CAS_STAT_DUPID ∨ (d.flag F.CAS_STAT_HEADLESS ∧ ¬ full) then pass d
    else
      let d := if full then d.forgetReplicas.setChip F.CAS_STAT_HEADLESS 0 else d
      pass (d.applyItems (items.filter d.replicatedItem))

end Sys2Proof.Machine
end

