-- ==== Sys2Proof/Machine/PacketOps.lean ====
section
/-! DEFINITION. The instructions that only packet cores have for channels, packets and tables (R317 to R322, R344, R345). -/

namespace Sys2Proof.Machine

open Sys2Proof

/-- CHIN (R317): takes the oldest word of a channel, or the next packet on c0, blocking while empty. -/
def execChin (thread : Thread) (rd : Fin 32) (chan : Fin 32) (s : State) : Out := s.on fun d => d.issue thread (.chin rd chan)

/-- CHOUT (R344): appends a word to a channel FIFO, blocking while full. -/
def execChout (thread : Thread) (rs : Fin 32) (chan : Fin 32) (s : State) : Out := s.on fun d => d.issue thread (.chout rs chan)

/-- CHTEST (R317): returns readable words or free room of a channel without blocking. -/
def execChtest (thread : Thread) (room : Bool) (rd : Fin 32) (chan : Fin 32) (s : State) : Out := s.on fun d => d.issue thread (.chtest room rd chan)

/-- PKTLD (R319): loads bytes of the packet window big-endian. -/
def execPktld (thread : Thread) (size : Fin 4) (rd : Fin 32) (rs1 : Fin 32) (off : Fin 1024) (s : State) : Out := s.on fun d => d.issue thread (.pktld size rd rs1 off)

/-- PKTLDM (R319): loads bytes of packet metadata. -/
def execPktldm (thread : Thread) (size : Fin 4) (rd : Fin 32) (byte : Fin 64) (s : State) : Out := s.on fun d => d.issue thread (.pktldm size rd byte)

/-- PKTST (R319): stores bytes into the packet window. -/
def execPktst (thread : Thread) (size : Fin 4) (rs : Fin 32) (rs1 : Fin 32) (off : Fin 1024) (s : State) : Out := s.on fun d => d.issue thread (.pktst size rs rs1 off)

/-- PKTSTM (R319): stores bytes into user metadata 16 to 63. -/
def execPktstm (thread : Thread) (size : Fin 4) (rs : Fin 32) (byte : Fin 1024) (s : State) : Out := s.on fun d => d.issue thread (.pktstm size rs byte)

/-- PKTLAY (R319): returns the byte offset of a recorded layer, or all ones. -/
def execPktlay (thread : Thread) (rd : Fin 32) (layer : Fin 1024) (s : State) : Out := s.on fun d => d.issue thread (.pktlay rd layer)

/-- PKTFWD (R320): hands the current packet to the pipeline as a core-originated packet. -/
def execPktfwd (thread : Thread) (s : State) : Out := s.on fun d => d.issue thread (.pktend .fwd)

/-- PKTDROP (R319): releases the current packet and counts a core drop. -/
def execPktdrop (thread : Thread) (s : State) : Out := s.on fun d => d.issue thread (.pktend .drop)

/-- PKTRECIRC (R320): hands the current packet to the recirculation queue. -/
def execPktrecirc (thread : Thread) (s : State) : Out := s.on fun d => d.issue thread (.pktend .recirc)

/-- TLOOKUP (R321): looks up a key in a logical table, with the result on c3. -/
def execTlookup (thread : Thread) (rs1 : Fin 32) (table : Fin 64) (s : State) : Out := s.on fun d => d.issue thread (.table .lookup rs1 table)

/-- TINSERT (R321): inserts an entry in an exact-match table, with the status on c3. -/
def execTinsert (thread : Thread) (rs1 : Fin 32) (table : Fin 64) (s : State) : Out := s.on fun d => d.issue thread (.table .insert rs1 table)

/-- TDELETE (R321): deletes an entry from an exact-match table, with the status on c3. -/
def execTdelete (thread : Thread) (rs1 : Fin 32) (table : Fin 64) (s : State) : Out := s.on fun d => d.issue thread (.table .delete rs1 table)

/-- CHIN_UNBLOCK (R345): a word has come, and a blocked CHIN takes it in the thread's first slot after. -/
def execChinUnblock (core : Fin 272) (ctx : Fin 16) (s : State) : Out := s.on fun d => d.retry core ctx fun i => match i with
  | .chin _ _ => true
  | _ => false

/-- CHOUT_UNBLOCK (R344): a blocked CHOUT is tried again in the thread's slot. -/
def execChoutUnblock (core : Fin 272) (ctx : Fin 16) (s : State) : Out := s.on fun d => d.retry core ctx fun i => match i with
  | .chout _ _ => true
  | _ => false

/-- TABLE_OP_RESULT (R322): the two words of the thread's oldest table operation arrive on c3. -/
def execTableOpResult (core : Fin 272) (ctx : Fin 16) (s : State) : Out := s.on fun d => d.updCtx core.val ctx.val fun k => match k.ops with
  | [] => k
  | x :: t => { k with ops := t, results := k.results ++ [x.1, x.2] }

/-- TABLE_OP_UNBLOCK (R322): c3 has room, and a blocked table operation issues. -/
def execTableOpUnblock (core : Fin 272) (ctx : Fin 16) (s : State) : Out := s.on fun d => d.retry core ctx fun i => match i with
  | .table _ _ _ => true
  | _ => false

end Sys2Proof.Machine
end

