-- ==== Sys2Proof/Machine/Dispatch.lean ====
section
/-! DEFINITION. The effect of each command: one arm per constructor, each a direct call of that command's meaning. -/

namespace Sys2Proof.Machine

open Sys2Proof

def exec (i : Instr) (s : State) : Host.Outcome State Fault Refusal :=
  match i with
  | .pwrgdRise role cascId wakeIn => Sys2Proof.Machine.execPwrgdRise role cascId wakeIn s
  | .pwrgdLowPulse => Sys2Proof.Machine.execPwrgdLowPulse s
  | .vretLoss => Sys2Proof.Machine.execVretLoss s
  | .perstAssert host => Sys2Proof.Machine.execPerstAssert host s
  | .perstDeassert host => Sys2Proof.Machine.execPerstDeassert host s
  | .registerWrite addr cycle => Sys2Proof.Machine.execRegisterWrite addr cycle s
  | .counterReadClear addr readers => Sys2Proof.Machine.execCounterReadClear addr readers s
  | .sidebandRegisterWrite path inSession addr value => Sys2Proof.Machine.execSidebandRegisterWrite path inSession addr value s
  | .sidebandWriteCommit others => Sys2Proof.Machine.execSidebandWriteCommit others s
  | .sidebandRegisterRead path inSession addr => Sys2Proof.Machine.execSidebandRegisterRead path inSession addr s
  | .spanBoundary silent => Sys2Proof.Machine.execSpanBoundary silent s
  | .spanCfgWrite ws => Sys2Proof.Machine.execSpanCfgWrite ws s
  | .timeCounterStep ws => Sys2Proof.Machine.execTimeCounterStep ws s
  | .syncChange cause => Sys2Proof.Machine.execSyncChange cause s
  | .ppsInEdge => Sys2Proof.Machine.execPpsInEdge s
  | .ppsOutSecond => Sys2Proof.Machine.execPpsOutSecond s
  | .laneMapWrite ws => Sys2Proof.Machine.execLaneMapWrite ws s
  | .portEnable lane ws => Sys2Proof.Machine.execPortEnable lane ws s
  | .portDisable lane ws => Sys2Proof.Machine.execPortDisable lane ws s
  | .portCfgChange lane ws => Sys2Proof.Machine.execPortCfgChange lane ws s
  | .anResolved port rates fecs => Sys2Proof.Machine.execAnResolved port rates fecs s
  | .anNoCommonMode port => Sys2Proof.Machine.execAnNoCommonMode port s
  | .anBasePageTimeout port => Sys2Proof.Machine.execAnBasePageTimeout port s
  | .trainingComplete port => Sys2Proof.Machine.execTrainingComplete port s
  | .trainingFail port => Sys2Proof.Machine.execTrainingFail port s
  | .trialAligned port => Sys2Proof.Machine.execTrialAligned port s
  | .trialTimeout port => Sys2Proof.Machine.execTrialTimeout port s
  | .pcsAlignmentLoss port => Sys2Proof.Machine.execPcsAlignmentLoss port s
  | .remoteFaultReceived port => Sys2Proof.Machine.execRemoteFaultReceived port s
  | .remoteFaultCleared port => Sys2Proof.Machine.execRemoteFaultCleared port s
  | .frameReceiveStart port head => Sys2Proof.Machine.execFrameReceiveStart port head s
  | .cellArrival port data noSlot => Sys2Proof.Machine.execCellArrival port data noSlot s
  | .frameReceiveEnd frame => Sys2Proof.Machine.execFrameReceiveEnd frame s
  | .controlFrameReceive port frame => Sys2Proof.Machine.execControlFrameReceive port frame s
  | .pauseHoldExpiry port prio => Sys2Proof.Machine.execPauseHoldExpiry port prio s
  | .pauseRefresh port prio => Sys2Proof.Machine.execPauseRefresh port prio s
  | .pauseFrameSend port => Sys2Proof.Machine.execPauseFrameSend port s
  | .pfcModeChange port ws => Sys2Proof.Machine.execPfcModeChange port ws s
  | .pfcTxEnChange port ws => Sys2Proof.Machine.execPfcTxEnChange port ws s
  | .pauseWatermarkWrite port prio high ws => Sys2Proof.Machine.execPauseWatermarkWrite port prio high ws s
  | .stormStateEntry port prio => Sys2Proof.Machine.execStormStateEntry port prio s
  | .pauseGapExpiry port prio => Sys2Proof.Machine.execPauseGapExpiry port prio s
  | .stormStateExit port prio => Sys2Proof.Machine.execStormStateExit port prio s
  | .watchdogCfgWrite port ws => Sys2Proof.Machine.execWatchdogCfgWrite port ws s
  | .watchdogDisable port ws => Sys2Proof.Machine.execWatchdogDisable port ws s
  | .gclCommit port ws => Sys2Proof.Machine.execGclCommit port ws s
  | .gclConfigChange port => Sys2Proof.Machine.execGclConfigChange port s
  | .gateEntryChange port => Sys2Proof.Machine.execGateEntryChange port s
  | .gateCycleStart port => Sys2Proof.Machine.execGateCycleStart port s
  | .frameTransmitStart port => Sys2Proof.Machine.execFrameTransmitStart port s
  | .frameTransmitEnd port => Sys2Proof.Machine.execFrameTransmitEnd port s
  | .modCmdGo bus sdaLow ws => Sys2Proof.Machine.execModCmdGo bus sdaLow ws s
  | .modCmdDone bus nack data => Sys2Proof.Machine.execModCmdDone bus nack data s
  | .modStretchTimeout bus => Sys2Proof.Machine.execModStretchTimeout bus s
  | .modBusRecovery bus highAfter => Sys2Proof.Machine.execModBusRecovery bus highAfter s
  | .modRecoveryWaitExpiry bus highAfter => Sys2Proof.Machine.execModRecoveryWaitExpiry bus highAfter s
  | .pipelineSlotGrant region => Sys2Proof.Machine.execPipelineSlotGrant region s
  | .recircWaitExpiry region => Sys2Proof.Machine.execRecircWaitExpiry region s
  | .packetParse region => Sys2Proof.Machine.execPacketParse region s
  | .stageLookup region stage => Sys2Proof.Machine.execStageLookup region stage s
  | .deferFetchComplete region => Sys2Proof.Machine.execDeferFetchComplete region s
  | .passExit region => Sys2Proof.Machine.execPassExit region s
  | .parseBankCommit region ws => Sys2Proof.Machine.execParseBankCommit region ws s
  | .tableCfgWrite region table word ws => Sys2Proof.Machine.execTableCfgWrite region table word ws s
  | .lookup region ws => Sys2Proof.Machine.execLookup region ws s
  | .insert region ws => Sys2Proof.Machine.execInsert region ws s
  | .delete region ws => Sys2Proof.Machine.execDelete region ws s
  | .tmpl region ws => Sys2Proof.Machine.execTmpl region ws s
  | .cread region ws => Sys2Proof.Machine.execCread region ws s
  | .tread region ws => Sys2Proof.Machine.execTread region ws s
  | .fwd packet operand => Sys2Proof.Machine.execFwd packet operand s
  | .drop packet operand => Sys2Proof.Machine.execDrop packet operand s
  | .mirror packet operand => Sys2Proof.Machine.execMirror packet operand s
  | .setmd packet operand => Sys2Proof.Machine.execSetmd packet operand s
  | .police packet operand => Sys2Proof.Machine.execPolice packet operand s
  | .count packet operand => Sys2Proof.Machine.execCount packet operand s
  | .encap packet operand => Sys2Proof.Machine.execEncap packet operand s
  | .decap packet operand => Sys2Proof.Machine.execDecap packet operand s
  | .attachSa packet operand => Sys2Proof.Machine.execAttachSa packet operand s
  | .deliverHost packet operand => Sys2Proof.Machine.execDeliverHost packet operand s
  | .deliverPool packet operand => Sys2Proof.Machine.execDeliverPool packet operand s
  | .recirc packet operand => Sys2Proof.Machine.execRecirc packet operand s
  | .next packet operand => Sys2Proof.Machine.execNext packet operand s
  | .setctx packet operand => Sys2Proof.Machine.execSetctx packet operand s
  | .tuqDoorbell ws => Sys2Proof.Machine.execTuqDoorbell ws s
  | .tuqNop => Sys2Proof.Machine.execTuqNop s
  | .tuqAdd => Sys2Proof.Machine.execTuqAdd s
  | .tuqDel => Sys2Proof.Machine.execTuqDel s
  | .tuqCommit => Sys2Proof.Machine.execTuqCommit s
  | .tuqSetnh => Sys2Proof.Machine.execTuqSetnh s
  | .trieNodeFree => Sys2Proof.Machine.execTrieNodeFree s
  | .learnRequest region => Sys2Proof.Machine.execLearnRequest region s
  | .learnInsert region => Sys2Proof.Machine.execLearnInsert region s
  | .sweeperVisit region table => Sys2Proof.Machine.execSweeperVisit region table s
  | .sweepRoundStart region table => Sys2Proof.Machine.execSweepRoundStart region table s
  | .tnodeWrite region node word ws => Sys2Proof.Machine.execTnodeWrite region node word ws s
  | .policerWrite region policer word ws => Sys2Proof.Machine.execPolicerWrite region policer word ws s
  | .hostPortEnable host ws => Sys2Proof.Machine.execHostPortEnable host ws s
  | .hostLinkUp host link gen => Sys2Proof.Machine.execHostLinkUp host link gen s
  | .hostLinkDown host down => Sys2Proof.Machine.execHostLinkDown host down s
  | .configRequest fn field write => Sys2Proof.Machine.execConfigRequest fn field write s
  | .vfEnable fn enable numVfs => Sys2Proof.Machine.execVfEnable fn enable numVfs s
  | .functionEnable fn => Sys2Proof.Machine.execFunctionEnable fn s
  | .funcResWrite fn word ws => Sys2Proof.Machine.execFuncResWrite fn word ws s
  | .hostMemoryRead fn bar offset req => Sys2Proof.Machine.execHostMemoryRead fn bar offset req s
  | .hostMemoryWrite fn bar offset data tlp => Sys2Proof.Machine.execHostMemoryWrite fn bar offset data tlp s
  | .hostCompletionReceive read data tlp => Sys2Proof.Machine.execHostCompletionReceive read data tlp s
  | .completionTimeout tag => Sys2Proof.Machine.execCompletionTimeout tag s
  | .atsInvalidate fn itag page pages => Sys2Proof.Machine.execAtsInvalidate fn itag page pages s
  | .atsInvalidateComplete fn => Sys2Proof.Machine.execAtsInvalidateComplete fn s
  | .pageRequestResponse fn page pasid code => Sys2Proof.Machine.execPageRequestResponse fn page pasid code s
  | .msixUnmask fn vector => Sys2Proof.Machine.execMsixUnmask fn vector s
  | .flrInitiate fn => Sys2Proof.Machine.execFlrInitiate fn s
  | .flrComplete fn => Sys2Proof.Machine.execFlrComplete fn s
  | .doorbell fn qp rq value => Sys2Proof.Machine.execDoorbell fn qp rq value s
  | .eqDoorbell fn eq value => Sys2Proof.Machine.execEqDoorbell fn eq value s
  | .queueServiceTurn host descs => Sys2Proof.Machine.execQueueServiceTurn host descs s
  | .tx fn qp => Sys2Proof.Machine.execTx fn qp s
  | .txSeg fn qp => Sys2Proof.Machine.execTxSeg fn qp s
  | .rx fn qp desc => Sys2Proof.Machine.execRx fn qp desc s
  | .copy fn qp => Sys2Proof.Machine.execCopy fn qp s
  | .fill fn qp => Sys2Proof.Machine.execFill fn qp s
  | .rxFrameDelivery fn queue => Sys2Proof.Machine.execRxFrameDelivery fn queue s
  | .jobCompletion fn qp rq desc => Sys2Proof.Machine.execJobCompletion fn qp rq desc s
  | .cqArmWrite fn qp ws => Sys2Proof.Machine.execCqArmWrite fn qp ws s
  | .eventWrite => Sys2Proof.Machine.execEventWrite s
  | .qpStop fn qp ws => Sys2Proof.Machine.execQpStop fn qp ws s
  | .chainStart region engine ws => Sys2Proof.Machine.execChainStart region engine ws s
  | .chainResume region engine ws => Sys2Proof.Machine.execChainResume region engine ws s
  | .chainHalt region engine ws => Sys2Proof.Machine.execChainHalt region engine ws s
  | .chainEntryDone region engine host ends => Sys2Proof.Machine.execChainEntryDone region engine host ends s
  | .rmSend fn qp present => Sys2Proof.Machine.execRmSend fn qp present s
  | .rmSendImm fn qp present => Sys2Proof.Machine.execRmSendImm fn qp present s
  | .rmWrite fn qp present => Sys2Proof.Machine.execRmWrite fn qp present s
  | .rmWriteImm fn qp present => Sys2Proof.Machine.execRmWriteImm fn qp present s
  | .rmRead fn qp present => Sys2Proof.Machine.execRmRead fn qp present s
  | .rmCmpSwap fn qp present => Sys2Proof.Machine.execRmCmpSwap fn qp present s
  | .rmFetchAdd fn qp present => Sys2Proof.Machine.execRmFetchAdd fn qp present s
  | .rmAtomicWrite fn qp => Sys2Proof.Machine.execRmAtomicWrite fn qp s
  | .rmFlush fn qp => Sys2Proof.Machine.execRmFlush fn qp s
  | .rdmaRequestReceive region qpn psn => Sys2Proof.Machine.execRdmaRequestReceive region qpn psn s
  | .rdmaResponseReceive region => Sys2Proof.Machine.execRdmaResponseReceive region s
  | .mpDataReceive region qpn psn => Sys2Proof.Machine.execMpDataReceive region qpn psn s
  | .cnpReceive region => Sys2Proof.Machine.execCnpReceive region s
  | .ackTimeout qpn path => Sys2Proof.Machine.execAckTimeout qpn path s
  | .rnrTimerExpiry qpn => Sys2Proof.Machine.execRnrTimerExpiry qpn s
  | .odpPageResolved key page at_ => Sys2Proof.Machine.execOdpPageResolved key page at_ s
  | .localPageFaultTimeout qpn => Sys2Proof.Machine.execLocalPageFaultTimeout qpn s
  | .qpWrite fn ws => Sys2Proof.Machine.execQpWrite fn ws s
  | .qpRead fn ws => Sys2Proof.Machine.execQpRead fn ws s
  | .keyWrite fn ws => Sys2Proof.Machine.execKeyWrite fn ws s
  | .keyRead fn ws => Sys2Proof.Machine.execKeyRead fn ws s
  | .keyInval fn ws => Sys2Proof.Machine.execKeyInval fn ws s
  | .keyInvalComplete fn => Sys2Proof.Machine.execKeyInvalComplete fn s
  | .fabricCommandComplete id status data ep => Sys2Proof.Machine.execFabricCommandComplete id status data ep s
  | .pathDown path ws => Sys2Proof.Machine.execPathDown path ws s
  | .nvmeCcEnable fn value => Sys2Proof.Machine.execNvmeCcEnable fn value s
  | .nvmeCcDisable fn value => Sys2Proof.Machine.execNvmeCcDisable fn value s
  | .nvmeShutdown fn value => Sys2Proof.Machine.execNvmeShutdown fn value s
  | .nvmeShutdownComplete fn => Sys2Proof.Machine.execNvmeShutdownComplete fn s
  | .nvmeDoorbell fn index value => Sys2Proof.Machine.execNvmeDoorbell fn index value s
  | .nvmeCreateIoSq fn sqe => Sys2Proof.Machine.execNvmeCreateIoSq fn sqe s
  | .nvmeCreateIoCq fn sqe => Sys2Proof.Machine.execNvmeCreateIoCq fn sqe s
  | .nvmeDeleteIoSq fn sqe => Sys2Proof.Machine.execNvmeDeleteIoSq fn sqe s
  | .nvmeDeleteIoCq fn sqe => Sys2Proof.Machine.execNvmeDeleteIoCq fn sqe s
  | .nvmeIdentify fn sqe => Sys2Proof.Machine.execNvmeIdentify fn sqe s
  | .nvmeGetLogPage fn sqe list => Sys2Proof.Machine.execNvmeGetLogPage fn sqe list s
  | .nvmeGetFeatures fn sqe => Sys2Proof.Machine.execNvmeGetFeatures fn sqe s
  | .nvmeSetFeatures fn sqe => Sys2Proof.Machine.execNvmeSetFeatures fn sqe s
  | .nvmeAbort fn sqe => Sys2Proof.Machine.execNvmeAbort fn sqe s
  | .nvmeAsyncEventRequest fn sqe => Sys2Proof.Machine.execNvmeAsyncEventRequest fn sqe s
  | .nvmeRead fn sq sqe list => Sys2Proof.Machine.execNvmeRead fn sq sqe list s
  | .nvmeWrite fn sq sqe list src => Sys2Proof.Machine.execNvmeWrite fn sq sqe list src s
  | .nvmeFlush fn sq sqe => Sys2Proof.Machine.execNvmeFlush fn sq sqe s
  | .nvmeWriteZeroes fn sq sqe => Sys2Proof.Machine.execNvmeWriteZeroes fn sq sqe s
  | .nvmeDatasetManagement fn sq cmd => Sys2Proof.Machine.execNvmeDatasetManagement fn sq cmd s
  | .cbfIssue fn ws => Sys2Proof.Machine.execCbfIssue fn ws s
  | .cbfDoneClear fn ws => Sys2Proof.Machine.execCbfDoneClear fn ws s
  | .cbfRead fn => Sys2Proof.Machine.execCbfRead fn s
  | .cbfWrite fn data ends => Sys2Proof.Machine.execCbfWrite fn data ends s
  | .cbfFlush fn => Sys2Proof.Machine.execCbfFlush fn s
  | .cbfCommandEnd fn tag => Sys2Proof.Machine.execCbfCommandEnd fn tag s
  | .idleReqSet fn ws => Sys2Proof.Machine.execIdleReqSet fn ws s
  | .idleReqClear fn ws => Sys2Proof.Machine.execIdleReqClear fn ws s
  | .idleAck fn => Sys2Proof.Machine.execIdleAck fn s
  | .tlsSeal fn qp => Sys2Proof.Machine.execTlsSeal fn qp s
  | .tlsOpen fn qp => Sys2Proof.Machine.execTlsOpen fn qp s
  | .saWrite ws => Sys2Proof.Machine.execSaWrite ws s
  | .saRead ws => Sys2Proof.Machine.execSaRead ws s
  | .saDelete ws => Sys2Proof.Machine.execSaDelete ws s
  | .modexp region host ends => Sys2Proof.Machine.execModexp region host ends s
  | .ecPubkey region host ends => Sys2Proof.Machine.execEcPubkey region host ends s
  | .ecdsaSign region host ends => Sys2Proof.Machine.execEcdsaSign region host ends s
  | .ecdsaVerify region host ends => Sys2Proof.Machine.execEcdsaVerify region host ends s
  | .ecdh region host ends => Sys2Proof.Machine.execEcdh region host ends s
  | .ed25519Pubkey region host ends => Sys2Proof.Machine.execEd25519Pubkey region host ends s
  | .ed25519Sign region host ends => Sys2Proof.Machine.execEd25519Sign region host ends s
  | .ed25519Verify region host ends => Sys2Proof.Machine.execEd25519Verify region host ends s
  | .x25519 region host ends => Sys2Proof.Machine.execX25519 region host ends s
  | .mlKemKeygen region host ends => Sys2Proof.Machine.execMlKemKeygen region host ends s
  | .mlKemEncaps region host ends => Sys2Proof.Machine.execMlKemEncaps region host ends s
  | .mlKemDecaps region host ends => Sys2Proof.Machine.execMlKemDecaps region host ends s
  | .mlDsaKeygen region host ends => Sys2Proof.Machine.execMlDsaKeygen region host ends s
  | .mlDsaSign region host ends => Sys2Proof.Machine.execMlDsaSign region host ends s
  | .mlDsaVerify region host ends => Sys2Proof.Machine.execMlDsaVerify region host ends s
  | .pkOperationComplete region => Sys2Proof.Machine.execPkOperationComplete region s
  | .cvuAssignWrite unit ws => Sys2Proof.Machine.execCvuAssignWrite unit ws s
  | .cvuFeed unit size ws => Sys2Proof.Machine.execCvuFeed unit size ws s
  | .cvuReset unit ws => Sys2Proof.Machine.execCvuReset unit ws s
  | .cvuMsg unit ws => Sys2Proof.Machine.execCvuMsg unit ws s
  | .cvuSeal unit ws => Sys2Proof.Machine.execSeal unit ws s
  | .check unit ws => Sys2Proof.Machine.execCheck unit ws s
  | .add thread rd rs1 rs2 => Sys2Proof.Machine.execAdd thread rd rs1 rs2 s
  | .sub thread rd rs1 rs2 => Sys2Proof.Machine.execSub thread rd rs1 rs2 s
  | .and thread rd rs1 rs2 => Sys2Proof.Machine.execAnd thread rd rs1 rs2 s
  | .or thread rd rs1 rs2 => Sys2Proof.Machine.execOr thread rd rs1 rs2 s
  | .xor thread rd rs1 rs2 => Sys2Proof.Machine.execXor thread rd rs1 rs2 s
  | .andn thread rd rs1 rs2 => Sys2Proof.Machine.execAndn thread rd rs1 rs2 s
  | .sll thread rd rs1 rs2 => Sys2Proof.Machine.execSll thread rd rs1 rs2 s
  | .srl thread rd rs1 rs2 => Sys2Proof.Machine.execSrl thread rd rs1 rs2 s
  | .sra thread rd rs1 rs2 => Sys2Proof.Machine.execSra thread rd rs1 rs2 s
  | .ror thread rd rs1 rs2 => Sys2Proof.Machine.execRor thread rd rs1 rs2 s
  | .slt thread rd rs1 rs2 => Sys2Proof.Machine.execSlt thread rd rs1 rs2 s
  | .sltu thread rd rs1 rs2 => Sys2Proof.Machine.execSltu thread rd rs1 rs2 s
  | .min thread rd rs1 rs2 => Sys2Proof.Machine.execMin thread rd rs1 rs2 s
  | .max thread rd rs1 rs2 => Sys2Proof.Machine.execMax thread rd rs1 rs2 s
  | .minu thread rd rs1 rs2 => Sys2Proof.Machine.execMinu thread rd rs1 rs2 s
  | .maxu thread rd rs1 rs2 => Sys2Proof.Machine.execMaxu thread rd rs1 rs2 s
  | .clz thread rd rs1 => Sys2Proof.Machine.execClz thread rd rs1 s
  | .ctz thread rd rs1 => Sys2Proof.Machine.execCtz thread rd rs1 s
  | .popc thread rd rs1 => Sys2Proof.Machine.execPopc thread rd rs1 s
  | .bswap thread rd rs1 => Sys2Proof.Machine.execBswap thread rd rs1 s
  | .mul thread rd rs1 rs2 => Sys2Proof.Machine.execMul thread rd rs1 rs2 s
  | .mulh thread rd rs1 rs2 => Sys2Proof.Machine.execMulh thread rd rs1 rs2 s
  | .mulhu thread rd rs1 rs2 => Sys2Proof.Machine.execMulhu thread rd rs1 rs2 s
  | .div thread rd rs1 rs2 => Sys2Proof.Machine.execDiv thread rd rs1 rs2 s
  | .divu thread rd rs1 rs2 => Sys2Proof.Machine.execDivu thread rd rs1 rs2 s
  | .rem thread rd rs1 rs2 => Sys2Proof.Machine.execRem thread rd rs1 rs2 s
  | .remu thread rd rs1 rs2 => Sys2Proof.Machine.execRemu thread rd rs1 rs2 s
  | .addi thread rd rs1 imm => Sys2Proof.Machine.execAddi thread rd rs1 imm s
  | .andi thread rd rs1 imm => Sys2Proof.Machine.execAndi thread rd rs1 imm s
  | .ori thread rd rs1 imm => Sys2Proof.Machine.execOri thread rd rs1 imm s
  | .xori thread rd rs1 imm => Sys2Proof.Machine.execXori thread rd rs1 imm s
  | .slti thread rd rs1 imm => Sys2Proof.Machine.execSlti thread rd rs1 imm s
  | .sltiu thread rd rs1 imm => Sys2Proof.Machine.execSltiu thread rd rs1 imm s
  | .shiSll thread rd rs1 amount => Sys2Proof.Machine.execShiSll thread rd rs1 amount s
  | .shiSrl thread rd rs1 amount => Sys2Proof.Machine.execShiSrl thread rd rs1 amount s
  | .shiSra thread rd rs1 amount => Sys2Proof.Machine.execShiSra thread rd rs1 amount s
  | .shiRor thread rd rs1 amount => Sys2Proof.Machine.execShiRor thread rd rs1 amount s
  | .lui thread rd imm => Sys2Proof.Machine.execLui thread rd imm s
  | .shori thread rd rs1 imm => Sys2Proof.Machine.execShori thread rd rs1 imm s
  | .lb thread rd rs1 imm => Sys2Proof.Machine.execLb thread rd rs1 imm s
  | .lbu thread rd rs1 imm => Sys2Proof.Machine.execLbu thread rd rs1 imm s
  | .lh thread rd rs1 imm => Sys2Proof.Machine.execLh thread rd rs1 imm s
  | .lhu thread rd rs1 imm => Sys2Proof.Machine.execLhu thread rd rs1 imm s
  | .lw thread rd rs1 imm => Sys2Proof.Machine.execLw thread rd rs1 imm s
  | .lwu thread rd rs1 imm => Sys2Proof.Machine.execLwu thread rd rs1 imm s
  | .ld thread rd rs1 imm => Sys2Proof.Machine.execLd thread rd rs1 imm s
  | .sb thread rs rs1 imm => Sys2Proof.Machine.execSb thread rs rs1 imm s
  | .sh thread rs rs1 imm => Sys2Proof.Machine.execSh thread rs rs1 imm s
  | .sw thread rs rs1 imm => Sys2Proof.Machine.execSw thread rs rs1 imm s
  | .sd thread rs rs1 imm => Sys2Proof.Machine.execSd thread rs rs1 imm s
  | .memoryAccessComplete thread result => Sys2Proof.Machine.execMemoryAccessComplete thread result s
  | .beq thread rs1 rs2 offset => Sys2Proof.Machine.execBeq thread rs1 rs2 offset s
  | .bne thread rs1 rs2 offset => Sys2Proof.Machine.execBne thread rs1 rs2 offset s
  | .blt thread rs1 rs2 offset => Sys2Proof.Machine.execBlt thread rs1 rs2 offset s
  | .bge thread rs1 rs2 offset => Sys2Proof.Machine.execBge thread rs1 rs2 offset s
  | .bltu thread rs1 rs2 offset => Sys2Proof.Machine.execBltu thread rs1 rs2 offset s
  | .bgeu thread rs1 rs2 offset => Sys2Proof.Machine.execBgeu thread rs1 rs2 offset s
  | .j thread offset => Sys2Proof.Machine.execJ thread offset s
  | .jal thread offset => Sys2Proof.Machine.execJal thread offset s
  | .jalr thread rd rs1 imm => Sys2Proof.Machine.execJalr thread rd rs1 imm s
  | .cas thread word acq rel rd rs1 rs2 => Sys2Proof.Machine.execCas thread word acq rel rd rs1 rs2 s
  | .fadd thread word acq rel rd rs1 rs2 => Sys2Proof.Machine.execFadd thread word acq rel rd rs1 rs2 s
  | .swap thread word acq rel rd rs1 rs2 => Sys2Proof.Machine.execSwap thread word acq rel rd rs1 rs2 s
  | .bfx thread signed rd rs1 lsb widthM1 => Sys2Proof.Machine.execBfx thread signed rd rs1 lsb widthM1 s
  | .bfi thread rd rs1 lsb widthM1 => Sys2Proof.Machine.execBfi thread rd rs1 lsb widthM1 s
  | .crc thread ieee size rd rs1 rs2 => Sys2Proof.Machine.execCrc thread ieee size rd rs1 rs2 s
  | .mix thread rd rs1 rs2 => Sys2Proof.Machine.execMix thread rd rs1 rs2 s
  | .fence thread bits => Sys2Proof.Machine.execFence thread bits s
  | .fenceComplete core ctx => Sys2Proof.Machine.execFenceComplete core ctx s
  | .fork thread rd rs1 rs2 => Sys2Proof.Machine.execFork thread rd rs1 rs2 s
  | .join thread rd rs1 => Sys2Proof.Machine.execJoin thread rd rs1 s
  | .joinUnblock core ctx => Sys2Proof.Machine.execJoinUnblock core ctx s
  | .quit thread rs1 => Sys2Proof.Machine.execQuit thread rs1 s
  | .chin thread rd chan => Sys2Proof.Machine.execChin thread rd chan s
  | .chinUnblock core ctx => Sys2Proof.Machine.execChinUnblock core ctx s
  | .chout thread rs chan => Sys2Proof.Machine.execChout thread rs chan s
  | .choutUnblock core ctx => Sys2Proof.Machine.execChoutUnblock core ctx s
  | .chtest thread room rd chan => Sys2Proof.Machine.execChtest thread room rd chan s
  | .pktld thread size rd rs1 off => Sys2Proof.Machine.execPktld thread size rd rs1 off s
  | .pktldm thread size rd byte => Sys2Proof.Machine.execPktldm thread size rd byte s
  | .pktst thread size rs rs1 off => Sys2Proof.Machine.execPktst thread size rs rs1 off s
  | .pktstm thread size rs byte => Sys2Proof.Machine.execPktstm thread size rs byte s
  | .pktlay thread rd layer => Sys2Proof.Machine.execPktlay thread rd layer s
  | .pktfwd thread => Sys2Proof.Machine.execPktfwd thread s
  | .pktdrop thread => Sys2Proof.Machine.execPktdrop thread s
  | .pktrecirc thread => Sys2Proof.Machine.execPktrecirc thread s
  | .tlookup thread rs1 table => Sys2Proof.Machine.execTlookup thread rs1 table s
  | .tinsert thread rs1 table => Sys2Proof.Machine.execTinsert thread rs1 table s
  | .tdelete thread rs1 table => Sys2Proof.Machine.execTdelete thread rs1 table s
  | .tableOpResult core ctx => Sys2Proof.Machine.execTableOpResult core ctx s
  | .tableOpUnblock core ctx => Sys2Proof.Machine.execTableOpUnblock core ctx s
  | .csrr thread rd num => Sys2Proof.Machine.execCsrr thread rd num s
  | .csrw thread rs1 num => Sys2Proof.Machine.execCsrw thread rs1 num s
  | .xlinv thread rs1 => Sys2Proof.Machine.execXlinv thread rs1 s
  | .tickcmpWrite thread rs1 => Sys2Proof.Machine.execTickcmpWrite thread rs1 s
  | .ctxcmdRestart thread rs1 => Sys2Proof.Machine.execCtxcmdRestart thread rs1 s
  | .ctxcmdKill thread rs1 => Sys2Proof.Machine.execCtxcmdKill thread rs1 s
  | .chbindBind thread rs1 => Sys2Proof.Machine.execChbindBind thread rs1 s
  | .chbindUnbind thread rs1 => Sys2Proof.Machine.execChbindUnbind thread rs1 s
  | .trap thread rs1 => Sys2Proof.Machine.execTrap thread rs1 s
  | .eret thread => Sys2Proof.Machine.execEret thread s
  | .wfe thread => Sys2Proof.Machine.execWfe thread s
  | .wfeWake thread => Sys2Proof.Machine.execWfeWake thread s
  | .interruptTaken thread => Sys2Proof.Machine.execInterruptTaken thread s
  | .timerCompare thread => Sys2Proof.Machine.execTimerCompare thread s
  | .sccMsgWrite core ws => Sys2Proof.Machine.execSccMsgWrite core ws s
  | .coreRun region core ws => Sys2Proof.Machine.execCoreRun region core ws s
  | .coreStop region core ws => Sys2Proof.Machine.execCoreStop region core ws s
  | .sfaultAckTimeout core => Sys2Proof.Machine.execSfaultAckTimeout core s
  | .serviceCoreRelease core ws => Sys2Proof.Machine.execServiceCoreRelease core ws s
  | .threadSwitch core => Sys2Proof.Machine.execThreadSwitch core s
  | .dispatch region => Sys2Proof.Machine.execDispatch region s
  | .directoryRequest region line writeback requests => Sys2Proof.Machine.execDirectoryRequest region line writeback requests s
  | .moveStart region => Sys2Proof.Machine.execMoveStart region s
  | .moveSwitch parcel => Sys2Proof.Machine.execMoveSwitch parcel s
  | .moveDrain parcel => Sys2Proof.Machine.execMoveDrain parcel s
  | .flowBucketMoveStart region => Sys2Proof.Machine.execFlowBucketMoveStart region s
  | .flowBucketSwitch region bucket => Sys2Proof.Machine.execFlowBucketSwitch region bucket s
  | .flowBucketHoldExpiry region bucket => Sys2Proof.Machine.execFlowBucketHoldExpiry region bucket s
  | .qpctxWorkMove region ns drained => Sys2Proof.Machine.execQpctxWorkMove region ns drained s
  | .pin ws => Sys2Proof.Machine.execPin ws s
  | .unpin ws => Sys2Proof.Machine.execUnpin ws s
  | .hint ws => Sys2Proof.Machine.execHint ws s
  | .unhint ws => Sys2Proof.Machine.execUnhint ws s
  | .query ws => Sys2Proof.Machine.execQuery ws s
  | .allocPage ws => Sys2Proof.Machine.execAllocPage ws s
  | .freePage ws => Sys2Proof.Machine.execFreePage ws s
  | .freezeWrite ws => Sys2Proof.Machine.execFreezeWrite ws s
  | .fbmapPoolWrite region bucket ws => Sys2Proof.Machine.execFbmapPoolWrite region bucket ws s
  | .actionProgramSwap region ws => Sys2Proof.Machine.execActionProgramSwap region ws s
  | .swapComplete region => Sys2Proof.Machine.execSwapComplete region s
  | .poolSwap region ws => Sys2Proof.Machine.execPoolSwap region ws s
  | .bootAttemptStart proofs => Sys2Proof.Machine.execBootAttemptStart proofs s
  | .release => Sys2Proof.Machine.execRelease s
  | .bootAttemptFail => Sys2Proof.Machine.execBootAttemptFail s
  | .bootRetryWaitExpiry => Sys2Proof.Machine.execBootRetryWaitExpiry s
  | .bootPrefWrite ws => Sys2Proof.Machine.execBootPrefWrite ws s
  | .deepSleepEntry wakeIn => Sys2Proof.Machine.execDeepSleepEntry wakeIn s
  | .sleepRecordWrite training => Sys2Proof.Machine.execSleepRecordWrite training s
  | .sleepAbort => Sys2Proof.Machine.execSleepAbort s
  | .installSc ws host ends => Sys2Proof.Machine.execInstallSc ws host ends s
  | .installPc ws host ends => Sys2Proof.Machine.execInstallPc ws host ends s
  | .installAct ws host ends => Sys2Proof.Machine.execInstallAct ws host ends s
  | .installParse ws host ends => Sys2Proof.Machine.execInstallParse ws host ends s
  | .loaderCommandComplete => Sys2Proof.Machine.execLoaderCommandComplete s
  | .pldmRequestUpdate => Sys2Proof.Machine.execPldmRequestUpdate s
  | .pldmActivateFirmware => Sys2Proof.Machine.execPldmActivateFirmware s
  | .pldmCancelUpdate => Sys2Proof.Machine.execPldmCancelUpdate s
  | .pldmMonitoring path => Sys2Proof.Machine.execPldmMonitoring path s
  | .getMeasurements path => Sys2Proof.Machine.execGetMeasurements path s
  | .eccErrorDetected kind cell place beyond device => Sys2Proof.Machine.execEccErrorDetected kind cell place beyond device s
  | .parityErrorDetected kind cell victim => Sys2Proof.Machine.execParityErrorDetected kind cell victim s
  | .lockstepMiscompare => Sys2Proof.Machine.execLockstepMiscompare s
  | .lookoutWatchdogExpiry => Sys2Proof.Machine.execLookoutWatchdogExpiry s
  | .clockMonitorTrip clock => Sys2Proof.Machine.execClockMonitorTrip clock s
  | .voltageMonitorTrip rail microvolts => Sys2Proof.Machine.execVoltageMonitorTrip rail microvolts s
  | .thermalTrip region decidegrees => Sys2Proof.Machine.execThermalTrip region decidegrees s
  | .chipRebootTimer => Sys2Proof.Machine.execChipRebootTimer s
  | .safeStateReset ws => Sys2Proof.Machine.execSafeStateReset ws s
  | .spareSubstitutionComplete => Sys2Proof.Machine.execSpareSubstitutionComplete s
  | .regionRestore region ws => Sys2Proof.Machine.execRegionRestore region ws s
  | .regionRejoin region pass => Sys2Proof.Machine.execRegionRejoin region pass s
  | .scrubVisit kind cell place error beyond => Sys2Proof.Machine.execScrubVisit kind cell place error beyond s
  | .selftestRound proofs => Sys2Proof.Machine.execSelftestRound proofs s
  | .bistComplete kind cell pass measure bufferBank => Sys2Proof.Machine.execBistComplete kind cell pass measure bufferBank s
  | .flumeHeartbeatSend fl => Sys2Proof.Machine.execFlumeHeartbeatSend fl s
  | .flumeHeartbeatReceive fl beat => Sys2Proof.Machine.execFlumeHeartbeatReceive fl beat s
  | .flumeRefreshTimeout => Sys2Proof.Machine.execFlumeRefreshTimeout s
  | .peerHeartbeatTimeout fl member => Sys2Proof.Machine.execPeerHeartbeatTimeout fl member s
  | .peerActiveChange asserted => Sys2Proof.Machine.execPeerActiveChange asserted s
  | .commitApply seq covers good items => Sys2Proof.Machine.execCommitApply seq covers good items s
  | .commitAck seq => Sys2Proof.Machine.execCommitAck seq s
  | .intentRecord received => Sys2Proof.Machine.execIntentRecord received s
  | .intentAck number => Sys2Proof.Machine.execIntentAck number s
  | .intentTimeout => Sys2Proof.Machine.execIntentTimeout s
  | .promotion => Sys2Proof.Machine.execPromotion s
  | .electTimerExpiry => Sys2Proof.Machine.execElectTimerExpiry s
  | .bulkCopyComplete items => Sys2Proof.Machine.execBulkCopyComplete items s
  | .promote ws => Sys2Proof.Machine.execPromote ws s
  | .switch ws => Sys2Proof.Machine.execSwitch ws s
  | .cascadeReplicationApply fl full items => Sys2Proof.Machine.execCascadeReplicationApply fl full items s
  | .flumeRemoteFrameReceive fl member port cls md bytes => Sys2Proof.Machine.execFlumeRemoteFrameReceive fl member port cls md bytes s
  | .tallyBaseWrite word ws => Sys2Proof.Machine.execTallyBaseWrite word ws s
  | .bypass => Sys2Proof.Machine.execBypass s
  | .idcode => Sys2Proof.Machine.execIdcode s
  | .samplePreload sampled preload => Sys2Proof.Machine.execSamplePreload sampled preload s
  | .extest => Sys2Proof.Machine.execExtest s
  | .clamp => Sys2Proof.Machine.execClamp s
  | .highz => Sys2Proof.Machine.execHighz s
  | .flumePortUp fl authentic => Sys2Proof.Machine.execFlumePortUp fl authentic s
  | .flumeLaneLoss lane => Sys2Proof.Machine.execFlumeLaneLoss lane s
  | .dramTrainingComplete => Sys2Proof.Machine.execDramTrainingComplete s
  | .pldmComponentTransfer op => Sys2Proof.Machine.execPldmComponentTransfer op s
  | .spdmSecureSession path => Sys2Proof.Machine.execSpdmSecureSession path s

end Sys2Proof.Machine
end

