-- ==== Sys2Proof/Machine/Step.lean ====
section
/-! DEFINITION. One step of the block: the command at the front of the queue, or on an empty queue a tick of the clock. -/

namespace Sys2Proof.Machine

open Sys2Proof

/-- On an empty queue writes of hosts that are held become visible (entry 213) and one CLK_PIPE cycle passes, unless PWRGD is low, which holds the device in cold reset. DESIGN CHOICE, entry 4. -/
def State.tick (s : State) : Out := s.on fun d => d.landWrites.advance 1

/-- The command at the front of the queue, run with the queue's rest; on an empty queue the clock ticks. -/
def step (s : State) : Host.Outcome State Fault Refusal :=
  match s.pending with
  | [] => s.tick
  | c :: rest => exec c { s with pending := rest }

/-- The state with the command that a word spells put at the front of its queue; the table gives no command any bits, so no word spells one. -/
def State.withFetchWord (s : State) (nbits w : Nat) : State :=
  match Sys2Proof.decodeTableWord nbits w with
  | some c => { s with pending := c :: s.pending }
  | none => s

end Sys2Proof.Machine
end

