-- ==== Sys2Proof/Safety.lean ====
section
/-! DEFINITION. The terms in which statements are written: what a command does to the device, a write that meets no other, a thread that is ready to run an instruction, and the invariant that every step keeps. -/

namespace Sys2Proof.Machine

open Sys2Proof

/-- Power is good: every command acts (R466). -/
abbrev Up (s : State) : Prop := s.dev.boot.pwrgd = true

/-- The command answers a next state in which the device is `d`, its changes of memory applied, and in which the queue stands as it was. -/
def Gives (c : Instr) (s : State) (d : Dev) : Prop :=
  Sys2Proof.Machine.exec c s = .next { s with dev := d.settle s.dev.mem }

/-- Of the writes `ws` that meet on a register word in one cycle the write `w` takes effect on the device `d`, which arbitration leaves: power is good,
no sideband message whose message time is over stands on the control (it has committed before this cycle, R18), `w` wins (R16 to R19, R23),
the word belongs to a page that its function has been given (R173), and every bounded field stays within its bounds (R489). -/
def Takes (s : State) (k : RegKey) (ws : List Write) (w : Write) (d : Dev) : Prop :=
  Up s ∧ s.dev.overdue k.addr = false ∧ s.dev.arbitrate (s.dev.permits k) k.addr ws = (d, some w) ∧ d.given k = true ∧ d.inRange k w.value = true

/-- A write of a register word that nothing stands against: it is the only one of its cycle, no sideband message waits on the same control, in its message time or past it (R18), and its writer is permitted. -/
abbrev Alone (s : State) (k : RegKey) (w : Write) : Prop :=
  Up s ∧ s.dev.overdue k.addr = false ∧ s.dev.sbTop k.addr = none ∧ s.dev.permits k w.writer = true ∧ s.dev.given k = true ∧ s.dev.inRange k w.value = true

/-- The device whose thread has taken the slot of its next instruction: what the fetch leaves, in the thread's slot. -/
def Dev.issued (d : Dev) (th : Thread) : Dev := (d.fetch th (d.tpc th)).1.inSlot th fun _ d => d

/-- The CLK_PKT cycle of a packet-core thread's next slot; 0 for the other threads, which have none. -/
def Dev.issueSlot (d : Dev) (th : Thread) : Nat :=
  match th with
  | .packet c t => (d.fetch th (d.tpc th)).1.nextSlot c.val t.val
  | _ => 0

/-- A thread is ready to run an instruction: power is good, it may issue (R335), its fetch gives the instruction's word, and its profile and privilege have the instruction (R301, R306). -/
abbrev Ready (s : State) (th : Thread) (i : SOp) : Prop :=
  Up s ∧ s.dev.mayIssue th = true ∧ (s.dev.fetch th (s.dev.tpc th)).2 = .word i.encode ∧ i.wf = true ∧
  i.inProfile (profileOf th) = true ∧ i.priv (profileOf th) ≤ s.dev.tpriv th

/-- Where the thread is ready for the instruction, its command writes a register with a value and the thread goes on behind the instruction. -/
def Writes (c : Instr) (s : State) (th : Thread) (i : SOp) (rd : Fin 32) (v : DWord) : Prop :=
  Ready s th i → Gives c s ((s.dev.issued th).leave th rd v (s.dev.tpc th + 4))

/-- A context of a packet core waits in an instruction, tries it again in its next slot, and is at its turn (R336, R345). -/
abbrev Waits (s : State) (c : Fin 272) (t : Fin 16) (w : Nat) (i : SOp) : Prop :=
  Up s ∧ s.dev.tblocked (.packet c t) = some w ∧ SOp.decode w = some i ∧ s.dev.threadRuns (.packet c t) = true

/-- The device whose context has taken its next slot. -/
def Dev.slotted (d : Dev) (c : Fin 272) (t : Fin 16) : Dev := d.takeSlot c.val t.val (d.nextSlot c.val t.val)

/-- The entry `sqe` at the head of submission queue `sq` of a function's NVMe controller is fetched now: power is good, the controller is ready, the queue is `q` and not empty, its completion queue has room, the function may issue,
the entry has the opcode, and it is no entry of a replay set (R259, R455). -/
abbrev Fetches (s : State) (f sq op : Nat) (sqe : List Byte) (q : NvmeQ) : Prop :=
  Up s ∧ s.dev.hasNvme f = true ∧ (s.dev.nvme f).rdy = true ∧ (s.dev.nvme f).sqs.at none sq = some q ∧ q.head ≠ q.tail ∧ s.dev.canIssue f = true ∧ s.dev.readRoom f = true ∧
  s.dev.nvRoom f q.cq = true ∧ sqeOp sqe = op ∧ q.replay = 0

/-- The device after the entry at the head of a submission queue is read from the host and taken. -/
def Dev.nvTaken (d : Dev) (f sq : Nat) (q : NvmeQ) : Dev :=
  ((d.fetchNow f (q.base + 64 * q.head) 64 none).updNvme f fun c => { c with sqs := c.sqs.set none sq (some { q with head := (q.head + 1) % q.size }) }).bump .STO_CNT 0 0

/-- What a register instruction of a thread leaves alone (R307 to R313): every general register but `rd` of that thread, the program counters of the other threads, the trap, interrupt and translation registers of every thread (R327),
every register word of CSR space, packets, channels, events and outputs, and the queue of commands. -/
def State.keeps (s s' : State) (th : Thread) (rd : Fin 32) : Prop :=
  (∀ th' r, (th' ≠ th ∨ r ≠ rd) → gget (s'.dev.tregs th') r = gget (s.dev.tregs th') r) ∧
  (∀ th', th' ≠ th → s'.dev.tpc th' = s.dev.tpc th') ∧
  (∀ k, let x := s.dev.thr k
        let y := s'.dev.thr k
        y.tstate = x.tstate ∧ y.tcode = x.tcode ∧ y.tpc = x.tpc ∧ y.tinfo = x.tinfo ∧ y.tentry = x.tentry ∧ y.irqEn = x.irqEn ∧ y.irqPend = x.irqPend ∧
        y.tsave = x.tsave ∧ y.ptbase = x.ptbase ∧ y.tickcmp = x.tickcmp) ∧
  s'.dev.csr = s.dev.csr ∧ s'.dev.pkts = s.dev.pkts ∧ s'.dev.fifos = s.dev.fifos ∧ s'.dev.pktCores = s.dev.pktCores ∧ s'.dev.out = s.dev.out ∧
  s'.dev.raised = s.dev.raised ∧ s'.pending = s.pending

/-- A thread whose fetches are not translated: a packet core's, the Keystone's, or one of a service core whose translation is off (R330). -/
def Dev.untranslated (d : Dev) (th : Thread) : Prop := ∀ c t, th = .service c t → bitOf (d.thr (thrOf th)).ptbase 0 = false

/-- The canonical form of memory, and no change of memory left over from the command that made it. -/
def State.Inv (s : State) : Prop := Memory.wf s.dev.mem = true ∧ s.dev.stores = []

end Sys2Proof.Machine
end

