-- ==== Sys2Proof/Certificates/Slice0/Obligations.lean ====
section
/-! DEFINITION. The statements for the provers. -/

open Sys2Proof Sys2Proof.Machine


/-! ### Spans, the time counter and PPS (chapters 01, 02 and 18) -/

/-- R28 to R38, R69, R71, R77, R487: what each command of spans, the time counter and PPS does where it has its effect. Model's choices in it: log entries 3, 5, 8, 154, 155, 187, 195, 201, 202, 243. -/
def Obligations.SpanAndTimeCommandsComplete : Prop :=
  (∀ s : State, Up s → s.dev.flag F.MAC_TC_CTL_PPS_IN_EN = true →
    Gives .ppsInEdge s (((s.dev.setFld F.MAC_TC_TIME_NS 0 1 (s.dev.ptpNs % 10 ^ 9)).setFld F.MAC_TC_TIME_SEC_LO 0 1 (s.dev.ptpNs / 10 ^ 9)).setFld
      F.MAC_TC_TIME_SEC_HI 0 1 (s.dev.ptpNs / 10 ^ 9 / 2 ^ 32))) ∧
  (∀ s : State, Up s → s.dev.flag F.MAC_TC_CTL_PPS_OUT_EN = true → s.dev.ppsOut = true →
    Gives .ppsOutSecond s { (s.dev.advanceToPtp (s.dev.ptpNs / 10 ^ 9 * 10 ^ 9 + 100000000)).emit (.pin "PTP_PPS_OUT" false) with ppsOut := false }) ∧
  (∀ s : State, Up s → s.dev.flag F.MAC_TC_CTL_PPS_OUT_EN = true → s.dev.ppsOut = false →
    Gives .ppsOutSecond s { (s.dev.advanceToPtp ((s.dev.ptpNs / 10 ^ 9 + 1) * 10 ^ 9)).emit (.pin "PTP_PPS_OUT" true) with ppsOut := true }) ∧
  (∀ (s : State) (ws : List Write) (w : Write) (d : Dev), Takes s ⟨.SPAN_CFG, 0, 0, 0⟩ ws w d →
    10 ≤ F.SPAN_CFG_LEN_US.ofWord w.value → F.SPAN_CFG_LEN_US.ofWord w.value ≤ 1000 →
    Gives (.spanCfgWrite ws) s ({ d.plainWrite ⟨.SPAN_CFG, 0, 0, 0⟩ w.value with span := { d.span with cfgWait := 1 } }.setChip F.SPAN_STATUS_PENDING 1)) ∧
  (∀ (s : State) (ws : List Write) (w : Write) (d : Dev), Takes s ⟨.SPAN_CFG, 0, 0, 0⟩ ws w d →
    (F.SPAN_CFG_LEN_US.ofWord w.value < 10 ∨ 1000 < F.SPAN_CFG_LEN_US.ofWord w.value) →
    Gives (.spanCfgWrite ws) s (d.setChip F.SPAN_STATUS_BADCFG 1)) ∧
  (∀ (s : State) (ws : List Write) (w : Write) (d : Dev), Takes s ⟨.MAC_TC_CTL, 0, 0, 0⟩ ws w d →
    let e := d.plainWrite ⟨.MAC_TC_CTL, 0, 0, 0⟩ w.value;
    e.flag F.MAC_TC_CTL_SYNC ≠ d.flag F.MAC_TC_CTL_SYNC →
    (d.ppsOut = false ∨ e.flag F.MAC_TC_CTL_PPS_OUT_EN = true → Gives (.syncChange (.write ws)) s (e.spanEvent d.spanIsAligned)) ∧
    (d.ppsOut = true → e.flag F.MAC_TC_CTL_PPS_OUT_EN = false →
      Gives (.syncChange (.write ws)) s ({ e.emit (.pin "PTP_PPS_OUT" false) with ppsOut := false }.spanEvent d.spanIsAligned))) ∧
  (∀ s : State, Up s → s.dev.factoryRuns = true → s.dev.timeAware.best ≠ none → s.dev.flag F.MAC_TC_CTL_SYNC = true →
    Gives (.syncChange .announceTimeout) s
      ((({ s.dev with timeAware := {} } : Dev).setChip F.MAC_TC_CTL_SYNC 0).spanEvent s.dev.spanIsAligned)) ∧
  (∀ (s : State) (word : Fin 2) (ws : List Write) (w : Write) (d : Dev), Takes s ⟨.TLY_BASE, 0, 0, word.val⟩ ws w d →
    d.flag F.TLY_BASE_EN = false → (d.plainWrite ⟨.TLY_BASE, 0, 0, word.val⟩ w.value).inDram (d.plainWrite ⟨.TLY_BASE, 0, 0, word.val⟩ w.value).tlyBase 0x8000000 = true →
    Gives (.tallyBaseWrite word ws) s (d.plainWrite ⟨.TLY_BASE, 0, 0, word.val⟩ w.value)) ∧
  (∀ (s : State) (ws : List Write) (w : Write) (d : Dev), Takes s ⟨.MAC_TC_ADJ, 0, 0, 1⟩ ws w d →
    Gives (.timeCounterStep ws) s
      ((({ d with clk := { d.clk with tc := (((d.clk.tc : Int) + toSigned64 (w.value.toNat * 2 ^ 32 + d.tcOfsLo) * 2 ^ 32) % (tcModulus : Int)).toNat }, tcOfsLo := 0 }.setChip
        F.MAC_TC_CTL_STEPPED 1).spanEvent d.spanIsAligned).restartGates)) ∧
  (∀ (s : State) (silent : List SilentUnit), Up s →
    Gives (.spanBoundary silent) s
      ((({ (s.dev.toBoundary.splitPauses.fixDepths.latchSpan.nextSpan.seedMaxima.spanInterrupt.recoverRates) with failRaised := false }.safe fun f =>
        { f with corr := [] }).pairBoundary (s.dev.toBoundary.splitPauses.fixDepths.latchSpan.fld F.SPAN_SEQ_SEQ)
          s.dev.toBoundary.splitPauses.fixDepths.tly).cruiserStep.each silent fun u d => d.silence u))

/-! ### Ports (chapter 02) -/

/-- R45 to R47, R493: the lane map and the state machine of ports. Model's choices in it: log entries 9, 23, 178, 192, 210. -/
def Obligations.PortCommandsComplete : Prop :=
  (∀ (s : State) (ws : List Write) (w : Write) (d : Dev), Takes s ⟨.MAC_LANE_MAP, 0, 0, 0⟩ ws w d → mapValid w.value.toNat = true →
    let old := d.laneMap
    let new := w.value.toNat
    let changed : Nat → Bool := fun l => laneCode old l != laneCode new l || portIn old l != portIn new l
    let gone := (List.range 16).filter fun p => portIn old p == p && (List.range (widthOf (laneCode old p))).any fun j => changed (p + j)
    let come := (List.range 16).filter fun p => portIn new p == p && (List.range (widthOf (laneCode new p))).any fun j => changed (p + j)
    Gives (.laneMapWrite ws) s
      ((((d.each gone fun p d => d.toDisabled p).setWord ⟨.MAC_LANE_MAP, 0, 0, 0⟩ w.value).showMembers).each come fun p d => d.evalDisabled p)) ∧
  (∀ (s : State) (ws : List Write) (w : Write) (d : Dev), Takes s ⟨.MAC_LANE_MAP, 0, 0, 0⟩ ws w d → mapValid w.value.toNat = false →
    Gives (.laneMapWrite ws) s (d.setChip F.MAC_LANE_STAT_BADMAP 1)) ∧
  (∀ (s : State) (lane : Fin 16) (ws : List Write) (w : Write) (d : Dev), s.dev.isPort lane.val = true → Takes s ⟨.MAC_PORT_CFG, lane.val, 0, 0⟩ ws w d →
    let k : RegKey := ⟨.MAC_PORT_CFG, lane.val, 0, 0⟩
    let v := d.wouldBe k w.value;
    64 ≤ F.MAC_PORT_CFG_MAX_LEN.ofWord v → F.MAC_PORT_CFG_LANE_RATE.ofWord v ≤ 5 →
    (v.toNat / 2 ^ 24 ≠ (d.word k).toNat / 2 ^ 24 →
      Gives (.portEnable lane ws) s (((d.setWord k v).toDisabled lane.val).evalDisabled lane.val) ∧
      Gives (.portDisable lane ws) s (((d.setWord k v).toDisabled lane.val).evalDisabled lane.val) ∧
      Gives (.portCfgChange lane ws) s (((d.setWord k v).toDisabled lane.val).evalDisabled lane.val)) ∧
    (v.toNat / 2 ^ 24 = (d.word k).toNat / 2 ^ 24 → Gives (.portCfgChange lane ws) s (d.setWord k v))) ∧
  (∀ (s : State) (port : Fin 16) (rates : List (Fin 6)) (fecs : List (Fin 6 × Fin 4)) (rate fec : Nat), Up s → s.dev.portState port.val = 1 →
    s.dev.resolveMode port.val (rates.map Fin.val) (fecs.map fun e => (e.1.val, e.2.val)) = some (rate, fec) →
    Gives (.anResolved port rates fecs) s (s.dev.enterState port.val 2 rate fec)) ∧
  (∀ (s : State) (port : Fin 16), Up s → s.dev.portState port.val = 1 →
    Gives (.anNoCommonMode port) s (s.dev.enterState port.val 1 0 0) ∧
    Gives (.anBasePageTimeout port) s (s.dev.startTrial port.val ((s.dev.trialRates port.val).headD 0))) ∧
  (∀ (s : State) (port : Fin 16), Up s → s.dev.portState port.val = 2 →
    Gives (.trainingFail port) s (s.dev.enterState port.val 1 0 0) ∧
    Gives (.pcsAlignmentLoss port) s (s.dev.enterState port.val 1 0 0) ∧
    ((s.dev.port port.val).held = false → (s.dev.port port.val).remoteFault = false → Gives (.trainingComplete port) s (s.dev.goUp port.val)) ∧
    ((s.dev.port port.val).held = false → (s.dev.port port.val).remoteFault = true →
      Gives (.trainingComplete port) s (s.dev.updPort port.val fun x => { x with held := true }))) ∧
  (∀ (s : State) (port : Fin 16), Up s → s.dev.portState port.val = 3 → (s.dev.port port.val).held = false →
    (s.dev.clk.now ≤ (s.dev.port port.val).trialFrom + cyclesOfMs 500 → (s.dev.port port.val).remoteFault = false →
      Gives (.trialAligned port) s (s.dev.goUp port.val)) ∧
    Gives (.trialTimeout port) s ((s.dev.advanceTo ((s.dev.port port.val).trialFrom + cyclesOfMs 500)).nextTrial port.val)) ∧
  (∀ (s : State) (port : Fin 16), Up s → s.dev.portState port.val = 4 →
    Gives (.pcsAlignmentLoss port) s ((s.dev.leaveUp port.val).restartPort port.val)) ∧
  (∀ (s : State) (port : Fin 16), Up s → (s.dev.updPort port.val fun x => { x with remoteFault := true }).portUp port.val = true →
    Gives (.remoteFaultReceived port) s (((s.dev.updPort port.val fun x => { x with remoteFault := true }).leaveUp port.val).restartPort port.val)) ∧
  (∀ (s : State) (port : Fin 16), Up s → ((s.dev.updPort port.val fun x => { x with remoteFault := false }).port port.val).held = true →
    Gives (.remoteFaultCleared port) s ((s.dev.updPort port.val fun x => { x with remoteFault := false }).goUp port.val))

/-! ### Pause and priority flow control (chapter 02) -/

/-- R50 to R57, R59 to R61: pause frames, holds and the watchdog. Model's choices in it: log entries 3, 10, 181, 193, 204, 211. -/
def Obligations.PauseCommandsComplete : Prop :=
  (∀ (s : State) (port : Fin 16) (f : List Byte) (t : List (List Byte)), Up s → s.dev.portUp port.val = true → s.dev.mute = false →
    (s.dev.port port.val).txPkt = none → (s.dev.port port.val).control = f :: t →
    Gives (.pauseFrameSend port) s (((s.dev.advanceTo (s.dev.port port.val).wireBusy).updPort port.val fun x => { x with control := t }).sendControl port.val f)) ∧
  (∀ (s : State) (port : Fin 16) (f : List Byte), Up s → s.dev.portUp port.val = true → s.dev.mute = false →
    (s.dev.port port.val).txPkt = none → (s.dev.port port.val).control = [] → s.dev.dueFrame port.val (s.dev.pfcMode port.val) ≠ none →
    (s.dev.advanceTo (s.dev.port port.val).wireBusy).dueFrame port.val ((s.dev.advanceTo (s.dev.port port.val).wireBusy).pfcMode port.val) = some f →
    Gives (.pauseFrameSend port) s (((s.dev.advanceTo (s.dev.port port.val).wireBusy).clearDue port.val).sendControl port.val f)) ∧
  (∀ (s : State) (port : Fin 16) (prio : Fin 8), Up s → (s.dev.pauseOf port.val prio.val).xoff = true →
    let d := s.dev.advanceTo (s.dev.pauseOf port.val prio.val).refreshAt
    Gives (.pauseRefresh port prio) s (d.updPause port.val prio.val fun x =>
      { x with refreshAt := x.refreshAt + d.refreshCycles port.val
               due := if d.fld F.MAC_PAUSE_LWM_CELLS port.val prio.val < d.pauseOcc port.val prio.val then some true else x.due })) ∧
  (∀ (s : State) (port : Fin 16) (ws : List Write) (w : Write) (d : Dev), s.dev.isPort port.val = true → Takes s ⟨.MAC_PFC_CFG, port.val, 0, 0⟩ ws w d →
    F.MAC_PFC_CFG_MODE.ofWord (d.wouldBe ⟨.MAC_PFC_CFG, port.val, 0, 0⟩ w.value) ≠ 3 →
    Gives (.pfcModeChange port ws) s (pfcCfgEffect ⟨.MAC_PFC_CFG, port.val, 0, 0⟩ w d) ∧
    Gives (.pfcTxEnChange port ws) s (pfcCfgEffect ⟨.MAC_PFC_CFG, port.val, 0, 0⟩ w d)) ∧
  (∀ (s : State) (port : Fin 16) (prio : Fin 8) (ws : List Write) (w : Write) (d : Dev), s.dev.isPort port.val = true →
    Takes s ⟨.MAC_PAUSE_HWM, port.val, prio.val, 0⟩ ws w d →
    Gives (.pauseWatermarkWrite port prio true ws) s
      ((d.setWord ⟨.MAC_PAUSE_HWM, port.val, prio.val, 0⟩ (d.wouldBe ⟨.MAC_PAUSE_HWM, port.val, prio.val, 0⟩ w.value)).pauseTest port.val)) ∧
  (∀ (s : State) (port : Fin 16) (prio : Fin 8) (ws : List Write) (w : Write) (d : Dev), s.dev.isPort port.val = true →
    Takes s ⟨.MAC_PAUSE_LWM, port.val, prio.val, 0⟩ ws w d →
    F.MAC_PAUSE_LWM_CELLS.ofWord (d.wouldBe ⟨.MAC_PAUSE_LWM, port.val, prio.val, 0⟩ w.value) < d.fld F.MAC_PAUSE_HWM_CELLS port.val prio.val →
    Gives (.pauseWatermarkWrite port prio false ws) s
      ((d.setWord ⟨.MAC_PAUSE_LWM, port.val, prio.val, 0⟩ (d.wouldBe ⟨.MAC_PAUSE_LWM, port.val, prio.val, 0⟩ w.value)).pauseTest port.val)) ∧
  (∀ (s : State) (port : Fin 16) (ws : List Write) (w : Write) (d : Dev), s.dev.isPort port.val = true → Takes s ⟨.MAC_WD_CFG, port.val, 0, 0⟩ ws w d →
    let k : RegKey := ⟨.MAC_WD_CFG, port.val, 0, 0⟩
    let v := d.wouldBe k w.value;
    (1 ≤ F.MAC_WD_CFG_TREC_MS.ofWord v ∧ F.MAC_WD_CFG_TREC_MS.ofWord v ≤ 10000) → (1 ≤ F.MAC_WD_CFG_TWD_MS.ofWord v ∧ F.MAC_WD_CFG_TWD_MS.ofWord v ≤ 10000) →
    ((d.setWord k v).flag F.MAC_WD_CFG_EN port.val = true →
      Gives (.watchdogCfgWrite port ws) s ((d.setWord k v).each (List.range 8) fun q e =>
        let e := e.settleHold port.val q
        let e := if d.flag F.MAC_WD_CFG_EN port.val = false ∧ (e.pauseOf port.val q).stretch = true then
            e.updPause port.val q fun x => { x with timed := some d.clk.now } else e
        (e.stormTest port.val q).stormExit port.val q)) ∧
    ((d.setWord k v).flag F.MAC_WD_CFG_EN port.val = false →
      Gives (.watchdogDisable port ws) s ((d.setWord k v).each (List.range 8) fun q e =>
        (e.updPause port.val q fun x => { x with timed := none }).leaveStorm port.val q))) ∧
  (∀ (s : State) (port : Fin 16) (frame : List Byte) (t : Nat × Nat) (l : List (Nat × Nat)), Up s → s.dev.portUp port.val = true →
    beVal (sliceB frame 12 2) = 0x8808 → s.dev.passive = false → fcsGood frame = true → 64 ≤ frame.length → frame.length ≤ s.dev.fld F.MAC_PORT_CFG_MAX_LEN port.val →
    let op := beVal (sliceB frame 14 2)
    let d := ((s.dev.countGoodRx port.val frame).onlyIf (op == 1) fun d => d.portCount port.val 21).onlyIf (op == 0x101) fun d =>
      d.each ((List.range 8).filter fun q => bitOf (beVal (sliceB frame 16 2)) q) fun q d => d.portCount port.val (23 + q);
    (d.pauseNamed port.val frame = t :: l →
      Gives (.controlFrameReceive port frame) s (d.each (t :: l) fun t d =>
        if t.2 = 0 then d.releaseHold port.val t.1 else d.startHold port.val t.1 (cyclesOfBits (t.2 * 512) (d.portSpeed port.val)))) ∧
    (d.pauseNamed port.val frame = [] → Gives (.controlFrameReceive port frame) s (d.portCount port.val 39))) ∧
  (∀ (s : State) (port : Fin 16) (prio : Fin 8) (e : Nat), Up s → (s.dev.pauseOf port.val prio.val).hold = some e →
    Gives (.pauseHoldExpiry port prio) s ((s.dev.advanceTo e).endHold port.val prio.val e)) ∧
  (∀ (s : State) (port : Fin 16) (prio : Fin 8) (g : Nat), Up s → (s.dev.pauseOf port.val prio.val).gap = some g →
    Gives (.pauseGapExpiry port prio) s
      ((s.dev.advanceTo (g + 1650)).updPause port.val prio.val fun x => { x with stretch := false, timed := none, gap := none })) ∧
  (∀ (s : State) (port : Fin 16) (prio : Fin 8) (e t : Nat), Up s → (s.dev.pauseOf port.val prio.val).hold = some e →
    (s.dev.pauseOf port.val prio.val).timed = some t → max (t + s.dev.twd port.val) s.dev.clk.now < e →
    Gives (.stormStateEntry port prio) s ((s.dev.advanceTo (t + s.dev.twd port.val)).enterStorm port.val prio.val)) ∧
  (∀ (s : State) (port : Fin 16) (prio : Fin 8), Up s → (s.dev.pauseOf port.val prio.val).storm = true →
    Gives (.stormStateExit port prio) s
      ((s.dev.advanceTo ((s.dev.pauseOf port.val prio.val).stormRef + s.dev.trec port.val)).leaveStorm port.val prio.val))

/-! ### Gates and module buses (chapter 02) -/

/-- R62 to R65: gate control lists. Model's choices in it: log entries 3, 191, 209. -/
def Obligations.GateCommandsComplete : Prop :=
  (∀ (s : State) (port : Fin 16) (ws : List Write) (w : Write) (d : Dev), s.dev.isPort port.val = true → Takes s ⟨.MAC_GCL_CTL, port.val, 0, 0⟩ ws w d →
    bitOf w.value.toNat 31 = true → 1 ≤ F.MAC_GCL_CTL_LEN.ofWord (d.wouldBe ⟨.MAC_GCL_CTL, port.val, 0, 0⟩ w.value) →
    F.MAC_GCL_CTL_LEN.ofWord (d.wouldBe ⟨.MAC_GCL_CTL, port.val, 0, 0⟩ w.value) ≤ 1024 →
    let d := d.setWord ⟨.MAC_GCL_CTL, port.val, 0, 0⟩ (d.wouldBe ⟨.MAC_GCL_CTL, port.val, 0, 0⟩ w.value)
    Gives (.gclCommit port ws) s
      ((d.setFld F.MAC_GCL_CTL_PENDING port.val 0 1).updPort port.val fun x => { x with gatePend := some (d.adminList port.val) })) ∧
  (∀ (s : State) (port : Fin 16) (g : GateList), Up s → (s.dev.port port.val).gatePend = some g →
    let d := ((s.dev.advanceToPtp g.start).setFld F.MAC_GCL_CTL_PENDING port.val 0 0).updPort port.val fun x => { x with gatePend := none };
    (g.valid = true → Gives (.gclConfigChange port) s ((d.updPort port.val fun x => { x with gateOper := some g }).startCycle port.val g.start)) ∧
    (g.valid = false → Gives (.gclConfigChange port) s (d.setFld F.MAC_GCL_CTL_BADLIST port.val 0 1))) ∧
  (∀ (s : State) (port : Fin 16) (g : GateList) (e : Nat × Nat), Up s → (s.dev.port port.val).gateOper = some g →
    g.entries[(s.dev.port port.val).gateIdx + 1]? = some e → (s.dev.port port.val).gateNext < (s.dev.port port.val).gateCycle →
    Gives (.gateEntryChange port) s ((s.dev.advanceToPtp (s.dev.port port.val).gateNext).updPort port.val fun x =>
      { x with gateIdx := (s.dev.port port.val).gateIdx + 1, gates := e.2, gateNext := (s.dev.port port.val).gateNext + e.1 })) ∧
  (∀ (s : State) (port : Fin 16), Up s → (s.dev.port port.val).gateOper.isSome = true →
    Gives (.gateCycleStart port) s
      ((s.dev.advanceToPtp (s.dev.port port.val).gateCycle).startCycle port.val (s.dev.port port.val).gateCycle))

/-- R74 to R76: module management buses. Model's choices in it: log entry 3. -/
def Obligations.ModuleBusCommandsComplete : Prop :=
  (∀ (s : State) (bus : Fin 16) (sdaLow : Bool) (ws : List Write) (w : Write) (d : Dev), Takes s ⟨.MAC_MOD_CMD, bus.val, 0, 0⟩ ws w d →
    bitOf w.value.toNat 31 = true → d.flag F.MAC_MOD_STAT_BUSY bus.val = false →
    1 ≤ F.MAC_MOD_CMD_LEN.ofWord (d.wouldBe ⟨.MAC_MOD_CMD, bus.val, 0, 0⟩ w.value) →
    F.MAC_MOD_CMD_LEN.ofWord (d.wouldBe ⟨.MAC_MOD_CMD, bus.val, 0, 0⟩ w.value) ≤ 8 →
    let k : RegKey := ⟨.MAC_MOD_CMD, bus.val, 0, 0⟩
    let e := (d.setWord k (d.wouldBe k w.value)).setFld F.MAC_MOD_STAT_BUSY bus.val 0 1;
    ((e.modBus bus.val).recovered = true → sdaLow = false → e.flag F.MAC_MOD_STAT_UNAVAIL bus.val = false →
      Gives (.modCmdGo bus sdaLow ws) s (e.startModCmd bus.val)) ∧
    ((e.modBus bus.val).recovered = false ∨ sdaLow = true ∨ e.flag F.MAC_MOD_STAT_UNAVAIL bus.val = true →
      Gives (.modCmdGo bus sdaLow ws) s (e.updMod bus.val fun x => { x with phase := .recover d.clk.now, queued := true }))) ∧
  (∀ (s : State) (bus : Fin 16) (nack : Bool) (data : List Byte), Up s → (s.dev.modBus bus.val).phase = .command →
    ((s.dev.flag F.MAC_MOD_CMD_READ bus.val = false ∨ nack = true) → Gives (.modCmdDone bus nack data) s (s.dev.endModCmd bus.val nack false false)) ∧
    (s.dev.flag F.MAC_MOD_CMD_READ bus.val = true → nack = false →
      let v := leVal (data.take (s.dev.fld F.MAC_MOD_CMD_LEN bus.val))
      Gives (.modCmdDone bus nack data) s
        (((s.dev.setFld F.MAC_MOD_DATA_DATA bus.val 0 v).setFld F.MAC_MOD_DATA_DATA bus.val 1 (v / 2 ^ 32)).endModCmd bus.val false false false)) ∧
    Gives (.modStretchTimeout bus) s (s.dev.endModCmd bus.val false false true)) ∧
  (∀ (s : State) (bus : Fin 16) (t0 : Nat), Up s → (s.dev.modBus bus.val).phase = .recover t0 →
    (∀ k : Fin 9, Gives (.modBusRecovery bus (some k)) s ((s.dev.advanceTo (t0 + cyclesOfUs (10 * (k.val + 1)))).modReady bus.val)) ∧
    Gives (.modBusRecovery bus none) s ((s.dev.advanceTo (t0 + cyclesOfUs 90)).updMod bus.val fun x => { x with phase := .wait t0 })) ∧
  (∀ (s : State) (bus : Fin 16) (t0 : Nat), Up s → (s.dev.modBus bus.val).phase = .wait t0 →
    (∀ k : Fin 9, Gives (.modRecoveryWaitExpiry bus (some k)) s ((s.dev.advanceTo (t0 + cyclesOfUs (35090 + 10 * (k.val + 1)))).modReady bus.val)) ∧
    (let d := ((s.dev.advanceTo (t0 + cyclesOfUs 35180)).onlyIf (!(s.dev.advanceTo (t0 + cyclesOfUs 35180)).flag F.MAC_MOD_STAT_UNAVAIL bus.val) fun d =>
        (d.setFld F.MAC_MOD_STAT_UNAVAIL bus.val 0 1).chipEvent 0x0C bus.val).updMod bus.val fun x => { x with recovered := true };
      (d.modBus bus.val).queued = true → Gives (.modRecoveryWaitExpiry bus none) s (d.endModCmd bus.val false true false)))

/-! ### Frames, the pipeline and tables (chapters 02 to 05) -/

/-- R48, R78 to R81, R92 to R94, R140 to R143: reception, the pipeline's slots, the stages and the exit of a pass. Model's choices in it: log entries 11, 23, 71, 72, 182, 194, 198, 212. -/
def Obligations.PacketPathCommandsComplete : Prop :=
  (∀ (s : State) (port : Fin 16) (head : List Byte), Up s → s.dev.portUp port.val = true → s.dev.rx.at none port.val = none →
    beVal (sliceB head 12 2) ≠ 0x8808 → s.dev.passive = false →
    let p := port.val
    let r := p / 4 + (if s.dev.portWidth p = 8 then spreadHash head % 2 else 0)
    let prio := s.dev.ingressPrio p head
    let x := s.dev.newPkt { region := r, buf := s.dev.nextPkt, source := p, prio := prio, rxNs := s.dev.ptpNs, bd := s.dev.fld F.MAC_ING_CFG_DEF_BD p, tenant := s.dev.fld F.MAC_ING_CFG_DEF_TENANT p }
    Gives (.frameReceiveStart port head) s
      { x.1 with bufs := x.1.bufs.set {} x.2 { port := some p, prio := prio, region := r, refs := 1 }
                 rx := x.1.rx.set none p (some { pkt := x.2 }) }) ∧
  (∀ (s : State) (port : Fin 16) (data : List Byte) (noSlot : Bool) (x : Rx), Up s → s.dev.rx.at none port.val = some x → x.dead = false →
    x.bytes.length < s.dev.fld F.MAC_PORT_CFG_MAX_LEN port.val → (noSlot = false ∨ s.dev.portWidth port.val ≠ 8) →
    s.dev.occ port.val (s.dev.pkt x.pkt).prio < s.dev.fld F.SCH_IN_LIMIT_CELLS (port.val / 4) (8 * (port.val % 4) + (s.dev.pkt x.pkt).prio) →
    s.dev.fld F.SCH_BUF_STAT_USED (s.dev.pkt x.pkt).region < 65536 →
    Gives (.cellArrival port data noSlot) s
      ({ s.dev with rx := s.dev.rx.set none port.val (some { x with bytes := x.bytes ++ data.take 256 }) }.takeCells x.pkt 1)) ∧
  (∀ (s : State) (port : Fin 16) (corrected uncorrectable : Nat) (x : Rx) (d : Dev) (f : List Byte), Up s → s.dev.portUp port.val = true →
    s.dev.rx.at none port.val = some x → x.dead = false →
    let e : Dev := { (s.dev.portCount port.val 50 corrected).portCount port.val 51 uncorrectable with rx := s.dev.rx.set none port.val none };
    64 ≤ x.bytes.length → x.bytes.length ≤ e.fld F.MAC_PORT_CFG_MAX_LEN port.val → fcsGood x.bytes = true →
    (e.countRx port.val x.bytes).macsecRx port.val (x.bytes.take (x.bytes.length - 4)) = (d, some f) →
    Gives (.frameReceiveEnd ⟨port, corrected, uncorrectable⟩) s ((d.updPkt x.pkt fun k => { k with bytes := f }).joinInput x.pkt (d.pkt x.pkt).region 0)) ∧
  (∀ (s : State) (region : Fin 4), Up s → bitOf (s.dev.fld F.ERR_STAT_FENCED) region.val = false →
    let r := region.val
    let d0 := (s.dev.advanceTo (s.dev.arbs.at {} r).next).dropOldRecirc r
    let d : Dev := { d0 with arbs := d0.arbs.upd {} r fun a => { a with next := d0.clk.now + 1 } };
    (d.waiting r 0 ≠ [] → Gives (.pipelineSlotGrant region) s (d.grantSlot r 0)) ∧
    (∀ (src : Nat) (a : Arb), d.waiting r 0 = [] → d.arbPick r (d.arbs.at {} r) = some (src, a) →
      Gives (.pipelineSlotGrant region) s ({ d with arbs := d.arbs.set {} r a }.grantSlot r src))) ∧
  (∀ (s : State) (region : Fin 4) (id : Nat) (l : List Nat), Up s → s.dev.waiting region.val 1 = id :: l →
    Gives (.recircWaitExpiry region) s ((s.dev.advanceTo ((s.dev.pkt id).since + 16501)).recircWaitDrop region.val id)) ∧
  (∀ (s : State) (region : Fin 4) (id : Nat), Up s →
    ((s.dev.pipeQ.at [] region.val).find? fun id => (s.dev.pkt id).place == .parser) = some id →
    let r := region.val
    let k := s.dev.pkt id
    let d := s.dev.advanceTo (k.slot + 96)
    Gives (.packetParse region) s
      (d.applyParse r id k (d.parseFrom r k.bank k.bytes 16 (d.fld F.CLS_START_STATE r (startOf k)) 0 {}))) ∧
  (∀ (s : State) (region : Fin 4) (ws : List Write) (w : Write) (d : Dev), Takes s ⟨.CLS_PARSE_CTL, region.val, 0, 0⟩ ws w d →
    bitOf w.value.toNat 31 = true →
    let e := d.plainWrite ⟨.CLS_PARSE_CTL, region.val, 0, 0⟩ w.value
    Gives (.parseBankCommit region ws) s (e.setFld F.CLS_PARSE_CTL_ACTIVE region.val 0 (1 - e.fld F.CLS_PARSE_CTL_ACTIVE region.val))) ∧
  (∀ (s : State) (region : Fin 4) (stage : Fin 12) (id : Nat), Up s →
    ((s.dev.pipeQ.at [] region.val).find? fun id => (s.dev.pkt id).place == .stage stage.val) = some id →
    let d := s.dev.advanceTo ((s.dev.pkt id).slot + 96 + 128 * stage.val)
    let t := (d.pkt id).nextTbl
    let e := d.stageLookup region.val stage.val t id;
    (t < 64 → d.tblLive region.val t = true → d.fld F.CLS_TBL_STAGE region.val t = stage.val →
      e.hasPkt id = false ∨ (e.pkt id).policed = (d.pkt id).policed ∨ d.olderAhead id = false →
      Gives (.stageLookup region stage) s ((e.dropHeld id stage.val).nextStage id stage.val)) ∧
    (64 ≤ t → Gives (.stageLookup region stage) s ((d.dropHeld id stage.val).nextStage id stage.val))) ∧
  (∀ (s : State) (region : Fin 4) (f : Fetch), Up s →
    (s.dev.fetches.find? fun f => f.region == region.val && !f.arrived) = some f →
    let e := s.dev.mapFetch fun g => if g = f then { g with arrived := true } else g
    let d := e.rejoin e.waiters
    Gives (.deferFetchComplete region) s { d with fetches := d.fetches.filter fun g => !(g.arrived && g.members.isEmpty) }) ∧
  (∀ (s : State) (region : Fin 4) (id : Nat), Up s →
    s.dev.exiting region.val = some id →
    let r := region.val
    let d0 := s.dev.advanceTo ((s.dev.pkt id).slot + 1632)
    let d1 : Dev := { d0 with pipeQ := d0.pipeQ.upd [] r (·.erase id) }
    let k := d1.pkt id
    let d := (d1.setPkt id { k with bytes := d1.reframed r k, rssBytes := k.bytes }).each k.mirrors fun m d => d.mirror r id m;
    (k.sa = none → Gives (.passExit region) s (d.dispose r id)) ∧
    (∀ x, k.sa = some x → Gives (.passExit region) s (d.withSa r id x)))

/-- R96, R149 to R155: a frame is chosen, started and finished on a port, and the scheduler's registers are written. Model's choices in it: log entries 35, 36, 37, 38, 41, 46. -/
def Obligations.SchedulerCommandsComplete : Prop :=
  (∀ (s : State) (port : Fin 16) (c tn id : Nat) (p3 c3 : Bool) (d e : Dev) (b : List Byte), Up s → s.dev.isPort port.val = true → s.dev.portUp port.val = true →
    s.dev.mute = false → (s.dev.port port.val).txPkt = none → (s.dev.port port.val).control = [] → s.dev.dueFrame port.val (s.dev.pfcMode port.val) = none →
    ((s.dev.advanceTo (s.dev.port port.val).wireBusy).each (List.range 8) fun q d => (d.settleHold port.val q).stormTest port.val q).portChoice port.val =
      (d, some (c, tn, id, p3, c3)) →
    (d.pauseOf port.val c).storm = false → d.wireLen port.val (d.pkt id) ≤ d.maxFrame port.val c → ((d.pkt id).encaps = [] ∨ (d.pkt id).frameLen ≤ d.fld F.MAC_PORT_CFG_MAX_LEN port.val) →
    d.protectTx port.val (d.pkt id) = (e, some b) →
    Gives (.frameTransmitStart port) s (e.startFrame port.val c tn id p3 c3 b)) ∧
  (∀ (s : State) (port : Fin 16) (id : Nat), Up s → (s.dev.port port.val).txPkt = some id →
    let p := port.val
    let st := s.dev.port p
    let n := st.txBytes.length
    let d0 := s.dev.advanceTo (st.wireBusy - cyclesOfBits (12 * 8) (s.dev.portSpeed p))
    let d1 := ((d0.portCount p 2 n).portCount p 3).onlyIf (bitOf (st.txBytes.headD 0).toNat 0) fun d => d.portCount p (if be st.txBytes 0 6 = 2 ^ 48 - 1 then 12 else 13)
    let d2 := (d1.tally (tlyPort p + 0x08) n).tally (tlyPort p + 0x18) 1
    let d3 := (d2.bump .SCH_Q_CNT (p / 4) (4 * st.txQueue)).bump .SCH_Q_CNT (p / 4) (4 * st.txQueue + 1) n
    Gives (.frameTransmitEnd port) s ((d3.updPort p fun x => { x with txPkt := none, txBytes := [] }).freePkt id)) ∧
  (∀ (s : State) (region : Fin 4) (node : Fin 4096) (word : Fin 2) (ws : List Write) (w : Write) (d : Dev), Takes s ⟨.SCH_TNODE, region.val, node.val, word.val⟩ ws w d →
    let k : RegKey := ⟨.SCH_TNODE, region.val, node.val, word.val⟩
    let e := d.setWord k (d.wouldBe k w.value);
    e.fld F.SCH_TNODE_WEIGHT region.val node.val ≠ 0 → (e.nodeQueues region.val node.val).2 ≤ 16383 →
    e.fld F.SCH_TNODE_CLASS region.val node.val = d.fld F.SCH_TNODE_CLASS region.val node.val →
    e.nodeQueues region.val node.val = d.nodeQueues region.val node.val →
    (e.flag F.SCH_TNODE_EN region.val node.val = d.flag F.SCH_TNODE_EN region.val node.val) →
    Gives (.tnodeWrite region node word ws) s e) ∧
  (∀ (s : State) (region : Fin 4) (policer : Fin 65536) (word : Fin 4) (ws : List Write) (w : Write) (d : Dev), Takes s ⟨.SCH_POL, region.val, policer.val, word.val⟩ ws w d →
    let k : RegKey := ⟨.SCH_POL, region.val, policer.val, word.val⟩
    let v := d.wouldBe k w.value
    let e := (d.keepPolicer region.val policer.val).setWord k v;
    (word.val = 0 → bitsOf v.toNat 31 30 ≠ 3 ∧ bitsOf v.toNat 20 0 ≤ 1600000) → (word.val = 2 → bitsOf v.toNat 20 0 ≤ 1600000) →
    let full := (e.fld F.SCH_POL_CBS region.val policer.val * 2 ^ 40, e.fld F.SCH_POL_EBS_PBS region.val policer.val * 2 ^ 40, e.clk.now)
    Gives (.policerWrite region policer word ws) s { e with pols := e.pols.set (0, 0, 0) (65536 * region.val + policer.val) full })

/-- R103 to R106, R127, R152: the primitives of action programs. Model's choices in it: log entries 28, 29, 34, 196. -/
def Obligations.PrimitivesComplete : Prop :=
  ∀ (s : State) (id : Nat) (x : DWord), Up s → s.dev.inStage id = true →
    let d := s.dev
    let k := d.pkt id
    let op := x.toNat;
    Gives (.fwd id x) s (d.updPkt id fun k => k.dispose 1 (op % 4096) fun k => { k with cls := op / 256 % 16 }) ∧
    Gives (.drop id x) s (d.updPkt id fun k => k.dispose 2 (op % 256) fun k => k) ∧
    (d.flag F.CLS_MIRROR_EN k.region (op % 64) = true → k.mirrors.length < 2 →
      Gives (.mirror id x) s (d.setPkt id { k with mirrors := k.mirrors ++ [op % 64] })) ∧
    (d.flag F.CLS_MIRROR_EN k.region (op % 64) = true → 2 ≤ k.mirrors.length → Gives (.mirror id x) s (d.bump .CLS_CNT k.region 4)) ∧
    Gives (.setmd id x) s (d.updPkt id fun k => k.writeMd (op % 64) (2 ^ (op / 64 % 4)) (op / 2 ^ 32 % 2 ^ 32)) ∧
    (d.olderAhead id = false → Gives (.police id x) s ((d.police k.region (op % 65536) k.frameLen k.colour).1.updPkt id fun k =>
      { k with colour := (d.police (d.pkt id).region (op % 65536) (d.pkt id).frameLen (d.pkt id).colour).2, policed := k.policed + 1 })) ∧
    (let i := 262144 * k.region + op % 262144
     let c := d.flowCnt.at (0, 0) i
     Gives (.count id x) s { d with flowCnt := d.flowCnt.set (0, 0) i ((c.1 + 1) % 2 ^ 64, (c.2 + k.frameLen) % 2 ^ 64) }) ∧
    Gives (.encap id x) s (d.updPkt id fun k => { k with encaps := k.encaps ++ [op % 4096] }) ∧
    (1 ≤ op % 16 → op % 16 ≤ 11 → Gives (.decap id x) s (d.updPkt id fun k => { k with decap := k.decap + op % 16 })) ∧
    Gives (.attachSa id x) s (d.updPkt id fun k => { k with sa := some (op % 2 ^ 24) }) ∧
    Gives (.deliverHost id x) s (d.updPkt id fun k => k.dispose 3 (op % 512) fun k =>
      { k with qbase := bitsOf op 24 16, qcount := bitsOf op 29 25 + 1, rss := bitOf op 30 }) ∧
    Gives (.deliverPool id x) s (d.updPkt id fun k => k.dispose 4 (op % 64) fun k => { k with byFlow := bitOf op 6 }) ∧
    Gives (.recirc id x) s (d.updPkt id fun k => k.dispose 5 0 fun k => k) ∧
    Gives (.next id x) s (d.updPkt id fun k => { k with nextTbl := op % 256 }) ∧
    (bitOf op 31 = true → bitOf op 30 = false → Gives (.setctx id x) s (d.updPkt id fun k => { k with bd := op % 4096 })) ∧
    (bitOf op 31 = false → bitOf op 30 = true → Gives (.setctx id x) s (d.updPkt id fun k => { k with tenant := bitsOf op 24 16 })) ∧
    (bitOf op 31 = true → bitOf op 30 = true →
      Gives (.setctx id x) s (d.updPkt id fun k => { k with bd := op % 4096, tenant := bitsOf op 24 16 }))

/-- R91 to R99, R105, R106: the tables' configuration and the table commands of a region, each with its STATUS. Model's choices in it: log entries 12, 13, 15, 16, 17, 25, 199. -/
def Obligations.TableCommandsComplete : Prop :=
  (∀ (s : State) (region : Fin 4) (table : Fin 64) (word : Fin 6) (ws : List Write) (w : Write) (d : Dev),
    Takes s ⟨.CLS_TBL, region.val, table.val, word.val⟩ ws w d →
    let k : RegKey := ⟨.CLS_TBL, region.val, table.val, word.val⟩
    let v := d.wouldBe k w.value;
    (word.val = 0 → F.CLS_TBL_KIND.ofWord v ≠ 3 ∧ F.CLS_TBL_STAGE.ofWord v ≤ 11 ∧ 1 ≤ F.CLS_TBL_KEY_WORDS.ofWord v ∧ F.CLS_TBL_KEY_WORDS.ofWord v ≤ 16) →
    (word.val = 2 → 1 ≤ F.CLS_TBL_NB_K.ofWord v ∧ F.CLS_TBL_NB_K.ofWord v ≤ 16384) →
    d.fld F.CLS_TBL_ENTRIES (d.homeOf region.val table.val) table.val = 0 → d.tblPlaces.at none (64 * region.val + table.val) = none →
    (d.setWord k v).tblEn region.val table.val = false →
    Gives (.tableCfgWrite region table word ws) s (d.setWord k v).showAllBad) ∧
  (∀ (s : State) (region : Fin 4) (table : Fin 64) (word : Fin 6) (ws : List Write) (w : Write) (d : Dev), word.val ∈ [1, 2] →
    Takes s ⟨.CLS_TBL, region.val, table.val, word.val⟩ ws w d →
    let k : RegKey := ⟨.CLS_TBL, region.val, table.val, word.val⟩
    let v := d.wouldBe k w.value;
    (word.val = 2 → 1 ≤ F.CLS_TBL_NB_K.ofWord v ∧ F.CLS_TBL_NB_K.ofWord v ≤ 16384) → v ≠ d.word k → d.fld F.CLS_TBL_ENTRIES (d.homeOf region.val table.val) table.val ≠ 0 →
    Gives (.tableCfgWrite region table word ws) s (d.setFld F.CLS_TBL_HELDCFG region.val table.val 1)) ∧
  (∀ (s : State) (region : Fin 4) (ws : List Write) (w : Write) (d : Dev), Takes s ⟨.CLS_TCMD, region.val, 0, 0⟩ ws w d →
    let r := region.val
    let k : RegKey := ⟨.CLS_TCMD, r, 0, 0⟩
    let v := d.wouldBe k w.value
    let op := F.CLS_TCMD_OP.ofWord v
    let t := F.CLS_TCMD_TBL.ofWord v
    let i := F.CLS_TCMD_INDEX.ofWord v
    let e := d.setWord k v
    let done : Dev × Nat → Dev := fun x => x.1.setFld F.CLS_TCMD_STATUS r 0 x.2
    let x := e.tableOp r t op (e.tkey r (e.keyWords (e.homeOf r t) t)) (e.fld F.CLS_TACT_ACTION r) (e.fld F.CLS_TDATA_HI r * 2 ^ 32 + e.fld F.CLS_TDATA_LO r) (e.rank w.writer);
    bitOf w.value.toNat 31 = true → d.flag F.CLS_TCMD_BUSY r = false →
    (op = 0 → x.2.1 ≠ 0 → Gives (.lookup region ws) s (done (x.1, x.2.1))) ∧
    (op = 0 → x.2.1 = 0 → Gives (.lookup region ws) s (done
      (((x.1.setFld F.CLS_TACT_ACTION r 0 x.2.2.1).setFld F.CLS_TDATA_LO r 0 x.2.2.2).setFld F.CLS_TDATA_HI r 0 (x.2.2.2 / 2 ^ 32), 0))) ∧
    (op = 1 → Gives (.insert region ws) s (done (x.1, x.2.1))) ∧
    (op = 2 → Gives (.delete region ws) s (done (x.1, x.2.1))) ∧
    (op = 3 → e.member = false → Gives (.tmpl region ws) s (done (e.tmplCmd r i))) ∧
    (op = 4 → Gives (.cread region ws) s (done (e.creadCmd r i, 0))) ∧
    (op = 5 → Gives (.tread region ws) s (done (e.treadCmd r i, 0))))

/-- R113 to R119, R129 to R134: the trie's update queue, learning and the sweeper. Model's choices in it: log entries 18, 19, 24, 199, 200. -/
def Obligations.ForwardingCommandsComplete : Prop :=
  (∀ (s : State) (ws : List Write) (w : Write) (d : Dev), Takes s ⟨.FWD_TUQ_PI, 0, 0, 0⟩ ws w d →
    Gives (.tuqDoorbell ws) s (d.plainWrite ⟨.FWD_TUQ_PI, 0, 0, 0⟩ w.value)) ∧
  (∀ (s : State) (e : List Byte), Up s → s.dev.tuqEntry = some e →
    ((e.headD 0).toNat = 0 → Gives .tuqNop s (s.dev.tuqDone 0)) ∧
    (4 < (e.headD 0).toNat → Gives .tuqNop s (s.dev.tuqDone 5)) ∧
    ((e.headD 0).toNat = 1 → Gives .tuqAdd s (s.dev.tuqAdd e)) ∧
    ((e.headD 0).toNat = 2 → Gives .tuqDel s (s.dev.tuqDel e)) ∧
    ((e.headD 0).toNat = 3 → s.dev.rebuilding = [] →
      let d : Dev := { s.dev with trie := s.dev.shadow, trieFree := s.dev.trieFree ++ [(s.dev.clk.now + 128, s.dev.trie)] }
      Gives .tuqCommit s
        ((((d.setChip F.FWD_TRIE_STAT_V4_PFX (d.trie.count false)).setChip F.FWD_TRIE_STAT_V6_PFX (d.trie.count true)).tally 0x20 1).tuqDone 0)) ∧
    ((e.headD 0).toNat = 4 →
      Gives .tuqSetnh s ({ s.dev with shadow := { s.dev.shadow with
        nhs := s.dev.shadow.nhs.set (0, 0) (leVal (sliceB e 6 2)) ((e.getD 4 0).toNat, leVal (sliceB e 24 8)) } }.tuqDone 0))) ∧
  (∀ (s : State) (t : Nat × Trie) (l : List (Nat × Trie)), Up s → s.dev.trieFree = t :: l →
    Gives .trieNodeFree s { s.dev.advanceTo t.1 with trieFree := l }.showTrieUse) ∧
  (∀ (s : State) (region : Fin 4) (x : Learn) (l : List Learn), Up s → s.dev.learnReqs.at [] region.val = x :: l →
    let d : Dev := { s.dev with learnReqs := s.dev.learnReqs.set [] region.val l }
    let e := d.before x.home x.table
    let stands := (e.findKey x.home x.table x.key).bind (e.tbl x.home x.table).entry;
    (stands = none → Gives (.learnRequest region) s (d.queueLearn { x with action := none })) ∧
    (∀ y : Way, stands = some y →
      (adBport y.adata = x.bport → Gives (.learnRequest region) s (d.hitKey x.home x.table x.key)) ∧
      (adBport y.adata ≠ x.bport → adStatic y.adata = true → Gives (.learnRequest region) s (d.bump .FWD_CNT 0 4)) ∧
      (adBport y.adata ≠ x.bport → adStatic y.adata = false →
        Gives (.learnRequest region) s ((d.bump .FWD_CNT 0 1).queueLearn { x with action := some y.action })))) ∧
  (∀ (s : State) (region : Fin 4) (x : Learn) (l : List Learn), Up s → s.dev.learnIns.at [] region.val = x :: l →
    let d : Dev := { s.dev with learnIns := s.dev.learnIns.set [] region.val l }
    let y := d.tableReq x.home x.table 5000 true x.key (x.action.getD (d.fld F.FWD_LEARN_CFG_ACT)) x.bport;
    d.hasBuckets x.home x.table = true → (d.staticAt x.home x.table x.key = true → Gives (.learnInsert region) s (d.bump .FWD_CNT 0 4)) ∧
    (d.staticAt x.home x.table x.key = false →
    (y.2 = 3 → Gives (.learnInsert region) s y.1.learnFail) ∧ (y.2 = 1 → Gives (.learnInsert region) s y.1) ∧
    (y.2 ≠ 3 → y.2 ≠ 1 → Gives (.learnInsert region) s ((y.1.bump .FWD_CNT 0 0).tally 0x08 1)))) ∧
  (∀ (s : State) (region : Fin 4) (table : Fin 64) (x : Sweep), Up s → s.dev.sweeps.at none (64 * region.val + table.val) = some x →
    let r := region.val
    let t := table.val;
    (x.pos < s.dev.positions r t → s.dev.aged r t = true →
      let d := s.dev.advanceTo (x.start + x.pos * x.len / s.dev.positions r t)
      Gives (.sweeperVisit region table) s ({ d with sweeps := d.sweeps.set none (64 * r + t) (some { x with pos := x.pos + 1 }) }.visit r t x.pos)) ∧
    (s.dev.aged r t = false ∨ s.dev.positions r t ≤ x.pos → Gives (.sweepRoundStart region table) s ((s.dev.advanceTo (x.start + x.len)).startRound r t (x.start + x.len))))

/-! ### Host interface (chapters 06 and 07) -/

/-- R161 to R169, R176, R183, R195 to R197, R490: functions, links, resets and configuration. Model's choices in it: log entries 49, 57, 65, 111, 112, 205, 207, 245. -/
def Obligations.HostFunctionCommandsComplete : Prop :=
  (∀ (s : State) (fn : Fin 512) (vector : Fin 2048), Up s → s.dev.pendBit fn.val vector.val = true → s.dev.usesMessages fn.val = true →
    s.dev.vecMasked fn.val vector.val = false → s.dev.canIssue fn.val = true →
    Gives (.msixUnmask fn vector) s (((s.dev.sendVec fn.val vector.val).setPend fn.val vector.val false).showIntx fn.val)) ∧
  (∀ (s : State) (fn : Fin 512), Up s → s.dev.fnExists fn.val = true → (s.dev.fn fn.val).built = false → (s.dev.fn fn.val).inReset = none →
    Gives (.functionEnable fn) s (s.dev.buildFn fn.val)) ∧
  (∀ (s : State) (fn : Fin 512) (word : Fin 3) (ws : List Write) (w : Write) (d : Dev), Takes s ⟨.HIF_FUNC_RES, 0, fn.val, word.val⟩ ws w d →
    let e := d.plainWrite ⟨.HIF_FUNC_RES, 0, fn.val, word.val⟩ w.value;
    (d.resBad fn.val (e.resWritten fn.val) = true → Gives (.funcResWrite fn word ws) s (d.setChip F.HIF_STAT_BADCFG 1)) ∧
    (d.resBad fn.val (e.resWritten fn.val) = false → (d.fn fn.val).enabled = true →
      Gives (.funcResWrite fn word ws) s
        ((e.updFn fn.val fun x => { x with held := some (d.res fn.val) }).setFld F.HIF_FUNC_RES_PENDING 0 fn.val 1))) ∧
  (∀ (s : State) (fn : Fin 512) (itag page pages : Nat), Up s →
    Gives (.atsInvalidate fn itag page pages) s
      { s.dev with atc := s.dev.atc.filter fun e => !(e.fn == fn.val && decide (page ≤ e.page ∧ e.page < page + pages))
                   invals := s.dev.invals ++ [(fn.val, itag, s.dev.reads.filterMap fun e => match e.2 with
                     | some x => if x.fn = fn.val then some e.1 else none
                     | none => none)] }) ∧
  (∀ (s : State) (fn : Fin 512) (id : Nat) (tags : List Nat), Up s → (s.dev.invals.find? fun x => x.1 == fn.val) = some (fn.val, id, tags) →
    (tags.any fun t => (s.dev.reads.at none t).isSome) = false →
    Gives (.atsInvalidateComplete fn) s ({ s.dev with invals := s.dev.invals.erase (fn.val, id, tags) }.emit (.invalDone fn.val id))) ∧
  (∀ (s : State) (host : Fin 2) (link : Fin 4) (gen : Fin 8), Up s → s.dev.flag F.HIF_PORT_CFG_EN 0 host.val = true →
    s.dev.perst.at false host.val = false → s.dev.boot.waitFrom = none → link.val < linksOf (s.dev.shape host.val).1 →
    s.dev.pfsOn host.val link.val ≠ [] →
    0 < min gen.val (s.dev.shape host.val).2 →
    let i := 4 * host.val + link.val
    let g := min gen.val (s.dev.shape host.val).2
    Gives (.hostLinkUp host link gen) s
      (((((s.dev.setFld F.HIF_LINK_STAT_UP 0 i 1).setFld F.HIF_LINK_STAT_GEN 0 i g).setFld F.HIF_LINK_STAT_WIDTH 0 i (16 / linksOf (s.dev.shape host.val).1)).setFld
        F.HIF_LINK_STAT_LTSSM 0 i 4).setFld F.HIF_LINK_STAT_FLIT 0 i (if 6 ≤ g then 1 else 0))) ∧
  (∀ (s : State) (host : Fin 2) (link : Fin 4), Up s →
    Gives (.hostLinkDown host ⟨link, .plain⟩) s (s.dev.dropLink host.val link.val) ∧
    ∀ loss bit, (loss, bit) ∈ [(LinkLoss.dataLinkProtocol, aerDataLink), (.flowControl, aerFlowControl), (.receiverOverflow, aerOverflow)] →
      (s.dev.linkUp host.val link.val = true →
        Gives (.hostLinkDown host ⟨link, loss⟩) s ((s.dev.reportLink host.val link.val bit).dropLink host.val link.val)) ∧
      (s.dev.linkUp host.val link.val = false → Gives (.hostLinkDown host ⟨link, loss⟩) s (s.dev.dropLink host.val link.val))) ∧
  (∀ (s : State) (fn : Fin 512), Up s → s.dev.released = true → s.dev.fnExists fn.val = true → (s.dev.fn fn.val).inReset = none →
    Gives (.flrInitiate fn) s (s.dev.resetFns fn.val)) ∧
  (∀ (s : State) (fn : Fin 512), Up s → (s.dev.fn fn.val).inReset.isSome = true → s.dev.perst.at false (s.dev.hostOf fn.val) = false →
    Gives (.flrComplete fn) s (s.dev.readyFn fn.val)) ∧
  (∀ (s : State) (fn : Fin 512) (field : CfgField), Up s → s.dev.cfgArrives fn.val = true → s.dev.released = true → (s.dev.fn fn.val).inReset = none →
    s.dev.fnExists fn.val = true →
    Gives (.configRequest fn field none) s (s.dev.emit (.cfgReply fn.val 0 (s.dev.cfgRead fn.val field))) ∧
    ∀ v, Gives (.configRequest fn field (some v)) s ((s.dev.emit (.cfgReply fn.val 0 0)).cfgWrite fn.val field v)) ∧
  (∀ (s : State) (fn : Fin 512) (enable : Bool) (n : Nat), Up s → fn.val < 16 → s.dev.released = true → s.dev.fnExists fn.val = true →
    (s.dev.fn fn.val).inReset = none →
    Gives (.vfEnable fn enable n) s ((s.dev.cfgWrite fn.val .numVfs n).cfgWrite fn.val .vfEnable (if enable then 1 else 0))) ∧
  (∀ (s : State) (host : Fin 2), Up s →
    (s.dev.perst.at false host.val = false →
      Gives (.perstAssert host) s
        (((({ s.dev with perst := s.dev.perst.set false host.val true }.resetPort host.val none).placePfs host.val).each (List.range 4) fun k d =>
          d.toDetect host.val k).each (List.range 16) fun b d => d.updMod b fun x => { x with recovered := false })) ∧
    (s.dev.perst.at false host.val = true →
      Gives (.perstDeassert host) s ({ s.dev with perst := s.dev.perst.set false host.val false }.samplePort host.val))) ∧
  (∀ (s : State) (host : Fin 2) (ws : List Write) (w : Write) (d : Dev), Takes s ⟨.HIF_PORT_CFG, 0, host.val, 0⟩ ws w d →
    let v := d.wouldBe ⟨.HIF_PORT_CFG, 0, host.val, 0⟩ w.value
    let e := d.setWord ⟨.HIF_PORT_CFG, 0, host.val, 0⟩ v;
    F.HIF_PORT_CFG_BIFURC.ofWord v ≠ 3 → F.HIF_PORT_CFG_MAX_GEN.ofWord v ≠ 0 →
    (d.flag F.HIF_PORT_CFG_EN 0 host.val = false → e.flag F.HIF_PORT_CFG_EN 0 host.val = true →
      Gives (.hostPortEnable host ws) s (e.samplePort host.val)) ∧
    (d.flag F.HIF_PORT_CFG_EN 0 host.val = true → e.flag F.HIF_PORT_CFG_EN 0 host.val = false →
      Gives (.hostPortEnable host ws) s (e.each (List.range 4) fun l d => d.dropLink host.val l)))

/-- R178, R179, R190 to R194: requests of a host to memory space, and completions of the device's own reads. Model's choices in it: log entries 150, 151, 152, 153, 205, 213. -/
def Obligations.HostAccessCommandsComplete : Prop :=
  (∀ (s : State) (fn : Fin 512) (bar : Fin 3) (offset : Nat) (len : Fin 4097) (tlp : Tlp) (d : Dev), Up s → s.dev.landWrites.requestArrives fn.val = true →
    s.dev.landWrites.takeTlp fn.val tlp = (d, true) → d.flag F.ERR_STAT_SAFE = false → (d.fn fn.val).inReset = none → d.unclaimed fn.val = false →
    let x := d.piecesOf fn.val bar.val offset len.val len.val
    Gives (.hostMemoryRead fn bar offset ⟨len, tlp⟩) s (x.1.each x.2 fun (y : Nat × Nat × Option Nat) d => d.readPiece fn y.1 y.2.1 y.2.2)) ∧
  (∀ (s : State) (fn : Fin 512) (bar : Fin 3) (offset : Nat) (data : List Byte) (tlp : Tlp) (d : Dev), Up s → s.dev.requestArrives fn.val = true →
    s.dev.takeTlp fn.val tlp = (d, true) → d.flag F.ERR_STAT_SAFE = false → (d.fn fn.val).inReset = none → d.unclaimed fn.val = false → d.passive = false →
    let x := (d.tally (tlyHostRx (d.hostOf fn.val)) data.length).piecesOf fn.val bar.val offset data.length data.length
    Gives (.hostMemoryWrite fn bar offset data tlp) s
      (x.1.each x.2 fun (y : Nat × Nat × Option Nat) d => d.writePiece fn y.1 y.2.2 (sliceB data (y.1 - offset) y.2.1) tlp)) ∧
  (∀ (d : Dev) (fn : Fin 512) (o i : Nat) (bs : List Byte) (tlp : Tlp), d.flag F.HIF_ITT_WR 0 i = true → tlp.ep = false →
    let x : HeldWrite := { fn := fn, addr := d.innerAddr i o, data := bs, ep := false }
    (d.flag F.HIF_ITT_ORDER 0 i = true ∨ tlp.relaxed = false ∧ tlp.idBased = false →
      (tlp.held = false → d.writePiece fn o (some i) bs tlp = d.landWrites.landWrite x) ∧
      (tlp.held = true → d.writePiece fn o (some i) bs tlp = { d.landWrites with heldWrites := d.landWrites.heldWrites ++ [x] })) ∧
    (d.flag F.HIF_ITT_ORDER 0 i = false → tlp.relaxed = true ∨ (tlp.idBased = true ∧ ∀ y ∈ d.heldWrites, y.fn ≠ fn) →
      (tlp.held = false → d.writePiece fn o (some i) bs tlp = d.landWrite x) ∧
      (tlp.held = true → d.writePiece fn o (some i) bs tlp = { d with heldWrites := d.heldWrites ++ [x] }))) ∧
  (∀ (s : State) (fn : Fin 512) (tag : Nat) (data : List Byte) (tlp : Tlp) (d : Dev), Up s → s.dev.landWrites.cfgArrives fn.val = true → s.dev.landWrites.takeTlp fn.val tlp = (d, true) →
    (d.reads.at none tag = none → Gives (.hostCompletionReceive ⟨fn, tag⟩ data tlp) s (d.report fn.val aerUnexpected)) ∧
    ∀ r : HostRead, d.reads.at none tag = some r →
      (r.fn ≠ fn.val → Gives (.hostCompletionReceive ⟨fn, tag⟩ data tlp) s (d.report fn.val aerUnexpected)) ∧
      (r.fn = fn.val → r.who.byTag = true →
        let ends : ReadEnd := if tlp.ep then .poisoned else .good
        let e0 := ({ d with reads := d.reads.set none tag none } : Dev).readIn r.fn r.len ends
        let e := e0.tallyMax (tlyHostLat (e0.hostOf r.fn)) (nsOfCycles (e0.clk.now - r.at_))
        Gives (.hostCompletionReceive ⟨fn, tag⟩ data tlp) s (e.endRead r data ends).pumpReads.pumpAnswers)) ∧
  (∀ (s : State) (tag : Nat) (r : HostRead), Up s → s.dev.reads.at none tag = some r → r.who.byTag = true →
    let e := ({ s.dev with reads := s.dev.reads.set none tag none } : Dev).readIn r.fn r.len .timedOut
    Gives (.completionTimeout tag) s (e.endRead r [] .timedOut).pumpReads.pumpAnswers)

/-- R200 to R220: doorbells, queue pairs, jobs of host queues and events. Model's choices in it: log entries 50, 51, 52, 53, 54, 55, 56, 64, 206, 208, 224. -/
def Obligations.QueueCommandsComplete : Prop :=
  (∀ (s : State) (fn : Fin 512) (qp : Fin 256) (v : Word), Up s → s.dev.passive = false → s.dev.peerWaits = false → s.dev.hasQp (256 * fn.val + qp.val) = true →
    s.dev.flag F.QCP_CTL_EN (256 * fn.val + qp.val) = true →
    let n := 256 * fn.val + qp.val
    let p := v.toNat % 65536;
    (s.dev.ringAccepts n false p = true → Gives (.doorbell fn qp false v) s (s.dev.updQp n fun q => { q with sqPi := p })) ∧
    (s.dev.ringAccepts n true p = true → Gives (.doorbell fn qp true v) s (s.dev.updQp n fun q => { q with rqPi := p })) ∧
    (∀ rq, s.dev.ringAccepts n rq p = false → Gives (.doorbell fn qp rq v) s (s.dev.bump .QCP_CNT n 1))) ∧
  (∀ (s : State) (fn : Fin 512) (eq : Fin 16) (v : Word), Up s → s.dev.passive = false → s.dev.peerWaits = false → s.dev.hasEq fn.val eq.val = true →
    s.dev.flag F.EQC_CTL_EN (16 * fn.val + eq.val) = true →
    let n := 16 * fn.val + eq.val
    let ci := s.dev.fld F.EQC_STAT_CI n
    let pi := s.dev.fld F.EQC_STAT_PI n
    let c := v.toNat % 65536;
    (idxDist pi ci < idxDist c ci → Gives (.eqDoorbell fn eq v) s (s.dev.bump .EQC_DB_BAD n 0)) ∧
    (idxDist c ci ≤ idxDist pi ci → bitOf v.toNat 31 = true → pi ≠ c →
      Gives (.eqDoorbell fn eq v) s ({ s.dev.setFld F.EQC_STAT_CI n 0 c with eqArm := s.dev.eqArm.set false n false }.trigger fn.val
        ((s.dev.setFld F.EQC_STAT_CI n 0 c).fld F.EQC_CTL_VEC n)))) ∧
  (∀ (s : State) (fn : Fin 512) (qp : Fin 256) (ws : List Write) (w : Write) (d : Dev), Takes s ⟨.QCP_CQ_ARM, 256 * fn.val + qp.val, 0, 0⟩ ws w d →
    d.peerWaits = false → Gives (.cqArmWrite fn qp ws) s (d.cqIndexWrite (256 * fn.val + qp.val) w.value.toNat)) ∧
  (∀ (s : State) (fn : Fin 512) (qp : Fin 256) (ws : List Write) (w : Write) (d : Dev), Takes s ⟨.QCP_CTL, 256 * fn.val + qp.val, 0, 0⟩ ws w d →
    d.flag F.QCP_CTL_EN (256 * fn.val + qp.val) = true → bitOf w.value.toNat 31 = false →
    F.QCP_CTL_PV.ofWord (d.wouldBe ⟨.QCP_CTL, 256 * fn.val + qp.val, 0, 0⟩ w.value) = d.fld F.QCP_CTL_PV (256 * fn.val + qp.val) →
    F.QCP_CTL_PASID.ofWord (d.wouldBe ⟨.QCP_CTL, 256 * fn.val + qp.val, 0, 0⟩ w.value) = d.fld F.QCP_CTL_PASID (256 * fn.val + qp.val) →
    Gives (.qpStop fn qp ws) s (((d.setFld F.QCP_CTL_EN (256 * fn.val + qp.val) 0 0).updQp (256 * fn.val + qp.val) fun q =>
      { q with stopping := true }).showStopped (256 * fn.val + qp.val))) ∧
  (∀ (s : State) (host : Fin 2) (descs : List (List Byte)) (n : Nat) (t : Turn), Up s →
    nextTurn (s.dev.turns.at {} host.val) (s.dev.sqReady host.val) = some (n, t) → s.dev.readRoom (n / 256) = true →
    let d : Dev := { s.dev with turns := s.dev.turns.set {} host.val t }
    Gives (.queueServiceTurn host descs) s
      (d.readDescs n descs (min (idxDist (d.qp n).sqPi (d.fld F.QCP_IDX_SQ_CI n)) (d.fld F.QCP_SCHED_BURST n)) 0)) ∧
  (∀ (s : State) (fn : Fin 512) (qp : Fin 256) (j : Nat) (x : Job), Up s → s.dev.nextFetched (256 * fn.val + qp.val) = some (j, x) →
    (x.op = 1 → x.state = .ready → Gives (.tx fn qp) s (s.dev.sendFrames j)) ∧
    (x.op = 1 → x.state ≠ .ready → 0 < x.len → Gives (.tx fn qp) s (s.dev.startRead j)) ∧
    (x.op = 2 → x.state = .ready → Gives (.txSeg fn qp) s (s.dev.sendFrames j)) ∧
    (x.op = 2 → x.state ≠ .ready → 0 < x.len → Gives (.txSeg fn qp) s (s.dev.startRead j)) ∧
    (x.op = 4 → 0 < x.len → Gives (.copy fn qp) s (s.dev.startRead j)) ∧
    (x.op = 4 → x.len = 0 → Gives (.copy fn qp) s (s.dev.endJob j 0 0)) ∧
    (x.op = 5 → s.dev.canIssue x.fn = true →
      Gives (.fill fn qp) s ((s.dev.dmaWrite x.fn x.addr (s.dev.qpPasid x.page) (fillBytes x.addr2 x.len) false).endJob j 0 x.len)) ∧
    (x.op = 0x30 → Gives (.tlsSeal fn qp) s (s.dev.tlsStart true j x)) ∧
    (x.op = 0x31 → Gives (.tlsOpen fn qp) s (s.dev.tlsStart false j x))) ∧
  (∀ (s : State) (fn : Fin 512) (qp : Fin 256) (desc : List Byte), Up s →
    let n := 256 * fn.val + qp.val
    let x := s.dev.rqRead n;
    s.dev.hasQp n = true → s.dev.flag F.QCP_CTL_EN n = true → s.dev.working fn.val = true → s.dev.readRoom fn.val = true → (s.dev.qp n).replayRq = 0 →
    idxDist x (s.dev.fld F.QCP_IDX_RQ_CI n) < idxDist (s.dev.qp n).rqPi (s.dev.fld F.QCP_IDX_RQ_CI n) →
    Gives (.rx fn qp desc) s ((s.dev.takeDesc n true x desc).rqMove n)) ∧
  (∀ (s : State) (fn : Fin 512) (queue : Fin 512) (id j : Nat) (l : List Nat), Up s → s.dev.hostQ.at [] (512 * fn.val + queue.val) = id :: l → queue.val < 256 →
    let n := 256 * fn.val + queue.val;
    s.dev.hasQp n = true → s.dev.flag F.QCP_CTL_EN n = true → s.dev.isChannel n = false → s.dev.rqEmpty n = false → s.dev.cqFull n = false →
    s.dev.canIssue fn.val = true → s.dev.rxNext n = some j →
    Gives (.rxFrameDelivery fn queue) s ({ s.dev with hostQ := s.dev.hostQ.set [] (512 * fn.val + queue.val) l }.rxWrite n j id)) ∧
  (∀ (s : State) (fn : Fin 512) (qp : Fin 256) (rq : Bool) (desc : List Byte) (j : Nat) (x : Job) (l : List (Nat × Job)), Up s →
    s.dev.jobsOf (256 * fn.val + qp.val) rq = (j, x) :: l → ((s.dev.settleStamp j).job j).state = .done →
    Gives (.jobCompletion fn qp rq desc) s (((s.dev.settleStamp j).completeJob (256 * fn.val + qp.val) j).showStopped (256 * fn.val + qp.val))) ∧
  (∀ (s : State) (ev : Event) (l : List Event), Up s → s.dev.raised = ev :: l →
    let d : Dev := { s.dev with raised := l }
    Gives .eventWrite s (d.each (d.eqsFor ev) fun (x : Nat × Nat) d => d.writeEq x.1 x.2 ev))

/-! ### RDMA (chapter 08) -/

/-- R227, R248: the command window of a function, and page requests. Model's choices in it: log entries 6, 75, 76, 77, 206, 221. -/
def Obligations.WindowCommandsComplete : Prop :=
  (∀ (s : State) (fn : Fin 512) (ws : List Write) (w : Write) (d : Dev), Takes s ⟨.RMW_CMD, fn.val, 0, 0⟩ ws w d → bitOf w.value.toNat 31 = true →
    d.flag F.RMW_CMD_BUSY fn.val = false →
    let f := fn.val
    let e := d.plainWrite ⟨.RMW_CMD, fn.val, 0, 0⟩ w.value
    let id := e.fld F.RMW_CMD_ID f;
    (e.fld F.RMW_CMD_OP f = 1 → Gives (.qpWrite fn ws) s ((e.qpWrite f id (e.rmwImage f 32)).1.rmwEnd f (e.qpWrite f id (e.rmwImage f 32)).2)) ∧
    (e.fld F.RMW_CMD_OP f = 2 → Gives (.qpRead fn ws) s ((e.qpRead f id).1.rmwEnd f (e.qpRead f id).2)) ∧
    (e.fld F.RMW_CMD_OP f = 3 → Gives (.keyWrite fn ws) s ((e.keyPut f id (e.rmwImage f 16)).1.rmwEnd f (e.keyPut f id (e.rmwImage f 16)).2)) ∧
    (e.fld F.RMW_CMD_OP f = 4 → Gives (.keyRead fn ws) s ((e.keyGet f id).1.rmwEnd f (e.keyGet f id).2)) ∧
    (e.fld F.RMW_CMD_OP f = 5 → e.ownsKey f id = true → Gives (.keyInval fn ws) s (e.keyInval f id))) ∧
  (∀ (s : State) (fn : Fin 512), Up s → s.dev.keyInvals.at 0 fn.val ≠ 0 →
    (s.dev.qpctxs.any fun e => e.2.keysOut.contains (s.dev.keyInvals.at 0 fn.val - 1)) = false →
    Gives (.keyInvalComplete fn) s ({ s.dev with keyInvals := s.dev.keyInvals.set 0 fn.val 0 }.rmwEnd fn.val 0)) ∧
  (∀ (s : State) (fn : Fin 512) (page pasid : Nat), Up s → s.dev.pageReqs.contains (fn.val, page, pasid) = true →
    Gives (.pageRequestResponse fn page pasid 0) s
      (({ s.dev with pageReqs := s.dev.pageReqs.filter fun x => x != (fn.val, page, pasid) }.answerOdp fn.val page pasid true).endStalls fn.val page) ∧
    ∀ code : Fin 16, code.val ≠ 0 → code.val ≠ 15 →
      Gives (.pageRequestResponse fn page pasid code) s
        ((({ s.dev with pageReqs := s.dev.pageReqs.filter fun x => x != (fn.val, page, pasid) }.answerOdp fn.val page pasid false).failStalls fn.val page).denyPage fn.val page pasid)) ∧
  (∀ (s : State) (key : Fin 16777216) (page : Nat) (at_ : Option Nat) (w : Nat × Nat × Nat × Nat), Up s → keyDram (s.dev.key key.val) = true →
    s.dev.tablePage (page * 4096) 4 (keyB (s.dev.key key.val) 28 8 / 4096 * 4096) = at_ →
    (s.dev.odpWaits.find? fun e => e.1 == key.val && e.2.1 == page) = some w →
    let d := s.dev.tallyMax (tlyRgn w.2.2.1 + 0x9C) (nsOfCycles (s.dev.clk.now - w.2.2.2))
    Gives (.odpPageResolved key page at_) s
      { d with
        odpWaits := s.dev.odpWaits.erase w
        odpPages := (key.val, page, at_) :: s.dev.odpPages.filter fun e => !(e.1 == key.val && e.2.1 == page) })

/-- R230 to R250: the requester's jobs, its timers, and what a transport engine receives. Model's choices in it: log entries 6, 58, 59, 60, 61, 62, 64, 215, 216, 217, 218, 219, 220, 222, 223, 227. -/
def Obligations.TransportCommandsComplete : Prop :=
  (∀ (s : State) (fn : Fin 512) (qp : Fin 256) (j op : Nat) (x : Job), Up s →
    let n := 256 * fn.val + qp.val
    let d0 := s.dev.rmDrain
    let d := (d0.updQctx x.qpn fun c => { c with stall := none }).touch (qpctxId x.qpn) (d0.qpRegion x.qpn)
    let e := if x.carries = true ∧ x.state = .fetched ∧ x.len ≠ 0 then d.startRead j else d.rmLaunch j;
    d0.rmNext n op = some (j, x) → d0.ownsQpn fn.val x.qpn = true → (d0.qctx x.qpn).state = 3 → (d0.qctx x.qpn).page = n →
    (d0.qctx x.qpn).bad = false → (x.op = 0x28 → x.plt = 1 ∨ x.plt = 2) → d.canIssue fn.val = true →
    (op = 0x20 → Gives (.rmSend fn qp true) s e) ∧ (op = 0x21 → Gives (.rmSendImm fn qp true) s e) ∧
    (op = 0x22 → Gives (.rmWrite fn qp true) s e) ∧ (op = 0x23 → Gives (.rmWriteImm fn qp true) s e) ∧
    (op = 0x24 → Gives (.rmRead fn qp true) s e) ∧ (op = 0x25 → Gives (.rmCmpSwap fn qp true) s e) ∧
    (op = 0x26 → Gives (.rmFetchAdd fn qp true) s e) ∧ (op = 0x27 → Gives (.rmAtomicWrite fn qp) s e) ∧
    (op = 0x28 → Gives (.rmFlush fn qp) s e)) ∧
  (∀ (s : State) (qpn : Fin 16777216) (path : Fin 8) (t : Nat), Up s → ((s.dev.qctx qpn.val).path path.val).timer = some t →
    (s.dev.qctx qpn.val).state = 2 ∨ (s.dev.qctx qpn.val).state = 3 → ((s.dev.qctx qpn.val).path path.val).unacked ≠ [] →
    ((s.dev.qctx qpn.val).path path.val).waits = false →
    Gives (.ackTimeout qpn path) s (((s.dev.rmDrain.advanceTo t).rmCount qpn.val 4).retryPath qpn.val path.val)) ∧
  (∀ (s : State) (qpn : Fin 16777216) (t : Nat) (l : List Nat), Up s → ((s.dev.qctx qpn.val).paths.filterMap fun p => p.rnrUntil) = t :: l →
    let d := s.dev.rmDrain.advanceTo (l.foldl min t)
    let due := (List.range (d.qctx qpn.val).paths.length).filter fun p => match ((d.qctx qpn.val).path p).rnrUntil with
      | some u => decide (u ≤ l.foldl min t)
      | none => false
    Gives (.rnrTimerExpiry qpn) s (d.each due fun p d => (d.updQctx qpn.val fun c => c.setPath p fun x => { x with rnrUntil := none }).resend qpn.val p)) ∧
  (∀ (s : State) (qpn : Fin 16777216) (t j : Nat), Up s → (s.dev.qctx qpn.val).stall = some (t, j) →
    Gives (.localPageFaultTimeout qpn) s ((s.dev.advanceTo (t + cyclesOfMs 100)).qpError qpn.val 7 (some j) (some 5) 9)) ∧
  (∀ (s : State) (region : Fin 4) (id : Nat) (ib : List Byte) (ce : Bool), Up s → s.dev.enginePacket region.val = some (id, some (ib, ce)) →
    let op := be ib 0 1
    let q := be ib 5 3
    let psn := be ib 9 3
    let d0 := s.dev.rmDrain.engineTake id
    let d := d0.touch (qpctxId q) (s.dev.qpRegion q)
    let e := d.congestion q ce;
    (d.qctx q).state = 3 → (d.qctx q).bad = false →
    (op = 0x11 → (d.qctx q).mp = false → Gives (.rdmaResponseReceive region) s (e.onAeth q 0 psn (be ib 12 1))) ∧
    (op = 0x12 → (d.qctx q).mp = false → Gives (.rdmaResponseReceive region) s (e.onAtomicAck q psn ib)) ∧
    (op = 0xE1 → (d.qctx q).mp = true → Gives (.rdmaResponseReceive region) s (e.onAeth q (be ib 8 1 % 8) psn (be ib 12 1))) ∧
    (0x0D ≤ op → op ≤ 0x10 → (d.qctx q).mp = false → Gives (.rdmaResponseReceive region) s (e.onReadResponse q psn op ib))) ∧
  (∀ (s : State) (region : Fin 4) (id : Nat) (ib : List Byte) (y : Bool), Up s → s.dev.enginePacket region.val = some (id, some (ib, y)) →
    let q := be ib 5 3
    let d := (s.dev.rmDrain.engineTake id).rmCount q 10;
    be ib 0 1 = 0x81 → ((s.dev.rmDrain.engineTake id).qctx q).state = 3 → d.flag F.RMA_CC_EN = true →
    Gives (.cnpReceive region) s (d.updQctx q fun c =>
      { c with rate := max (d.fld F.RMA_CC_RATE_MIN) ((if (d.qctx q).rate = 0 then d.portMbps q else (d.qctx q).rate) / 2), cnpSeen := true })) ∧
  (∀ (s : State) (region : Fin 4) (qpn no : Fin 16777216) (id : Nat) (ib : List Byte) (ce : Bool), Up s →
    s.dev.enginePacket region.val = some (id, some (ib, ce)) →
    let op := be ib 0 1
    let q := be ib 5 3
    let psn := be ib 9 3
    let c := s.dev.rmDrain.qctx q
    let d := (s.dev.rmDrain.touch (qpctxId q) (s.dev.rmDrain.qpRegion q)).resyncRx q 0 psn
    let ack := bitOf (be ib 8 1) 7
    let after : RxStep → Dev := fun x => match x with
      | .waits d => d.enginePass id q
      | .done d _ => (d.congestion q ce).engineTake id;
    q = qpn.val → psn = no.val → opClass op = 1 → s.dev.rmDrain.qpHears q = true → c.mp = false → c.bad = false → psn = ((d.qctx q).path 0).expect →
    ((rcKind op).1 = 0 → Gives (.rdmaRequestReceive region qpn no) s (after (d.rcSend q psn (rcKind op).2.1 (rcKind op).2.2.1 (rcKind op).2.2.2 ack ib))) ∧
    ((rcKind op).1 = 2 → Gives (.rdmaRequestReceive region qpn no) s (after (d.rcWrite q psn (rcKind op).2.1 (rcKind op).2.2.1 (rcKind op).2.2.2 ack ib))) ∧
    ((rcKind op).1 ≠ 0 → (rcKind op).1 ≠ 2 → Gives (.rdmaRequestReceive region qpn no) s (after (d.rcRequest q psn (rcKind op).1 op ib)))) ∧
  (∀ (s : State) (region : Fin 4) (qpn no : Fin 16777216) (id : Nat) (ib : List Byte) (ce : Bool) (e : Dev), Up s →
    s.dev.enginePacket region.val = some (id, some (ib, ce)) →
    let q := be ib 5 3
    let psn := be ib 9 3
    let p := be ib 12 1 / 4 % 8
    let c := s.dev.qctx q
    let d := (s.dev.rmDrain.touch (qpctxId q) (s.dev.rmDrain.qpRegion q)).resyncRx q p psn;
    q = qpn.val → psn = no.val → be ib 0 1 = 0xE0 → s.dev.rmDrain.qpHears q = true → c.mp = true → c.bad = false →
    psn = ((d.qctx q).path p).expect → d.mpInOrder q p psn ib = .done e true → (e.congestion q ce).qpHears q = true →
    Gives (.mpDataReceive region qpn no) s
      ((((((e.congestion q ce).updQctx q fun c => c.setPath p fun x => { x with expect := psnAdd x.expect 1, nakSent := false })).ackPsn q p psn).pumpQp q).engineTake id))

/-! ### NVMe controllers (chapter 09) -/

/-- R258, R259, R262: registers, doorbells, queues and features of NVMe controllers. Model's choices in it: log entries 21, 87, 89, 92, 206. -/
def Obligations.NvmeControlCommandsComplete : Prop :=
  (∀ (s : State) (fn : Fin 512) (value : Word), Up s → s.dev.passive = false → s.dev.hasNvme fn.val = true →
    let f := fn.val
    let v := value.toNat
    let e := s.dev.updNvme f fun c => { c with cc := v % 2 ^ 24 };
    (bitOf v 0 = true → bitOf (s.dev.nvme f).cc 0 = false → bitsOf v 15 14 = 0 → bitsOf (e.nvme f).cc 10 7 ≤ 4 → bitsOf (e.nvme f).cc 6 4 = 0 → bitsOf (e.nvme f).cc 13 11 = 0 →
      Gives (.nvmeCcEnable fn value) s (e.updNvme f fun c => { c with
        rdy := true, shut := 0, sqs := [(0, some { base := (e.nvme f).asq, size := (e.nvme f).aqa % 4096 + 1 })]
        cqs := [(0, some { base := (e.nvme f).acq, size := bitsOf (e.nvme f).aqa 27 16 + 1, ien := true })] })) ∧
    (bitOf v 0 = false → bitOf (s.dev.nvme f).cc 0 = true → bitsOf v 15 14 = 0 →
      Gives (.nvmeCcDisable fn value) s
        ({ e with stoCmds := e.stoCmds.filter fun x => !(x.2.fn == f && x.2.ofNvme) }.updNvme f fun c => { cc := c.cc, aqa := c.aqa, asq := c.asq, acq := c.acq })) ∧
    (bitOf v 0 = bitOf (s.dev.nvme f).cc 0 → bitsOf v 15 14 ≠ 0 → (e.nvme f).shut = 0 →
      Gives (.nvmeShutdown fn value) s (e.updNvme f fun c => { c with shut := 1 }))) ∧
  (∀ (s : State) (fn : Fin 512), Up s → (s.dev.stoCmds.any fun e => e.2.fn == fn.val && e.2.ofNvme) = false →
    ((s.dev.nvme fn.val).shut = 1 → s.dev.nvFabric fn.val = [] → Gives (.nvmeShutdownComplete fn) s (s.dev.updNvme fn.val fun c => { c with shut := 3 })) ∧
    ((s.dev.nvme fn.val).shut = 1 → s.dev.nvFabric fn.val ≠ [] → Gives (.nvmeShutdownComplete fn) s
      ((s.dev.each (s.dev.nvFabric fn.val) fun n d => (d.stoStart { fn := fn.val, ns := n, op := 3, origin := .nvmeFlush } [] .good).1).updNvme fn.val fun c => { c with shut := 2 })) ∧
    ((s.dev.nvme fn.val).shut = 2 → Gives (.nvmeShutdownComplete fn) s (s.dev.updNvme fn.val fun c => { c with shut := 3 }))) ∧
  (∀ (s : State) (fn : Fin 512) (y : Fin 1025) (value : Word) (q : NvmeQ), Up s → s.dev.passive = false → s.dev.hasNvme fn.val = true → s.dev.peerWaits = false →
    (s.dev.nvme fn.val).rdy = true → value.toNat % 65536 < q.size →
    ((s.dev.nvme fn.val).sqs.at none y.val = some q →
      Gives (.nvmeDoorbell fn ⟨2 * y.val, by omega⟩ value) s
        (s.dev.updNvme fn.val fun c => { c with sqs := c.sqs.set none y.val (some { q with tail := value.toNat % 65536 }) })) ∧
    ((s.dev.nvme fn.val).cqs.at none y.val = some q →
      Gives (.nvmeDoorbell fn ⟨2 * y.val + 1, by omega⟩ value) s
        ((s.dev.updNvme fn.val fun c => { c with cqs := c.cqs.set none y.val (some { q with head := value.toNat % 65536 }) }).nvNotify fn.val))) ∧
  (∀ (s : State) (fn : Fin 512) (sqe : List Byte) (op : Nat) (q : NvmeQ), Fetches s fn.val 0 op sqe q →
    let f := fn.val
    let d := s.dev.nvTaken f 0 q
    let done : Dev → Nat → Nat → Dev := fun d dw0 st => (d.nvPost f q.cq 0 (sqeCid sqe) dw0 st).nvNotify f
    let id := sqeDw sqe 10 % 65536
    let n := sqeDw sqe 10 / 65536
    let dw := sqeDw sqe 11;
    (op = 5 → id ≠ 0 → id ≤ (d.res f).ioqMax → (d.nvme f).cqs.at none id = none → n ≠ 0 → bitOf dw 0 = true → dw / 65536 < (d.res f).vecCnt →
      Gives (.nvmeCreateIoCq fn sqe) s (done (d.updNvme f fun c => { c with
        cqs := c.cqs.set none id (some { base := sqePrp1 sqe, size := n + 1, iv := dw / 65536, ien := bitOf dw 1 }) }) 0 0)) ∧
    (op = 1 → id ≠ 0 → id ≤ (d.res f).ioqMax → (d.nvme f).sqs.at none id = none → n ≠ 0 → dw / 65536 ≠ 0 → (d.nvme f).cqs.at none (dw / 65536) ≠ none → bitOf dw 0 = true →
      Gives (.nvmeCreateIoSq fn sqe) s (done (d.updNvme f fun c => { c with
        sqs := c.sqs.set none id (some { base := sqePrp1 sqe, size := n + 1, cq := dw / 65536 }) }) 0 0)) ∧
    (op = 4 → id ≠ 0 → (d.nvme f).cqs.at none id ≠ none → (∀ e ∈ (d.nvme f).sqs, e.1 = 0 ∨ ∀ x, e.2 = some x → x.cq ≠ id) →
      Gives (.nvmeDeleteIoCq fn sqe) s (done (d.updNvme f fun c => { c with cqs := c.cqs.set none id none }) 0 0)) ∧
    (op = 0 → (id = 0 ∨ (d.nvme f).sqs.at none id = none) → Gives (.nvmeDeleteIoSq fn sqe) s (done d 0 (nvSt 1 1 true))) ∧
    (op = 6 → sqeDw sqe 10 % 256 ≤ 3 → ∀ bs, d.identify f (sqeDw sqe 10 % 256) (sqeNsid sqe) = some bs →
      Gives (.nvmeIdentify fn sqe) s (done (d.nvData f sqe [] bs) 0 0)) ∧
    (op = 2 → ∀ list, sqeDw sqe 10 % 256 = 4 → 4 * (n + dw % 65536 * 65536 + 1) ≤ 1048576 →
      Gives (.nvmeGetLogPage fn sqe list) s (done ((d.nvData f sqe list
        (sliceB (((d.nvme f).changed.map (leBytes 4)).flatten) (sqeDw sqe 13 * 2 ^ 32 + sqeDw sqe 12) (4 * (n + dw % 65536 * 65536 + 1)))).updNvme f fun c => { c with changed := [] }) 0 0)) ∧
    (op = 0x0A → sqeDw sqe 10 % 256 ∈ featIds → bitsOf (sqeDw sqe 10) 10 8 = 0 → Gives (.nvmeGetFeatures fn sqe) s (done d (d.feature f (sqeDw sqe 10 % 256) dw) 0)) ∧
    (op = 9 → sqeDw sqe 10 % 256 ∈ featIds → bitOf (sqeDw sqe 10) 31 = false → sqeDw sqe 10 % 256 ≠ 7 → sqeDw sqe 10 % 256 ≠ 9 →
      Gives (.nvmeSetFeatures fn sqe) s (done (d.updNvme f fun c => { c with feats := c.feats.set 0 (sqeDw sqe 10 % 256) dw }) 0 0)) ∧
    (op = 8 → Gives (.nvmeAbort fn sqe) s (done d 1 0)) ∧
    (op = 0x0C → (d.nvme f).aers = [] →
      Gives (.nvmeAsyncEventRequest fn sqe) s ((d.updNvme f fun c => { c with aers := c.aers ++ [sqeCid sqe] }).nvNotify f)))

/-- R253, R254, R256, R259 to R261: what an entry of an I/O submission queue starts, and the end of commands on backing paths. Model's choices in it: log entries 21, 86, 88, 90, 206, 225, 226. -/
def Obligations.NvmeIoCommandsComplete : Prop :=
  (∀ (s : State) (fn : Fin 512) (sq : Fin 1025) (sqe data : List Byte) (list : List Nat) (at_ : ReadEnd) (op n : Nat) (q : NvmeQ), sq.val ≠ 0 →
    Fetches s fn.val sq.val op sqe q →
    let f := fn.val
    let d := s.dev.nvTaken f sq.val q
    let fails : Nat → Dev := fun st => d.nvPost f q.cq sq.val (sqeCid sqe) 0 st
    let lba := sqeDw sqe 11 * 2 ^ 32 + sqeDw sqe 10
    let blocks := sqeDw sqe 12 % 65536 + 1
    let bytes := blocks * d.nsBlock n
    let base : StoCmd := { fn := f, ns := n, op := 3, origin := .nvme sq.val (sqeCid sqe) }
    let ends : Dev × Option StoEnd → Dev := fun x => match x.2 with
      | some e => (x.1.nvPost f q.cq sq.val (sqeCid sqe) 0 e.nvStatus).stoLatency d.clk.now
      | none => x.1
    let fits := lba + blocks ≤ d.nsSize n;
    (d.nvNs f (sqeNsid sqe) = none →
      (op = 2 → Gives (.nvmeRead fn sq sqe list) s (fails (nvSt 0 0x0B true))) ∧ (op = 1 → Gives (.nvmeWrite fn sq sqe list ⟨data, at_⟩) s (fails (nvSt 0 0x0B true))) ∧
      (op = 0 → Gives (.nvmeFlush fn sq sqe) s (fails (nvSt 0 0x0B true))) ∧ (op = 8 → Gives (.nvmeWriteZeroes fn sq sqe) s (fails (nvSt 0 0x0B true))) ∧
      (op = 9 → Gives (.nvmeDatasetManagement fn sq ⟨sqe, data, at_⟩) s (fails (nvSt 0 0x0B true)))) ∧
    (d.nvNs f (sqeNsid sqe) = some n →
      (op = 2 → bytes ≤ 1048576 → fits → 0 < bytes →
        let ps := prpPieces (d.nvme f).pageBytes (sqePrp1 sqe) (sqePrp2 sqe) list bytes
        Gives (.nvmeRead fn sq sqe list) s (ends ((d.fetchList f (sqePrp2 sqe) ps).stoStart { base with
          op := 1, lba := lba, blocks := blocks, fua := bitOf (sqeDw sqe 12) 30, pieces := ps } [] .good))) ∧
      (op = 1 → bytes ≤ 1048576 → fits → 0 < bytes →
        let ps := prpPieces (d.nvme f).pageBytes (sqePrp1 sqe) (sqePrp2 sqe) list bytes
        Gives (.nvmeWrite fn sq sqe list ⟨data, at_⟩) s (ends ((d.fetchList f (sqePrp2 sqe) ps).stoStart { base with
          op := 2, lba := lba, blocks := blocks, fua := bitOf (sqeDw sqe 12) 30, pieces := ps } data at_))) ∧
      (op = 1 ∨ op = 2 → 1048576 < bytes →
        (op = 2 → Gives (.nvmeRead fn sq sqe list) s (fails (nvSt 0 2 true))) ∧ (op = 1 → Gives (.nvmeWrite fn sq sqe list ⟨data, at_⟩) s (fails (nvSt 0 2 true)))) ∧
      (op = 0 → Gives (.nvmeFlush fn sq sqe) s (ends ((d.fetchList f (sqePrp2 sqe) []).stoStart base [] .good))) ∧
      (op = 8 → fits → Gives (.nvmeWriteZeroes fn sq sqe) s (ends ((d.fetchList f (sqePrp2 sqe) []).stoStart { base with
        op := 4, lba := lba, blocks := blocks, fua := bitOf (sqeDw sqe 12) 30 } [] .good))) ∧
      (op = 8 → ¬ fits → Gives (.nvmeWriteZeroes fn sq sqe) s (fails (nvSt 0 0x80 true))) ∧
      (let count := sqeDw sqe 10 % 256 + 1
       let ps := prpPieces (d.nvme f).pageBytes (sqePrp1 sqe) (sqePrp2 sqe) [] (16 * count);
       (op = 9 → d.rangesOut n count data = true → Gives (.nvmeDatasetManagement fn sq ⟨sqe, data, at_⟩) s (fails (nvSt 0 0x80 true))) ∧
       (op = 9 → d.rangesOut n count data = false → Gives (.nvmeDatasetManagement fn sq ⟨sqe, data, at_⟩) s
         (ends ((d.fetchList f (sqePrp2 sqe) ps).stoStart { base with op := 5, lba := lba, pieces := ps } data at_)))))) ∧
  (∀ (s : State) (id status : Nat) (data : List Byte) (ep : Bool) (p : Nat), Up s → (s.dev.stoCmd id).path = some p →
    (∀ e, (s.dev.stoCmd id).outcome = some e → Gives (.fabricCommandComplete id status data ep) s (s.dev.settleSto id (s.dev.stoCmd id) e)) ∧
    ((s.dev.stoCmd id).outcome = none → status ≠ 0 → Gives (.fabricCommandComplete id status data ep) s (s.dev.settleSto id (s.dev.stoCmd id) (.medium status))) ∧
    ((s.dev.stoCmd id).outcome = none → status = 0 → (s.dev.stoCmd id).op = 2 →
      Gives (.fabricCommandComplete id status data ep) s ((s.dev.tally 0x30 ((s.dev.stoCmd id).bytes s.dev)).settleSto id (s.dev.stoCmd id) .ok))) ∧
  (∀ (s : State) (path : Fin 255) (ws : List Write), Up s → s.dev.pathLive path.val = true → s.dev.fld F.STO_PATH_KIND 0 path.val = 0 →
    (s.dev.qctx (s.dev.fld F.STO_PATH_HANDLE 0 path.val)).state = 4 → Gives (.pathDown path ws) s (s.dev.pathDown path.val)) ∧
  (∀ (s : State) (path : Fin 255) (ws : List Write) (w : Write) (d : Dev), Takes s ⟨.STO_PATH, 0, path.val, 0⟩ ws w d → s.dev.pathLive path.val = false →
    Gives (.pathDown path ws) s (stoPathEffect ⟨.STO_PATH, 0, path.val, 0⟩ w d))

/-! ### The compact block function (chapter 09) -/

/-- R263 to R270: tags issued, run, ended and freed, and the idle handshake. Model's choices in it: log entries 91, 206, 225. -/
def Obligations.BlockFunctionCommandsComplete : Prop :=
  (∀ (s : State) (fn : Fin 512) (ws : List Write) (w : Write) (d : Dev), Takes s ⟨.CBF_ISSUE, fn.val, 0, 0⟩ ws w d → d.passive = false → d.hasCbf fn.val = true →
    d.peerWaits = false → Gives (.cbfIssue fn ws) s (d.each ((List.range 32).filter (bitOf w.value.toNat)) fun t d => d.issueTag fn.val t)) ∧
  (∀ (s : State) (fn : Fin 512) (ws : List Write) (w : Write) (d : Dev), Takes s ⟨.CBF_DONE, fn.val, 0, 0⟩ ws w d → d.passive = false → d.peerWaits = false →
    Gives (.cbfDoneClear fn ws) s (d.plainWrite ⟨.CBF_DONE, fn.val, 0, 0⟩ (BitVec.ofNat 32 w.value.toNat))) ∧
  (∀ (s : State) (fn : Fin 512) (ws : List Write) (w : Write) (d : Dev), Takes s ⟨.CBF_PWR, fn.val, 0, 0⟩ ws w d →
    (bitOf w.value.toNat 31 = true → d.flag F.CBF_PWR_IDLE_REQ fn.val = false →
      Gives (.idleReqSet fn ws) s ((d.plainWrite ⟨.CBF_PWR, fn.val, 0, 0⟩ w.value).setFld F.CBF_PWR_ENTERING fn.val 0 1)) ∧
    (bitOf w.value.toNat 31 = false →
      Gives (.idleReqClear fn ws) s (((d.plainWrite ⟨.CBF_PWR, fn.val, 0, 0⟩ w.value).setFld F.CBF_PWR_ENTERING fn.val 0 0).setFld F.CBF_PWR_IDLE_ACK fn.val 0 0))) ∧
  (∀ (s : State) (fn : Fin 512) (data : List Byte) (at_ : ReadEnd) (t : Nat) (rest : List Nat), Up s → s.dev.working fn.val = true → (s.dev.cbf fn.val).order = t :: rest →
    let f := fn.val
    let b := (s.dev.cbf f).slots.at [] t
    let op := slotOp b
    let e := s.dev.updCbf f fun c => { c with order := rest }
    let n := slotBlocks b * s.dev.nsBlock (s.dev.cbfNs f)
    let c : StoCmd := { fn := f, ns := s.dev.cbfNs f, op := op, lba := slotLba b, blocks := slotBlocks b, fua := slotFua b, pieces := [(slotAddr b, n)], origin := .cbf t }
    let ends : Dev × Option StoEnd → Dev := fun x => match x.2 with
      | some y => x.1.endTag f t op y (y.moved (if op < 3 then n else 0))
      | none => x.1;
    (∀ y, s.dev.slotBad f b = some y →
      (op = 1 → Gives (.cbfRead fn) s (e.endTag f t op y 0)) ∧ (op = 2 → Gives (.cbfWrite fn data at_) s (e.endTag f t op y 0)) ∧ (op = 3 → Gives (.cbfFlush fn) s (e.endTag f t op y 0))) ∧
    (s.dev.slotBad f b = none → (op < 3 → s.dev.cbfOverlaps f t = false) →
      (op = 1 → Gives (.cbfRead fn) s (ends (e.stoStart c [] .good))) ∧ (op = 2 → Gives (.cbfWrite fn data at_) s (ends (e.stoStart c data at_))) ∧
      (op = 3 → Gives (.cbfFlush fn) s (ends (e.stoStart c [] .good))))) ∧
  (∀ (s : State) (fn : Fin 512) (tag : Fin 32) (op n : Nat) (y : StoEnd), Up s → (s.dev.cbf fn.val).ended.find? (fun e => e.1 == tag.val) = some (tag.val, op, y, n) →
    let f := fn.val
    let t := tag.val
    let d1 := (s.dev.setFld F.CBF_SLOT_STATUS f t y.cbfCodes.1).setFld F.CBF_SLOT_SSYND f t y.cbfCodes.2
    let d2 := (d1.setFld F.CBF_SLOT_BYTES f t n).bump .CBF_CNT f 0
    let d3 := ((d2.setTagBusy f t false).setTagDone f t true).stoLatency ((d2.cbf f).issuedAt.at 0 t)
    Gives (.cbfCommandEnd fn tag) s
      ((d3.updCbf f fun c => { c with ended := c.ended.erase (t, op, y, n), slots := c.slots.set [] t [], issuedAt := c.issuedAt.set 0 t 0, flushCovers := c.flushCovers.set 0 t 0 }).trigger f
        (d3.fld F.CBF_CTL_VEC f))) ∧
  (∀ (s : State) (fn : Fin 512), Up s → s.dev.flag F.CBF_PWR_ENTERING fn.val = true → s.dev.fld F.CBF_BUSY_TAGS fn.val = 0 → s.dev.cbfFlushing fn.val = false →
    (s.dev.cbf fn.val).flushed = (s.dev.cbf fn.val).writes →
    Gives (.idleAck fn) s (((s.dev.setFld F.CBF_PWR_ENTERING fn.val 0 0).setFld F.CBF_PWR_IDLE_ACK fn.val 0 1).trigger fn.val (s.dev.fld F.CBF_CTL_VEC fn.val)))

/-! ### Security associations, chain engines and the public-key engine (chapters 07 and 10) -/

/-- R274, R275, R284, R287: the SA commands with their STATUS. Model's choices in it: log entry 43. -/
def Obligations.SaCommandsComplete : Prop :=
  ∀ (s : State) (ws : List Write) (w : Write) (d : Dev), Takes s ⟨.CRY_SACMD, 0, 0, 0⟩ ws w d → bitOf w.value.toNat 31 = true → d.flag F.CRY_SACMD_BUSY = false →
    let e := d.plainWrite ⟨.CRY_SACMD, 0, 0, 0⟩ w.value
    let id := e.fld F.CRY_SACMD_ID
    let op := e.fld F.CRY_SACMD_OP;
    (op = 1 → Gives (.saWrite ws) s ((e.saWrite id).1.setChip F.CRY_SACMD_STATUS (e.saWrite id).2)) ∧
    (op = 2 → saIdOk id = true → e.sa id = none → Gives (.saRead ws) s ((e.showImage (List.replicate 80 0)).setChip F.CRY_SACMD_STATUS 0)) ∧
    (op = 2 → saIdOk id = true → ∀ x, e.sa id = some x → Gives (.saRead ws) s ((e.showImage x.image).setChip F.CRY_SACMD_STATUS 0)) ∧
    (op = 3 → saIdOk id = true → Gives (.saDelete ws) s ((e.setSa id none).setChip F.CRY_SACMD_STATUS 0)) ∧
    (op = 2 ∨ op = 3 → saIdOk id = false → Gives (.saRead ws) s (e.setChip F.CRY_SACMD_STATUS 1) ∧ Gives (.saDelete ws) s (e.setChip F.CRY_SACMD_STATUS 1))

/-- R221 to R224: a chain engine starts, resumes, halts, and finishes the entry at which it stands. Model's choices in it: log entries 82, 83, 84, 85, 207. -/
def Obligations.ChainCommandsComplete : Prop :=
  (∀ (s : State) (region : Fin 4) (engine : Fin 8) (ws : List Write) (w : Write) (d : Dev), Takes s ⟨.CHN_CTL, region.val, engine.val, 0⟩ ws w d →
    let n := 8 * region.val + engine.val;
    (w.value.toNat / 2 ^ 29 = 4 → d.chnState n ≠ 1 → Gives (.chainStart region engine ws) s
      ((d.updChain n fun _ => { starter := w.writer }).chainGo n (d.fld F.CHN_HEAD_ADDR_HI region.val engine.val * 2 ^ 32 + d.fld F.CHN_HEAD_ADDR_LO region.val engine.val * 64))) ∧
    (w.value.toNat / 2 ^ 29 = 2 → d.chnState n = 2 → Gives (.chainResume region engine ws) s ((d.updChain n fun c => { c with starter := w.writer }).reread n (d.chain n).cur)) ∧
    (w.value.toNat / 2 ^ 29 = 1 → d.chnState n = 1 → Gives (.chainHalt region engine ws) s (d.updChain n fun c => { c with halting := true })) ∧
    (w.value.toNat / 2 ^ 29 = 1 → d.chnState n = 2 → Gives (.chainHalt region engine ws) s ((d.setChnState n 0).updChain n fun _ => {})) ∧
    (w.value.toNat / 2 ^ 29 = 1 → d.chnState n = 3 → Gives (.chainHalt region engine ws) s (d.setChnState n 0))) ∧
  (∀ (s : State) (region : Fin 4) (engine : Fin 8) (host : List Byte) (at_ : ReadEnd), Up s →
    let n := 8 * region.val + engine.val
    let x := s.dev.chainJob n
    let a := (s.dev.chain n).cur;
    s.dev.chainRuns n = true →
    ((engine.val < 4 ∨ x.op ≠ 0x40) →
      (∀ d, s.dev.chainRun n x host at_ = .waits d → Gives (.chainEntryDone region engine host at_) s (d.chainAsk n)) ∧
      (∀ d st bytes, s.dev.chainRun n x host at_ = .ends d st bytes →
        let d' := d.onlyIf (st == 0 || st == 3) fun d => (d.touchPages region.val x.addr x.len).onlyIf (x.op != 5) fun d => d.touchPages region.val x.addr2 bytes
        Gives (.chainEntryDone region engine host at_) s ((d'.chainResult a st bytes none).chainNext n))) ∧
    (4 ≤ engine.val → x.op = 0x40 → (s.dev.chain n).finished = true → Gives (.chainEntryDone region engine host at_) s (s.dev.chainNext n)) ∧
    (4 ≤ engine.val → x.op = 0x40 → (s.dev.chain n).finished = false →
      (∀ st, s.dev.pkBad x = some st → Gives (.chainEntryDone region engine host at_) s ((s.dev.chainResult a st 0 (some 0)).chainNext n)) ∧
      (s.dev.pkBad x = none → Gives (.chainEntryDone region engine host at_) s (s.dev.chainAsk n))))

/-- R289 to R293: a public-key operation starts, with its outcome and its time, and completes. Model's choices in it: log entries 20, 78, 79, 80, 81. -/
def Obligations.PublicKeyCommandsComplete : Prop :=
  (∀ (s : State) (region : Fin 4) (host : List Byte) (at_ : ReadEnd) (c : Instr) (op e lo hi n us : Nat), Up s →
    (c, op) ∈ [(Instr.modexp region host at_, 0x01), (.ecPubkey region host at_, 0x10), (.ecdsaSign region host at_, 0x11), (.ecdsaVerify region host at_, 0x12), (.ecdh region host at_, 0x13),
      (.ed25519Pubkey region host at_, 0x20), (.ed25519Sign region host at_, 0x21), (.ed25519Verify region host at_, 0x22), (.x25519 region host at_, 0x23),
      (.mlKemKeygen region host at_, 0x30), (.mlKemEncaps region host at_, 0x31), (.mlKemDecaps region host at_, 0x32),
      (.mlDsaKeygen region host at_, 0x40), (.mlDsaSign region host at_, 0x41), (.mlDsaVerify region host at_, 0x42)] →
    let r := region.val
    let d0 := s.dev.each (List.range 4) fun i d => d.onlyIf (d.chainRuns (8 * r + 4 + i)) fun d => d.chainAsk (8 * r + 4 + i)
    let x := d0.chainJob (8 * r + e);
    d0.pk.at none r = none → d0.pkTurn r = some e → x.pkOp = op → pkShape op x.pkParam x.pkSize = some (lo, hi, n, us) →
    ∀ d bs ms, (d0.touchPages r x.addr x.len).intRead x.addr x.len host at_ (.chain (8 * r + e)) = (d, bs, ms) →
    let mark := ms.any id
    let y := pkCompute op x.pkParam x.pkSize bs d.draws
    let run : PkRun := { engine := e, due := d.clk.now + cyclesOfUs us, out := if mark = true ∨ y.1 ≠ 0 then List.replicate n 0 else y.2, pkstat := if mark then 0 else y.1, mark := mark }
    Gives c s { d with draws := d.draws + 1, pk := d.pk.set none r (some run), pkLast := d.pkLast.set 3 r e }) ∧
  (∀ (s : State) (region : Fin 4) (k : PkRun), Up s → s.dev.pk.at none region.val = some k →
    let r := region.val
    let n := 8 * r + k.engine
    let d0 := s.dev.advanceTo k.due
    let x := d0.chainJob n
    let d1 : Dev := { d0 with pk := d0.pk.set none r none };
    d0.hostReady x.addr2 k.out.length true = true →
    (d1.reaches x.addr2 k.out.length true = true →
      let d := ((d1.touchPages r x.addr2 k.out.length).intWrite x.addr2 k.out (List.replicate (if k.mark then k.out.length else 0) true)).tally (tlyRgn r + 0x68) 1
      Gives (.pkOperationComplete region) s
        ((d.chainResult (d.chain n).cur (if k.mark then 3 else 0) k.out.length (some k.pkstat)).updChain n fun c => { c with finished := true })) ∧
    (d1.reaches x.addr2 k.out.length true = false →
      Gives (.pkOperationComplete region) s
        (((d1.forgetDenied x.addr2).chainResult (d1.chain n).cur 5 0 (some 0)).updChain n fun c => { c with finished := true })))

/-! ### Check-value units (chapter 10) -/

/-- R294 to R298: check-value units are assigned, fed, and commanded; the actions of one write come in the order RESET, MSG, SEAL, CHECK. Model's choices in it: log entry 66. -/
def Obligations.CheckUnitCommandsComplete : Prop :=
  (∀ (s : State) (unit : Fin 64) (ws : List Write) (w : Write) (d : Dev), Takes s ⟨.CVU_ASSIGN, 0, unit.val, 0⟩ ws w d →
    let e := d.plainWrite ⟨.CVU_ASSIGN, 0, unit.val, 0⟩ w.value
    let owner := e.fld F.CVU_ASSIGN_OWNER 0 unit.val
    let id := e.fld F.CVU_ASSIGN_ID 0 unit.val;
    (owner = 1 → Gives (.cvuAssignWrite unit ws) s e) ∧
    (owner ≠ 0 → owner ≠ 1 → e.cvuOwn.at (0, 0) unit.val ≠ (owner, id) →
      Gives (.cvuAssignWrite unit ws) s { e.resetCvu unit.val with cvuOwn := e.cvuOwn.set (0, 0) unit.val (owner, id) })) ∧
  (∀ (s : State) (unit : Fin 64) (size : Fin 3) (ws : List Write) (w : Write) (d : Dev), Takes s ⟨.CVU_FEED, unit.val, 0, 0⟩ ws w d → d.flag F.CVU_CFG_EN unit.val = true →
    Gives (.cvuFeed unit size ws) s (d.cvuFeed unit.val (leBytes (2 ^ size.val) w.value.toNat))) ∧
  (∀ (s : State) (unit : Fin 64) (ws : List Write) (w : Write) (d : Dev) (c : Instr) (bit : Nat),
    (c, bit) ∈ [(Instr.cvuReset unit ws, 31), (.cvuMsg unit ws, 30), (.cvuSeal unit ws, 29), (.check unit ws, 28)] →
    Takes s ⟨.CVU_CTL, unit.val, 0, 0⟩ (ws.filter fun w => bitOf w.value.toNat bit) w d → d.flag F.CVU_CFG_EN unit.val = true →
    let u := unit.val
    let v := w.value.toNat
    let d1 := if bitOf v 31 then d.cvuReset u else d
    let d2 := if bitOf v 30 then d1.cvuMsg u else d1
    let d3 := if bitOf v 29 then d2.cvuSeal u else d2
    Gives c s (if bitOf v 28 then d3.cvuCheck u else d3))

/-! ### Stavte: arithmetic and flow (chapter 11) -/

/-- R307: what the ALU group writes, on 64 bits modulo 2^64; amounts are bits 5:0 of rs2, or the immediate of SHI; and the words of the group: which funct is which operation, with the rs2 field of the unary ones 0. -/
def Obligations.AluInstructions : Prop :=
  ∀ (s : State) (th : Thread) (rd rs1 rs2 : Fin 32) (amount : Fin 64),
    let a := gget (s.dev.tregs th) rs1
    let b := gget (s.dev.tregs th) rs2
    let n := b.toNat % 64
    let m := amount.val;
    Writes (.add th rd rs1 rs2) s th (.alu .add rd rs1 rs2) rd (BitVec.ofNat 64 (a.toNat + b.toNat)) ∧
    Writes (.sub th rd rs1 rs2) s th (.alu .sub rd rs1 rs2) rd (BitVec.ofInt 64 (a.toInt - b.toInt)) ∧
    Writes (.and th rd rs1 rs2) s th (.alu .and rd rs1 rs2) rd (a &&& b) ∧
    Writes (.or th rd rs1 rs2) s th (.alu .or rd rs1 rs2) rd (a ||| b) ∧
    Writes (.xor th rd rs1 rs2) s th (.alu .xor rd rs1 rs2) rd (a ^^^ b) ∧
    Writes (.andn th rd rs1 rs2) s th (.alu .andn rd rs1 rs2) rd (a &&& ~~~b) ∧
    Writes (.sll th rd rs1 rs2) s th (.alu .sll rd rs1 rs2) rd (BitVec.ofNat 64 (a.toNat * 2 ^ n)) ∧
    Writes (.srl th rd rs1 rs2) s th (.alu .srl rd rs1 rs2) rd (BitVec.ofNat 64 (a.toNat / 2 ^ n)) ∧
    Writes (.sra th rd rs1 rs2) s th (.alu .sra rd rs1 rs2) rd (BitVec.ofInt 64 (a.toInt / 2 ^ n)) ∧
    Writes (.ror th rd rs1 rs2) s th (.alu .ror rd rs1 rs2) rd (BitVec.ofNat 64 (a.toNat / 2 ^ n + a.toNat * 2 ^ (64 - n))) ∧
    Writes (.slt th rd rs1 rs2) s th (.alu .slt rd rs1 rs2) rd (if a.toInt < b.toInt then 1 else 0) ∧
    Writes (.sltu th rd rs1 rs2) s th (.alu .sltu rd rs1 rs2) rd (if a.toNat < b.toNat then 1 else 0) ∧
    Writes (.min th rd rs1 rs2) s th (.alu .min rd rs1 rs2) rd (BitVec.ofInt 64 (min a.toInt b.toInt)) ∧
    Writes (.max th rd rs1 rs2) s th (.alu .max rd rs1 rs2) rd (BitVec.ofInt 64 (max a.toInt b.toInt)) ∧
    Writes (.minu th rd rs1 rs2) s th (.alu .minu rd rs1 rs2) rd (BitVec.ofNat 64 (min a.toNat b.toNat)) ∧
    Writes (.maxu th rd rs1 rs2) s th (.alu .maxu rd rs1 rs2) rd (BitVec.ofNat 64 (max a.toNat b.toNat)) ∧
    Writes (.clz th rd rs1) s th (.alu .clz rd rs1 0) rd (BitVec.ofNat 64 (((List.range 64).find? fun i => a.getLsbD (63 - i)).getD 64)) ∧
    Writes (.ctz th rd rs1) s th (.alu .ctz rd rs1 0) rd (BitVec.ofNat 64 (((List.range 64).find? fun i => a.getLsbD i).getD 64)) ∧
    Writes (.popc th rd rs1) s th (.alu .popc rd rs1 0) rd (BitVec.ofNat 64 ((List.range 64).countP fun i => a.getLsbD i)) ∧
    Writes (.bswap th rd rs1) s th (.alu .bswap rd rs1 0) rd
      (BitVec.ofNat 64 (((List.range 8).map fun i => a.toNat / 2 ^ (8 * i) % 256 * 2 ^ (56 - 8 * i)).sum)) ∧
    Writes (.shiSll th rd rs1 amount) s th (.shi 0 rd rs1 amount) rd (BitVec.ofNat 64 (a.toNat * 2 ^ m)) ∧
    Writes (.shiSrl th rd rs1 amount) s th (.shi 1 rd rs1 amount) rd (BitVec.ofNat 64 (a.toNat / 2 ^ m)) ∧
    Writes (.shiSra th rd rs1 amount) s th (.shi 2 rd rs1 amount) rd (BitVec.ofInt 64 (a.toInt / 2 ^ m)) ∧
    Writes (.shiRor th rd rs1 amount) s th (.shi 3 rd rs1 amount) rd (BitVec.ofNat 64 (a.toNat / 2 ^ m + a.toNat * 2 ^ (64 - m))) ∧
    (∀ (funct : Nat) (op : AluOp), (funct, op) ∈ [(0, AluOp.add), (1, .sub), (2, .and), (3, .or), (4, .xor), (5, .andn), (6, .sll), (7, .srl), (8, .sra), (9, .ror), (10, .slt), (11, .sltu),
        (12, .min), (13, .max), (14, .minu), (15, .maxu)] →
      SOp.decode (rd.val * 2 ^ 21 + rs1.val * 2 ^ 16 + rs2.val * 2 ^ 11 + funct) = some (.alu op rd rs1 rs2)) ∧
    (∀ (funct : Nat) (op : AluOp), (funct, op) ∈ [(16, AluOp.clz), (17, .ctz), (18, .popc), (19, .bswap)] →
      SOp.decode (rd.val * 2 ^ 21 + rs1.val * 2 ^ 16 + rs2.val * 2 ^ 11 + funct) = if rs2 = 0 then some (.alu op rd rs1 0) else none)

/-- R308: products, quotients truncated toward zero, remainders with the dividend's sign, and the values where the quotient does not fit. Division never traps: each of these completes for every operand. -/
def Obligations.MultiplyAndDivide : Prop :=
  ∀ (s : State) (th : Thread) (rd rs1 rs2 : Fin 32),
    let a := gget (s.dev.tregs th) rs1
    let b := gget (s.dev.tregs th) rs2
    let big := a.toInt = -2 ^ 63 ∧ b.toInt = -1;
    Writes (.mul th rd rs1 rs2) s th (.alu .mul rd rs1 rs2) rd (BitVec.ofInt 64 (a.toInt * b.toInt)) ∧
    Writes (.mulh th rd rs1 rs2) s th (.alu .mulh rd rs1 rs2) rd (BitVec.ofInt 64 (a.toInt * b.toInt / 2 ^ 64)) ∧
    Writes (.mulhu th rd rs1 rs2) s th (.alu .mulhu rd rs1 rs2) rd (BitVec.ofNat 64 (a.toNat * b.toNat / 2 ^ 64)) ∧
    (b.toInt = 0 → 0 ≤ a.toInt → Writes (.div th rd rs1 rs2) s th (.alu .div rd rs1 rs2) rd (BitVec.ofInt 64 (2 ^ 63 - 1))) ∧
    (b.toInt = 0 → a.toInt < 0 → Writes (.div th rd rs1 rs2) s th (.alu .div rd rs1 rs2) rd (BitVec.ofInt 64 (-2 ^ 63))) ∧
    (b.toInt = 0 → Writes (.divu th rd rs1 rs2) s th (.alu .divu rd rs1 rs2) rd (BitVec.ofNat 64 (2 ^ 64 - 1)) ∧
      Writes (.rem th rd rs1 rs2) s th (.alu .rem rd rs1 rs2) rd a ∧ Writes (.remu th rd rs1 rs2) s th (.alu .remu rd rs1 rs2) rd a) ∧
    (big → Writes (.div th rd rs1 rs2) s th (.alu .div rd rs1 rs2) rd (BitVec.ofInt 64 (2 ^ 63 - 1)) ∧
      Writes (.rem th rd rs1 rs2) s th (.alu .rem rd rs1 rs2) rd 0) ∧
    (b.toInt ≠ 0 → ¬ big → ∀ q r : Int, a.toInt = q * b.toInt + r → r.natAbs < b.toInt.natAbs → (0 ≤ a.toInt → 0 ≤ r) → (a.toInt ≤ 0 → r ≤ 0) →
      Writes (.div th rd rs1 rs2) s th (.alu .div rd rs1 rs2) rd (BitVec.ofInt 64 q) ∧
      Writes (.rem th rd rs1 rs2) s th (.alu .rem rd rs1 rs2) rd (BitVec.ofInt 64 r)) ∧
    (b.toNat ≠ 0 → Writes (.divu th rd rs1 rs2) s th (.alu .divu rd rs1 rs2) rd (BitVec.ofNat 64 (a.toNat / b.toNat)) ∧
      Writes (.remu th rd rs1 rs2) s th (.alu .remu rd rs1 rs2) rd (BitVec.ofNat 64 (a.toNat % b.toNat)))

/-- R309: the immediate instructions, with their immediates sign-extended or zero-extended. -/
def Obligations.ImmediateInstructions : Prop :=
  ∀ (s : State) (th : Thread) (rd rs1 : Fin 32) (imm : BitVec 16),
    let a := gget (s.dev.tregs th) rs1
    let sx := BitVec.ofInt 64 imm.toInt
    let zx := BitVec.ofNat 64 imm.toNat;
    Writes (.addi th rd rs1 imm) s th (.imm .addi rd rs1 imm) rd (BitVec.ofInt 64 (a.toInt + imm.toInt)) ∧
    Writes (.slti th rd rs1 imm) s th (.imm .slti rd rs1 imm) rd (if a.toInt < imm.toInt then 1 else 0) ∧
    Writes (.sltiu th rd rs1 imm) s th (.imm .sltiu rd rs1 imm) rd (if a.toNat < sx.toNat then 1 else 0) ∧
    Writes (.andi th rd rs1 imm) s th (.imm .andi rd rs1 imm) rd (a &&& zx) ∧
    Writes (.ori th rd rs1 imm) s th (.imm .ori rd rs1 imm) rd (a ||| zx) ∧
    Writes (.xori th rd rs1 imm) s th (.imm .xori rd rs1 imm) rd (a ^^^ zx) ∧
    Writes (.lui th rd imm) s th (.imm .lui rd 0 imm) rd (BitVec.ofInt 64 (imm.toInt * 2 ^ 16)) ∧
    Writes (.shori th rd rs1 imm) s th (.imm .shori rd rs1 imm) rd (BitVec.ofNat 64 (a.toNat * 2 ^ 16 + imm.toNat))

/-- R310, R311: bitfields bit by bit, CRC steps and MIX, and their words: which bits give LSB, WIDTH, SIGN and the operation, and which words are ILLEGAL. -/
def Obligations.BitfieldAndCheckInstructions : Prop :=
  ∀ (s : State) (th : Thread) (rd rs1 rs2 : Fin 32) (lsb wm : Fin 64) (ieee : Bool) (size : Fin 4),
    let a := gget (s.dev.tregs th) rs1
    let b := gget (s.dev.tregs th) rs2
    let old := gget (s.dev.tregs th) rd
    let m := (a ^^^ b) * 0x9E3779B97F4A7C15#64;
    (∀ (signed : Bool) (x : DWord), (∀ i : Fin 64, x.getLsbD i.val = if i.val ≤ wm.val then a.getLsbD (lsb.val + i.val) else signed && a.getLsbD (lsb.val + wm.val)) →
      Writes (.bfx th signed rd rs1 lsb wm) s th (.bfx signed rd rs1 lsb wm) rd x) ∧
    (∀ x : DWord, (∀ i : Fin 64, x.getLsbD i.val = if lsb.val ≤ i.val ∧ i.val ≤ lsb.val + wm.val then a.getLsbD (i.val - lsb.val) else old.getLsbD i.val) →
      Writes (.bfi th rd rs1 lsb wm) s th (.bfi rd rs1 lsb wm) rd x) ∧
    Writes (.crc th ieee size rd rs1 rs2) s th (.crc ieee size rd rs1 rs2) rd
      (BitVec.ofNat 64 (crcFeed (if ieee then 0xEDB88320 else 0x82F63B78) (a.toNat % 2 ^ 32) (leBytes (2 ^ size.val) b.toNat))) ∧
    Writes (.mix th rd rs1 rs2) s th (.mix rd rs1 rs2) rd (BitVec.ofNat 64 (m.toNat ^^^ m.toNat / 2 ^ 29)) ∧
    (∀ imm : Nat, imm < 65536 →
      let word := 0x2D * 2 ^ 26 + rd.val * 2 ^ 21 + rs1.val * 2 ^ 16 + imm
      let at_ := imm / 1024
      let width := imm / 16 % 64 + 1;
      (imm % 8 = 0 → at_ + width ≤ 64 → SOp.decode word = some (.bfx (imm / 8 % 2 == 1) rd rs1 (Fin.ofNat 64 at_) (Fin.ofNat 64 (width - 1)))) ∧
      (imm % 16 = 1 → at_ + width ≤ 64 → SOp.decode word = some (.bfi rd rs1 (Fin.ofNat 64 at_) (Fin.ofNat 64 (width - 1)))) ∧
      (2 ≤ imm % 8 ∨ 64 < at_ + width ∨ imm % 16 = 9 → SOp.decode word = none)) ∧
    (∀ funct : Nat, funct < 8 →
      SOp.decode (0x2E * 2 ^ 26 + rd.val * 2 ^ 21 + rs1.val * 2 ^ 16 + rs2.val * 2 ^ 11 + funct) = some (.crc (funct / 4 == 1) (Fin.ofNat 4 funct) rd rs1 rs2)) ∧
    SOp.decode (0x2E * 2 ^ 26 + rd.val * 2 ^ 21 + rs1.val * 2 ^ 16 + rs2.val * 2 ^ 11 + 16) = some (.mix rd rs1 rs2)

/-- R313: branches, jumps and their return addresses; a JALR whose target is not aligned traps. -/
def Obligations.BranchesAndJumps : Prop :=
  ∀ (s : State) (th : Thread) (rs1 rs2 rd : Fin 32) (offset imm : BitVec 16) (far : BitVec 26),
    let a := gget (s.dev.tregs th) rs1
    let b := gget (s.dev.tregs th) rs2
    let pc := s.dev.tpc th
    let goes : Int → Nat := fun o => (((pc : Int) + 4 * o) % 2 ^ 64).toNat
    let link := BitVec.ofNat 64 (pc + 4)
    let t := ((a.toNat : Int) + imm.toInt) % 2 ^ 64;
    (∀ (c : Instr) (op : BranchOp) (taken : Prop),
      (c, op, taken) ∈ [(Instr.beq th rs1 rs2 offset, BranchOp.eq, a = b), (.bne th rs1 rs2 offset, .ne, a ≠ b), (.blt th rs1 rs2 offset, .lt, a.toInt < b.toInt),
        (.bge th rs1 rs2 offset, .ge, b.toInt ≤ a.toInt), (.bltu th rs1 rs2 offset, .ltu, a.toNat < b.toNat), (.bgeu th rs1 rs2 offset, .geu, b.toNat ≤ a.toNat)] →
      Ready s th (.branch op rs1 rs2 offset) →
      (taken → Gives c s ((s.dev.issued th).leave th 0 0 (goes offset.toInt))) ∧ (¬ taken → Gives c s ((s.dev.issued th).leave th 0 0 (pc + 4)))) ∧
    (Ready s th (.jump far) → Gives (.j th far) s ((s.dev.issued th).leave th 0 0 (goes far.toInt))) ∧
    (Ready s th (.jal far) → Gives (.jal th far) s ((s.dev.issued th).leave th 31 link (goes far.toInt))) ∧
    (Ready s th (.jalr rd rs1 imm) →
      (t % 4 = 0 → Gives (.jalr th rd rs1 imm) s ((s.dev.issued th).leave th rd link t.toNat)) ∧
      (t % 4 ≠ 0 → Gives (.jalr th rd rs1 imm) s ((s.dev.issued th).trap th 3 pc (BitVec.ofInt 64 t))))

/-! ### Stavte: memory (chapters 11 and 12) -/

/-- R312, R314, R328, R336, R340: loads, stores and atomics that complete as they issue: of the Keystone in memory, and of a packet core in its local memory. Model's choices in it: log entries 84, 160, 172. -/
def Obligations.DirectMemoryInstructions : Prop :=
  ∀ (s : State) (th : Thread) (rd rs1 rs2 : Fin 32) (imm : BitVec 16) (word acq rel : Bool),
    let g := s.dev.tregs th
    let d := s.dev.issued th
    let pc := s.dev.tpc th
    let a := (gget g rs1 + imm.signExtend 64).toNat
    let at_ := (gget g rs1).toNat
    let n := if word then 4 else 8;
    (∀ (c : Instr) (op : LoadOp) (size : Nat) (signed : Bool), (c, op, size, signed) ∈ [(Instr.lb th rd rs1 imm, LoadOp.lb, 1, true), (.lbu th rd rs1 imm, .lbu, 1, false),
        (.lh th rd rs1 imm, .lh, 2, true), (.lhu th rd rs1 imm, .lhu, 2, false), (.lw th rd rs1 imm, .lw, 4, true), (.lwu th rd rs1 imm, .lwu, 4, false), (.ld th rd rs1 imm, .ld, 8, false)] →
      Ready s th (.load op rd rs1 imm) → a % size = 0 →
      (∀ core ctx key, th = .packet core ctx → d.target th a size false = .local_ key → d.marked key size = false →
        Gives c s (d.leave th rd (extend size signed (d.memVal key size)) (pc + 4))) ∧
      (th = .keystone → d.target th a size false = .mem → d.held a = false → d.tagBad a size = false → d.marked a size = false →
        Gives c s ((d.touchPages 4 a size).leave th rd (extend size signed (d.memVal a size)) (pc + 4)))) ∧
    (∀ (c : Instr) (op : StoreOp) (size : Nat), (c, op, size) ∈ [(Instr.sb th rd rs1 imm, StoreOp.sb, 1), (.sh th rd rs1 imm, .sh, 2), (.sw th rd rs1 imm, .sw, 4), (.sd th rd rs1 imm, .sd, 8)] →
      Ready s th (.store op rd rs1 imm) → a % size = 0 →
      let v := (gget g rd).toNat % 2 ^ (8 * size);
      (∀ core ctx key, th = .packet core ctx → d.target th a size true = .local_ key → Gives c s ((d.storeFree key (leBytes size v)).leave th 0 0 (pc + 4))) ∧
      (∀ core ctx, th = .packet core ctx → d.target th a size true = .mem → (d.ctx core.val ctx.val).stores.length < 8 →
        Gives c s ((d.updCtx core.val ctx.val fun k => { k with stores := k.stores ++ [(a, size, v)] }).leave th 0 0 (pc + 4))) ∧
      (th = .keystone → d.target th a size true = .mem → d.held a = false → Gives c s (((d.touchPages 4 a size).store a (leBytes size v)).leave th 0 0 (pc + 4)))) ∧
    (∀ (c : Instr) (op : AtomicOp), (c, op) ∈ [(Instr.cas th word acq rel rd rs1 rs2, AtomicOp.cas), (.fadd th word acq rel rd rs1 rs2, .fadd), (.swap th word acq rel rd rs1 rs2, .swap)] →
      Ready s th (.atomic op word acq rel rd rs1 rs2) → at_ % n = 0 → atomicBarred th at_ = false →
      let x := (gget g rs2).toNat % 2 ^ (8 * n)
      let swapped : Nat → Option Nat := fun old => match op with
        | .cas => if old = (gget g rd).toNat % 2 ^ (8 * n) then some x else none
        | .fadd => some ((old + (gget g rs2).toNat) % 2 ^ (8 * n))
        | .swap => some x;
      (∀ core ctx key, th = .packet core ctx → d.target th at_ n true = .local_ key → d.marked key n = false →
        Gives c s (((match swapped (d.memVal key n) with
          | some v => d.storeFree key (leBytes n v)
          | none => d).leave th rd (BitVec.ofNat 64 (d.memVal key n)) (pc + 4)))) ∧
      (th = .keystone → d.target th at_ n true = .mem → d.held at_ = false → d.tagBad at_ n = false → d.marked at_ n = false →
        Gives c s (((match swapped (d.memVal at_ n) with
          | some v => (d.touchPages 4 at_ n).store at_ (leBytes n v)
          | none => d.touchPages 4 at_ n).leave th rd (BitVec.ofNat 64 (d.memVal at_ n)) (pc + 4)))))

/-- R329, R336: a FENCE passes when no store that it selects is outstanding, a waited access comes back, and an outstanding store lands. Model's choices in it: log entries 84, 160, 162, 177. -/
def Obligations.WaitedMemoryCommandsComplete : Prop :=
  (∀ (s : State) (th : Thread) (bits : Fin 32), Ready s th (.fence bits) →
    (∀ core ctx, th = .packet core ctx → (s.dev.ctx core.val ctx.val).stores.any (fenceSel bits.val) = false →
      Gives (.fence th bits) s ((s.dev.issued th).leave th 0 0 (s.dev.tpc th + 4))) ∧
    (∀ core ctx, th = .packet core ctx → (s.dev.ctx core.val ctx.val).stores.any (fenceSel bits.val) = true →
      Gives (.fence th bits) s ((s.dev.issued th).block th (SOp.fence bits).encode)) ∧
    ((∀ core ctx, th ≠ .packet core ctx) → Gives (.fence th bits) s ((s.dev.issued th).leave th 0 0 (s.dev.tpc th + 4)))) ∧
  (∀ (s : State) (core : Fin 272) (ctx : Fin 16) (w : Nat) (bits : Fin 32), Waits s core ctx w (.fence bits) →
    let d := (s.dev.slotted core ctx).landStores core.val ctx.val (fenceSel bits.val);
    (d.ctx core.val ctx.val).stores.any (fenceSel bits.val) = false →
    Gives (.fenceComplete core ctx) s (d.leave (.packet core ctx) 0 0 (s.dev.tpc (.packet core ctx) + 4))) ∧
  (∀ (s : State) (core : Fin 272) (ctx : Fin 16) (w : Nat) (op : LoadOp) (rd rs1 : Fin 32) (imm : BitVec 16) (host : List Byte) (ends : ReadEnd),
    Waits s core ctx w (.load op rd rs1 imm) →
    let th := Thread.packet core ctx
    let d := s.dev.slotted core ctx
    let e := d.landAll th
    let a := (gget (s.dev.tregs th) rs1 + imm.signExtend 64).toNat
    let n := op.shape.1;
    a % n = 0 → d.target th a n false = .mem → d.held a = false → e.tagBad a n = false → e.marked a n = false →
    Gives (.memoryAccessComplete th (.ok host ends)) s
      ((e.touchPages (core.val / 68) a n).leave th rd (extend n op.shape.2 (e.memVal a n)) (s.dev.tpc th + 4))) ∧
  (∀ (s : State) (core : Fin 272) (ctx : Fin 16) (result : AccessEnd) (x : Nat × Nat × Nat), Up s → s.dev.tblocked (.packet core ctx) = none →
    (s.dev.ctx core.val ctx.val).stores.find? (fun x => !s.dev.storeHeld x) = some x →
    Gives (.memoryAccessComplete (.packet core ctx) result) s
      ((s.dev.updCtx core.val ctx.val fun k => { k with stores := k.stores.erase x }).landStore core.val x))

/-! ### Stavte: threads, channels, packets and tables (chapters 11 and 12) -/

/-- R316, R324 to R326, R337 to R339: threads start, are joined and end; traps, interrupts and the return from them; waits for an event and the timer. Model's choices in it: log entries 30, 105, 161, 166, 174, 175, 228, 229. -/
def Obligations.ThreadInstructionsComplete : Prop :=
  (∀ (s : State) (core : Fin 272) (ctx : Fin 16) (rd rs1 rs2 : Fin 32),
    let th := Thread.packet core ctx
    let d := s.dev.issued th
    let g := s.dev.tregs th
    let next := s.dev.tpc th + 4;
    (Ready s th (.fork rd rs1 rs2) →
      (∀ u, ((List.range 16).find? fun u => u != 0 && (d.ctx core.val u).st == 0) = some u →
        Gives (.fork th rd rs1 rs2) s ((d.updCtx core.val u fun k =>
          { st := 1, parent := some ctx.val, regs := gset (List.replicate 32 0) 1 (gget g rs2), pc := (gget g rs1).toNat, stores := k.stores, next := s.dev.issueSlot th + 16 }).leave
            th rd (BitVec.ofNat 64 u) next)) ∧
      (((List.range 16).find? fun u => u != 0 && (d.ctx core.val u).st == 0) = none →
        Gives (.fork th rd rs1 rs2) s ((d.bump .PCB_CNT (core.val / 68) 3).leave th rd (BitVec.allOnes 64) next))) ∧
    (Ready s th (.join rd rs1) →
      let u := (gget g rs1).toNat % 16
      let k := d.ctx core.val u;
      ((k.parent ≠ some ctx.val ∨ k.st = 0) → Gives (.join th rd rs1) s (d.leave th rd (BitVec.allOnes 64) next)) ∧
      (k.parent = some ctx.val → k.st = 2 → Gives (.join th rd rs1) s ((d.updCtx core.val u fun k => { k with st := 0, parent := none }).leave th rd k.value next)) ∧
      (k.parent = some ctx.val → k.st ≠ 0 → k.st ≠ 2 → Gives (.join th rd rs1) s (d.block th (SOp.join rd rs1).encode))) ∧
    (Ready s th (.quit rs1) → ctx.val ≠ 0 → Gives (.quit th rs1) s (d.endCtx core.val ctx.val (gget g rs1))) ∧
    (Ready s th (.quit rs1) → ctx.val = 0 → Gives (.quit th rs1) s (d.trap th 1 (s.dev.tpc th) (BitVec.ofNat 64 (SOp.quit rs1).encode)))) ∧
  (∀ (s : State) (core : Fin 272) (ctx : Fin 16) (w : Nat) (rd rs1 : Fin 32), Waits s core ctx w (.join rd rs1) →
    let th := Thread.packet core ctx
    let d := s.dev.slotted core ctx
    let u := (gget (s.dev.tregs th) rs1).toNat % 16;
    (d.ctx core.val u).parent = some ctx.val → (d.ctx core.val u).st = 2 →
    Gives (.joinUnblock core ctx) s ((d.updCtx core.val u fun k => { k with st := 0, parent := none }).leave th rd (d.ctx core.val u).value (s.dev.tpc th + 4))) ∧
  (∀ (s : State) (th : Thread) (rs1 : Fin 32), (∀ core ctx, th ≠ .packet core ctx) →
    let k := thrOf th
    let x := s.dev.thr k
    let d := s.dev.issued th;
    (Ready s th (.trap rs1) → bitOf x.tstate 7 = false → Gives (.trap th rs1) s (d.updThr k fun x => { x with
      tpc := (x.pc + 4) % 2 ^ 64, tcode := 16, tinfo := (gget x.regs rs1).toNat, pc := (x.tentry - x.tentry % 1024 + 0x300) % 2 ^ 64, blocked := none, wfe := false
      tstate := 128 + natOf (bitOf x.tstate 3) * 64 + x.tstate % 4 * 16 + (if th = .keystone then 2 else 1) })) ∧
    (Ready s th .eret → x.tpc % 4 = 0 → Gives (.eret th) s
      ((d.updThr k fun y => { y with tstate := bitsOf x.tstate 6 4 * 16 + natOf (bitOf x.tstate 6) * 8 + bitsOf x.tstate 5 4 }).leave th 0 0 x.tpc)) ∧
    (Ready s th .wfe → d.irqsOn k ≠ 0 → Gives (.wfe th) s (d.leave th 0 0 (x.pc + 4))) ∧
    (Ready s th .wfe → d.irqsOn k = 0 → Gives (.wfe th) s (d.updThr k fun x => { x with wfe := true })) ∧
    (Up s → s.dev.mayWake th = true → x.wfe = true → s.dev.irqsOn k ≠ 0 → Gives (.wfeWake th) s ((s.dev.leave th 0 0 (x.pc + 4)).woken th)) ∧
    (Up s → s.dev.threadRuns th = true → x.wfe = false → x.blocked = none → x.stopped = false → s.dev.irqReady k = true → (s.dev.irqsOn k).log2 ≠ 3 →
      ∃ e : Dev, Gives (.interruptTaken th) s e ∧ (e.thr k).tpc = x.pc % 2 ^ 64 ∧ (e.thr k).tcode = 256 + (s.dev.irqsOn k).log2 ∧
        (e.thr k).pc = (x.tentry - x.tentry % 1024 + 0x200) % 2 ^ 64 ∧
        (e.thr k).tstate = 128 + natOf (bitOf x.tstate 3) * 64 + x.tstate % 4 * 16 + (if th = .keystone then 2 else 1)) ∧
    (Up s →
      let e := s.dev.advanceTo (if th = .keystone then 3 * x.tickcmp else (x.tickcmp + 1) / 2);
      Gives (.timerCompare th) s e ∧ bitOf (e.irqs k) 1 = true))

/-- R303, R317, R318, R343 to R345: channel instructions on c0, c2, c3 and bound channels, and the waits that end. Model's choices in it: log entries 168, 169. -/
def Obligations.ChannelInstructionsComplete : Prop :=
  ∀ (s : State) (core : Fin 272) (ctx : Fin 16) (rd ch : Fin 32),
    let c := core.val
    let t := ctx.val
    let th := Thread.packet core ctx
    let d := s.dev.issued th
    let x := s.dev.issueSlot th
    let next := s.dev.tpc th + 4
    let v := gget (s.dev.tregs th) rd;
    (Ready s th (.chin rd ch) →
      (∀ (id p y : Nat), ch.val = 0 → (d.ctx c t).current = none → (d.ctx c t).inbox = some (id, p, y) → y < x →
        Gives (.chin th rd ch) s ((d.updCtx c t fun k => { k with inbox := none, current := some id }).leave th rd
          (BitVec.ofNat 64 ((d.pkt id).flowHash % 2 ^ 32 * 2 ^ 32 + p % 256 * 2 ^ 24 + (min 256 (d.pkt id).bytes.length - 1) * 65536 + (d.pkt id).bytes.length % 65536)) next)) ∧
      (∀ (w : DWord) (r : List DWord), ch.val = 3 → (d.ctx c t).results = w :: r →
        Gives (.chin th rd ch) s ((d.updCtx c t fun k => { k with results := r }).leave th rd w next)) ∧
      (∀ (f : Nat) (w : DWord × Nat) (r : List (DWord × Nat)), 4 ≤ ch.val → d.bound c t ch.val = some (f, false) → d.fifo (coreBlock c) f = w :: r → w.2 < x →
        Gives (.chin th rd ch) s ((d.setFifo (coreBlock c) f r).leave th rd w.1 next)) ∧
      (∀ f : Nat, 4 ≤ ch.val → d.bound c t ch.val = some (f, false) → d.fifo (coreBlock c) f = [] → Gives (.chin th rd ch) s (d.block th (SOp.chin rd ch).encode))) ∧
    (Ready s th (.chout rd ch) → ∀ f : Nat, 4 ≤ ch.val → d.bound c t ch.val = some (f, true) → (d.ctx c t).stores = [] → d.fifoDead (coreBlock c) f = false →
      ((d.fifo (coreBlock c) f).length < 4 → d.readerOf (coreBlock c) f = some c →
        Gives (.chout th rd ch) s (((d.landStores c t fun _ => true).setFifo (coreBlock c) f (appendWord (v, x) (d.fifo (coreBlock c) f))).leave th 0 0 next)) ∧
      (4 ≤ (d.fifo (coreBlock c) f).length → Gives (.chout th rd ch) s (d.block th (SOp.chout rd ch).encode))) ∧
    (∀ room : Bool, Ready s th (.chtest room rd ch) →
      (ch.val = 3 → Gives (.chtest th room rd ch) s (d.leave th rd (BitVec.ofNat 64 (if room then 0 else (d.ctx c t).results.length)) next)) ∧
      (∀ y : Nat × Bool, 4 ≤ ch.val → d.bound c t ch.val = some y → Gives (.chtest th room rd ch) s (d.leave th rd
        (BitVec.ofNat 64 (if room then 4 - (d.fifo (coreBlock c) y.1).length else ((d.fifo (coreBlock c) y.1).filter fun w => decide (w.2 < x)).length)) next))) ∧
    (∀ (w f : Nat) (y : DWord × Nat) (r : List (DWord × Nat)), Waits s core ctx w (.chin rd ch) → 4 ≤ ch.val →
      let e := s.dev.slotted core ctx;
      e.bound c t ch.val = some (f, false) → e.fifo (coreBlock c) f = y :: r → y.2 < s.dev.nextSlot c t →
      Gives (.chinUnblock core ctx) s ((e.setFifo (coreBlock c) f r).leave th rd y.1 next)) ∧
    (∀ w f : Nat, Waits s core ctx w (.chout rd ch) → 4 ≤ ch.val →
      let e := (s.dev.slotted core ctx).landStores c t fun _ => true;
      (s.dev.slotted core ctx).bound c t ch.val = some (f, true) → (e.ctx c t).stores = [] → e.fifoDead (coreBlock c) f = false →
      (e.fifo (coreBlock c) f).length < 4 → e.readerOf (coreBlock c) f = some c →
      Gives (.choutUnblock core ctx) s ((e.setFifo (coreBlock c) f (appendWord (v, s.dev.nextSlot c t) (e.fifo (coreBlock c) f))).leave th 0 0 next))

/-- R318 to R322: packet instructions on the current packet, and table operations with their results. Model's choices in it: log entries 25, 28, 170, 176, 199. -/
def Obligations.PacketAndTableInstructionsComplete : Prop :=
  (∀ (s : State) (core : Fin 272) (ctx : Fin 16) (size : Fin 4) (rd rs1 : Fin 32) (off arg : Fin 1024) (byte : Fin 64) (id : Nat),
    let th := Thread.packet core ctx
    let d := s.dev.issued th
    let g := s.dev.tregs th
    let k := d.pkt id
    let n := 2 ^ size.val
    let o := ((gget g rs1).toNat + off.val) % 2 ^ 64
    let next := s.dev.tpc th + 4
    let left := d.updCtx core.val ctx.val fun k => { k with current := none };
    (d.ctx core.val ctx.val).current = some id →
    Writes (.pktld th size rd rs1 off) s th (.pktld size rd rs1 off) rd
      (BitVec.ofNat 64 (beVal ((List.range n).map fun j => if o + j < min 256 k.bytes.length then k.bytes.getD (o + j) 0 else 0))) ∧
    Writes (.pktldm th size rd byte) s th (.pktldm size rd byte) rd (BitVec.ofNat 64 ((List.range n).foldr (fun j a => k.mdByte (byte.val + j) + 256 * a) 0)) ∧
    Writes (.pktlay th rd arg) s th (.pktlay rd arg) rd (k.layerOff arg.val) ∧
    (Ready s th (.pktst size rd rs1 off) → o + n ≤ min 256 k.bytes.length →
      Gives (.pktst th size rd rs1 off) s ((d.updPkt id fun k => { k with bytes := overB k.bytes o (beBytes n ((gget g rd).toNat % 2 ^ (8 * n))) }).leave th 0 0 next)) ∧
    (Ready s th (.pktst size rd rs1 off) → min 256 k.bytes.length < o + n →
      Gives (.pktst th size rd rs1 off) s (d.trap th 0xF (s.dev.tpc th) (BitVec.ofNat 64 o))) ∧
    (Ready s th (.pktstm size rd arg) → 16 ≤ arg.val → arg.val + n ≤ 64 →
      Gives (.pktstm th size rd arg) s ((d.updPkt id fun k => k.writeMd arg.val n (gget g rd).toNat).leave th 0 0 next)) ∧
    (Ready s th (.pktend .drop) → Gives (.pktdrop th) s (((left.bump .PCB_CNT (core.val / 68) 1).freePkt id).leave th 0 0 next)) ∧
    (Ready s th (.pktend .recirc) → Gives (.pktrecirc th) s ((left.nextPass id (core.val / 68) 0 .CLS_CNT).leave th 0 0 next)) ∧
    (Ready s th (.pktend .fwd) → (left.pkt id).pass ≠ 3 →
      Gives (.pktfwd th) s (((left.updPkt id fun k => { k with pass := k.pass + 1, resumed := false, fromCore := true }).joinInput id (core.val / 68) 3).leave th 0 0 next))) ∧
  (∀ (s : State) (core : Fin 272) (ctx : Fin 16) (rs1 : Fin 32) (table : Fin 64) (c : Instr) (op : TblOp),
    let th := Thread.packet core ctx
    let a := (gget (s.dev.tregs th) rs1).toNat
    let key := 2 ^ 48 + core.val * 2 ^ 18 + (a - 0x20000000);
    (c, op) ∈ [(Instr.tlookup th rs1 table, TblOp.lookup), (.tinsert th rs1 table, .insert), (.tdelete th rs1 table, .delete)] →
    a % 8 = 0 → inLocal th a = true → sliceOpen ctx.val a 80 = true →
    let run : Dev → Dev := fun d =>
      let r := d.tableAsk (core.val / 68) table.val op (d.memBytes key 80) (d.rank (.packetCore core))
      (r.1.updCtx core.val ctx.val fun k => { k with ops := k.ops ++ [resultWords op table.val r.2.1 r.2.2.1 r.2.2.2] }).leave th 0 0 (s.dev.tpc th + 4);
    (Ready s th (.table op rs1 table) → (s.dev.issued th).marked key 80 = false →
      (((s.dev.issued th).ctx core.val ctx.val).tableRoom = true → Gives c s (run (s.dev.issued th))) ∧
      (((s.dev.issued th).ctx core.val ctx.val).tableRoom = false → Gives c s ((s.dev.issued th).block th (SOp.table op rs1 table).encode))) ∧
    (∀ w, Waits s core ctx w (.table op rs1 table) → (s.dev.slotted core ctx).marked key 80 = false → ((s.dev.slotted core ctx).ctx core.val ctx.val).tableRoom = true →
      Gives (.tableOpUnblock core ctx) s (run (s.dev.slotted core ctx)))) ∧
  (∀ (s : State) (core : Fin 272) (ctx : Fin 16) (x : DWord × DWord) (l : List (DWord × DWord)), Up s → (s.dev.ctx core.val ctx.val).ops = x :: l →
    Gives (.tableOpResult core ctx) s (s.dev.updCtx core.val ctx.val fun k => { k with ops := l, results := k.results ++ [x.1, x.2] }))

/-- R326, R327, R331, R337, R343, R359: CSRs are read and written, and the writes that act. Model's choices in it: log entries 165, 167, 228. -/
def Obligations.CsrInstructionsComplete : Prop :=
  (∀ (s : State) (th : Thread) (rd rs1 : Fin 32) (num : Fin 4096) (priv : Nat) (writable : Bool),
    let d := s.dev.issued th
    let next := s.dev.tpc th + 4;
    csrInfo (profileOf th) num.val = some (priv, writable) →
    (Ready s th (.csrr rd num) → priv ≤ s.dev.tpriv th →
      Gives (.csrr th rd num) s ((d.csrGet th (s.dev.issueSlot th) num.val).1.leave th rd (BitVec.ofNat 64 (d.csrGet th (s.dev.issueSlot th) num.val).2) next)) ∧
    (Ready s th (.csrw rs1 num) → writable = true → priv ≤ s.dev.tpriv th →
      Gives (.csrw th rs1 num) s ((d.csrPut th num.val (gget (s.dev.tregs th) rs1).toNat).leave th 0 0 next)) ∧
    (Ready s th (.csrw rs1 num) → writable = false →
      Gives (.csrw th rs1 num) s (d.trap th 1 (s.dev.tpc th) (BitVec.ofNat 64 (SOp.csrw rs1 num).encode))) ∧
    (Ready s th (.csrr rd num) → s.dev.tpriv th < priv →
      Gives (.csrr th rd num) s (d.trap th 2 (s.dev.tpc th) (BitVec.ofNat 64 (SOp.csrr rd num).encode)))) ∧
  (∀ (s : State) (c : Fin 52) (t : Fin 2) (rs1 : Fin 32),
    let th := Thread.service c t
    let d := s.dev.issued th
    let v := (gget (s.dev.tregs th) rs1).toNat;
    1 ≤ s.dev.tpriv th →
    (Ready s th (.csrw rs1 0x209) → Gives (.xlinv th rs1) s ((d.dropXlats c.val v).leave th 0 0 (s.dev.tpc th + 4))) ∧
    (Ready s th (.csrw rs1 0x20A) →
      let e := (d.updThr (2 * c.val + t.val) fun x => { x with tickcmp := v }).leave th 0 0 (s.dev.tpc th + 4);
      Gives (.tickcmpWrite th rs1) s e ∧ bitOf (e.irqs (2 * c.val + t.val)) 1 = decide (v ≤ 2 * d.clk.now))) ∧
  (∀ (s : State) (core : Fin 272) (rs1 : Fin 32),
    let th := Thread.packet core 0
    let d := s.dev.issued th
    let v := (gget (s.dev.tregs th) rs1).toNat
    let c := core.val
    let u := v % 16
    let next := s.dev.tpc th + 4;
    (Ready s th (.csrw rs1 0x101) → u ≠ 0 →
      (bitsOf v 63 62 = 1 → (d.ctx c u).st = 3 → Gives (.ctxcmdRestart th rs1) s ((d.updCtx c u fun k => { k with st := 1, pc := bitsOf v 47 32, blocked := none }).leave th 0 0 next)) ∧
      (bitsOf v 63 62 = 2 → (d.ctx c u).st = 1 ∨ (d.ctx c u).st = 3 → Gives (.ctxcmdKill th rs1) s ((d.endCtx c u (BitVec.allOnes 64)).leave th 0 0 next))) ∧
    (Ready s th (.csrw rs1 0x110) →
      let ch := bitsOf v 12 8
      let f := bitsOf v 23 16
      let key := 32 * u + ch;
      4 ≤ ch →
      (bitOf v 63 = true → d.bound c u ch = none → (bitOf v 62 = true ∨ d.readerOf (coreBlock c) f = none) →
        Gives (.chbindBind th rs1) s (((d.updCore c fun k => { k with binds := k.binds ++ [(key, f, bitOf v 62)] }).updCore c fun k => { k with bindResult := 0 }).leave th 0 0 next)) ∧
      (∀ f', bitOf v 63 = false → d.bound c u ch = some (f', false) →
        Gives (.chbindUnbind th rs1) s
          ((((d.updCore c fun k => { k with binds := k.binds.filter fun x => x.1 != key }).setFifo (coreBlock c) f' []).updCore c fun k => { k with bindResult := 0 }).leave th 0 0 next))))

/-! ### Cores (chapter 12) -/

/-- R351 to R358: packet cores start and stop, service cores are released, held, messaged and switched, packets are dispatched, and the directory serves the requests for a line. Model's choices in it: log entries 31, 32, 103, 230. -/
def Obligations.CoreCommandsComplete : Prop :=
  (∀ (s : State) (region : Fin 4) (core : Fin 68) (c : Instr) (ws : List Write) (w : Write) (d : Dev), c ∈ [Instr.coreRun region core ws, .coreStop region core ws] →
    Takes s ⟨.PCB_CORE, region.val, core.val, 0⟩ ws w d →
    let n := 68 * region.val + core.val
    let e := d.plainWrite ⟨.PCB_CORE, region.val, core.val, 0⟩ w.value;
    (bitOf w.value.toNat 31 = true → d.flag F.PCB_CORE_SFAULT region.val core.val = false → e.coreState n = 0 → Gives c s (e.startCore n)) ∧
    (bitOf w.value.toNat 31 = true → d.flag F.PCB_CORE_SFAULT region.val core.val = true → Gives c s d) ∧
    (bitOf w.value.toNat 31 = false → e.coreState n = 1 → Gives c s (e.stopCore n 2))) ∧
  (∀ (s : State) (core : Fin 52) (ws : List Write) (w : Write) (d : Dev), Takes s ⟨.SCC_CORE, core.val / 13, core.val % 13, 0⟩ ws w d → w.writer = .keystone →
    let e := d.plainWrite ⟨.SCC_CORE, core.val / 13, core.val % 13, 0⟩ w.value
    let pc := e.fld F.SCC_CORE_ENTRY_HI (core.val / 13) (core.val % 13) * 2 ^ 32 + e.fld F.SCC_CORE_ENTRY_LO (core.val / 13) (core.val % 13) * 4096;
    (bitOf w.value.toNat 31 = true → d.flag F.SCC_CORE_SFAULT (core.val / 13) (core.val % 13) = false → e.fld F.SCC_CORE_STATE (core.val / 13) (core.val % 13) ≠ 1 → e.cellGone 2 core.val = false →
      Gives (.serviceCoreRelease core ws) s
        ({ (e.updThr (2 * core.val) fun _ => { pc := pc }).updThr (2 * core.val + 1) fun _ => { pc := pc } with scActive := e.scActive.set 0 core.val 0 }.setFld
          F.SCC_CORE_STATE (core.val / 13) (core.val % 13) 1)) ∧
    (bitOf w.value.toNat 31 = true → d.flag F.SCC_CORE_SFAULT (core.val / 13) (core.val % 13) = true → Gives (.serviceCoreRelease core ws) s d) ∧
    (bitOf w.value.toNat 31 = false → e.fld F.SCC_CORE_STATE (core.val / 13) (core.val % 13) = 1 →
      Gives (.serviceCoreRelease core ws) s (e.setFld F.SCC_CORE_STATE (core.val / 13) (core.val % 13) 0))) ∧
  (∀ (s : State) (core : Fin 52) (ws : List Write) (w : Write) (d : Dev), Takes s ⟨.SCC_MSG, core.val / 13, core.val % 13, 0⟩ ws w d →
    bitOf w.value.toNat 0 = true → bitOf w.value.toNat 1 = true →
    Gives (.sccMsgWrite core ws) s
      ((d.updThr (2 * core.val) fun x => { x with irqPend := withBit x.irqPend 2 true }).updThr (2 * core.val + 1) fun x => { x with irqPend := withBit x.irqPend 2 true })) ∧
  (∀ (s : State) (core : Fin 52), Up s → s.dev.scRuns core.val = true →
    let a := s.dev.scActive.at 0 core.val
    let other := s.dev.thr (2 * core.val + (1 - a));
    other.wfe = false → other.blocked = none →
    Gives (.threadSwitch core) s (({ s.dev with scActive := s.dev.scActive.set 0 core.val (1 - a) }.advance 4).tally (tlyRgn (core.val / 13) + 0x30) 1)) ∧
  (∀ (s : State) (region : Fin 4), Up s → ∀ id p m, ((s.dev.queuedPkts region.val).find? fun x => (s.dev.memberFor region.val x.2 x.1).isSome) = some (id, p) →
    s.dev.memberFor region.val p id = some m →
    let r := region.val
    let y := max s.dev.pktNow (s.dev.dispNext.at 0 r)
    let e := s.dev.advanceTo (y * 3 / 4)
    let e := { e with poolQ := e.poolQ.upd [] (64 * r + p) (·.erase id), poolLast := e.poolLast.set none (64 * r + p) (some m),
                      dispNext := e.dispNext.set 0 r (y + 1), poolDel := e.poolDel.upd 0 (64 * r + p) (· + 1),
                      fbDel := e.fbDel.upd 0 (65536 * r + e.bucketOf id) (· + 1) }
    Gives (.dispatch region) s
      (((e.updCtx (68 * r + m / 16) (m % 16) fun k => { k with inbox := some (id, p, y) }).updPkt id fun k =>
        { k with place := .core (68 * r + m / 16) (m % 16) }).showPool r p |>.tally (tlyRgn r + 0x28) 1)) ∧
  (∀ (s : State) (region : Fin 4) (line : Nat) (writeback : Option (Fin 52)) (requests : List (Fin 52 × Bool)), Up s →
    let k := 4 * line + region.val
    let l0 := s.dev.lines.at {} k
    let l1 : Line := match writeback with
      | some c => if l0.owner = c.val ∧ 2 ≤ l0.st then {} else { l0 with sharers := l0.sharers.filter (· != c.val) }
      | none => l0
    let l2 := (requests.foldl (fun a x => insertReq (s.dev.stamp % 52) (x.1.val, x.2) a) []).foldl Line.serve l1;
    l0.st ≠ 0 → l2.st ≠ 0 →
    Gives (.directoryRequest region line writeback requests) s { s.dev with lines := s.dev.lines.set {} k { l2 with since := l0.since } })

/-! ### Register access (chapters 01 and 15) -/

/-- R17, R18, R22, R483, R484: a write of a register takes effect, after the reads of its cycle, which see what stood there before it, and after a sideband message whose message time is over. A write where nothing lies ends with ACCESS; one of a hole changes
nothing. Model's choices in it: log entries 7, 143, 145, 203, 214, 246. -/
def Obligations.RegisterWritesComplete : Prop :=
  (∀ (s : State) (addr : Nat) (ws : List Write) (rs : List Writer) (w : Write) (k : RegKey) (d : Dev),
    let a := addr - addr % 4
    let e := s.dev.settleMessage.readers a rs;
    Up s → e.reach a = .word k → Takes { s with dev := e } k ws w d → Gives (.registerWrite addr ⟨ws, rs⟩) s (regEffect k w d)) ∧
  (∀ (s : State) (addr : Nat) (ws : List Write) (w : Write) (f o : Nat) (d : Dev),
    let a := addr - addr % 4
    let e := s.dev.settleMessage;
    Up s → e.reach a = .nvme f o → e.arbitrate (nvmeWriter f) a ws = (d, some w) → Gives (.registerWrite addr ⟨ws, []⟩) s (d.nvWrite f o w.value.toNat)) ∧
  (∀ (s : State) (addr : Nat) (ws : List Write),
    let a := addr - addr % 4
    let e := s.dev.settleMessage;
    Up s →
    (e.reach a = .hole → Gives (.registerWrite addr ⟨ws, []⟩) s e) ∧
    (e.reach a = .nowhere → Gives (.registerWrite addr ⟨ws, []⟩) s (e.each ws fun w d => d.status w.writer a 5))) ∧
  (∀ (d : Dev) (a : Nat) (r : Writer),
    (d.reach a = .nowhere → d.readers a [r] = d.emit (.regStatus r a 5)) ∧
    (d.reach a ≠ .nowhere → d.readers a [r] = (d.readWord a).1.emit (.regValue r a (d.readWord a).2))) ∧
  (∀ d : Dev, (d.sbOver = false → d.settleMessage = d) ∧
    (∀ m k, d.sb = some m → m.accepted + 63 < d.clk.now → d.reach m.addr = .word k → d.settleMessage = d.endMessage k regEffect))

/-- R6, R18, R19, R21, R413, R414: the read-clear of a counter, and sideband messages: accepted, refused, and their end, with the writes of that cycle which lose to a message and the Keystone write that a message loses to. Model's choices in it: log entries 143, 145, 146, 214, 246. -/
def Obligations.ReadClearAndSidebandCommandsComplete : Prop :=
  (∀ (s : State) (addr : Nat) (rs : List Writer) (k : RegKey),
    let e := s.dev.settleMessage
    let v := e.counter k.reg k.n k.i;
    Up s → e.reach (addr - addr % 8) = .word k → k.reg.clears = true →
    (∀ top, e.sbTop k.addr = none → e.topWrite (rs.map fun r => ({ writer := r, value := 0 } : Write)) = some top →
      Gives (.counterReadClear addr rs) s
        (((e.setCounter k.reg k.n k.i 0).emit (.regValue top.writer k.addr v)).lateReaders k.addr ((e.setCounter k.reg k.n k.i 0).writerCode top.writer) (rs.filter (· != top.writer)))) ∧
    (∀ r rank code, rs = [r] → e.sbTop k.addr = some (rank, code) → rank < e.rank r → Gives (.counterReadClear addr rs) s ((e.emit (.regValue r k.addr 0)).loseToMessage k.addr code r))) ∧
  (∀ (s : State) (addr : Nat) (r : Writer) (k : RegKey),
    let e := s.dev.settleMessage;
    Up s → e.reach (addr - addr % 8) = .word k → k.reg.isCounter = true → k.reg.clears = false →
    Gives (.counterReadClear addr [r]) s (e.emit (.regValue r k.addr (e.counter k.reg k.n k.i)))) ∧
  (∀ (s : State) (addr : Nat) (rs : List Writer), Up s → s.dev.settleMessage.reach (addr - addr % 8) = .nowhere →
    Gives (.counterReadClear addr rs) s (s.dev.settleMessage.readers (addr - addr % 4) rs)) ∧
  (∀ (s : State) (addr : Nat) (path : MgmtPath) (inSession : Bool) (value : Word),
    let e := s.dev.settleMessage;
    Up s → e.sbOpen path = true → e.sb = none →
    (∀ st, e.sbRefuses path inSession true = some st → Gives (.sidebandRegisterWrite path inSession addr value) s (e.emit (.regStatus .sideband addr st))) ∧
    (e.sbRefuses path inSession true = none → ∀ k, e.reach (addr - addr % 4) = .word k →
      (e.permits k .sideband = true → Gives (.sidebandRegisterWrite path inSession addr value) s { e with sb := some { addr := k.addr, value := value, accepted := e.clk.now } }) ∧
      (e.permits k .sideband = false → Gives (.sidebandRegisterWrite path inSession addr value) s (e.emit (.regStatus .sideband addr 5)))) ∧
    (e.sbRefuses path inSession true = none → e.reach (addr - addr % 4) = .nowhere → Gives (.sidebandRegisterWrite path inSession addr value) s (e.emit (.regStatus .sideband addr 5))) ∧
    (∀ st, e.sbRefuses path inSession false = some st → Gives (.sidebandRegisterRead path inSession addr) s (e.emit (.regStatus .sideband addr st))) ∧
    (e.sbRefuses path inSession false = none →
      (e.counterAt (addr - addr % 8) = none → Gives (.sidebandRegisterRead path inSession addr) s (e.readers (addr - addr % 4) [.sideband])) ∧
      (∀ k, e.counterAt (addr - addr % 8) = some k →
        Gives (.sidebandRegisterRead path inSession addr) s { e with sb := some { addr := k.addr, value := 0, accepted := e.clk.now, clear := true } }))) ∧
  (∀ (s : State) (m : SbWrite) (k : RegKey), Up s → s.dev.sb = some m → s.dev.reach m.addr = .word k → m.addr = k.addr → s.dev.clk.now ≤ m.accepted + 63 →
    let e := { s.dev with sb := none }
    let stamp := s.dev.clk.now % 2 ^ 48;
    (m.clear = false → m.beaten = false → Gives (.sidebandWriteCommit []) s (e.commit k ⟨.sideband, m.value⟩ regEffect)) ∧
    (m.clear = false → m.beaten = true → Gives (.sidebandWriteCommit []) s (e.logConflictAt stamp m.addr 1 .sideband)) ∧
    (m.clear = true → m.beaten = false →
      Gives (.sidebandWriteCommit []) s ((e.emit (.regValue .sideband m.addr (s.dev.counter k.reg k.n k.i))).setCounter k.reg k.n k.i 0)) ∧
    (∀ w : Write, m.clear = false → m.beaten = false → s.dev.permits k w.writer = true → 1 < s.dev.rank w.writer →
      Gives (.sidebandWriteCommit [w]) s ({ s.dev.loseToMessage k.addr 2 w.writer with sb := none }.commit k ⟨.sideband, m.value⟩ regEffect)) ∧
    (∀ w : Write, m.clear = false → m.beaten = false → s.dev.permits k w.writer = true → s.dev.rank w.writer ≤ 1 →
      let x := (s.dev.beatMessage k.addr).commit k w regEffect;
      x.sb = some { m with beaten := true } → x.clk = s.dev.clk → Gives (.sidebandWriteCommit [w]) s ({ x with sb := none }.logConflictAt stamp m.addr 1 .sideband)))

/-! ### Power, straps and the test access port (chapters 15 and 16) -/

/-- R439, R442, R466, R474, R476: PWRGD, VRET and the test access port; these act whatever PWRGD is. Model's choices in it: log entries 110, 141, 142. -/
def Obligations.PowerAndTestPortCommandsComplete : Prop :=
  (∀ (s : State) (role : Fin 4) (cascId : Fin 8) (wakeIn : Bool),
    Gives (.pwrgdRise role cascId wakeIn) s
      ({ s.dev with boot := { s.dev.boot with pwrgd := true, vret := true, wakeIn := wakeIn }, board := { s.dev.board with role := role.val, cascId := cascId.val },
                    tap := { s.dev.tap with instr := if 3 ≤ s.dev.tap.instr then 0 else s.dev.tap.instr } }).coldReset) ∧
  (∀ (s : State), Gives .pwrgdLowPulse s (s.dev.coldReset.updBoot fun k => { k with pwrgd := false })) ∧
  (∀ (s : State),
    let e := ((s.dev.clearMem retained (retained + 4096)).setWord ⟨.LK_STAT, 0, 0, 0⟩ (RegKey.resetWord ⟨.LK_STAT, 0, 0, 0⟩)).gate
    Gives .vretLoss s (e.updBoot fun k => { k with vret := false })) ∧
  (∀ (s : State), Gives .bypass s ({ s.dev with tap := { s.dev.tap with instr := 0 } }.emit (.tdo 0))) ∧
  (∀ (s : State), Gives .idcode s ({ s.dev with tap := { s.dev.tap with instr := 1 } }.emit (.tdo 0x33200A1B))) ∧
  (∀ (s : State) (sampled preload : List Bool),
    Gives (.samplePreload sampled preload) s ({ s.dev with tap := { instr := 2, boundary := preload } }.emit (.tdo (shiftedOut sampled)))) ∧
  (∀ (s : State) (c : Instr) (i : Nat) (levels : List Bool), (c, i, levels) ∈ [(Instr.extest, 3, s.dev.tap.boundary), (.clamp, 4, s.dev.tap.boundary), (.highz, 5, [])] →
    (s.dev.boot.pwrgd = true → Gives c s { s.dev with tap := { s.dev.tap with instr := 0 } }) ∧
    (s.dev.boot.pwrgd = false → Gives c s ({ s.dev with tap := { s.dev.tap with instr := i } }.emit (.pins levels))))

/-! ### Cruiser (chapter 13) -/

/-- R365, R370, R372, R375 to R377, R389: data moves and flow-bucket moves start, switch, drain and are abandoned. Model's choices in it: log entries 26, 99, 231, 234, 235. -/
def Obligations.MoveCommandsComplete : Prop :=
  (∀ (s : State) (region : Fin 4), Up s → s.dev.movingOf region.val < 4 →
    ∀ x p y, (s.dev.nextItem region.val fun x => decide (idKind x.id ≤ 4) && !s.dev.isQpMove x) = some x → x.dest = some y →
    let e := s.dev.dropItem region.val x;
    e.parcel x.id = some p → p.sram ≠ some y → e.room y p.majority p.tenant p.bytes = true → x.reason ≠ 5 →
    let e := (e.charge (some y) p.majority p.tenant p.bytes).setChip F.CRU_STAT_MOVING (e.fld F.CRU_STAT_MOVING + 1)
    Gives (.moveStart region) s
      (e.setParcel x.id { p with move := some { dest := some y, step := 1, t0 := e.clk.now, src := p.sram, reason := x.reason, span := x.span, rgn := region.val } })) ∧
  (∀ (s : State) (parcel : Nat) (p : Parcel) (m : Move), Up s → s.dev.parcel parcel = some p → p.move = some m →
    (m.step = 1 →
      let home := if idKind parcel = 3 then ((m.dest.orElse fun _ => m.src).getD p.home) else p.home
      Gives (.moveSwitch parcel) s
        (s.dev.setParcel parcel { p with sram := m.dest, home := home, move := some { m with step := 2, tSwitch := s.dev.clk.now } })) ∧
    (m.step = 2 →
      Gives (.moveDrain parcel) s
        ((((s.dev.uncharge m.src p.majority p.tenant p.bytes).setParcel parcel { p with move := none }).moveDone parcel p m).obeyPin parcel))) ∧
  (∀ (s : State) (region : Fin 4) (ns : Fin 5001), Up s → ∀ x p y, s.dev.nextItem region.val s.dev.isQpMove = some x → x.dest = some y →
    (s.dev.dropItem region.val x).parcel x.id = some p →
    let r := region.val
    let e := ((s.dev.dropItem r x).advance (cyclesOfNs ns.val)).tallyMax (tlyRgn r + 0xA0) ns.val;
    Gives (.qpctxWorkMove region ns false) s ((e.bump .CRU_CNT 0 1).cruLog x.id x.span (locByte p.sram) (locByte (some y)) x.reason 1 ns.val ns.val) ∧
    (e.room y p.majority p.tenant p.bytes = true →
      let e := ((e.charge (some y) p.majority p.tenant p.bytes).uncharge p.sram p.majority p.tenant p.bytes).setParcel x.id { p with sram := some y, home := y }
      let e := ((e.bump .CRU_CNT 0 0).bump .CRU_CNT 0 3 p.bytes).bump .CRU_CNT 0 5
      let e := (e.tally (tlyRgn r + 0x70) 1).tally (tlyRgn r + 0x78) p.bytes
      Gives (.qpctxWorkMove region ns true) s (e.cruLog x.id x.span (locByte p.sram) (locByte (some y)) x.reason 0 ns.val ns.val))) ∧
  (∀ (s : State) (region : Fin 4), Up s → ∀ x, (s.dev.nextItem region.val fun x => idKind x.id == 5) = some x →
    let e := s.dev.dropItem region.val x;
    (e.fbMoves.any fun m => m.id == x.id) = false →
    Gives (.flowBucketMoveStart region) s (e.fbStart region.val (idIndex x.id) (x.dest.getD 0) x.reason false)) ∧
  (∀ (s : State) (region : Fin 4) (bucket : Fin 65536), Up s → ∀ m, (s.dev.fbMoves.find? fun m => m.id == fbId region.val bucket.val && !m.idle) = some m →
    let r := region.val
    let b := bucket.val;
    (s.dev.fbDrained r b = true → m.reason ≠ 6 →
      let q := s.dev.fbQueued r m.src b
      let e := (s.dev.takeHeld r b).1
      let e := { e with poolQ := e.poolQ.upd [] (64 * r + m.src) (·.filter fun id => !q.contains id), fbMoves := e.fbMoves.erase m }
      let e := (e.showPool r m.src).requeue r m.dst (q ++ (s.dev.takeHeld r b).2)
      let e := (e.setFld F.CRU_FBMAP_POOL r b m.dst).setFld F.CRU_FBMAP_PENDING r b 0
      let ns := nsOfCycles (e.clk.now - m.t0)
      let e := (((e.bump .CRU_CNT 0 0).bump .CRU_CNT 0 4).tallyMax (tlyRgn r + 0xA0) ns).tally (tlyRgn r + 0x70) 1
      Gives (.flowBucketSwitch region bucket) s (e.cruLog m.id m.span m.src m.dst m.reason 0 ns ns)) ∧
    (let hold := s.dev.fld F.CRU_WORK_HOLD_NS
      let e0 := s.dev.advanceTo (m.t0 + cyclesOfNs hold);
      e0.fbDrained r b = false → m.retry = false →
      let e := (e0.takeHeld r b).1.requeue r m.src (e0.takeHeld r b).2
      let e := { e with fbMoves := e.fbMoves.filter fun (x : WorkMove) => x != m }.setFld F.CRU_FBMAP_PENDING r b 0
      Gives (.flowBucketHoldExpiry region bucket) s
        (((e.bump .CRU_CNT 0 1).tallyMax (tlyRgn r + 0xA0) hold).cruLog m.id m.span m.src m.dst m.reason 1 hold hold)))

/-- R361, R366, R379, R380, R382, R384, R385, R389: parcel commands, freezes, writes of the flow-bucket map, and swaps. Model's choices in it: log entries 95, 98, 99, 231, 232. -/
def Obligations.PlacementCommandsComplete : Prop :=
  (∀ (s : State) (ws : List Write) (w : Write) (d : Dev) (c : Instr) (op : Nat) (p : Parcel),
    (c, op) ∈ [(Instr.pin ws, 1), (.unpin ws, 2), (.hint ws, 3), (.unhint ws, 4), (.query ws, 5), (.freePage ws, 7)] → Takes s ⟨.CRU_PCMD, 0, 0, 0⟩ ws w d →
    let e := d.plainWrite ⟨.CRU_PCMD, 0, 0, 0⟩ w.value
    let id := e.fld F.CRU_PCMD_ID_HI * 2 ^ 32 + e.fld F.CRU_PCMD_ID_LO
    let tier := e.fld F.CRU_PCMD_TIER
    let arg := e.fld F.CRU_PCMD_ARG;
    bitOf w.value.toNat 31 = true → e.fld F.CRU_PCMD_OP = op → e.parcel id = some p →
    (op = 1 → tier ≠ 3 → (∀ y, placeOf tier (arg % 4) = some y → p.sram ≠ some y → e.quotaOk p.tenant (tierFor p.majority y) p.bytes = true ∧ p.bytes ≤ e.placeFree y) →
      Gives c s ((((e.setParcel id { p with pin := some (placeOf tier (arg % 4)) }).skipItems fun _ i => i.id == id && i.reason != 5).obeyPin id).setChip F.CRU_PCMD_STATUS 0)) ∧
    (op = 2 → Gives c s (((e.setParcel id { p with pin := none }).unplan id 3).setChip F.CRU_PCMD_STATUS 0)) ∧
    (op = 3 → Gives c s ((e.setParcel id { p with hint := some (arg % 4) }).setChip F.CRU_PCMD_STATUS 0)) ∧
    (op = 4 → Gives c s ((e.setParcel id { p with hint := none }).setChip F.CRU_PCMD_STATUS 0)) ∧
    (op = 5 →
      let place := locByte p.sram + 8 * natOf (e.pinOf id p).isSome + 16 * natOf (e.hintOf id p).isSome + 32 * natOf p.move.isSome
      Gives c s (((e.setFld F.CRU_PCMD_WHERE 0 0 place).setFld F.CRU_PCMD_HEAT 0 0 p.heat).setChip F.CRU_PCMD_STATUS 0)) ∧
    (op = 7 → idKind id = 4 → Gives c s ((e.freeParcel id).setChip F.CRU_PCMD_STATUS 0))) ∧
  (∀ (s : State) (ws : List Write) (w : Write) (d : Dev), Takes s ⟨.CRU_PCMD, 0, 0, 0⟩ ws w d →
    let e := d.plainWrite ⟨.CRU_PCMD, 0, 0, 0⟩ w.value;
    bitOf w.value.toNat 31 = true → e.fld F.CRU_PCMD_OP = 6 →
    (∀ n, e.freePage (e.parcels.length + 1) 0 = some n →
      Gives (.allocPage ws) s (((e.createParcel (fwpageId n) 0 (e.fld F.CRU_PCMD_ARG) 4096).setFld F.CRU_PCMD_ID_LO 0 0 n).setChip F.CRU_PCMD_STATUS 0)) ∧
    (e.freePage (e.parcels.length + 1) 0 = none → Gives (.allocPage ws) s (e.setChip F.CRU_PCMD_STATUS 5))) ∧
  (∀ (s : State) (ws : List Write) (w : Write) (d : Dev), Takes s ⟨.CRU_FREEZE, 0, 0, 0⟩ ws w d →
    let e := (d.plainWrite ⟨.CRU_FREEZE, 0, 0, 0⟩ w.value).dropFrozen;
    (∀ r < 4, e.flag F.CRU_SWAP_ACTIVE r = false) → Gives (.freezeWrite ws) s e) ∧
  (∀ (s : State) (region : Fin 4) (bucket : Fin 65536) (ws : List Write) (w : Write) (d : Dev), Takes s ⟨.CRU_FBMAP, region.val, bucket.val, 0⟩ ws w d →
    let r := region.val
    let b := bucket.val
    let p := F.CRU_FBMAP_POOL.ofWord w.value
    let old := d.fld F.CRU_FBMAP_POOL r b
    let e := (d.plainWrite ⟨.CRU_FBMAP, r, b, 0⟩ w.value).setFld F.CRU_FBMAP_POOL r b old;
    p ≠ 63 → (e.fbMoves.find? fun m => m.id == fbId r b) = none →
    let e1 := e.skipItems fun r' x => r' == r && x.id == fbId r b;
    (p = old → Gives (.fbmapPoolWrite region bucket ws) s e1) ∧
    (p ≠ old → e1.classFrozen (e1.fld F.CRU_FBMAP_CLASS r b) = false → Gives (.fbmapPoolWrite region bucket ws) s (e1.fbStart r b p 4 true)) ∧
    (p ≠ old → e1.classFrozen (e1.fld F.CRU_FBMAP_CLASS r b) = true → Gives (.fbmapPoolWrite region bucket ws) s (e1.skipped (fbId r b) e1.spanSeq old p 4))) ∧
  (∀ (s : State) (region : Fin 4) (ws : List Write) (w : Write) (d : Dev), Takes s ⟨.CRU_SWAP, region.val, 0, 0⟩ ws w d → bitOf w.value.toNat 31 = true →
    d.flag F.CRU_SWAP_ACTIVE region.val = false → (F.CRU_SWAP_KIND.ofWord w.value = 1 → F.CRU_SWAP_NEW.ofWord w.value ≤ 62) →
    let r := region.val
    let e0 := (d.plainWrite ⟨.CRU_SWAP, r, 0, 0⟩ w.value).setFld F.CRU_SWAP_ACTIVE r 0 1
    let e := { e0 with swapCmd := e0.swapCmd.set (0, 0, 0) r (F.CRU_SWAP_KIND.ofWord w.value, F.CRU_SWAP_OLD.ofWord w.value, F.CRU_SWAP_NEW.ofWord w.value) };
    (e.swapKind r = 0 →
      let frozen := ((List.range 8).filter fun c => e.classFrozen c && e.classUsed r c).foldl (fun a c => a + 2 ^ c) 0
      Gives (.actionProgramSwap region ws) s
        ({ e with swapAt := e.swapAt.set 0 r e.clk.now, swapFrozen := e.swapFrozen.set 0 r frozen }.setFld F.CRU_SWAP_PENDING r 0 (if frozen = 0 then 0 else 1))) ∧
    (e.swapKind r ≠ 0 → Gives (.poolSwap region ws) s ((e.feedSwap r 64).endPoolSwap r))) ∧
  (∀ (s : State) (region : Fin 4), Up s → s.dev.flag F.CRU_SWAP_ACTIVE region.val = true → s.dev.swapKind region.val = 0 → s.dev.swapFrozen.at 0 region.val = 0 →
    (s.dev.pkts.any fun e => oldVersion region.val e.2) = false →
    let r := region.val
    let p := s.dev.progs.at [] (256 * r + s.dev.swapNew r)
    let e := { s.dev with progs := (s.dev.progs.set [] (256 * r + s.dev.swapNew r) []).set [] (256 * r + s.dev.swapOld r) p
                          pkts := s.dev.pkts.map fun (x : Nat × Pkt) => if x.2.region = r then (x.1, { x.2 with newProg := false }) else x }
    Gives (.swapComplete region) s ((e.setFld F.CRU_SWAP_ACTIVE r 0 0).setFld F.CRU_SWAP_PENDING r 0 0))

/-! ### Boot, images and management (chapter 14) -/

/-- R395 to R407, R471: boot attempts, release, the retry wait, deep sleep and its record, and DRAM training. Model's choices in it: log entries 108, 115, 122, 206, 239, 240. -/
def Obligations.BootCommandsComplete : Prop :=
  (∀ (s : State) (proofs : Fin 4096), Up s → s.dev.released = false → s.dev.boot.attempt = false → s.dev.boot.updating = false → s.dev.boot.waitFrom = none →
    s.dev.safety.keystoneHeld = false →
    let d0 := s.dev.showProofs proofs.val
    let b := d0.bankChosen
    let d1 := d0.storeRaw (retained + 4) [0]
    let d2 := (d1.setChip F.BOOT_STAT_BANK b).setChip F.BOOT_STAT_PREFMISS (natOf (b != d1.pref))
    let d3 := (d2.setChip F.BOOT_STAT_FAST (natOf (d0.fastPath b))).setChip F.BOOT_STAT_CFG_EMPTY (natOf d2.storeEmpty)
    let d4 := (d3.updBoot fun k => { k with attempt := true });
    (d0.fastPath b = true → Gives (.bootAttemptStart proofs) s ((d4.bump .BOOT_CNT 0 0).setChip F.BOOT_STAT_PHASE 1)) ∧
    (d0.fastPath b = false → d3.bankFails b ≠ 1 → d3.bankFails b ≠ 2 → Gives (.bootAttemptStart proofs) s (d4.setChip F.BOOT_STAT_PHASE 1))) ∧
  (∀ (s : State), Up s → s.dev.released = false → s.dev.attemptPasses = true → s.dev.quiet = false →
    let d1 := { s.dev.measure.deriveIdentity.factorySetup.setChip F.BOOT_STAT_PHASE 2 with released := true }
    let d2 := d1.setChip F.BOOT_REL_US ((d1.clk.now - d1.boot.t0) / 1650)
    let d3 := ((d2.recordAttempts 0 d1.lastFail).setChip F.LK_CFG_LOCK 1).showLatent
    let d4 := { d3 with safety := { d3.safety with round := d3.clk.now, rounds := 0, lkBeat := d3.clk.now }, pair := { d3.pair with squelched := false, refresh := d3.clk.now } }
    Gives .release s ((d4.each ((List.range 16).filter d4.isPort) fun p d => d.evalDisabled p).startElection)) ∧
  (∀ (s : State), Up s → s.dev.released = false → s.dev.boot.attempt = true → s.dev.flag F.BOOT_STAT_FAST = false →
    let x := s.dev.attemptFails (s.dev.fld F.BOOT_STAT_BANK);
    x ≠ 0 →
    let e := s.dev.chipReset.recordAttempts (min (s.dev.chipReset.attempts + 1) 65535) x
    Gives .bootAttemptFail s (e.updBoot fun k => { k with waitFrom := some e.clk.now })) ∧
  (∀ (s : State) (t : Nat), Up s → s.dev.boot.waitFrom = some t →
    let e := s.dev.advanceTo (t + cyclesOfMs 100)
    Gives .bootRetryWaitExpiry s (e.updBoot fun k => { k with waitFrom := none })) ∧
  (∀ (s : State) (ws : List Write) (w : Write) (d : Dev), Takes s ⟨.BOOT_CTL, 0, 0, 0⟩ ws w d →
    Gives (.bootPrefWrite ws) s ((d.setFld F.BOOT_CTL_SLEEP_EN 0 0 (F.BOOT_CTL_SLEEP_EN.ofWord w.value)).programPref (F.BOOT_CTL_PREF.ofWord w.value))) ∧
  (∀ (s : State), Up s → s.dev.flag F.BOOT_CTL_SLEEP_EN = true → s.dev.boot.asleep = none →
    let d1 := (s.dev.updBoot fun k => { k with asleep := some s.dev.clk.now, sleepReq := true })
    let d2 := d1.each ((List.range 16).filter d1.isPort) fun p d => d.toDisabled p
    Gives (.deepSleepEntry false) s ({ d2 with pair := { d2.pair with squelched := true } }.setFault true)) ∧
  (∀ (s : State) (training : List Byte), Up s → s.dev.boot.asleep.isSome = true → s.dev.boot.sleepDone = false → s.dev.released = true →
    let d1 := s.dev.storeRaw retained (leBytes 4 0x52545331 ++ [0, BitVec.ofNat 8 (s.dev.fld F.BOOT_STAT_BANK)])
    let d2 := (d1.storeRaw (retained + 0x20) d1.boot.stage1).storeRaw (retained + 0x50) (leBytes 8 d1.boot.epoch)
    let d4 := (d2.storeRaw (retained + 0x58) d2.boot.config).storeRaw (retained + 0x88) (sliceB training 0 3832)
    let d5 := (d4.storeRaw (retained + 0xFC0) (hmac384 sleepKey d4.retCovered)).storeRaw (retained + 4) [1]
    Gives (.sleepRecordWrite training) s (d5.updBoot fun k => { k with sleepDone := true })) ∧
  (∀ (s : State), Up s → s.dev.boot.asleep.isSome = true →
    let e := s.dev.storeRaw (retained + 4) [0]
    Gives .sleepAbort s ((e.updBoot fun k => { k with sleepReq := false }).chipReset)) ∧
  (∀ (s : State), Up s → Gives .dramTrainingComplete s (s.dev.updBoot fun k => { k with dram := true }))

/-- R394, R403, R409 to R415: the loader, firmware update, monitoring, measurement and secure sessions. Model's choices in it: log entries 116, 117, 118, 119, 120, 206, 239, 244. -/
def Obligations.LoaderAndManagementCommandsComplete : Prop :=
  (∀ (s : State) (ws : List Write) (w : Write) (d : Dev) (host : List Byte) (ends : ReadEnd) (c : Instr),
    c ∈ [Instr.installSc ws host ends, .installPc ws host ends, .installAct ws host ends, .installParse ws host ends] → Takes s ⟨.LDR_CMD, 0, 0, 0⟩ ws w d →
    let e := d.plainWrite ⟨.LDR_CMD, 0, 0, 0⟩ w.value
    let copy := e.ldrCopy (e.fld F.LDR_SRC_ADDR_HI * 2 ^ 32 + e.fld F.LDR_SRC_ADDR_LO * 4096) host ends
    let e1 := (copy.1.setChip F.LDR_CMD_BUSY 1).setChip F.LDR_CMD_STATUS 0;
    (bitOf w.value.toNat 31 = true → d.flag F.LDR_CMD_BUSY = true → Gives c s d) ∧
    (bitOf w.value.toNat 31 = true → d.flag F.LDR_CMD_BUSY = false →
    Gives c s (e1.updBoot fun k => { k with
      ldr := some ((e1.word ⟨.LDR_CMD, 0, 0, 0⟩).toNat, e.fld F.LDR_DST_ADDR_HI * 2 ^ 32 + e.fld F.LDR_DST_ADDR_LO * 4096), ldrImage := copy.2.2, ldrErr := copy.2.1 }))) ∧
  (∀ (s : State) (cmd dst : Nat), Up s → s.dev.boot.ldr = some (cmd, dst) →
    let img := s.dev.boot.ldrImage
    let x := s.dev.imgFails [2, 3, 4, 5] (2 ^ 21) img false
    let y := if s.dev.boot.ldrErr ≠ 0 then (s.dev, s.dev.boot.ldrErr) else if x = 0 then s.dev.ldrInstall cmd dst img else (s.dev, if x = 5 then 4 else x)
    let e := if 1 ≤ y.2 ∧ y.2 ≤ 6 then y.1.bump .BOOT_CNT 0 1 else y.1
    let f := (e.setChip F.LDR_CMD_STATUS y.2).setChip F.LDR_CMD_BUSY 0
    let chain := if y.2 = 0 then sha384 (e.boot.chain ++ sliceB img 0x20 48 ++ [BitVec.ofNat 8 (imgNum img 6 1)] ++ leBytes 8 (ldrTarget cmd dst)) else e.boot.chain
    Gives .loaderCommandComplete s (f.updBoot fun k => { k with ldr := none, ldrImage := [], ldrErr := 0, chain := chain })) ∧
  (∀ (s : State), Up s →
    (s.dev.boot.updating = false →
      Gives .pldmRequestUpdate s ((s.dev.updBoot fun k => { k with updating := true, updated := none }).emit (.pldm 0 [])) ∧
      Gives .pldmCancelUpdate s (s.dev.emit (.pldm 1 []))) ∧
    (s.dev.boot.updating = true →
      Gives .pldmRequestUpdate s (s.dev.emit (.pldm 1 [])) ∧
      Gives .pldmCancelUpdate s ((s.dev.updBoot fun k => { k with updating := false, updated := none }).emit (.pldm 0 [])))) ∧
  (∀ (s : State), Up s → s.dev.boot.updating = true → s.dev.boot.asleep = none →
    let e := (s.dev.updBoot fun k => { k with updating := false, updated := none });
    (∀ b, s.dev.boot.updated = some b → Gives .pldmActivateFirmware s ((e.programPref b).emit (.pldm 0 []))) ∧
    (∀ a data p, flashPart a data.length = some p → (p < 2 → s.dev.runningBank ≠ some p) →
      let f := s.dev.flashEpoch.storeRaw a data;
      (p = 2 → Gives (.pldmComponentTransfer (.program a data)) s (f.emit (.pldm 0 []))) ∧
      (p ≠ 2 → Gives (.pldmComponentTransfer (.program a data)) s
        ((f.updBoot fun k => { k with programmed := insertNum p k.programmed, updated := some p }).emit (.pldm 0 [])))) ∧
    (∀ a n, Gives (.pldmComponentTransfer (.erase a n)) s (s.dev.flashChange a (List.replicate n 0xFF))) ∧
    (∀ i digest, i.val ≠ 0 → Gives (.pldmComponentTransfer (.slot i digest)) s
      ((s.dev.updBoot fun k => { k with slots := k.slots.set [] i.val (List.zipWith (· ||| ·) (sliceB (k.slots.at [] i.val) 0 48) (sliceB digest 0 48)) }).emit (.pldm 0 []))) ∧
    (∀ i, Gives (.pldmComponentTransfer (.revoke i)) s
      ((s.dev.updBoot fun k => { k with revoked := insertNum i.val k.revoked }).emit (.pldm 0 []))) ∧
    (∀ n, Gives (.pldmComponentTransfer (.svn n)) s
      ((s.dev.updBoot fun k => { k with minSvn := max k.minSvn (min n 64) }).emit (.pldm 0 [])))) ∧
  (∀ (s : State) (path : MgmtPath), Up s → s.dev.pathServes path = true →
    let e := { s.dev with draws := s.dev.draws + 1 }
    Gives (.pldmMonitoring path) s (e.emit (.pldm 0 ((List.range 21).map fun i => Config.sensor s.dev.draws i))) ∧
    (let key := if s.dev.released then s.dev.boot.aliasKey else deviceIdKey;
      Gives (.getMeasurements path) s ({ s.dev with draws := s.dev.draws + 2 }.emit
        (.measurements (natOf s.dev.released) s.dev.measurementBlocks (signP384 key (Config.transcript s.dev.draws (blockBytes s.dev.measurementBlocks)) (s.dev.draws + 1))))) ∧
    Gives (.spdmSecureSession path) s (s.dev.updBoot fun k => { k with session := true }))

/-! ### Faults, spares and self-test (chapter 15) -/

/-- R13, R351, R422 to R424, R426, R429, R445: errors found by ECC and parity, supervisor faults left unacknowledged, spares, and Flume lanes. Model's choices in it: log entries 94, 125, 126, 127, 237, 238, 241. -/
def Obligations.FaultCommandsComplete : Prop :=
  (∀ (s : State) (kind : Fin 10) (cell : Fin 1024) (place : ErrPlace), Up s →
    let marked := ((s.dev.errCount 1).markPlace place).logError 1 2 kind.val cell.val 2 (placeDetail place)
    let corrected (r : Nat) := ((s.dev.errCount 0).tally (tlyRgn r + 0x80) 1).correction kind.val cell.val 1 (placeDetail place) 0 1;
    Gives (.eccErrorDetected kind cell place true false) s marked ∧
    Gives (.scrubVisit kind cell place true true) s marked ∧
    Gives (.scrubVisit kind cell place false false) s s.dev ∧
    (∀ r, cellRegion kind.val cell.val = some r →
      Gives (.eccErrorDetected kind cell place false false) s (corrected r) ∧ Gives (.scrubVisit kind cell place true false) s (corrected r))) ∧
  (∀ (s : State) (cell : Fin 1024) (place : ErrPlace) (beyond : Bool), Up s →
    Gives (.eccErrorDetected 9 cell place beyond true) s (((s.dev.errCount 0).tally (tlyRgn (cell.val / 16 % 4) + 0x80) 1).repairRow cell.val)) ∧
  (∀ (s : State) (kind : Fin 10) (cell : Fin 1024) (r : Nat), Up s → cellRegion kind.val cell.val = some r →
    (∀ id, s.dev.hasPkt id = true →
      Gives (.parityErrorDetected kind cell (.packet id)) s
        ((((s.dev.losePkts [id]).errCount 6).tally (tlyRgn r + 0x88) 1).correction kind.val cell.val 8 0 1 0)) ∧
    (∀ j, (s.dev.jobs.any fun e => e.1 == j) = true →
      Gives (.parityErrorDetected kind cell (.job j)) s
        ((((s.dev.unitFault j).errCount 6).tally (tlyRgn r + 0x88) 1).correction kind.val cell.val 8 0 1 0))) ∧
  (∀ (s : State) (core : Fin 272), Up s → s.dev.sfaultAt.at 0 core.val ≠ 0 → s.dev.flag F.PCB_CORE_SFAULT (coreRegion core.val) (coreIndex core.val) = true →
    let e := s.dev.advanceTo (s.dev.sfaultAt.at 0 core.val - 1 + cyclesOfUs (s.dev.fld F.PCB_CTL_ACK_US (coreRegion core.val) (coreBlock core.val % 4)))
    Gives (.sfaultAckTimeout core) s ({ e with sfaultAt := e.sfaultAt.set 0 core.val 0 }.regionFence (coreRegion core.val) 10 1 core.val)) ∧
  (∀ (s : State) (lane : Fin 10), Up s → Gives (.flumeLaneLoss lane) s ((s.dev.cellFails 8 lane.val 9 0).showFlume (lane.val / 5))) ∧
  (∀ (s : State) (kind n t : Nat) (rest : List (Nat × Nat × Nat)), Up s → s.dev.safety.subs = (kind, n, t) :: rest →
    let e := s.dev.safe fun f => { f with subs := rest };
    (kind = 1 → Gives .spareSubstitutionComplete s (e.takeWork n (e.standIn 1 n))) ∧
    (kind = 2 → e.flag F.SCC_CORE_RUN (n / 13) (n % 13) = true →
      let x := e.standIn 2 n
      let pc := e.fld F.SCC_CORE_ENTRY_HI (n / 13) (n % 13) * 2 ^ 32 + e.fld F.SCC_CORE_ENTRY_LO (n / 13) (n % 13) * 4096
      let e1 := e.each (List.range 3) fun w d => d.setWord ⟨.SCC_CORE, x / 13, x % 13, w⟩ (d.word ⟨.SCC_CORE, n / 13, n % 13, w⟩)
      let e2 := (e1.updThr (2 * x) fun _ => { pc := pc }).updThr (2 * x + 1) fun _ => { pc := pc }
      Gives .spareSubstitutionComplete s ((e2.setFld F.SCC_CORE_STATE (x / 13) (x % 13) 1).assignTasks)) ∧
    (kind = 8 → Gives .spareSubstitutionComplete s (e.showFlume (n / 5))) ∧
    (kind = 3 → Gives .spareSubstitutionComplete s e))

/-- R417, R418, R420, R422, R430 to R438, R468: the Lookout, the monitors, the safe state and its reboot, the return of a region, and the rolling self-test. Model's choices in it: log entries 93, 123, 124, 128, 237, 242. -/
def Obligations.SafetyCommandsComplete : Prop :=
  (∀ (s : State) (c : Instr) (cause mech : Nat) (e : Dev),
    (c, cause, mech, e) ∈ [(Instr.lockstepMiscompare, 1, 4, s.dev),
      (.lookoutWatchdogExpiry, 2, 5, s.dev.advanceTo (s.dev.safety.lkBeat + cyclesOfUs (s.dev.fld F.LK_CFG_WD_US)))] → Up s →
    e.boot.vret = true → e.safety.keystoneHeld = false →
    let e1 := (e.setChip F.LK_STAT_TOOK 1).setChip F.LK_STAT_CAUSE cause
    let e2 := (e1.setChip F.LK_STAT_COUNT (min (e1.fld F.LK_STAT_COUNT + 1) 65535)).safe fun f => { f with keystoneHeld := true }
    let e3 := e2.fatal mech 0 0 0
    Gives c s (e3.safe fun f => { f with safeAt := some e3.clk.now })) ∧
  (∀ (s : State), Up s →
    Gives (.clockMonitorTrip .root) s (s.dev.fatal 6 0 0 0) ∧
    Gives (.clockMonitorTrip .divided) s (s.dev.fatal 6 0 0 0) ∧
    (∀ lanes, Gives (.clockMonitorTrip (.serdes lanes)) s (s.dev.each lanes fun l d => d.toDisabled (portIn d.laneMap l.val))) ∧
    (∀ h, Gives (.clockMonitorTrip (.phy h)) s (s.dev.each (List.range 4) fun k d => d.dropLink h.val k)) ∧
    (∀ (rail : Fin 8) (uv : Nat), (uv < railNominal rail.val * (1000 - railWindow rail.val) ∨ railNominal rail.val * (1000 + railWindow rail.val) < uv) →
      Gives (.voltageMonitorTrip rail uv) s (s.dev.fatal 7 0 0 0)) ∧
    (∀ (region : Fin 4) (t : Int), 1300 ≤ t → Gives (.thermalTrip region t) s (s.dev.fatal 12 0 0 0))) ∧
  (∀ (s : State) (t : Nat), Up s → s.dev.safety.safeAt = some t →
    (s.dev.safety.keystoneHeld = true → Gives .chipRebootTimer s ((s.dev.advanceTo (t + cyclesOfMs (1 + s.dev.fld F.ERR_CTL_REBOOT_MS))).chipReset)) ∧
    (s.dev.safety.keystoneHeld = false → s.dev.fld F.ERR_CTL_REBOOT_MS ≠ 0 →
      Gives .chipRebootTimer s ((s.dev.advanceTo (t + cyclesOfMs (s.dev.fld F.ERR_CTL_REBOOT_MS))).chipReset)) ∧
    (s.dev.safety.keystoneHeld = false → s.dev.fld F.ERR_CTL_REBOOT_MS = 0 → Gives .chipRebootTimer s s.dev)) ∧
  (∀ (s : State) (ws : List Write) (w : Write) (d : Dev), Takes s ⟨.ERR_STAT, 0, 0, 0⟩ ws w d → bitOf w.value.toNat 25 = true →
    (d.plainWrite ⟨.ERR_STAT, 0, 0, 0⟩ w.value).flag F.ERR_STAT_SAFE = true →
    Gives (.safeStateReset ws) s ((d.plainWrite ⟨.ERR_STAT, 0, 0, 0⟩ w.value).chipReset)) ∧
  (∀ (s : State) (region : Fin 4) (ws : List Write) (w : Write) (d : Dev), Takes s ⟨.ERR_RGN, 0, region.val, 0⟩ ws w d → bitOf w.value.toNat 30 = true →
    d.fenced region.val = true → d.safety.restores.at none region.val = none →
    let e := d.regionReset region.val
    Gives (.regionRestore region ws) s
      { e.safe fun f => { f with restores := f.restores.set none region.val (some e.clk.now) } with rebuilding := insertNum region.val e.rebuilding }) ∧
  (∀ (s : State) (region : Fin 4), Up s → (s.dev.safety.restores.at none region.val).isSome = true →
    let r := region.val
    let e := { s.dev.safe fun f => { f with restores := f.restores.set none r none } with rebuilding := s.dev.rebuilding.erase r };
    Gives (.regionRejoin region false) s e ∧
    (let e1 := ((e.setFld F.ERR_RGN_FENCED 0 r 0).setChip F.ERR_STAT_FENCED (withBit (e.fld F.ERR_STAT_FENCED) r false)).showGone r
     Gives (.regionRejoin region true) s
      (e1.each ((List.range 16).filter fun p => e1.isPort p && (List.range (e1.portWidth p)).any fun j => (p + j) / 4 == r) fun p d => d.evalDisabled p))) ∧
  (∀ (s : State), Up s → s.dev.released = true → s.dev.flag F.ERR_STAT_SAFE = false →
    let e0 := s.dev.advanceTo s.dev.safety.round
    let n := e0.safety.rounds;
    n % 20 < 17 →
    let e1 := e0.safe fun f => { f with round := f.round + cyclesOfUs 500, rounds := n + 1 }
    let e2 := (e1.setChip F.ST_STAT_ROUND (n % 20)).setChip F.ST_STAT_FRAME (n / 20)
    let tests (d : Dev) : Dev := d.each ((List.range 16).map fun b => 17 * b + n % 20) fun k d => d.onlyIf (d.testable 1 k) fun d => d.evacuate 1 k
    Gives (.selftestRound none) s (tests e2) ∧
    ∀ p, Gives (.selftestRound (some p)) s (tests (e2.showProofs p.val))) ∧
  (∀ (s : State) (kind : Fin 10) (cell : Fin 1024) (pass : Bool) (measure : Fin 65536) (bufferBank : Bool) (t : CellTest), Up s →
    (s.dev.safety.tests.find? fun t => t.kind == kind.val && t.cell == cell.val) = some t →
    (kind.val ≠ 1 → (kind.val = 3 → bufferBank = false ∨ t.onSpare = true ∨ s.dev.isSpare 3 cell.val = true) →
      Gives (.bistComplete kind cell pass measure bufferBank) s (s.dev.endTest t pass measure.val bufferBank)) ∧
    (kind.val = 3 → bufferBank = true → t.onSpare = false → s.dev.isSpare 3 cell.val = false →
      Gives (.bistComplete kind cell pass measure bufferBank) s ((s.dev.safe fun f => { f with tests := f.tests.erase t }).untestable 3 cell.val)) ∧
    (kind.val = 1 → t.onSpare = true → s.dev.coreHolds (spareCell 1 cell.val) = false →
      Gives (.bistComplete kind cell pass measure bufferBank) s (s.dev.endTest t pass measure.val bufferBank)) ∧
    (kind.val = 1 → t.onSpare = false → s.dev.coreState cell.val = 1 → s.dev.coreHolds cell.val = true →
      Gives (.bistComplete kind cell pass measure bufferBank) s
        (((s.dev.safe fun f => { f with tests := f.tests.erase t, deferred := insertNum cell.val f.deferred }).errCount 7).updCore cell.val fun x => { x with away := false })))

/-! ### Pairs and cascades (chapter 16) -/

/-- R443 to R447, R453, R457, R461, R462: Flume ports, heartbeats, election and the ring. The region of a remote frame for the recirculation queue is a free value (log entry 1). Model's choices in it: log entries 129, 137, 138, 139. -/
def Obligations.FlumeCommandsComplete : Prop :=
  (∀ (s : State) (fl : Fin 2), Up s → s.dev.released = true → s.dev.quiet = false → s.dev.pair.squelched = false → (s.dev.inPair || s.dev.inCascade) = true →
    let g := ((List.range 5).filter fun i => !s.dev.cellGone 8 (5 * fl.val + i)).length;
    2 ≤ g → Gives (.flumePortUp fl true) s (((s.dev.setFld F.FLM_STAT_UP 0 fl.val 1).setFld F.FLM_STAT_WIDTH 0 fl.val (if 4 ≤ g then 4 else 2)).showRing)) ∧
  (∀ (s : State) (fl : Fin 2), Up s → s.dev.flumeLive fl.val = true →
    let e := s.dev.updPair fun p => { p with refresh := s.dev.clk.now }
    Gives (.flumeHeartbeatSend fl) s
      (e.emit (.flume fl.val 1 [s.dev.fld F.PAIR_STAT_ROLE, s.dev.board.cascId, s.dev.pairState, s.dev.fld F.PAIR_SEQ_SEQ, s.dev.fld F.PAIR_CFG_PRIO, s.dev.board.serial,
        natOf s.dev.pair.conceded, s.dev.clk.tc]))) ∧
  (∀ (s : State) (fl : Fin 2) (beat : Heartbeat), Up s → s.dev.released = true → s.dev.quiet = false → s.dev.flag F.FLM_STAT_UP 0 fl.val = true →
    (s.dev.inCascade = true → beat.role.val = 3 → Gives (.flumeHeartbeatReceive fl beat) s (s.dev.ringBeat fl.val beat)) ∧
    (s.dev.inCascade = false → s.dev.inPair = true → beat.role.val = 1 ∨ beat.role.val = 2 → Gives (.flumeHeartbeatReceive fl beat) s (s.dev.pairBeat fl.val beat))) ∧
  (∀ (s : State), Up s → s.dev.released = true → s.dev.pair.squelched = false → (s.dev.inPair || s.dev.inCascade) = true →
    Gives .flumeRefreshTimeout s ((s.dev.advanceTo (s.dev.pair.refresh + cyclesOfUs 30)).stopFlume)) ∧
  (∀ (s : State) (fl : Fin 2) (member : Fin 8), Up s →
    (s.dev.inCascade = true → bitOf (s.dev.fld F.CAS_STAT_LIVE) member.val = true → member.val ≠ s.dev.board.cascId → member.val ≠ 0 →
      let e := (s.dev.advanceTo (s.dev.pair.memberBeat.at 0 member.val + cyclesOfUs 30)).bump .PAIR_CNT 0 2 3
      Gives (.peerHeartbeatTimeout fl member) s
        ((e.setChip F.CAS_STAT_LIVE (withBit (e.fld F.CAS_STAT_LIVE) member.val false)).chipEvent 0x0E member.val)) ∧
    (s.dev.inCascade = false → s.dev.inPair = true → s.dev.pair.beat.at 0 fl.val ≠ 0 → s.dev.pair.missed.at false fl.val = false →
      let e := ((s.dev.advanceTo (s.dev.pair.beat.at 0 fl.val - 1 + cyclesOfUs 30)).bump .PAIR_CNT 0 2 3).updPair fun p => { p with missed := p.missed.set false fl.val true }
      let all := (List.range 2).all fun k => e.pair.beat.at 0 k == 0 || e.pair.missed.at false k
      Gives (.peerHeartbeatTimeout fl member) s (if all = true then e.beatsStopped else e))) ∧
  (∀ (s : State) (asserted : Bool) (e : Dev), Up s → s.dev.setChip F.PAIR_STAT_PEER_PIN (natOf asserted) = e →
    (e.pairState = 1 → Gives (.peerActiveChange asserted) s (e.updPair fun p => { p with pinSeen := p.pinSeen || asserted })) ∧
    (e.pairState = 2 → ∀ t, e.pair.pinRule = some t →
      let e1 := e.updPair fun p => { p with pinRule := none };
      (asserted = true → e1.clk.now ≤ t + cyclesOfUs 1 → e1.fld F.PAIR_STAT_ROLE = 2 → Gives (.peerActiveChange asserted) s e1.detach) ∧
      (asserted = false → Gives (.peerActiveChange asserted) s e1)) ∧
    (e.pairState = 0 → Gives (.peerActiveChange asserted) s e)) ∧
  (∀ (s : State) (t : Nat), Up s → s.dev.pair.electFrom = some t → s.dev.pairState = 1 →
    let e := (s.dev.advanceTo (t + cyclesOfUs (s.dev.fld F.PAIR_CFG_ELECT_US))).updPair fun p => { p with electFrom := none };
    (e.pair.peerSeen = true → Gives .electTimerExpiry s e.enterActive) ∧
    (e.pair.peerSeen = false → e.pair.pinSeen = true ∨ e.flag F.PAIR_STAT_PEER_PIN = true → Gives .electTimerExpiry s e.detach) ∧
    (e.pair.peerSeen = false → e.pair.pinSeen = false → e.flag F.PAIR_STAT_PEER_PIN = false →
      Gives .electTimerExpiry s (e.enterActive.updPair fun p => { p with pinRule := some e.clk.now }))) ∧
  (∀ (s : State) (fl : Fin 2) (port : Fin 16) (cls : Fin 8) (md bytes : List Byte) (member : Fin 8), Up s → s.dev.inCascade = true → s.dev.released = true → s.dev.quiet = false →
    s.dev.flag F.FLM_STAT_UP 0 fl.val = true → member.val = s.dev.board.cascId → s.dev.flag F.CAS_STAT_DUPID = false →
    let enter (d : Dev) (r : Nat) : Dev × Nat :=
      let x := d.newPkt { packetOfMd md bytes with region := r, buf := d.nextPkt, rxNs := d.ptpNs }
      (({ x.1 with bufs := x.1.bufs.set {} x.2 { region := r, refs := 1 } }).takeCells x.2 (cellsFor (bytes.length + 4)), x.2);
    (port.val ≠ 15 → ∀ e id, enter s.dev (port.val / 4) = (e, id) → Gives (.flumeRemoteFrameReceive fl member port cls md bytes) s (e.enqueue id port.val cls.val)) ∧
    (port.val = 15 → let r := Config.ringRegion s.dev.draws % 4;
      ∀ e id, enter { s.dev with draws := s.dev.draws + 1 } r = (e, id) →
      Gives (.flumeRemoteFrameReceive fl member port cls md bytes) s ((e.updPkt id fun k => { k with pass := 0, disp := 0, resumed := false }).joinRecirc id r)))

/-- R448 to R450, R454 to R457, R459, R460: commits, intent records, the bulk copy, promotion, switchover and replication. Model's choices in it: log entries 130, 131, 132, 133, 134, 158, 159, 202, 221. -/
def Obligations.MirrorCommandsComplete : Prop :=
  (∀ (s : State) (seq : Word) (covers : Nat) (items : List CommitItem), Up s → s.dev.mirrored = true → s.dev.pair.copied = true → s.dev.pair.applied = true →
    (BitVec.ofNat 32 (s.dev.fld F.PAIR_SEQ_SEQ + 1) = seq →
      let e := ((s.dev.applyItems items).setChip F.PAIR_SEQ_SEQ seq.toNat).bump .PAIR_CNT 0 0
      let e1 := e.updPair fun p => { p with applied := true, received := p.received.filter fun x => decide (covers ≤ x.1) }
      Gives (.commitApply seq covers true items) s ((e1.emit (.flume e1.flumeOut 5 [seq.toNat])).syncDone)) ∧
    (BitVec.ofNat 32 (s.dev.fld F.PAIR_SEQ_SEQ + 1) ≠ seq → Gives (.commitApply seq covers true items) s s.dev.detach)) ∧
  (∀ (s : State) (seq : Word) (c : Nat × Nat × Nat), Up s → (s.dev.pair.commits.find? fun c => c.1 == seq.toNat) = some c →
    let e := (s.dev.setChip F.PAIR_SEQ_SEQ seq.toNat).bump .PAIR_CNT 0 0
    Gives (.commitAck seq) s
      ((e.tallyMax 0x64 (nsOfCycles (e.clk.now - c.2.1))).updPair fun p => { p with commits := p.commits.filter fun x => decide (c.2.1 < x.2.1) })) ∧
  (∀ (s : State), Up s →
    (∀ x, (s.dev.pair.intents.find? fun x => x.2.1.isNone) = some x →
      Gives (.intentRecord none) s
        ((s.dev.updPair fun p => { p with intents := p.intents.map fun y => if y.1 = x.1 then (y.1, some s.dev.clk.now, y.2.2) else y }).emit (.intent x.1 x.2.2))) ∧
    (∀ n i, s.dev.mirrored = true → s.dev.pair.recvNext.getD n = n →
      let e := s.dev.updPair fun p => { p with received := p.received ++ [(n, i)], recvNext := some (n + 1) }
      Gives (.intentRecord (some (n, i))) s (e.emit (.flume s.dev.flumeOut 3 [n]))) ∧
    (∀ n i, s.dev.mirrored = true → s.dev.pair.recvNext.getD n ≠ n → Gives (.intentRecord (some (n, i))) s s.dev.detach) ∧
    (∀ number x, (s.dev.pair.intents.find? fun x => x.1 == number && x.2.1.isSome) = some x →
      Gives (.intentAck number) s ((s.dev.updPair fun p => { p with intents := p.intents.erase x }).landIntent x.2.2)) ∧
    (∀ n t i rest, s.dev.pair.intents = (n, some t, i) :: rest →
      let e := (s.dev.advanceTo (t + cyclesOfUs 5)).updPair fun p => { p with intents := rest.filter fun x => x.1 != n }
      Gives .intentTimeout s (((e.bump .PAIR_CNT 0 3).setChip F.PAIR_STAT_PROTECTED 0).landIntent i))) ∧
  (∀ (s : State), Up s → s.dev.inPair = true → s.dev.pairState = 4 → s.dev.flag F.PAIR_STAT_HB = false → s.dev.flag F.PAIR_STAT_PEER_PIN = false →
    Gives .promotion s s.dev.promote) ∧
  (∀ (s : State) (ws : List Write) (w : Write) (d : Dev), Takes s ⟨.PAIR_CTL, 0, 0, 0⟩ ws w d → d.inPair = true →
    (bitOf w.value.toNat 31 = true → d.pairState = 5 → Gives (.promote ws) s d.promote) ∧
    (bitOf w.value.toNat 30 = true → d.pairState = 2 → d.flag F.PAIR_STAT_PROTECTED = true → Gives (.switch ws) s (d.updPair fun p => { p with switching := true }))) ∧
  (∀ (s : State) (items : List CommitItem), Up s → s.dev.inPair = true → s.dev.pairState = 3 → s.dev.pair.copied = false →
    Gives (.bulkCopyComplete items) s ((((s.dev.applyItems items).setChip F.PAIR_STAT_SYNC_PCT 100).updPair fun p => { p with copied := true }).syncDone)) ∧
  (∀ (s : State) (fl : Fin 2) (items : List CommitItem), Up s → s.dev.member = true → s.dev.released = true → s.dev.quiet = false → s.dev.flag F.FLM_STAT_UP 0 fl.val = true →
    s.dev.flag F.CAS_STAT_DUPID = false →
    let pass (full : Bool) (d : Dev) : Dev := if d.flumeLive (1 - fl.val) = true then d.emit (.replicate (1 - fl.val) full items) else d;
    (s.dev.flag F.CAS_STAT_HEADLESS = false → Gives (.cascadeReplicationApply fl false items) s (pass false (s.dev.applyItems (items.filter s.dev.replicatedItem)))) ∧
    (s.dev.flag F.CAS_STAT_HEADLESS = true → Gives (.cascadeReplicationApply fl false items) s (pass false s.dev)) ∧
    (let e := s.dev.forgetReplicas.setChip F.CAS_STAT_HEADLESS 0
     Gives (.cascadeReplicationApply fl true items) s (pass true (e.applyItems (items.filter e.replicatedItem)))))

/-! ### The machine as a whole -/

/-- A step runs the command at the front of the queue with the queue's rest; on an empty queue one CLK_PIPE cycle passes (the model's choice, log entry 4). -/
def Obligations.StepRunsTheFrontCommand : Prop :=
  (∀ (s : State) (c : Instr) (rest : List Instr), s.pending = c :: rest → step s = Sys2Proof.Machine.exec c { s with pending := rest }) ∧
  (∀ (s : State), s.pending = [] → Up s → step s = .next { s with dev := (s.dev.landWrites.advance 1).settle s.dev.mem })

/-- Every command completes in every state, and leaves the queue alone: no command stops the machine (R483: an access of an unpopulated address ends with a status). Model's choices in it: log entry 6. -/
def Obligations.EveryCommandCompletes : Prop := ∀ (c : Instr) (s : State), ∃ d : Dev, Sys2Proof.Machine.exec c s = .next { s with dev := d }

/-- R466: while PWRGD is low the device is held in cold reset: no command changes it but the edge of PWRGD, a further pulse, the loss of VRET and the test access port, which acts then too (R476); of the levels of PERST it keeps note alone. That a held device
ignores every other command is the model's reading. Model's choices in it: log entry 110. -/
def Obligations.HeldInColdReset : Prop :=
  (∀ (c : Instr) (s : State), State.Inv s → s.dev.boot.pwrgd = false → (∀ r i w, c ≠ .pwrgdRise r i w) → (∀ a b, c ≠ .samplePreload a b) →
    (∀ h, c ≠ .perstAssert h) → (∀ h, c ≠ .perstDeassert h) → c ∉ [Instr.pwrgdLowPulse, .vretLoss, .bypass, .idcode, .extest, .clamp, .highz] →
    Sys2Proof.Machine.exec c s = .next s) ∧
  (∀ (s : State) (h : Fin 2), State.Inv s → s.dev.boot.pwrgd = false →
    (s.dev.perst.at false h.val = false → Sys2Proof.Machine.exec (.perstAssert h) s = .next { s with dev := { s.dev with perst := s.dev.perst.set false h.val true } }) ∧
    (s.dev.perst.at false h.val = true → Sys2Proof.Machine.exec (.perstDeassert h) s = .next { s with dev := { s.dev with perst := s.dev.perst.set false h.val false } }))

/-- R304 to R306: decoding the word of a well-formed instruction gives the instruction back, with every operand at every value. -/
def Obligations.StavteDecodeOfEncode : Prop := ∀ i : SOp, i.wf = true → SOp.decode i.encode = some i ∧ i.encode < 2 ^ 32

/-- R304 to R306: a word that decodes is the word of the instruction it decodes to, and that instruction is well-formed: no bit of a word is dropped, and no two words give one instruction. -/
def Obligations.StavteEncodeOfDecode : Prop := ∀ (w : Nat) (i : SOp), w < 2 ^ 32 → SOp.decode w = some i → i.wf = true ∧ i.encode = w

/-- R334: the words of the example program decode to its instructions. -/
def Obligations.StavteWordsOfTheSpec : Prop :=
  SOp.decode 0xB44100F0 = some (.bfx false 2 1 0 15) ∧ SOp.decode 0xE8020005 = some (.prim 2 5) ∧ SOp.decode 0xE0601000 = some (.pktldm 0 3 0) ∧
  SOp.decode 0x0C630003 = some (.imm .andi 3 3 3) ∧ SOp.decode 0x08800002 = some (.imm .addi 4 0 2) ∧ SOp.decode 0x80640006 = some (.branch .eq 3 4 6) ∧
  SOp.decode 0xB4A14030 = some (.bfx false 5 1 16 3) ∧ SOp.decode 0xB4C15030 = some (.bfx false 6 1 20 3) ∧ SOp.decode 0xB4A62031 = some (.bfi 5 6 8 3) ∧
  SOp.decode 0xE8050001 = some (.prim 5 1) ∧ SOp.decode 0xC4000002 = some (.quit 0) ∧ SOp.decode 0x08E00021 = some (.imm .addi 7 0 0x21) ∧
  SOp.decode 0xE8070002 = some (.prim 7 2)

/-- Memory keeps its canonical form, and no change of memory is left over, from one step to the next, in every state and for every command. -/
def Obligations.StepKeepsTheInvariant : Prop := ∀ s s' : State, State.Inv s → step s = .next s' → State.Inv s'

/-- What the machine is after reset: the invariant holds, nothing waits, memory and the sparse tables list nothing, and the registers read as the reset columns of their tables say. Model's choices in it: log entries 2, 48, 184. -/
def Obligations.ResetState : Prop :=
  State.Inv State.reset ∧ State.reset.pending = [] ∧ State.reset.dev.mem = [] ∧ State.reset.dev.released = false ∧
  (let d := State.reset.dev
   d.fld F.SPAN_CFG_LEN_US = 50 ∧ d.fld F.MAC_PORT_CFG_MAX_LEN 3 = 1522 ∧ d.fld F.MAC_WD_CFG_TWD_MS 0 = 200 ∧ d.fld F.MAC_GCL_CYCLE_NS 0 = 1000000 ∧
   d.fld F.FWD_TUQ_CTL_LOG2_SIZE 0 = 10 ∧ d.fld F.MAC_TC_INC_FRAC = 0x9B26C9B2 ∧ (∀ n i, d.counter .CHIP_CONFLICT_CNT n i = 0))

/-! ### Writes of registers (chapter 01) -/

/-- R16, R17, R19, R24: of the writes that meet on a control in one cycle the highest-ranked takes effect, whatever their order; every other write of a permitted writer is discarded, makes an entry of the conflict log, and is counted. Model's choices in it: log entries 7, 203. -/
def Obligations.HighestRankedWriteTakesEffect : Prop :=
  (∀ d : Dev, d.rank .keystone < d.rank .sideband ∧ (∀ f, d.rank .sideband < d.rank (.host f)) ∧
    (∀ f g : Fin 512, d.hostOf f.val < d.hostOf g.val ∨ (d.hostOf f.val = d.hostOf g.val ∧ f.val < g.val) → d.rank (.host f) < d.rank (.host g)) ∧
    (∀ f i, d.hostOf (Fin.val f) < 2 → d.rank (.host f) < d.rank (.serviceCore i)) ∧ (∀ i j : Fin 52, i < j → d.rank (.serviceCore i) < d.rank (.serviceCore j)) ∧
    (∀ i j, d.rank (.serviceCore i) < d.rank (.packetCore j)) ∧ (∀ i j : Fin 272, i < j → d.rank (.packetCore i) < d.rank (.packetCore j))) ∧
  (∀ (d : Dev) (k : RegKey) (ws : List Write) (w : Write), d.sbTop k.addr = none → w ∈ ws → d.permits k w.writer = true →
    (∀ x ∈ ws, d.permits k x.writer = true → x ≠ w → d.rank w.writer < d.rank x.writer) →
    let e := (d.arbitrate (d.permits k) k.addr ws).1
    (d.arbitrate (d.permits k) k.addr ws).2 = some w ∧
    e.counter .CHIP_CONFLICT_CNT 0 0 % 2 ^ 64 = (d.counter .CHIP_CONFLICT_CNT 0 0 + (ws.filter fun x => d.permits k x.writer && x != w).length) % 2 ^ 64 ∧
    (∀ k' : RegKey, k'.reg ≠ .CHIP_CONFLICT_LOG → k'.reg ≠ .CHIP_CONFLICT_STAT → e.word k' = d.word k')) ∧
  (∀ (d : Dev) (addr winner : Nat) (w : Writer), winner < 8 → d.writerCode w < 8 →
    let x := d.fld F.CHIP_CONFLICT_STAT_NEXT
    let e := d.logConflict addr winner w
    e.fld F.CHIP_CONFLICT_LOG_VALID 0 x = 1 ∧ e.fld F.CHIP_CONFLICT_LOG_WINNER 0 x = winner ∧ e.fld F.CHIP_CONFLICT_LOG_LOSER 0 x = d.writerCode w ∧
    e.fld F.CHIP_CONFLICT_LOG_SOURCE 0 x = sourceW w ∧ e.fld F.CHIP_CONFLICT_LOG_STAMP_LO 0 x = d.stamp % 2 ^ 32 ∧ e.fld F.CHIP_CONFLICT_LOG_STAMP_HI 0 x = d.stamp / 2 ^ 32 ∧
    e.fld F.CHIP_CONFLICT_LOG_ADDR_LO 0 x = addr % 2 ^ 32 ∧ e.fld F.CHIP_CONFLICT_LOG_ADDR_HI 0 x = addr / 2 ^ 32 % 2 ^ 16 ∧
    e.fld F.CHIP_CONFLICT_STAT_NEXT = (x + 1) % 32 ∧ (d.fld F.CHIP_CONFLICT_LOG_VALID 0 x = 1 → e.fld F.CHIP_CONFLICT_STAT_OVF = 1) ∧
    e.out = d.out ++ (match w with | .host _ => [] | _ => [.regStatus w addr 7]))

/-- R23, R173, R489: a write that its writer may not make is discarded and logged nowhere, and is answered ACCESS where its path carries a status, which a host's posted write does not; a write of a value out of range changes nothing. -/
def Obligations.RefusedWritesAreDiscarded : Prop :=
  ∀ (s : State) (addr : Nat) (w : Write) (k : RegKey), Up s → s.dev.sbOver = false → s.dev.reach (addr - addr % 4) = .word k →
    (s.dev.permits k w.writer = false →
      ((∃ f, w.writer = .host f) → Gives (.registerWrite addr ⟨[w], []⟩) s s.dev) ∧
      ((∀ f, w.writer ≠ .host f) → Gives (.registerWrite addr ⟨[w], []⟩) s (s.dev.emit (.regStatus w.writer k.addr 5)))) ∧
    (s.dev.sbTop k.addr = none → s.dev.permits k w.writer = true → s.dev.inRange k w.value = false → Gives (.registerWrite addr ⟨[w], []⟩) s s.dev)

/-- R4, R23: a write of a register word that has no action of its own sets its writable bits, clears and sets what W1C and W1S bits name, leaves every other bit and the locked ones, and changes no other register word, counter or byte of memory. -/
def Obligations.PlainRegisterWriteFrame : Prop :=
  ∀ (s s' : State) (addr : Nat) (k : RegKey) (w : Write), s.dev.sbOver = false → s.dev.reach (addr - addr % 4) = .word k → Alone s k w →
    effectMac k.reg = none → effectHost k.reg = none → effectCore k.reg = none → Sys2Proof.Machine.exec (.registerWrite addr ⟨[w], []⟩) s = .next s' →
    let a := k.reg.access k.w
    (∀ i : Fin 32, (s'.dev.word k).getLsbD i.val =
      if a.w1s.getLsbD i.val && w.value.getLsbD i.val then true
      else if a.w1c.getLsbD i.val && w.value.getLsbD i.val then false
      else if a.rw.getLsbD i.val || a.rws.getLsbD i.val || (a.rwl.getLsbD i.val && !s.dev.locked k.reg) then w.value.getLsbD i.val
      else (s.dev.word k).getLsbD i.val) ∧
    (∀ k', k' ≠ k → s'.dev.word k' = s.dev.word k') ∧ s'.dev.cnt = s.dev.cnt ∧ s'.dev.tly = s.dev.tly ∧ s'.dev.out = s.dev.out ∧
    (∀ x, s'.dev.memByte x = s.dev.memByte x) ∧ s'.dev.thrs = s.dev.thrs ∧ s'.dev.ctxs = s.dev.ctxs ∧ s'.pending = s.pending

/-! ### Registers, traps and frames of Stavte (chapter 11) -/

/-- R302: g0 reads as zero and discards writes, and an instruction whose destination is g0 only moves on; every other register reads what was written last. -/
def Obligations.ZeroRegister : Prop :=
  (∀ (g : List DWord) (v : DWord), gget g 0 = 0 ∧ gset g 0 v = g) ∧
  (∀ (g : List DWord) (i j : Fin 32) (v : DWord), g.length = 32 → gget (gset g i v) j = if j = i ∧ i ≠ 0 then v else gget g j) ∧
  (∀ (s s' : State) (th : Thread) (rs1 rs2 : Fin 32) (imm : BitVec 16),
    (Ready s th (.alu .add 0 rs1 rs2) ∧ Sys2Proof.Machine.exec (.add th 0 rs1 rs2) s = .next s') ∨ (Ready s th (.imm .addi 0 rs1 imm) ∧ Sys2Proof.Machine.exec (.addi th 0 rs1 imm) s = .next s') →
    s'.dev.tregs th = s.dev.tregs th ∧ s'.dev.tpc th = (s.dev.tpc th + 4) % 2 ^ 64)

/-- R324, R325: a synchronous trap of a service core or of the Keystone saves the pc, the cause, PRIV and IE and enters the handler with its target's privilege; ERET behind it gives them back; a trap within a handler stops a service core. -/
def Obligations.TrapEntryAndReturn : Prop :=
  (∀ (d : Dev) (th : Thread) (cause pc : Nat) (tinfo : DWord), (∀ c t, th ≠ .packet c t) → cause ≠ 0x10 → cause ≠ 0x11 → bitOf (d.thr (thrOf th)).tstate 7 = false →
    let k := thrOf th
    let x := d.thr k
    let e := d.trap th cause pc tinfo
    let y := e.thr k
    y.tpc = pc % 2 ^ 64 ∧ y.tcode = cause ∧ y.tinfo = tinfo.toNat ∧ bitsOf y.tstate 5 4 = x.tstate % 4 ∧ bitOf y.tstate 6 = bitOf x.tstate 3 ∧ bitOf y.tstate 3 = false ∧
    bitOf y.tstate 7 = true ∧ y.tstate % 4 = (if th = .keystone then 2 else 1) ∧
    y.pc = (x.tentry - x.tentry % 1024 + if x.tstate % 4 = 0 then 0 else 0x100) % 2 ^ 64 ∧ y.regs = x.regs ∧ (∀ k', k' ≠ k → e.thr k' = d.thr k') ∧ e.csr = d.csr ∧
    e.memByte = d.memByte ∧
    (pc % 4 = 0 → ∀ pc', let r := (e.eret th pc').thr k
      r.tstate % 4 = x.tstate % 4 ∧ bitOf r.tstate 3 = bitOf x.tstate 3 ∧ bitOf r.tstate 7 = false ∧ r.pc = pc % 2 ^ 64 ∧ r.regs = x.regs)) ∧
  (∀ (d : Dev) (c : Fin 52) (t : Fin 2) (cause pc : Nat) (tinfo : DWord), bitOf (d.thr (thrOf (.service c t))).tstate 7 = true →
    let e := d.trap (.service c t) cause pc tinfo
    e.fld F.SCC_CORE_STATE (c.val / 13) (c.val % 13) = 2 ∧ e.flag F.SCC_CORE_SFAULT (c.val / 13) (c.val % 13) = true ∧ e.thrs = d.thrs)

/-- R307 to R311, R313: a register instruction, branch or jump changes no register but its destination (JAL: g31), no control register, and no byte of memory. -/
def Obligations.RegisterInstructionFrame : Prop :=
  ∀ (s s' : State) (th : Thread) (rd rs1 rs2 : Fin 32) (imm off : BitVec 16) (far : BitVec 26) (amount lsb wm : Fin 64) (signed ieee : Bool) (size : Fin 4) (c : Instr) (i : SOp) (dest : Fin 32),
    (c, i, dest) ∈ [(Instr.add th rd rs1 rs2, SOp.alu .add rd rs1 rs2, rd), (.sub th rd rs1 rs2, .alu .sub rd rs1 rs2, rd), (.and th rd rs1 rs2, .alu .and rd rs1 rs2, rd),
      (.or th rd rs1 rs2, .alu .or rd rs1 rs2, rd), (.xor th rd rs1 rs2, .alu .xor rd rs1 rs2, rd), (.andn th rd rs1 rs2, .alu .andn rd rs1 rs2, rd),
      (.sll th rd rs1 rs2, .alu .sll rd rs1 rs2, rd), (.srl th rd rs1 rs2, .alu .srl rd rs1 rs2, rd), (.sra th rd rs1 rs2, .alu .sra rd rs1 rs2, rd),
      (.ror th rd rs1 rs2, .alu .ror rd rs1 rs2, rd), (.slt th rd rs1 rs2, .alu .slt rd rs1 rs2, rd), (.sltu th rd rs1 rs2, .alu .sltu rd rs1 rs2, rd),
      (.min th rd rs1 rs2, .alu .min rd rs1 rs2, rd), (.max th rd rs1 rs2, .alu .max rd rs1 rs2, rd), (.minu th rd rs1 rs2, .alu .minu rd rs1 rs2, rd),
      (.maxu th rd rs1 rs2, .alu .maxu rd rs1 rs2, rd), (.clz th rd rs1, .alu .clz rd rs1 0, rd), (.ctz th rd rs1, .alu .ctz rd rs1 0, rd),
      (.popc th rd rs1, .alu .popc rd rs1 0, rd), (.bswap th rd rs1, .alu .bswap rd rs1 0, rd), (.mul th rd rs1 rs2, .alu .mul rd rs1 rs2, rd),
      (.mulh th rd rs1 rs2, .alu .mulh rd rs1 rs2, rd), (.mulhu th rd rs1 rs2, .alu .mulhu rd rs1 rs2, rd), (.div th rd rs1 rs2, .alu .div rd rs1 rs2, rd),
      (.divu th rd rs1 rs2, .alu .divu rd rs1 rs2, rd), (.rem th rd rs1 rs2, .alu .rem rd rs1 rs2, rd), (.remu th rd rs1 rs2, .alu .remu rd rs1 rs2, rd),
      (.shiSll th rd rs1 amount, .shi 0 rd rs1 amount, rd), (.shiSrl th rd rs1 amount, .shi 1 rd rs1 amount, rd), (.shiSra th rd rs1 amount, .shi 2 rd rs1 amount, rd),
      (.shiRor th rd rs1 amount, .shi 3 rd rs1 amount, rd), (.addi th rd rs1 imm, .imm .addi rd rs1 imm, rd), (.slti th rd rs1 imm, .imm .slti rd rs1 imm, rd),
      (.sltiu th rd rs1 imm, .imm .sltiu rd rs1 imm, rd), (.andi th rd rs1 imm, .imm .andi rd rs1 imm, rd), (.ori th rd rs1 imm, .imm .ori rd rs1 imm, rd),
      (.xori th rd rs1 imm, .imm .xori rd rs1 imm, rd), (.lui th rd imm, .imm .lui rd 0 imm, rd), (.shori th rd rs1 imm, .imm .shori rd rs1 imm, rd),
      (.bfx th signed rd rs1 lsb wm, .bfx signed rd rs1 lsb wm, rd), (.bfi th rd rs1 lsb wm, .bfi rd rs1 lsb wm, rd), (.crc th ieee size rd rs1 rs2, .crc ieee size rd rs1 rs2, rd),
      (.mix th rd rs1 rs2, .mix rd rs1 rs2, rd), (.beq th rs1 rs2 off, .branch .eq rs1 rs2 off, 0), (.bne th rs1 rs2 off, .branch .ne rs1 rs2 off, 0),
      (.blt th rs1 rs2 off, .branch .lt rs1 rs2 off, 0), (.bge th rs1 rs2 off, .branch .ge rs1 rs2 off, 0), (.bltu th rs1 rs2 off, .branch .ltu rs1 rs2 off, 0),
      (.bgeu th rs1 rs2 off, .branch .geu rs1 rs2 off, 0), (.j th far, .jump far, 0), (.jal th far, .jal far, 31)] →
    Ready s th i → Sys2Proof.Machine.exec c s = .next s' →
    s.keeps s' th dest ∧ (s.dev.untranslated th → s'.dev.cnt = s.dev.cnt ∧ ∀ x, s'.dev.memByte x = s.dev.memByte x)

/-- R312, R328, R340: a load that completes as it issues changes no register but its destination and no byte of memory; a store that takes effect as it issues changes no register, and the bytes that it names alone, which then read as the value stored; a store of a packet core that stays outstanding changes no memory yet. Model's choices in it: log entries 84, 160. -/
def Obligations.LoadAndStoreFrame : Prop :=
  ∀ (s s' : State) (th : Thread) (rd rs1 : Fin 32) (imm : BitVec 16),
    let a := (gget (s.dev.tregs th) rs1 + imm.signExtend 64).toNat
    let d := s.dev.issued th;
    (∀ (c : Instr) (op : LoadOp) (size : Nat), (c, op, size) ∈ [(Instr.lb th rd rs1 imm, LoadOp.lb, 1), (.lbu th rd rs1 imm, .lbu, 1), (.lh th rd rs1 imm, .lh, 2),
        (.lhu th rd rs1 imm, .lhu, 2), (.lw th rd rs1 imm, .lw, 4), (.lwu th rd rs1 imm, .lwu, 4), (.ld th rd rs1 imm, .ld, 8)] →
      Ready s th (.load op rd rs1 imm) → a % size = 0 → Sys2Proof.Machine.exec c s = .next s' →
      (∃ core ctx key, th = .packet core ctx ∧ d.target th a size false = .local_ key ∧ d.marked key size = false) ∨
        (th = .keystone ∧ d.target th a size false = .mem ∧ d.held a = false ∧ d.tagBad a size = false ∧ d.marked a size = false) →
      s.keeps s' th rd ∧ s'.dev.cnt = s.dev.cnt ∧ ∀ x, s'.dev.memByte x = s.dev.memByte x) ∧
    (∀ (c : Instr) (op : StoreOp) (size : Nat), (c, op, size) ∈ [(Instr.sb th rd rs1 imm, StoreOp.sb, 1), (.sh th rd rs1 imm, .sh, 2), (.sw th rd rs1 imm, .sw, 4), (.sd th rd rs1 imm, .sd, 8)] →
      Ready s th (.store op rd rs1 imm) → a % size = 0 → Sys2Proof.Machine.exec c s = .next s' →
      let v := (gget (s.dev.tregs th) rd).toNat;
      (∀ core ctx key, th = .packet core ctx → d.target th a size true = .local_ key →
        s.keeps s' th 0 ∧ s'.dev.cnt = s.dev.cnt ∧ (∀ x, x < key ∨ key + size ≤ x → s'.dev.memByte x = s.dev.memByte x) ∧
        ∀ j < size, s'.dev.memByte (key + j) = BitVec.ofNat 8 (v / 2 ^ (8 * j))) ∧
      (th = .keystone → d.target th a size true = .mem → d.held a = false →
        s.keeps s' th 0 ∧ (∀ x, x < a ∨ a + size ≤ x → s'.dev.memByte x = s.dev.memByte x) ∧
        (d.protected a size = false → s'.dev.cnt = s.dev.cnt ∧ ∀ j < size, s'.dev.memByte (a + j) = BitVec.ofNat 8 (v / 2 ^ (8 * j)))) ∧
      (∀ core ctx, th = .packet core ctx → d.target th a size true = .mem → (d.ctx core.val ctx.val).stores.length < 8 →
        s.keeps s' th 0 ∧ s'.dev.cnt = s.dev.cnt ∧ ∀ x, s'.dev.memByte x = s.dev.memByte x))
end

