-- ==== Sys2Proof/Laws/Hash.lean ====
section
/-! SUPPORT. The lengths of SHA-384 digests and of the retained store's MAC. -/

namespace Sys2Proof.Machine

open Sys2Proof

theorem shaRound_cases (h : List Nat) (k : Nat × Nat) :
    (∃ a b c d e f g x p q, h = [a, b, c, d, e, f, g, x] ∧ shaRound h k = [p, a, b, c, q, e, f, g]) ∨ shaRound h k = h := by
  unfold shaRound
  split
  · exact .inl ⟨_, _, _, _, _, _, _, _, _, _, rfl, rfl⟩
  · exact .inr rfl

theorem shaRound_length (h : List Nat) (k : Nat × Nat) : (shaRound h k).length = h.length := by
  obtain ⟨a, b, c, d, e, f, g, x, p, q, rfl, h2⟩ | h2 := shaRound_cases h k
  · rw [h2]; rfl
  · rw [h2]

theorem foldl_shaRound_length (l : List (Nat × Nat)) (h : List Nat) : (l.foldl shaRound h).length = h.length := by
  induction l generalizing h with
  | nil => rfl
  | cons k t ih => rw [List.foldl_cons, ih, shaRound_length]

theorem shaBlock_length (h : List Nat) (blk : List Byte) : (shaBlock h blk).length = h.length := by
  obtain ⟨z, hz⟩ : ∃ z, shaBlock h blk = List.zipWith add64 h (List.foldl shaRound h z) := ⟨_, rfl⟩
  rw [hz, List.length_zipWith, foldl_shaRound_length, Nat.min_self]

theorem foldl_shaBlock_length {β : Type} (f : β → List Byte) (l : List β) (h : List Nat) : (l.foldl (fun h i => shaBlock h (f i)) h).length = h.length := by
  induction l generalizing h with
  | nil => rfl
  | cons k t ih => rw [List.foldl_cons, ih, shaBlock_length]

theorem leBytes_length (n x : Nat) : (leBytes n x).length = n := by
  induction n generalizing x with
  | zero => rfl
  | succ n ih => simp [leBytes, ih]

theorem flatten_beBytes_length (l : List Nat) : ((l.map (beBytes 8)).flatten).length = 8 * l.length := by
  induction l with
  | nil => rfl
  | cons a t ih => simp only [List.map_cons, List.flatten_cons, List.length_append, ih, beBytes, List.length_reverse, leBytes_length, List.length_cons]; omega

theorem shaRun_length (h : List Nat) (bs : List Byte) : (shaRun h bs).length = 8 * h.length := by
  simp only [shaRun, flatten_beBytes_length, foldl_shaBlock_length]

theorem sha384Init_length : sha384Init.length = 8 := by
  simp only [sha384Init, List.length_map, List.length_take, List.length_drop, show primes80.length = 80 by decide +kernel]; rfl

theorem sha384_length (bs : List Byte) : (sha384 bs).length = 48 := by
  rw [sha384, List.length_take, shaRun_length, sha384Init_length]; rfl

theorem hmac384_length (k m : List Byte) : (hmac384 k m).length = 48 := sha384_length _

end Sys2Proof.Machine
end

