-- ==== Sys2Proof/Laws/Registers.lean ====
section
/-! SUPPORT. Lemmas about the arbitration of writes and about commands that are writes of one register word. -/

namespace Sys2Proof.Machine

open Sys2Proof

/-- A write that wins its arbitration, into a word that is given and within its bounds, has its effect. -/
theorem writeReg_takes {s : State} {k : RegKey} {ws : List Write} {w : Write} {d : Dev} (h : Takes s k ws w d)
    (eff : RegKey → Write → Dev → Dev) : s.dev.writeReg k ws eff = eff k w d := by
  obtain ⟨_, h0, h1, h2, h3⟩ := h
  simp [Dev.writeReg, Dev.endOverdue, Dev.onlyIf, h0, h1, Dev.commit, h2, h3]

/-- A write that nothing stands against takes effect on the device as it is. -/
theorem takes_alone {s : State} {k : RegKey} {w : Write} (h : Alone s k w) : Takes s k [w] w s.dev := by
  obtain ⟨h0, ho, h1, h2, h3, h4⟩ := h
  exact ⟨h0, ho, by simp [Dev.arbitrate, h2, Dev.topWrite, h1, Dev.each], h3, h4⟩

/-- A command whose meaning acts while power is good. -/
theorem on_up {s : State} (h : Up s) (f : Dev → Dev) : s.on f = .next { s with dev := (f s.dev).settle s.dev.mem } := by
  simp [State.on, State.always, show s.dev.boot.pwrgd = true from h]

/-- A command whose meaning acts while power is good gives what its effect makes of the device. -/
theorem gives_on {c : Instr} {s : State} {f : Dev → Dev} {d : Dev} (hx : Sys2Proof.Machine.exec c s = s.on f) (h : Up s) (hf : f s.dev = d) :
    Gives c s d := by
  rw [Gives, hx, on_up h, hf]

/-- The same for a command that acts whatever PWRGD is. -/
theorem gives_always {c : Instr} {s : State} {f : Dev → Dev} {d : Dev} (hx : Sys2Proof.Machine.exec c s = s.always f) (hf : f s.dev = d) :
    Gives c s d := by
  rw [Gives, hx, State.always, hf]

/-! ### The loader starts (R411) -/

/-- What a write of LDR_CMD does. Reduce the lets of a goal with `dsimp only` before this is used: with let variables in the context the kernel unfolds too far. -/
theorem ldrEffect_eq (host : List Byte) (ends : ReadEnd) (k : RegKey) (w : Write) (d : Dev) :
    ldrEffect host ends k w d =
      if bitOf w.value.toNat 31 = true ∧ d.flag F.LDR_CMD_BUSY = true then d
      else
        let e := d.plainWrite k w.value
        if ¬ bitOf w.value.toNat 31 = true then e
        else
          let copy := e.ldrCopy (e.fld F.LDR_SRC_ADDR_HI * 2 ^ 32 + e.fld F.LDR_SRC_ADDR_LO * 4096) host ends
          let e1 := (copy.1.setChip F.LDR_CMD_BUSY 1).setChip F.LDR_CMD_STATUS 0
          e1.updBoot fun b => { b with
            ldr := some ((e1.word ⟨.LDR_CMD, 0, 0, 0⟩).toNat, e.fld F.LDR_DST_ADDR_HI * 2 ^ 32 + e.fld F.LDR_DST_ADDR_LO * 4096)
            ldrImage := copy.2.2, ldrErr := copy.2.1 } := rfl

/-! ### A waiting sideband message does not change what lies at an address -/

theorem Dev.res_sb (d : Dev) (x : Option SbWrite) (f : Nat) : ({ d with sb := x } : Dev).res f = d.res f := by
  simp only [Dev.res, Dev.fn, Dev.resWritten, Dev.flag, Dev.fld, Dev.word]

theorem Dev.laneMap_sb (d : Dev) (x : Option SbWrite) : ({ d with sb := x } : Dev).laneMap = d.laneMap := by
  simp only [Dev.laneMap, Dev.fld, Dev.word]

theorem Dev.stands_sb (d : Dev) (x : Option SbWrite) (k : RegKey) : ({ d with sb := x } : Dev).stands k = d.stands k := by
  simp only [Dev.stands, Dev.given, Dev.res_sb, Dev.isPort, Dev.laneMap_sb]

theorem Dev.reachWord_sb (d : Dev) (x : Option SbWrite) (a : Nat) : ({ d with sb := x } : Dev).reachWord a = d.reachWord a := by
  simp only [Dev.reachWord, Dev.stands_sb]

theorem Dev.cvusOf_sb (d : Dev) (x : Option SbWrite) (f : Nat) : ({ d with sb := x } : Dev).cvusOf f = d.cvusOf f := by
  simp only [Dev.cvusOf]

/-- What lies at an address does not depend on the sideband's waiting message. -/
theorem Dev.reach_sb (d : Dev) (x : Option SbWrite) (a : Nat) : ({ d with sb := x } : Dev).reach a = d.reach a := by
  unfold Dev.reach
  simp only [Dev.reachWord_sb, Dev.res_sb, Dev.cvusOf_sb]

end Sys2Proof.Machine
end

