-- ==== Sys2Proof/Laws/Sparse.lean ====
section
/-! SUPPORT. Sparse tables: what is read after a write, and the canonical form that every write keeps; the same for memory. -/

namespace Sys2Proof.Machine

variable {κ α : Type}

theorem Sparse.get_erase [DecidableEq κ] (d : κ → α) (m : List (κ × α)) (k k' : κ) :
    Sparse.get d (Sparse.erase m k) k' = if k' = k then d k' else Sparse.get d m k' := by
  induction m with
  | nil => simp [Sparse.erase, Sparse.get]
  | cons e t ih =>
    obtain ⟨a, v⟩ := e
    by_cases h : k = a
    · subst h; by_cases h' : k' = k
      · subst h'; simpa [Sparse.erase] using ih
      · simp [Sparse.erase, Sparse.get, ih, h']
    · by_cases h' : k' = a
      · subst h'; simp [Sparse.erase, Sparse.get, h, Ne.symm h]
      · simp only [Sparse.erase, Sparse.get, h, h', ih, if_false]

theorem Sparse.get_insert [DecidableEq κ] (lt : κ → κ → Bool) (d : κ → α) (m : List (κ × α)) (k : κ) (v : α) (k' : κ)
    (h : ∀ e ∈ m, e.1 ≠ k) : Sparse.get d (Sparse.insert lt m k v) k' = if k' = k then v else Sparse.get d m k' := by
  induction m with
  | nil => simp [Sparse.insert, Sparse.get]
  | cons e t ih =>
    obtain ⟨a, w⟩ := e
    have ha : a ≠ k := h (a, w) (by simp)
    have ih := ih fun e he => h e (by simp [he])
    cases hl : lt k a
    · by_cases h' : k' = a
      · subst h'; simp [Sparse.insert, hl, Sparse.get, ha]
      · simp [Sparse.insert, hl, Sparse.get, h', ih]
    · simp [Sparse.insert, hl, Sparse.get]

theorem Sparse.erase_keys [DecidableEq κ] (m : List (κ × α)) (k : κ) : ∀ e ∈ Sparse.erase m k, e ∈ m ∧ e.1 ≠ k := by
  induction m with
  | nil => simp [Sparse.erase]
  | cons e t ih =>
    obtain ⟨a, v⟩ := e
    intro x hx
    by_cases h : k = a
    · simp only [Sparse.erase, h, if_true] at hx
      have := ih x (by rw [h]; exact hx)
      exact ⟨by simp [this.1], this.2⟩
    · simp only [Sparse.erase, h, if_false, List.mem_cons] at hx
      rcases hx with rfl | hx
      · exact ⟨by simp, fun h' => h h'.symm⟩
      · exact ⟨by simp [(ih x hx).1], (ih x hx).2⟩

/-- A read after a write gives the value written at its key, and what was there at every other. -/
theorem Sparse.get_put [DecidableEq κ] [DecidableEq α] (lt : κ → κ → Bool) (d : κ → α) (m : List (κ × α)) (k : κ) (v : α) (k' : κ) :
    Sparse.get d (Sparse.put lt d m k v) k' = if k' = k then v else Sparse.get d m k' := by
  unfold Sparse.put
  split
  · next h => rw [Sparse.get_erase]; split
              · next e => rw [h, e]
              · rfl
  · rw [Sparse.get_insert _ _ _ _ _ _ fun e he => (Sparse.erase_keys m k e he).2, Sparse.get_erase]
    split <;> simp [*]

@[simp] theorem NMap.at_set [DecidableEq α] (m : NMap α) (dflt : α) (k : Nat) (v : α) (k' : Nat) :
    (m.set dflt k v).at dflt k' = if k' = k then v else m.at dflt k' := Sparse.get_put ..

@[simp] theorem NMap.at_upd [DecidableEq α] (m : NMap α) (dflt : α) (k : Nat) (f : α → α) (k' : Nat) :
    (m.upd dflt k f).at dflt k' = if k' = k then f (m.at dflt k) else m.at dflt k' := NMap.at_set ..

/-! ### The canonical form -/

theorem Sparse.sorted_iff (m : List (Nat × α)) : Sparse.sorted Memory.lt m = true ↔ m.Pairwise fun a b => a.1 < b.1 := by
  induction m with
  | nil => simp [Sparse.sorted]
  | cons e t ih =>
    cases t with
    | nil => simp [Sparse.sorted]
    | cons e' t =>
      obtain ⟨a, v⟩ := e; obtain ⟨b, w⟩ := e'
      simp only [Sparse.sorted, Memory.lt, Bool.and_eq_true, decide_eq_true_eq, ih]
      constructor
      · rintro ⟨h, hp⟩
        refine List.pairwise_cons.2 ⟨?_, hp⟩
        intro x hx
        rcases List.mem_cons.1 hx with rfl | hx
        · exact h
        · exact Nat.lt_trans h ((List.pairwise_cons.1 hp).1 x hx)
      · intro hp
        exact ⟨(List.pairwise_cons.1 hp).1 (b, w) (by simp), (List.pairwise_cons.1 hp).2⟩

theorem Sparse.erase_sublist [DecidableEq κ] (m : List (κ × α)) (k : κ) : (Sparse.erase m k).Sublist m := by
  induction m with
  | nil => exact List.Sublist.refl _
  | cons e t ih =>
    obtain ⟨a, v⟩ := e
    by_cases h : k = a
    · simp only [Sparse.erase, h, if_true]
      exact List.Sublist.cons _ (by rw [h] at ih; exact ih)
    · simp only [Sparse.erase, h, if_false]
      exact ih.cons_cons _

theorem Sparse.mem_insert (lt : κ → κ → Bool) (m : List (κ × α)) (k : κ) (v : α) (e : κ × α) (h : e ∈ Sparse.insert lt m k v) :
    e = (k, v) ∨ e ∈ m := by
  induction m with
  | nil => simpa [Sparse.insert] using h
  | cons x t ih =>
    obtain ⟨a, w⟩ := x
    cases hl : lt k a
    · simp only [Sparse.insert, hl, Bool.false_eq_true, if_false, List.mem_cons] at h
      rcases h with rfl | h
      · exact .inr (by simp)
      · rcases ih h with h | h
        · exact .inl h
        · exact .inr (by simp [h])
    · simp only [Sparse.insert, hl, if_true, List.mem_cons] at h
      rcases h with h | h | h
      · exact .inl h
      · exact .inr (by simp [h])
      · exact .inr (by simp [h])

theorem Sparse.insert_sorted (m : List (Nat × α)) (k : Nat) (v : α) (hs : m.Pairwise fun a b => a.1 < b.1) (hk : ∀ e ∈ m, e.1 ≠ k) :
    (Sparse.insert Memory.lt m k v).Pairwise fun a b => a.1 < b.1 := by
  induction m with
  | nil => simp [Sparse.insert]
  | cons e t ih =>
    obtain ⟨a, w⟩ := e
    have hs' := List.pairwise_cons.1 hs
    by_cases hl : k < a
    · simp only [Sparse.insert, Memory.lt, hl, decide_true, if_true]
      refine List.pairwise_cons.2 ⟨?_, hs⟩
      intro x hx
      rcases List.mem_cons.1 hx with rfl | hx
      · exact hl
      · exact Nat.lt_trans hl (hs'.1 x hx)
    · have hne : a ≠ k := hk (a, w) (by simp)
      simp only [Sparse.insert, Memory.lt, hl, decide_false, Bool.false_eq_true, if_false]
      refine List.pairwise_cons.2 ⟨?_, ih hs'.2 fun e he => hk e (by simp [he])⟩
      intro x hx
      rcases Sparse.mem_insert _ _ _ _ _ hx with rfl | hx
      · simp only; omega
      · exact hs'.1 x hx

theorem Sparse.wf_iff [DecidableEq α] (d : Nat → α) (m : List (Nat × α)) :
    Sparse.wf Memory.lt d m = true ↔ (m.Pairwise fun a b => a.1 < b.1) ∧ ∀ e ∈ m, e.2 ≠ d e.1 := by
  simp [Sparse.wf, Sparse.sorted_iff]

/-- A write keeps the canonical form. -/
theorem Sparse.put_wf [DecidableEq α] (d : Nat → α) (m : List (Nat × α)) (k : Nat) (v : α) (h : Sparse.wf Memory.lt d m = true) :
    Sparse.wf Memory.lt d (Sparse.put Memory.lt d m k v) = true := by
  rw [Sparse.wf_iff] at h ⊢
  obtain ⟨hs, hd⟩ := h
  have he := hs.sublist (Sparse.erase_sublist m k)
  unfold Sparse.put
  split
  · exact ⟨he, fun e h => hd e (Sparse.erase_keys m k e h).1⟩
  · next hv =>
    refine ⟨Sparse.insert_sorted _ k v he fun e h => (Sparse.erase_keys m k e h).2, ?_⟩
    intro e h
    rcases Sparse.mem_insert _ _ _ _ _ h with rfl | h
    · exact hv
    · exact hd e (Sparse.erase_keys m k e h).1

/-- Every change of memory keeps its canonical form. -/
theorem MemOp.apply_wf (m : List Host.Cell) (o : MemOp) (h : Memory.wf m = true) : Memory.wf (MemOp.apply m o) = true := by
  cases o with
  | byte a b => exact Sparse.put_wf _ _ _ _ h
  | clear lo hi =>
    rw [Memory.wf, Sparse.wf_iff] at h ⊢
    exact ⟨h.1.sublist List.filter_sublist, fun e he => h.2 e (List.mem_filter.1 he).1⟩

/-- The changes of a command, applied at its end, keep the canonical form, whatever they are. -/
theorem Dev.settle_wf (m : List Host.Cell) (d : Dev) (h : Memory.wf m = true) : Memory.wf (d.settle m).mem = true := by
  show Memory.wf (d.stores.reverse.foldl MemOp.apply m) = true
  generalize d.stores.reverse = l
  induction l generalizing m with
  | nil => exact h
  | cons o t ih => exact ih _ (MemOp.apply_wf m o h)

@[simp] theorem Dev.settle_stores (m : List Host.Cell) (d : Dev) : (d.settle m).stores = [] := rfl

theorem MemOp.get_apply (m : List Host.Cell) (o : MemOp) (a : Nat) :
    Sparse.get Memory.blank (MemOp.apply m o) a = MemOp.view m a [o] := by
  cases o with
  | byte a' b => simp [MemOp.apply, MemOp.view, Sparse.get_put]
  | clear lo hi =>
    simp only [MemOp.apply, MemOp.view]
    induction m with
    | nil => simp [Sparse.get]
    | cons e t ih =>
      obtain ⟨k, v⟩ := e
      by_cases hk : lo ≤ k ∧ k < hi
      · rw [List.filter_cons_of_neg (by simp [hk]), ih]
        by_cases ha : a = k
        · subst ha; simp [hk]
        · simp [Sparse.get, ha]
      · rw [List.filter_cons_of_pos (by simp; omega)]
        by_cases ha : a = k
        · subst ha; rw [if_neg hk]; simp [Sparse.get]
        · simp only [Sparse.get, ha, if_false]; exact ih

theorem MemOp.view_eq (m : List Host.Cell) (a : Nat) (o : MemOp) (l : List MemOp) :
    MemOp.view m a (o :: l) = match o with
      | .byte a' b => if a = a' then b else MemOp.view m a l
      | .clear lo hi => if lo ≤ a ∧ a < hi then Memory.blank a else MemOp.view m a l := by
  cases o <;> rfl

/-- What a byte of memory reads as after a command is what the command saw there at its end. -/
theorem Dev.settle_memByte (d : Dev) (a : Nat) : (d.settle d.mem).memByte a = d.memByte a := by
  show MemOp.view (d.stores.reverse.foldl MemOp.apply d.mem) a [] = MemOp.view d.mem a d.stores
  generalize d.mem = m
  generalize hl : d.stores = l
  clear hl
  induction l with
  | nil => rfl
  | cons o t ih =>
    rw [List.reverse_cons, List.foldl_append]
    show Sparse.get Memory.blank (MemOp.apply _ o) a = _
    rw [MemOp.get_apply]
    cases o with
    | byte a' b => simp only [MemOp.view]; split
                   · rfl
                   · exact ih
    | clear lo hi => simp only [MemOp.view]; split
                     · rfl
                     · exact ih

/-- A byte of memory after a range is stored. -/
theorem Dev.storeRaw_memByte (d : Dev) (a x : Nat) (bs : List Byte) :
    (d.storeRaw a bs).memByte x = if a ≤ x ∧ x < a + bs.length then bs.getD (x - a) 0 else d.memByte x := by
  induction bs generalizing d a with
  | nil => rw [List.length_nil, if_neg (by omega)]; rfl
  | cons b t ih =>
    rw [Dev.storeRaw, ih]
    simp only [Dev.memByte, MemOp.view, List.length_cons]
    by_cases h : a = x
    · subst h; rw [if_neg (by omega), if_pos rfl, if_pos (by omega), Nat.sub_self]; rfl
    · by_cases h1 : a + 1 ≤ x ∧ x < a + 1 + t.length
      · rw [if_pos h1, if_pos (by omega), show x - a = (x - (a + 1)) + 1 by omega]; simp
      · rw [if_neg h1, if_neg (Ne.symm h), if_neg (by omega)]

/-- A range that was stored reads as what was stored. -/
theorem Dev.storeRaw_memBytes_same (d : Dev) (a : Nat) (bs : List Byte) : (d.storeRaw a bs).memBytes a bs.length = bs := by
  apply List.ext_getElem
  · simp [Dev.memBytes]
  · intro i h1 h2
    simp only [Dev.memBytes, List.getElem_map, List.getElem_range, Dev.storeRaw_memByte]
    rw [if_pos (by omega)]; simp [h2]

/-- What lies below a stored range reads as before. -/
theorem Dev.storeRaw_memBytes_of_le (d : Dev) (a x n : Nat) (bs : List Byte) (h : x + n ≤ a) : (d.storeRaw a bs).memBytes x n = d.memBytes x n := by
  simp only [Dev.memBytes]
  apply List.map_congr_left
  intro i hi; rw [Dev.storeRaw_memByte, if_neg (by have := List.mem_range.1 hi; omega)]

end Sys2Proof.Machine
end

