-- ==== Sys2Proof/Laws/State.lean ====
section
/-! SUPPORT. What the named operations leave alone: one lemma for each field and each update. -/

namespace Sys2Proof.Machine

open Sys2Proof

variable (d : Dev)

@[simp] theorem Dev.setWord_clk (k : RegKey) (v : Word) : (d.setWord k v).clk = d.clk := by cases d; rfl
@[simp] theorem Dev.setWord_cnt (k : RegKey) (v : Word) : (d.setWord k v).cnt = d.cnt := by cases d; rfl
@[simp] theorem Dev.setWord_tly (k : RegKey) (v : Word) : (d.setWord k v).tly = d.tly := by cases d; rfl
@[simp] theorem Dev.setWord_mem (k : RegKey) (v : Word) : (d.setWord k v).mem = d.mem := by cases d; rfl
@[simp] theorem Dev.setWord_stores (k : RegKey) (v : Word) : (d.setWord k v).stores = d.stores := by cases d; rfl
@[simp] theorem Dev.setWord_out (k : RegKey) (v : Word) : (d.setWord k v).out = d.out := by cases d; rfl
@[simp] theorem Dev.setWord_raised (k : RegKey) (v : Word) : (d.setWord k v).raised = d.raised := by cases d; rfl
@[simp] theorem Dev.setWord_board (k : RegKey) (v : Word) : (d.setWord k v).board = d.board := by cases d; rfl
@[simp] theorem Dev.setWord_span (k : RegKey) (v : Word) : (d.setWord k v).span = d.span := by cases d; rfl
@[simp] theorem Dev.setWord_sb (k : RegKey) (v : Word) : (d.setWord k v).sb = d.sb := by cases d; rfl
@[simp] theorem Dev.setWord_released (k : RegKey) (v : Word) : (d.setWord k v).released = d.released := by cases d; rfl
@[simp] theorem Dev.setWord_ports (k : RegKey) (v : Word) : (d.setWord k v).ports = d.ports := by cases d; rfl
@[simp] theorem Dev.setWord_pause (k : RegKey) (v : Word) : (d.setWord k v).pause = d.pause := by cases d; rfl
@[simp] theorem Dev.setWord_mods (k : RegKey) (v : Word) : (d.setWord k v).mods = d.mods := by cases d; rfl
@[simp] theorem Dev.setWord_pkts (k : RegKey) (v : Word) : (d.setWord k v).pkts = d.pkts := by cases d; rfl
@[simp] theorem Dev.setWord_marks (k : RegKey) (v : Word) : (d.setWord k v).marks = d.marks := by cases d; rfl
@[simp] theorem Dev.setWord_draws (k : RegKey) (v : Word) : (d.setWord k v).draws = d.draws := by cases d; rfl
@[simp] theorem Dev.setWord_ctxs (k : RegKey) (v : Word) : (d.setWord k v).ctxs = d.ctxs := by cases d; rfl
@[simp] theorem Dev.setWord_pktCores (k : RegKey) (v : Word) : (d.setWord k v).pktCores = d.pktCores := by cases d; rfl
@[simp] theorem Dev.setWord_fifos (k : RegKey) (v : Word) : (d.setWord k v).fifos = d.fifos := by cases d; rfl
@[simp] theorem Dev.setWord_thrs (k : RegKey) (v : Word) : (d.setWord k v).thrs = d.thrs := by cases d; rfl
@[simp] theorem Dev.setWord_boot (k : RegKey) (v : Word) : (d.setWord k v).boot = d.boot := by cases d; rfl
@[simp] theorem Dev.setWord_safety (k : RegKey) (v : Word) : (d.setWord k v).safety = d.safety := by cases d; rfl
@[simp] theorem Dev.setWord_pair (k : RegKey) (v : Word) : (d.setWord k v).pair = d.pair := by cases d; rfl
@[simp] theorem Dev.setWord_tap (k : RegKey) (v : Word) : (d.setWord k v).tap = d.tap := by cases d; rfl
@[simp] theorem Dev.setWord_trie (k : RegKey) (v : Word) : (d.setWord k v).trie = d.trie := by cases d; rfl
@[simp] theorem Dev.setWord_heldWrites (k : RegKey) (v : Word) : (d.setWord k v).heldWrites = d.heldWrites := by cases d; rfl

@[simp] theorem Dev.setFld_clk (f : Fld) (n i x : Nat) : (d.setFld f n i x).clk = d.clk := by cases d; rfl
@[simp] theorem Dev.setFld_cnt (f : Fld) (n i x : Nat) : (d.setFld f n i x).cnt = d.cnt := by cases d; rfl
@[simp] theorem Dev.setFld_tly (f : Fld) (n i x : Nat) : (d.setFld f n i x).tly = d.tly := by cases d; rfl
@[simp] theorem Dev.setFld_mem (f : Fld) (n i x : Nat) : (d.setFld f n i x).mem = d.mem := by cases d; rfl
@[simp] theorem Dev.setFld_stores (f : Fld) (n i x : Nat) : (d.setFld f n i x).stores = d.stores := by cases d; rfl
@[simp] theorem Dev.setFld_out (f : Fld) (n i x : Nat) : (d.setFld f n i x).out = d.out := by cases d; rfl
@[simp] theorem Dev.setFld_raised (f : Fld) (n i x : Nat) : (d.setFld f n i x).raised = d.raised := by cases d; rfl
@[simp] theorem Dev.setFld_board (f : Fld) (n i x : Nat) : (d.setFld f n i x).board = d.board := by cases d; rfl
@[simp] theorem Dev.setFld_span (f : Fld) (n i x : Nat) : (d.setFld f n i x).span = d.span := by cases d; rfl
@[simp] theorem Dev.setFld_sb (f : Fld) (n i x : Nat) : (d.setFld f n i x).sb = d.sb := by cases d; rfl
@[simp] theorem Dev.setFld_released (f : Fld) (n i x : Nat) : (d.setFld f n i x).released = d.released := by cases d; rfl
@[simp] theorem Dev.setFld_ports (f : Fld) (n i x : Nat) : (d.setFld f n i x).ports = d.ports := by cases d; rfl
@[simp] theorem Dev.setFld_pause (f : Fld) (n i x : Nat) : (d.setFld f n i x).pause = d.pause := by cases d; rfl
@[simp] theorem Dev.setFld_mods (f : Fld) (n i x : Nat) : (d.setFld f n i x).mods = d.mods := by cases d; rfl
@[simp] theorem Dev.setFld_pkts (f : Fld) (n i x : Nat) : (d.setFld f n i x).pkts = d.pkts := by cases d; rfl
@[simp] theorem Dev.setFld_marks (f : Fld) (n i x : Nat) : (d.setFld f n i x).marks = d.marks := by cases d; rfl
@[simp] theorem Dev.setFld_draws (f : Fld) (n i x : Nat) : (d.setFld f n i x).draws = d.draws := by cases d; rfl
@[simp] theorem Dev.setFld_ctxs (f : Fld) (n i x : Nat) : (d.setFld f n i x).ctxs = d.ctxs := by cases d; rfl
@[simp] theorem Dev.setFld_pktCores (f : Fld) (n i x : Nat) : (d.setFld f n i x).pktCores = d.pktCores := by cases d; rfl
@[simp] theorem Dev.setFld_fifos (f : Fld) (n i x : Nat) : (d.setFld f n i x).fifos = d.fifos := by cases d; rfl
@[simp] theorem Dev.setFld_thrs (f : Fld) (n i x : Nat) : (d.setFld f n i x).thrs = d.thrs := by cases d; rfl
@[simp] theorem Dev.setFld_boot (f : Fld) (n i x : Nat) : (d.setFld f n i x).boot = d.boot := by cases d; rfl
@[simp] theorem Dev.setFld_safety (f : Fld) (n i x : Nat) : (d.setFld f n i x).safety = d.safety := by cases d; rfl
@[simp] theorem Dev.setFld_pair (f : Fld) (n i x : Nat) : (d.setFld f n i x).pair = d.pair := by cases d; rfl
@[simp] theorem Dev.setFld_tap (f : Fld) (n i x : Nat) : (d.setFld f n i x).tap = d.tap := by cases d; rfl
@[simp] theorem Dev.setFld_trie (f : Fld) (n i x : Nat) : (d.setFld f n i x).trie = d.trie := by cases d; rfl
@[simp] theorem Dev.setFld_heldWrites (f : Fld) (n i x : Nat) : (d.setFld f n i x).heldWrites = d.heldWrites := by cases d; rfl

@[simp] theorem Dev.setChip_clk (f : Fld) (x : Nat) : (d.setChip f x).clk = d.clk := by cases d; rfl
@[simp] theorem Dev.setChip_cnt (f : Fld) (x : Nat) : (d.setChip f x).cnt = d.cnt := by cases d; rfl
@[simp] theorem Dev.setChip_tly (f : Fld) (x : Nat) : (d.setChip f x).tly = d.tly := by cases d; rfl
@[simp] theorem Dev.setChip_mem (f : Fld) (x : Nat) : (d.setChip f x).mem = d.mem := by cases d; rfl
@[simp] theorem Dev.setChip_stores (f : Fld) (x : Nat) : (d.setChip f x).stores = d.stores := by cases d; rfl
@[simp] theorem Dev.setChip_out (f : Fld) (x : Nat) : (d.setChip f x).out = d.out := by cases d; rfl
@[simp] theorem Dev.setChip_raised (f : Fld) (x : Nat) : (d.setChip f x).raised = d.raised := by cases d; rfl
@[simp] theorem Dev.setChip_board (f : Fld) (x : Nat) : (d.setChip f x).board = d.board := by cases d; rfl
@[simp] theorem Dev.setChip_span (f : Fld) (x : Nat) : (d.setChip f x).span = d.span := by cases d; rfl
@[simp] theorem Dev.setChip_sb (f : Fld) (x : Nat) : (d.setChip f x).sb = d.sb := by cases d; rfl
@[simp] theorem Dev.setChip_released (f : Fld) (x : Nat) : (d.setChip f x).released = d.released := by cases d; rfl
@[simp] theorem Dev.setChip_ports (f : Fld) (x : Nat) : (d.setChip f x).ports = d.ports := by cases d; rfl
@[simp] theorem Dev.setChip_pause (f : Fld) (x : Nat) : (d.setChip f x).pause = d.pause := by cases d; rfl
@[simp] theorem Dev.setChip_mods (f : Fld) (x : Nat) : (d.setChip f x).mods = d.mods := by cases d; rfl
@[simp] theorem Dev.setChip_pkts (f : Fld) (x : Nat) : (d.setChip f x).pkts = d.pkts := by cases d; rfl
@[simp] theorem Dev.setChip_marks (f : Fld) (x : Nat) : (d.setChip f x).marks = d.marks := by cases d; rfl
@[simp] theorem Dev.setChip_draws (f : Fld) (x : Nat) : (d.setChip f x).draws = d.draws := by cases d; rfl
@[simp] theorem Dev.setChip_ctxs (f : Fld) (x : Nat) : (d.setChip f x).ctxs = d.ctxs := by cases d; rfl
@[simp] theorem Dev.setChip_pktCores (f : Fld) (x : Nat) : (d.setChip f x).pktCores = d.pktCores := by cases d; rfl
@[simp] theorem Dev.setChip_fifos (f : Fld) (x : Nat) : (d.setChip f x).fifos = d.fifos := by cases d; rfl
@[simp] theorem Dev.setChip_thrs (f : Fld) (x : Nat) : (d.setChip f x).thrs = d.thrs := by cases d; rfl
@[simp] theorem Dev.setChip_boot (f : Fld) (x : Nat) : (d.setChip f x).boot = d.boot := by cases d; rfl
@[simp] theorem Dev.setChip_safety (f : Fld) (x : Nat) : (d.setChip f x).safety = d.safety := by cases d; rfl
@[simp] theorem Dev.setChip_pair (f : Fld) (x : Nat) : (d.setChip f x).pair = d.pair := by cases d; rfl
@[simp] theorem Dev.setChip_tap (f : Fld) (x : Nat) : (d.setChip f x).tap = d.tap := by cases d; rfl
@[simp] theorem Dev.setChip_trie (f : Fld) (x : Nat) : (d.setChip f x).trie = d.trie := by cases d; rfl
@[simp] theorem Dev.setChip_heldWrites (f : Fld) (x : Nat) : (d.setChip f x).heldWrites = d.heldWrites := by cases d; rfl

@[simp] theorem Dev.setCounter_clk (r : Reg) (n i v : Nat) : (d.setCounter r n i v).clk = d.clk := by cases d; rfl
@[simp] theorem Dev.setCounter_csr (r : Reg) (n i v : Nat) : (d.setCounter r n i v).csr = d.csr := by cases d; rfl
@[simp] theorem Dev.setCounter_tly (r : Reg) (n i v : Nat) : (d.setCounter r n i v).tly = d.tly := by cases d; rfl
@[simp] theorem Dev.setCounter_mem (r : Reg) (n i v : Nat) : (d.setCounter r n i v).mem = d.mem := by cases d; rfl
@[simp] theorem Dev.setCounter_stores (r : Reg) (n i v : Nat) : (d.setCounter r n i v).stores = d.stores := by cases d; rfl
@[simp] theorem Dev.setCounter_out (r : Reg) (n i v : Nat) : (d.setCounter r n i v).out = d.out := by cases d; rfl
@[simp] theorem Dev.setCounter_raised (r : Reg) (n i v : Nat) : (d.setCounter r n i v).raised = d.raised := by cases d; rfl
@[simp] theorem Dev.setCounter_board (r : Reg) (n i v : Nat) : (d.setCounter r n i v).board = d.board := by cases d; rfl
@[simp] theorem Dev.setCounter_span (r : Reg) (n i v : Nat) : (d.setCounter r n i v).span = d.span := by cases d; rfl
@[simp] theorem Dev.setCounter_sb (r : Reg) (n i v : Nat) : (d.setCounter r n i v).sb = d.sb := by cases d; rfl
@[simp] theorem Dev.setCounter_released (r : Reg) (n i v : Nat) : (d.setCounter r n i v).released = d.released := by cases d; rfl
@[simp] theorem Dev.setCounter_ports (r : Reg) (n i v : Nat) : (d.setCounter r n i v).ports = d.ports := by cases d; rfl
@[simp] theorem Dev.setCounter_pause (r : Reg) (n i v : Nat) : (d.setCounter r n i v).pause = d.pause := by cases d; rfl
@[simp] theorem Dev.setCounter_mods (r : Reg) (n i v : Nat) : (d.setCounter r n i v).mods = d.mods := by cases d; rfl
@[simp] theorem Dev.setCounter_pkts (r : Reg) (n i v : Nat) : (d.setCounter r n i v).pkts = d.pkts := by cases d; rfl
@[simp] theorem Dev.setCounter_marks (r : Reg) (n i v : Nat) : (d.setCounter r n i v).marks = d.marks := by cases d; rfl
@[simp] theorem Dev.setCounter_draws (r : Reg) (n i v : Nat) : (d.setCounter r n i v).draws = d.draws := by cases d; rfl
@[simp] theorem Dev.setCounter_ctxs (r : Reg) (n i v : Nat) : (d.setCounter r n i v).ctxs = d.ctxs := by cases d; rfl
@[simp] theorem Dev.setCounter_pktCores (r : Reg) (n i v : Nat) : (d.setCounter r n i v).pktCores = d.pktCores := by cases d; rfl
@[simp] theorem Dev.setCounter_fifos (r : Reg) (n i v : Nat) : (d.setCounter r n i v).fifos = d.fifos := by cases d; rfl
@[simp] theorem Dev.setCounter_thrs (r : Reg) (n i v : Nat) : (d.setCounter r n i v).thrs = d.thrs := by cases d; rfl
@[simp] theorem Dev.setCounter_boot (r : Reg) (n i v : Nat) : (d.setCounter r n i v).boot = d.boot := by cases d; rfl
@[simp] theorem Dev.setCounter_safety (r : Reg) (n i v : Nat) : (d.setCounter r n i v).safety = d.safety := by cases d; rfl
@[simp] theorem Dev.setCounter_pair (r : Reg) (n i v : Nat) : (d.setCounter r n i v).pair = d.pair := by cases d; rfl
@[simp] theorem Dev.setCounter_tap (r : Reg) (n i v : Nat) : (d.setCounter r n i v).tap = d.tap := by cases d; rfl
@[simp] theorem Dev.setCounter_trie (r : Reg) (n i v : Nat) : (d.setCounter r n i v).trie = d.trie := by cases d; rfl
@[simp] theorem Dev.setCounter_heldWrites (r : Reg) (n i v : Nat) : (d.setCounter r n i v).heldWrites = d.heldWrites := by cases d; rfl

@[simp] theorem Dev.bump_clk (r : Reg) (n i x : Nat) : (d.bump r n i x).clk = d.clk := by cases d; rfl
@[simp] theorem Dev.bump_csr (r : Reg) (n i x : Nat) : (d.bump r n i x).csr = d.csr := by cases d; rfl
@[simp] theorem Dev.bump_tly (r : Reg) (n i x : Nat) : (d.bump r n i x).tly = d.tly := by cases d; rfl
@[simp] theorem Dev.bump_mem (r : Reg) (n i x : Nat) : (d.bump r n i x).mem = d.mem := by cases d; rfl
@[simp] theorem Dev.bump_stores (r : Reg) (n i x : Nat) : (d.bump r n i x).stores = d.stores := by cases d; rfl
@[simp] theorem Dev.bump_out (r : Reg) (n i x : Nat) : (d.bump r n i x).out = d.out := by cases d; rfl
@[simp] theorem Dev.bump_raised (r : Reg) (n i x : Nat) : (d.bump r n i x).raised = d.raised := by cases d; rfl
@[simp] theorem Dev.bump_board (r : Reg) (n i x : Nat) : (d.bump r n i x).board = d.board := by cases d; rfl
@[simp] theorem Dev.bump_span (r : Reg) (n i x : Nat) : (d.bump r n i x).span = d.span := by cases d; rfl
@[simp] theorem Dev.bump_sb (r : Reg) (n i x : Nat) : (d.bump r n i x).sb = d.sb := by cases d; rfl
@[simp] theorem Dev.bump_released (r : Reg) (n i x : Nat) : (d.bump r n i x).released = d.released := by cases d; rfl
@[simp] theorem Dev.bump_ports (r : Reg) (n i x : Nat) : (d.bump r n i x).ports = d.ports := by cases d; rfl
@[simp] theorem Dev.bump_pause (r : Reg) (n i x : Nat) : (d.bump r n i x).pause = d.pause := by cases d; rfl
@[simp] theorem Dev.bump_mods (r : Reg) (n i x : Nat) : (d.bump r n i x).mods = d.mods := by cases d; rfl
@[simp] theorem Dev.bump_pkts (r : Reg) (n i x : Nat) : (d.bump r n i x).pkts = d.pkts := by cases d; rfl
@[simp] theorem Dev.bump_marks (r : Reg) (n i x : Nat) : (d.bump r n i x).marks = d.marks := by cases d; rfl
@[simp] theorem Dev.bump_draws (r : Reg) (n i x : Nat) : (d.bump r n i x).draws = d.draws := by cases d; rfl
@[simp] theorem Dev.bump_ctxs (r : Reg) (n i x : Nat) : (d.bump r n i x).ctxs = d.ctxs := by cases d; rfl
@[simp] theorem Dev.bump_pktCores (r : Reg) (n i x : Nat) : (d.bump r n i x).pktCores = d.pktCores := by cases d; rfl
@[simp] theorem Dev.bump_fifos (r : Reg) (n i x : Nat) : (d.bump r n i x).fifos = d.fifos := by cases d; rfl
@[simp] theorem Dev.bump_thrs (r : Reg) (n i x : Nat) : (d.bump r n i x).thrs = d.thrs := by cases d; rfl
@[simp] theorem Dev.bump_boot (r : Reg) (n i x : Nat) : (d.bump r n i x).boot = d.boot := by cases d; rfl
@[simp] theorem Dev.bump_safety (r : Reg) (n i x : Nat) : (d.bump r n i x).safety = d.safety := by cases d; rfl
@[simp] theorem Dev.bump_pair (r : Reg) (n i x : Nat) : (d.bump r n i x).pair = d.pair := by cases d; rfl
@[simp] theorem Dev.bump_tap (r : Reg) (n i x : Nat) : (d.bump r n i x).tap = d.tap := by cases d; rfl
@[simp] theorem Dev.bump_trie (r : Reg) (n i x : Nat) : (d.bump r n i x).trie = d.trie := by cases d; rfl
@[simp] theorem Dev.bump_heldWrites (r : Reg) (n i x : Nat) : (d.bump r n i x).heldWrites = d.heldWrites := by cases d; rfl

@[simp] theorem Dev.tally_clk (o x : Nat) : (d.tally o x).clk = d.clk := by cases d; rfl
@[simp] theorem Dev.tally_csr (o x : Nat) : (d.tally o x).csr = d.csr := by cases d; rfl
@[simp] theorem Dev.tally_cnt (o x : Nat) : (d.tally o x).cnt = d.cnt := by cases d; rfl
@[simp] theorem Dev.tally_mem (o x : Nat) : (d.tally o x).mem = d.mem := by cases d; rfl
@[simp] theorem Dev.tally_stores (o x : Nat) : (d.tally o x).stores = d.stores := by cases d; rfl
@[simp] theorem Dev.tally_out (o x : Nat) : (d.tally o x).out = d.out := by cases d; rfl
@[simp] theorem Dev.tally_raised (o x : Nat) : (d.tally o x).raised = d.raised := by cases d; rfl
@[simp] theorem Dev.tally_board (o x : Nat) : (d.tally o x).board = d.board := by cases d; rfl
@[simp] theorem Dev.tally_span (o x : Nat) : (d.tally o x).span = d.span := by cases d; rfl
@[simp] theorem Dev.tally_sb (o x : Nat) : (d.tally o x).sb = d.sb := by cases d; rfl
@[simp] theorem Dev.tally_released (o x : Nat) : (d.tally o x).released = d.released := by cases d; rfl
@[simp] theorem Dev.tally_ports (o x : Nat) : (d.tally o x).ports = d.ports := by cases d; rfl
@[simp] theorem Dev.tally_pause (o x : Nat) : (d.tally o x).pause = d.pause := by cases d; rfl
@[simp] theorem Dev.tally_mods (o x : Nat) : (d.tally o x).mods = d.mods := by cases d; rfl
@[simp] theorem Dev.tally_pkts (o x : Nat) : (d.tally o x).pkts = d.pkts := by cases d; rfl
@[simp] theorem Dev.tally_marks (o x : Nat) : (d.tally o x).marks = d.marks := by cases d; rfl
@[simp] theorem Dev.tally_draws (o x : Nat) : (d.tally o x).draws = d.draws := by cases d; rfl
@[simp] theorem Dev.tally_ctxs (o x : Nat) : (d.tally o x).ctxs = d.ctxs := by cases d; rfl
@[simp] theorem Dev.tally_pktCores (o x : Nat) : (d.tally o x).pktCores = d.pktCores := by cases d; rfl
@[simp] theorem Dev.tally_fifos (o x : Nat) : (d.tally o x).fifos = d.fifos := by cases d; rfl
@[simp] theorem Dev.tally_thrs (o x : Nat) : (d.tally o x).thrs = d.thrs := by cases d; rfl
@[simp] theorem Dev.tally_boot (o x : Nat) : (d.tally o x).boot = d.boot := by cases d; rfl
@[simp] theorem Dev.tally_safety (o x : Nat) : (d.tally o x).safety = d.safety := by cases d; rfl
@[simp] theorem Dev.tally_pair (o x : Nat) : (d.tally o x).pair = d.pair := by cases d; rfl
@[simp] theorem Dev.tally_tap (o x : Nat) : (d.tally o x).tap = d.tap := by cases d; rfl
@[simp] theorem Dev.tally_trie (o x : Nat) : (d.tally o x).trie = d.trie := by cases d; rfl
@[simp] theorem Dev.tally_heldWrites (o x : Nat) : (d.tally o x).heldWrites = d.heldWrites := by cases d; rfl

@[simp] theorem Dev.tallyMax_clk (o x : Nat) : (d.tallyMax o x).clk = d.clk := by cases d; rfl
@[simp] theorem Dev.tallyMax_csr (o x : Nat) : (d.tallyMax o x).csr = d.csr := by cases d; rfl
@[simp] theorem Dev.tallyMax_cnt (o x : Nat) : (d.tallyMax o x).cnt = d.cnt := by cases d; rfl
@[simp] theorem Dev.tallyMax_mem (o x : Nat) : (d.tallyMax o x).mem = d.mem := by cases d; rfl
@[simp] theorem Dev.tallyMax_stores (o x : Nat) : (d.tallyMax o x).stores = d.stores := by cases d; rfl
@[simp] theorem Dev.tallyMax_out (o x : Nat) : (d.tallyMax o x).out = d.out := by cases d; rfl
@[simp] theorem Dev.tallyMax_raised (o x : Nat) : (d.tallyMax o x).raised = d.raised := by cases d; rfl
@[simp] theorem Dev.tallyMax_board (o x : Nat) : (d.tallyMax o x).board = d.board := by cases d; rfl
@[simp] theorem Dev.tallyMax_span (o x : Nat) : (d.tallyMax o x).span = d.span := by cases d; rfl
@[simp] theorem Dev.tallyMax_sb (o x : Nat) : (d.tallyMax o x).sb = d.sb := by cases d; rfl
@[simp] theorem Dev.tallyMax_released (o x : Nat) : (d.tallyMax o x).released = d.released := by cases d; rfl
@[simp] theorem Dev.tallyMax_ports (o x : Nat) : (d.tallyMax o x).ports = d.ports := by cases d; rfl
@[simp] theorem Dev.tallyMax_pause (o x : Nat) : (d.tallyMax o x).pause = d.pause := by cases d; rfl
@[simp] theorem Dev.tallyMax_mods (o x : Nat) : (d.tallyMax o x).mods = d.mods := by cases d; rfl
@[simp] theorem Dev.tallyMax_pkts (o x : Nat) : (d.tallyMax o x).pkts = d.pkts := by cases d; rfl
@[simp] theorem Dev.tallyMax_marks (o x : Nat) : (d.tallyMax o x).marks = d.marks := by cases d; rfl
@[simp] theorem Dev.tallyMax_draws (o x : Nat) : (d.tallyMax o x).draws = d.draws := by cases d; rfl
@[simp] theorem Dev.tallyMax_ctxs (o x : Nat) : (d.tallyMax o x).ctxs = d.ctxs := by cases d; rfl
@[simp] theorem Dev.tallyMax_pktCores (o x : Nat) : (d.tallyMax o x).pktCores = d.pktCores := by cases d; rfl
@[simp] theorem Dev.tallyMax_fifos (o x : Nat) : (d.tallyMax o x).fifos = d.fifos := by cases d; rfl
@[simp] theorem Dev.tallyMax_thrs (o x : Nat) : (d.tallyMax o x).thrs = d.thrs := by cases d; rfl
@[simp] theorem Dev.tallyMax_boot (o x : Nat) : (d.tallyMax o x).boot = d.boot := by cases d; rfl
@[simp] theorem Dev.tallyMax_safety (o x : Nat) : (d.tallyMax o x).safety = d.safety := by cases d; rfl
@[simp] theorem Dev.tallyMax_pair (o x : Nat) : (d.tallyMax o x).pair = d.pair := by cases d; rfl
@[simp] theorem Dev.tallyMax_tap (o x : Nat) : (d.tallyMax o x).tap = d.tap := by cases d; rfl
@[simp] theorem Dev.tallyMax_trie (o x : Nat) : (d.tallyMax o x).trie = d.trie := by cases d; rfl
@[simp] theorem Dev.tallyMax_heldWrites (o x : Nat) : (d.tallyMax o x).heldWrites = d.heldWrites := by cases d; rfl

@[simp] theorem Dev.clearMem_clk (lo hi : Nat) : (d.clearMem lo hi).clk = d.clk := by cases d; rfl
@[simp] theorem Dev.clearMem_csr (lo hi : Nat) : (d.clearMem lo hi).csr = d.csr := by cases d; rfl
@[simp] theorem Dev.clearMem_cnt (lo hi : Nat) : (d.clearMem lo hi).cnt = d.cnt := by cases d; rfl
@[simp] theorem Dev.clearMem_tly (lo hi : Nat) : (d.clearMem lo hi).tly = d.tly := by cases d; rfl
@[simp] theorem Dev.clearMem_mem (lo hi : Nat) : (d.clearMem lo hi).mem = d.mem := by cases d; rfl
@[simp] theorem Dev.clearMem_out (lo hi : Nat) : (d.clearMem lo hi).out = d.out := by cases d; rfl
@[simp] theorem Dev.clearMem_raised (lo hi : Nat) : (d.clearMem lo hi).raised = d.raised := by cases d; rfl
@[simp] theorem Dev.clearMem_board (lo hi : Nat) : (d.clearMem lo hi).board = d.board := by cases d; rfl
@[simp] theorem Dev.clearMem_span (lo hi : Nat) : (d.clearMem lo hi).span = d.span := by cases d; rfl
@[simp] theorem Dev.clearMem_sb (lo hi : Nat) : (d.clearMem lo hi).sb = d.sb := by cases d; rfl
@[simp] theorem Dev.clearMem_released (lo hi : Nat) : (d.clearMem lo hi).released = d.released := by cases d; rfl
@[simp] theorem Dev.clearMem_ports (lo hi : Nat) : (d.clearMem lo hi).ports = d.ports := by cases d; rfl
@[simp] theorem Dev.clearMem_pause (lo hi : Nat) : (d.clearMem lo hi).pause = d.pause := by cases d; rfl
@[simp] theorem Dev.clearMem_mods (lo hi : Nat) : (d.clearMem lo hi).mods = d.mods := by cases d; rfl
@[simp] theorem Dev.clearMem_pkts (lo hi : Nat) : (d.clearMem lo hi).pkts = d.pkts := by cases d; rfl
@[simp] theorem Dev.clearMem_draws (lo hi : Nat) : (d.clearMem lo hi).draws = d.draws := by cases d; rfl
@[simp] theorem Dev.clearMem_ctxs (lo hi : Nat) : (d.clearMem lo hi).ctxs = d.ctxs := by cases d; rfl
@[simp] theorem Dev.clearMem_pktCores (lo hi : Nat) : (d.clearMem lo hi).pktCores = d.pktCores := by cases d; rfl
@[simp] theorem Dev.clearMem_fifos (lo hi : Nat) : (d.clearMem lo hi).fifos = d.fifos := by cases d; rfl
@[simp] theorem Dev.clearMem_thrs (lo hi : Nat) : (d.clearMem lo hi).thrs = d.thrs := by cases d; rfl
@[simp] theorem Dev.clearMem_boot (lo hi : Nat) : (d.clearMem lo hi).boot = d.boot := by cases d; rfl
@[simp] theorem Dev.clearMem_safety (lo hi : Nat) : (d.clearMem lo hi).safety = d.safety := by cases d; rfl
@[simp] theorem Dev.clearMem_pair (lo hi : Nat) : (d.clearMem lo hi).pair = d.pair := by cases d; rfl
@[simp] theorem Dev.clearMem_tap (lo hi : Nat) : (d.clearMem lo hi).tap = d.tap := by cases d; rfl
@[simp] theorem Dev.clearMem_trie (lo hi : Nat) : (d.clearMem lo hi).trie = d.trie := by cases d; rfl
@[simp] theorem Dev.clearMem_heldWrites (lo hi : Nat) : (d.clearMem lo hi).heldWrites = d.heldWrites := by cases d; rfl

@[simp] theorem Dev.advance_csr (n : Nat) : (d.advance n).csr = d.csr := by cases d; rfl
@[simp] theorem Dev.advance_cnt (n : Nat) : (d.advance n).cnt = d.cnt := by cases d; rfl
@[simp] theorem Dev.advance_tly (n : Nat) : (d.advance n).tly = d.tly := by cases d; rfl
@[simp] theorem Dev.advance_mem (n : Nat) : (d.advance n).mem = d.mem := by cases d; rfl
@[simp] theorem Dev.advance_stores (n : Nat) : (d.advance n).stores = d.stores := by cases d; rfl
@[simp] theorem Dev.advance_out (n : Nat) : (d.advance n).out = d.out := by cases d; rfl
@[simp] theorem Dev.advance_raised (n : Nat) : (d.advance n).raised = d.raised := by cases d; rfl
@[simp] theorem Dev.advance_board (n : Nat) : (d.advance n).board = d.board := by cases d; rfl
@[simp] theorem Dev.advance_span (n : Nat) : (d.advance n).span = d.span := by cases d; rfl
@[simp] theorem Dev.advance_sb (n : Nat) : (d.advance n).sb = d.sb := by cases d; rfl
@[simp] theorem Dev.advance_released (n : Nat) : (d.advance n).released = d.released := by cases d; rfl
@[simp] theorem Dev.advance_ports (n : Nat) : (d.advance n).ports = d.ports := by cases d; rfl
@[simp] theorem Dev.advance_pause (n : Nat) : (d.advance n).pause = d.pause := by cases d; rfl
@[simp] theorem Dev.advance_mods (n : Nat) : (d.advance n).mods = d.mods := by cases d; rfl
@[simp] theorem Dev.advance_pkts (n : Nat) : (d.advance n).pkts = d.pkts := by cases d; rfl
@[simp] theorem Dev.advance_marks (n : Nat) : (d.advance n).marks = d.marks := by cases d; rfl
@[simp] theorem Dev.advance_draws (n : Nat) : (d.advance n).draws = d.draws := by cases d; rfl
@[simp] theorem Dev.advance_ctxs (n : Nat) : (d.advance n).ctxs = d.ctxs := by cases d; rfl
@[simp] theorem Dev.advance_pktCores (n : Nat) : (d.advance n).pktCores = d.pktCores := by cases d; rfl
@[simp] theorem Dev.advance_fifos (n : Nat) : (d.advance n).fifos = d.fifos := by cases d; rfl
@[simp] theorem Dev.advance_thrs (n : Nat) : (d.advance n).thrs = d.thrs := by cases d; rfl
@[simp] theorem Dev.advance_boot (n : Nat) : (d.advance n).boot = d.boot := by cases d; rfl
@[simp] theorem Dev.advance_safety (n : Nat) : (d.advance n).safety = d.safety := by cases d; rfl
@[simp] theorem Dev.advance_pair (n : Nat) : (d.advance n).pair = d.pair := by cases d; rfl
@[simp] theorem Dev.advance_tap (n : Nat) : (d.advance n).tap = d.tap := by cases d; rfl
@[simp] theorem Dev.advance_trie (n : Nat) : (d.advance n).trie = d.trie := by cases d; rfl
@[simp] theorem Dev.advance_heldWrites (n : Nat) : (d.advance n).heldWrites = d.heldWrites := by cases d; rfl

@[simp] theorem Dev.advanceTo_csr (t : Nat) : (d.advanceTo t).csr = d.csr := by cases d; rfl
@[simp] theorem Dev.advanceTo_cnt (t : Nat) : (d.advanceTo t).cnt = d.cnt := by cases d; rfl
@[simp] theorem Dev.advanceTo_tly (t : Nat) : (d.advanceTo t).tly = d.tly := by cases d; rfl
@[simp] theorem Dev.advanceTo_mem (t : Nat) : (d.advanceTo t).mem = d.mem := by cases d; rfl
@[simp] theorem Dev.advanceTo_stores (t : Nat) : (d.advanceTo t).stores = d.stores := by cases d; rfl
@[simp] theorem Dev.advanceTo_out (t : Nat) : (d.advanceTo t).out = d.out := by cases d; rfl
@[simp] theorem Dev.advanceTo_raised (t : Nat) : (d.advanceTo t).raised = d.raised := by cases d; rfl
@[simp] theorem Dev.advanceTo_board (t : Nat) : (d.advanceTo t).board = d.board := by cases d; rfl
@[simp] theorem Dev.advanceTo_span (t : Nat) : (d.advanceTo t).span = d.span := by cases d; rfl
@[simp] theorem Dev.advanceTo_sb (t : Nat) : (d.advanceTo t).sb = d.sb := by cases d; rfl
@[simp] theorem Dev.advanceTo_released (t : Nat) : (d.advanceTo t).released = d.released := by cases d; rfl
@[simp] theorem Dev.advanceTo_ports (t : Nat) : (d.advanceTo t).ports = d.ports := by cases d; rfl
@[simp] theorem Dev.advanceTo_pause (t : Nat) : (d.advanceTo t).pause = d.pause := by cases d; rfl
@[simp] theorem Dev.advanceTo_mods (t : Nat) : (d.advanceTo t).mods = d.mods := by cases d; rfl
@[simp] theorem Dev.advanceTo_pkts (t : Nat) : (d.advanceTo t).pkts = d.pkts := by cases d; rfl
@[simp] theorem Dev.advanceTo_marks (t : Nat) : (d.advanceTo t).marks = d.marks := by cases d; rfl
@[simp] theorem Dev.advanceTo_draws (t : Nat) : (d.advanceTo t).draws = d.draws := by cases d; rfl
@[simp] theorem Dev.advanceTo_ctxs (t : Nat) : (d.advanceTo t).ctxs = d.ctxs := by cases d; rfl
@[simp] theorem Dev.advanceTo_pktCores (t : Nat) : (d.advanceTo t).pktCores = d.pktCores := by cases d; rfl
@[simp] theorem Dev.advanceTo_fifos (t : Nat) : (d.advanceTo t).fifos = d.fifos := by cases d; rfl
@[simp] theorem Dev.advanceTo_thrs (t : Nat) : (d.advanceTo t).thrs = d.thrs := by cases d; rfl
@[simp] theorem Dev.advanceTo_boot (t : Nat) : (d.advanceTo t).boot = d.boot := by cases d; rfl
@[simp] theorem Dev.advanceTo_safety (t : Nat) : (d.advanceTo t).safety = d.safety := by cases d; rfl
@[simp] theorem Dev.advanceTo_pair (t : Nat) : (d.advanceTo t).pair = d.pair := by cases d; rfl
@[simp] theorem Dev.advanceTo_tap (t : Nat) : (d.advanceTo t).tap = d.tap := by cases d; rfl
@[simp] theorem Dev.advanceTo_trie (t : Nat) : (d.advanceTo t).trie = d.trie := by cases d; rfl
@[simp] theorem Dev.advanceTo_heldWrites (t : Nat) : (d.advanceTo t).heldWrites = d.heldWrites := by cases d; rfl

@[simp] theorem Dev.advanceToPtp_csr (t : Nat) : (d.advanceToPtp t).csr = d.csr := by cases d; rfl
@[simp] theorem Dev.advanceToPtp_cnt (t : Nat) : (d.advanceToPtp t).cnt = d.cnt := by cases d; rfl
@[simp] theorem Dev.advanceToPtp_tly (t : Nat) : (d.advanceToPtp t).tly = d.tly := by cases d; rfl
@[simp] theorem Dev.advanceToPtp_mem (t : Nat) : (d.advanceToPtp t).mem = d.mem := by cases d; rfl
@[simp] theorem Dev.advanceToPtp_stores (t : Nat) : (d.advanceToPtp t).stores = d.stores := by cases d; rfl
@[simp] theorem Dev.advanceToPtp_out (t : Nat) : (d.advanceToPtp t).out = d.out := by cases d; rfl
@[simp] theorem Dev.advanceToPtp_raised (t : Nat) : (d.advanceToPtp t).raised = d.raised := by cases d; rfl
@[simp] theorem Dev.advanceToPtp_board (t : Nat) : (d.advanceToPtp t).board = d.board := by cases d; rfl
@[simp] theorem Dev.advanceToPtp_span (t : Nat) : (d.advanceToPtp t).span = d.span := by cases d; rfl
@[simp] theorem Dev.advanceToPtp_sb (t : Nat) : (d.advanceToPtp t).sb = d.sb := by cases d; rfl
@[simp] theorem Dev.advanceToPtp_released (t : Nat) : (d.advanceToPtp t).released = d.released := by cases d; rfl
@[simp] theorem Dev.advanceToPtp_ports (t : Nat) : (d.advanceToPtp t).ports = d.ports := by cases d; rfl
@[simp] theorem Dev.advanceToPtp_pause (t : Nat) : (d.advanceToPtp t).pause = d.pause := by cases d; rfl
@[simp] theorem Dev.advanceToPtp_mods (t : Nat) : (d.advanceToPtp t).mods = d.mods := by cases d; rfl
@[simp] theorem Dev.advanceToPtp_pkts (t : Nat) : (d.advanceToPtp t).pkts = d.pkts := by cases d; rfl
@[simp] theorem Dev.advanceToPtp_marks (t : Nat) : (d.advanceToPtp t).marks = d.marks := by cases d; rfl
@[simp] theorem Dev.advanceToPtp_draws (t : Nat) : (d.advanceToPtp t).draws = d.draws := by cases d; rfl
@[simp] theorem Dev.advanceToPtp_ctxs (t : Nat) : (d.advanceToPtp t).ctxs = d.ctxs := by cases d; rfl
@[simp] theorem Dev.advanceToPtp_pktCores (t : Nat) : (d.advanceToPtp t).pktCores = d.pktCores := by cases d; rfl
@[simp] theorem Dev.advanceToPtp_fifos (t : Nat) : (d.advanceToPtp t).fifos = d.fifos := by cases d; rfl
@[simp] theorem Dev.advanceToPtp_thrs (t : Nat) : (d.advanceToPtp t).thrs = d.thrs := by cases d; rfl
@[simp] theorem Dev.advanceToPtp_boot (t : Nat) : (d.advanceToPtp t).boot = d.boot := by cases d; rfl
@[simp] theorem Dev.advanceToPtp_safety (t : Nat) : (d.advanceToPtp t).safety = d.safety := by cases d; rfl
@[simp] theorem Dev.advanceToPtp_pair (t : Nat) : (d.advanceToPtp t).pair = d.pair := by cases d; rfl
@[simp] theorem Dev.advanceToPtp_tap (t : Nat) : (d.advanceToPtp t).tap = d.tap := by cases d; rfl
@[simp] theorem Dev.advanceToPtp_trie (t : Nat) : (d.advanceToPtp t).trie = d.trie := by cases d; rfl
@[simp] theorem Dev.advanceToPtp_heldWrites (t : Nat) : (d.advanceToPtp t).heldWrites = d.heldWrites := by cases d; rfl

@[simp] theorem Dev.raiseEvent_clk (c : Nat) (f : Option Nat) (a b : Nat) : (d.raiseEvent c f a b).clk = d.clk := by cases d; rfl
@[simp] theorem Dev.raiseEvent_csr (c : Nat) (f : Option Nat) (a b : Nat) : (d.raiseEvent c f a b).csr = d.csr := by cases d; rfl
@[simp] theorem Dev.raiseEvent_cnt (c : Nat) (f : Option Nat) (a b : Nat) : (d.raiseEvent c f a b).cnt = d.cnt := by cases d; rfl
@[simp] theorem Dev.raiseEvent_tly (c : Nat) (f : Option Nat) (a b : Nat) : (d.raiseEvent c f a b).tly = d.tly := by cases d; rfl
@[simp] theorem Dev.raiseEvent_mem (c : Nat) (f : Option Nat) (a b : Nat) : (d.raiseEvent c f a b).mem = d.mem := by cases d; rfl
@[simp] theorem Dev.raiseEvent_stores (c : Nat) (f : Option Nat) (a b : Nat) : (d.raiseEvent c f a b).stores = d.stores := by cases d; rfl
@[simp] theorem Dev.raiseEvent_out (c : Nat) (f : Option Nat) (a b : Nat) : (d.raiseEvent c f a b).out = d.out := by cases d; rfl
@[simp] theorem Dev.raiseEvent_board (c : Nat) (f : Option Nat) (a b : Nat) : (d.raiseEvent c f a b).board = d.board := by cases d; rfl
@[simp] theorem Dev.raiseEvent_span (c : Nat) (f : Option Nat) (a b : Nat) : (d.raiseEvent c f a b).span = d.span := by cases d; rfl
@[simp] theorem Dev.raiseEvent_sb (c : Nat) (f : Option Nat) (a b : Nat) : (d.raiseEvent c f a b).sb = d.sb := by cases d; rfl
@[simp] theorem Dev.raiseEvent_released (c : Nat) (f : Option Nat) (a b : Nat) : (d.raiseEvent c f a b).released = d.released := by cases d; rfl
@[simp] theorem Dev.raiseEvent_ports (c : Nat) (f : Option Nat) (a b : Nat) : (d.raiseEvent c f a b).ports = d.ports := by cases d; rfl
@[simp] theorem Dev.raiseEvent_pause (c : Nat) (f : Option Nat) (a b : Nat) : (d.raiseEvent c f a b).pause = d.pause := by cases d; rfl
@[simp] theorem Dev.raiseEvent_mods (c : Nat) (f : Option Nat) (a b : Nat) : (d.raiseEvent c f a b).mods = d.mods := by cases d; rfl
@[simp] theorem Dev.raiseEvent_pkts (c : Nat) (f : Option Nat) (a b : Nat) : (d.raiseEvent c f a b).pkts = d.pkts := by cases d; rfl
@[simp] theorem Dev.raiseEvent_marks (c : Nat) (f : Option Nat) (a b : Nat) : (d.raiseEvent c f a b).marks = d.marks := by cases d; rfl
@[simp] theorem Dev.raiseEvent_draws (c : Nat) (f : Option Nat) (a b : Nat) : (d.raiseEvent c f a b).draws = d.draws := by cases d; rfl
@[simp] theorem Dev.raiseEvent_ctxs (c : Nat) (f : Option Nat) (a b : Nat) : (d.raiseEvent c f a b).ctxs = d.ctxs := by cases d; rfl
@[simp] theorem Dev.raiseEvent_pktCores (c : Nat) (f : Option Nat) (a b : Nat) : (d.raiseEvent c f a b).pktCores = d.pktCores := by cases d; rfl
@[simp] theorem Dev.raiseEvent_fifos (c : Nat) (f : Option Nat) (a b : Nat) : (d.raiseEvent c f a b).fifos = d.fifos := by cases d; rfl
@[simp] theorem Dev.raiseEvent_thrs (c : Nat) (f : Option Nat) (a b : Nat) : (d.raiseEvent c f a b).thrs = d.thrs := by cases d; rfl
@[simp] theorem Dev.raiseEvent_boot (c : Nat) (f : Option Nat) (a b : Nat) : (d.raiseEvent c f a b).boot = d.boot := by cases d; rfl
@[simp] theorem Dev.raiseEvent_safety (c : Nat) (f : Option Nat) (a b : Nat) : (d.raiseEvent c f a b).safety = d.safety := by cases d; rfl
@[simp] theorem Dev.raiseEvent_pair (c : Nat) (f : Option Nat) (a b : Nat) : (d.raiseEvent c f a b).pair = d.pair := by cases d; rfl
@[simp] theorem Dev.raiseEvent_tap (c : Nat) (f : Option Nat) (a b : Nat) : (d.raiseEvent c f a b).tap = d.tap := by cases d; rfl
@[simp] theorem Dev.raiseEvent_trie (c : Nat) (f : Option Nat) (a b : Nat) : (d.raiseEvent c f a b).trie = d.trie := by cases d; rfl
@[simp] theorem Dev.raiseEvent_heldWrites (c : Nat) (f : Option Nat) (a b : Nat) : (d.raiseEvent c f a b).heldWrites = d.heldWrites := by cases d; rfl

@[simp] theorem Dev.chipEvent_clk (c a b : Nat) : (d.chipEvent c a b).clk = d.clk := by cases d; rfl
@[simp] theorem Dev.chipEvent_csr (c a b : Nat) : (d.chipEvent c a b).csr = d.csr := by cases d; rfl
@[simp] theorem Dev.chipEvent_cnt (c a b : Nat) : (d.chipEvent c a b).cnt = d.cnt := by cases d; rfl
@[simp] theorem Dev.chipEvent_tly (c a b : Nat) : (d.chipEvent c a b).tly = d.tly := by cases d; rfl
@[simp] theorem Dev.chipEvent_mem (c a b : Nat) : (d.chipEvent c a b).mem = d.mem := by cases d; rfl
@[simp] theorem Dev.chipEvent_stores (c a b : Nat) : (d.chipEvent c a b).stores = d.stores := by cases d; rfl
@[simp] theorem Dev.chipEvent_out (c a b : Nat) : (d.chipEvent c a b).out = d.out := by cases d; rfl
@[simp] theorem Dev.chipEvent_board (c a b : Nat) : (d.chipEvent c a b).board = d.board := by cases d; rfl
@[simp] theorem Dev.chipEvent_span (c a b : Nat) : (d.chipEvent c a b).span = d.span := by cases d; rfl
@[simp] theorem Dev.chipEvent_sb (c a b : Nat) : (d.chipEvent c a b).sb = d.sb := by cases d; rfl
@[simp] theorem Dev.chipEvent_released (c a b : Nat) : (d.chipEvent c a b).released = d.released := by cases d; rfl
@[simp] theorem Dev.chipEvent_ports (c a b : Nat) : (d.chipEvent c a b).ports = d.ports := by cases d; rfl
@[simp] theorem Dev.chipEvent_pause (c a b : Nat) : (d.chipEvent c a b).pause = d.pause := by cases d; rfl
@[simp] theorem Dev.chipEvent_mods (c a b : Nat) : (d.chipEvent c a b).mods = d.mods := by cases d; rfl
@[simp] theorem Dev.chipEvent_pkts (c a b : Nat) : (d.chipEvent c a b).pkts = d.pkts := by cases d; rfl
@[simp] theorem Dev.chipEvent_marks (c a b : Nat) : (d.chipEvent c a b).marks = d.marks := by cases d; rfl
@[simp] theorem Dev.chipEvent_draws (c a b : Nat) : (d.chipEvent c a b).draws = d.draws := by cases d; rfl
@[simp] theorem Dev.chipEvent_ctxs (c a b : Nat) : (d.chipEvent c a b).ctxs = d.ctxs := by cases d; rfl
@[simp] theorem Dev.chipEvent_pktCores (c a b : Nat) : (d.chipEvent c a b).pktCores = d.pktCores := by cases d; rfl
@[simp] theorem Dev.chipEvent_fifos (c a b : Nat) : (d.chipEvent c a b).fifos = d.fifos := by cases d; rfl
@[simp] theorem Dev.chipEvent_thrs (c a b : Nat) : (d.chipEvent c a b).thrs = d.thrs := by cases d; rfl
@[simp] theorem Dev.chipEvent_boot (c a b : Nat) : (d.chipEvent c a b).boot = d.boot := by cases d; rfl
@[simp] theorem Dev.chipEvent_safety (c a b : Nat) : (d.chipEvent c a b).safety = d.safety := by cases d; rfl
@[simp] theorem Dev.chipEvent_pair (c a b : Nat) : (d.chipEvent c a b).pair = d.pair := by cases d; rfl
@[simp] theorem Dev.chipEvent_tap (c a b : Nat) : (d.chipEvent c a b).tap = d.tap := by cases d; rfl
@[simp] theorem Dev.chipEvent_trie (c a b : Nat) : (d.chipEvent c a b).trie = d.trie := by cases d; rfl
@[simp] theorem Dev.chipEvent_heldWrites (c a b : Nat) : (d.chipEvent c a b).heldWrites = d.heldWrites := by cases d; rfl

@[simp] theorem Dev.fnEvent_clk (f c a b : Nat) : (d.fnEvent f c a b).clk = d.clk := by cases d; rfl
@[simp] theorem Dev.fnEvent_csr (f c a b : Nat) : (d.fnEvent f c a b).csr = d.csr := by cases d; rfl
@[simp] theorem Dev.fnEvent_cnt (f c a b : Nat) : (d.fnEvent f c a b).cnt = d.cnt := by cases d; rfl
@[simp] theorem Dev.fnEvent_tly (f c a b : Nat) : (d.fnEvent f c a b).tly = d.tly := by cases d; rfl
@[simp] theorem Dev.fnEvent_mem (f c a b : Nat) : (d.fnEvent f c a b).mem = d.mem := by cases d; rfl
@[simp] theorem Dev.fnEvent_stores (f c a b : Nat) : (d.fnEvent f c a b).stores = d.stores := by cases d; rfl
@[simp] theorem Dev.fnEvent_out (f c a b : Nat) : (d.fnEvent f c a b).out = d.out := by cases d; rfl
@[simp] theorem Dev.fnEvent_board (f c a b : Nat) : (d.fnEvent f c a b).board = d.board := by cases d; rfl
@[simp] theorem Dev.fnEvent_span (f c a b : Nat) : (d.fnEvent f c a b).span = d.span := by cases d; rfl
@[simp] theorem Dev.fnEvent_sb (f c a b : Nat) : (d.fnEvent f c a b).sb = d.sb := by cases d; rfl
@[simp] theorem Dev.fnEvent_released (f c a b : Nat) : (d.fnEvent f c a b).released = d.released := by cases d; rfl
@[simp] theorem Dev.fnEvent_ports (f c a b : Nat) : (d.fnEvent f c a b).ports = d.ports := by cases d; rfl
@[simp] theorem Dev.fnEvent_pause (f c a b : Nat) : (d.fnEvent f c a b).pause = d.pause := by cases d; rfl
@[simp] theorem Dev.fnEvent_mods (f c a b : Nat) : (d.fnEvent f c a b).mods = d.mods := by cases d; rfl
@[simp] theorem Dev.fnEvent_pkts (f c a b : Nat) : (d.fnEvent f c a b).pkts = d.pkts := by cases d; rfl
@[simp] theorem Dev.fnEvent_marks (f c a b : Nat) : (d.fnEvent f c a b).marks = d.marks := by cases d; rfl
@[simp] theorem Dev.fnEvent_draws (f c a b : Nat) : (d.fnEvent f c a b).draws = d.draws := by cases d; rfl
@[simp] theorem Dev.fnEvent_ctxs (f c a b : Nat) : (d.fnEvent f c a b).ctxs = d.ctxs := by cases d; rfl
@[simp] theorem Dev.fnEvent_pktCores (f c a b : Nat) : (d.fnEvent f c a b).pktCores = d.pktCores := by cases d; rfl
@[simp] theorem Dev.fnEvent_fifos (f c a b : Nat) : (d.fnEvent f c a b).fifos = d.fifos := by cases d; rfl
@[simp] theorem Dev.fnEvent_thrs (f c a b : Nat) : (d.fnEvent f c a b).thrs = d.thrs := by cases d; rfl
@[simp] theorem Dev.fnEvent_boot (f c a b : Nat) : (d.fnEvent f c a b).boot = d.boot := by cases d; rfl
@[simp] theorem Dev.fnEvent_safety (f c a b : Nat) : (d.fnEvent f c a b).safety = d.safety := by cases d; rfl
@[simp] theorem Dev.fnEvent_pair (f c a b : Nat) : (d.fnEvent f c a b).pair = d.pair := by cases d; rfl
@[simp] theorem Dev.fnEvent_tap (f c a b : Nat) : (d.fnEvent f c a b).tap = d.tap := by cases d; rfl
@[simp] theorem Dev.fnEvent_trie (f c a b : Nat) : (d.fnEvent f c a b).trie = d.trie := by cases d; rfl
@[simp] theorem Dev.fnEvent_heldWrites (f c a b : Nat) : (d.fnEvent f c a b).heldWrites = d.heldWrites := by cases d; rfl

@[simp] theorem Dev.emit_clk (o : Output) : (d.emit o).clk = d.clk := by cases d; rfl
@[simp] theorem Dev.emit_csr (o : Output) : (d.emit o).csr = d.csr := by cases d; rfl
@[simp] theorem Dev.emit_cnt (o : Output) : (d.emit o).cnt = d.cnt := by cases d; rfl
@[simp] theorem Dev.emit_tly (o : Output) : (d.emit o).tly = d.tly := by cases d; rfl
@[simp] theorem Dev.emit_mem (o : Output) : (d.emit o).mem = d.mem := by cases d; rfl
@[simp] theorem Dev.emit_stores (o : Output) : (d.emit o).stores = d.stores := by cases d; rfl
@[simp] theorem Dev.emit_raised (o : Output) : (d.emit o).raised = d.raised := by cases d; rfl
@[simp] theorem Dev.emit_board (o : Output) : (d.emit o).board = d.board := by cases d; rfl
@[simp] theorem Dev.emit_span (o : Output) : (d.emit o).span = d.span := by cases d; rfl
@[simp] theorem Dev.emit_sb (o : Output) : (d.emit o).sb = d.sb := by cases d; rfl
@[simp] theorem Dev.emit_released (o : Output) : (d.emit o).released = d.released := by cases d; rfl
@[simp] theorem Dev.emit_ports (o : Output) : (d.emit o).ports = d.ports := by cases d; rfl
@[simp] theorem Dev.emit_pause (o : Output) : (d.emit o).pause = d.pause := by cases d; rfl
@[simp] theorem Dev.emit_mods (o : Output) : (d.emit o).mods = d.mods := by cases d; rfl
@[simp] theorem Dev.emit_pkts (o : Output) : (d.emit o).pkts = d.pkts := by cases d; rfl
@[simp] theorem Dev.emit_marks (o : Output) : (d.emit o).marks = d.marks := by cases d; rfl
@[simp] theorem Dev.emit_draws (o : Output) : (d.emit o).draws = d.draws := by cases d; rfl
@[simp] theorem Dev.emit_ctxs (o : Output) : (d.emit o).ctxs = d.ctxs := by cases d; rfl
@[simp] theorem Dev.emit_pktCores (o : Output) : (d.emit o).pktCores = d.pktCores := by cases d; rfl
@[simp] theorem Dev.emit_fifos (o : Output) : (d.emit o).fifos = d.fifos := by cases d; rfl
@[simp] theorem Dev.emit_thrs (o : Output) : (d.emit o).thrs = d.thrs := by cases d; rfl
@[simp] theorem Dev.emit_boot (o : Output) : (d.emit o).boot = d.boot := by cases d; rfl
@[simp] theorem Dev.emit_safety (o : Output) : (d.emit o).safety = d.safety := by cases d; rfl
@[simp] theorem Dev.emit_pair (o : Output) : (d.emit o).pair = d.pair := by cases d; rfl
@[simp] theorem Dev.emit_tap (o : Output) : (d.emit o).tap = d.tap := by cases d; rfl
@[simp] theorem Dev.emit_trie (o : Output) : (d.emit o).trie = d.trie := by cases d; rfl
@[simp] theorem Dev.emit_heldWrites (o : Output) : (d.emit o).heldWrites = d.heldWrites := by cases d; rfl

@[simp] theorem Dev.updPort_clk (p : Nat) (f : PortSt → PortSt) : (d.updPort p f).clk = d.clk := by cases d; rfl
@[simp] theorem Dev.updPort_csr (p : Nat) (f : PortSt → PortSt) : (d.updPort p f).csr = d.csr := by cases d; rfl
@[simp] theorem Dev.updPort_cnt (p : Nat) (f : PortSt → PortSt) : (d.updPort p f).cnt = d.cnt := by cases d; rfl
@[simp] theorem Dev.updPort_tly (p : Nat) (f : PortSt → PortSt) : (d.updPort p f).tly = d.tly := by cases d; rfl
@[simp] theorem Dev.updPort_mem (p : Nat) (f : PortSt → PortSt) : (d.updPort p f).mem = d.mem := by cases d; rfl
@[simp] theorem Dev.updPort_stores (p : Nat) (f : PortSt → PortSt) : (d.updPort p f).stores = d.stores := by cases d; rfl
@[simp] theorem Dev.updPort_out (p : Nat) (f : PortSt → PortSt) : (d.updPort p f).out = d.out := by cases d; rfl
@[simp] theorem Dev.updPort_raised (p : Nat) (f : PortSt → PortSt) : (d.updPort p f).raised = d.raised := by cases d; rfl
@[simp] theorem Dev.updPort_board (p : Nat) (f : PortSt → PortSt) : (d.updPort p f).board = d.board := by cases d; rfl
@[simp] theorem Dev.updPort_span (p : Nat) (f : PortSt → PortSt) : (d.updPort p f).span = d.span := by cases d; rfl
@[simp] theorem Dev.updPort_sb (p : Nat) (f : PortSt → PortSt) : (d.updPort p f).sb = d.sb := by cases d; rfl
@[simp] theorem Dev.updPort_released (p : Nat) (f : PortSt → PortSt) : (d.updPort p f).released = d.released := by cases d; rfl
@[simp] theorem Dev.updPort_pause (p : Nat) (f : PortSt → PortSt) : (d.updPort p f).pause = d.pause := by cases d; rfl
@[simp] theorem Dev.updPort_mods (p : Nat) (f : PortSt → PortSt) : (d.updPort p f).mods = d.mods := by cases d; rfl
@[simp] theorem Dev.updPort_pkts (p : Nat) (f : PortSt → PortSt) : (d.updPort p f).pkts = d.pkts := by cases d; rfl
@[simp] theorem Dev.updPort_marks (p : Nat) (f : PortSt → PortSt) : (d.updPort p f).marks = d.marks := by cases d; rfl
@[simp] theorem Dev.updPort_draws (p : Nat) (f : PortSt → PortSt) : (d.updPort p f).draws = d.draws := by cases d; rfl
@[simp] theorem Dev.updPort_ctxs (p : Nat) (f : PortSt → PortSt) : (d.updPort p f).ctxs = d.ctxs := by cases d; rfl
@[simp] theorem Dev.updPort_pktCores (p : Nat) (f : PortSt → PortSt) : (d.updPort p f).pktCores = d.pktCores := by cases d; rfl
@[simp] theorem Dev.updPort_fifos (p : Nat) (f : PortSt → PortSt) : (d.updPort p f).fifos = d.fifos := by cases d; rfl
@[simp] theorem Dev.updPort_thrs (p : Nat) (f : PortSt → PortSt) : (d.updPort p f).thrs = d.thrs := by cases d; rfl
@[simp] theorem Dev.updPort_boot (p : Nat) (f : PortSt → PortSt) : (d.updPort p f).boot = d.boot := by cases d; rfl
@[simp] theorem Dev.updPort_safety (p : Nat) (f : PortSt → PortSt) : (d.updPort p f).safety = d.safety := by cases d; rfl
@[simp] theorem Dev.updPort_pair (p : Nat) (f : PortSt → PortSt) : (d.updPort p f).pair = d.pair := by cases d; rfl
@[simp] theorem Dev.updPort_tap (p : Nat) (f : PortSt → PortSt) : (d.updPort p f).tap = d.tap := by cases d; rfl
@[simp] theorem Dev.updPort_trie (p : Nat) (f : PortSt → PortSt) : (d.updPort p f).trie = d.trie := by cases d; rfl
@[simp] theorem Dev.updPort_heldWrites (p : Nat) (f : PortSt → PortSt) : (d.updPort p f).heldWrites = d.heldWrites := by cases d; rfl

@[simp] theorem Dev.updPause_clk (p q : Nat) (f : Pause → Pause) : (d.updPause p q f).clk = d.clk := by cases d; rfl
@[simp] theorem Dev.updPause_csr (p q : Nat) (f : Pause → Pause) : (d.updPause p q f).csr = d.csr := by cases d; rfl
@[simp] theorem Dev.updPause_cnt (p q : Nat) (f : Pause → Pause) : (d.updPause p q f).cnt = d.cnt := by cases d; rfl
@[simp] theorem Dev.updPause_tly (p q : Nat) (f : Pause → Pause) : (d.updPause p q f).tly = d.tly := by cases d; rfl
@[simp] theorem Dev.updPause_mem (p q : Nat) (f : Pause → Pause) : (d.updPause p q f).mem = d.mem := by cases d; rfl
@[simp] theorem Dev.updPause_stores (p q : Nat) (f : Pause → Pause) : (d.updPause p q f).stores = d.stores := by cases d; rfl
@[simp] theorem Dev.updPause_out (p q : Nat) (f : Pause → Pause) : (d.updPause p q f).out = d.out := by cases d; rfl
@[simp] theorem Dev.updPause_raised (p q : Nat) (f : Pause → Pause) : (d.updPause p q f).raised = d.raised := by cases d; rfl
@[simp] theorem Dev.updPause_board (p q : Nat) (f : Pause → Pause) : (d.updPause p q f).board = d.board := by cases d; rfl
@[simp] theorem Dev.updPause_span (p q : Nat) (f : Pause → Pause) : (d.updPause p q f).span = d.span := by cases d; rfl
@[simp] theorem Dev.updPause_sb (p q : Nat) (f : Pause → Pause) : (d.updPause p q f).sb = d.sb := by cases d; rfl
@[simp] theorem Dev.updPause_released (p q : Nat) (f : Pause → Pause) : (d.updPause p q f).released = d.released := by cases d; rfl
@[simp] theorem Dev.updPause_ports (p q : Nat) (f : Pause → Pause) : (d.updPause p q f).ports = d.ports := by cases d; rfl
@[simp] theorem Dev.updPause_mods (p q : Nat) (f : Pause → Pause) : (d.updPause p q f).mods = d.mods := by cases d; rfl
@[simp] theorem Dev.updPause_pkts (p q : Nat) (f : Pause → Pause) : (d.updPause p q f).pkts = d.pkts := by cases d; rfl
@[simp] theorem Dev.updPause_marks (p q : Nat) (f : Pause → Pause) : (d.updPause p q f).marks = d.marks := by cases d; rfl
@[simp] theorem Dev.updPause_draws (p q : Nat) (f : Pause → Pause) : (d.updPause p q f).draws = d.draws := by cases d; rfl
@[simp] theorem Dev.updPause_ctxs (p q : Nat) (f : Pause → Pause) : (d.updPause p q f).ctxs = d.ctxs := by cases d; rfl
@[simp] theorem Dev.updPause_pktCores (p q : Nat) (f : Pause → Pause) : (d.updPause p q f).pktCores = d.pktCores := by cases d; rfl
@[simp] theorem Dev.updPause_fifos (p q : Nat) (f : Pause → Pause) : (d.updPause p q f).fifos = d.fifos := by cases d; rfl
@[simp] theorem Dev.updPause_thrs (p q : Nat) (f : Pause → Pause) : (d.updPause p q f).thrs = d.thrs := by cases d; rfl
@[simp] theorem Dev.updPause_boot (p q : Nat) (f : Pause → Pause) : (d.updPause p q f).boot = d.boot := by cases d; rfl
@[simp] theorem Dev.updPause_safety (p q : Nat) (f : Pause → Pause) : (d.updPause p q f).safety = d.safety := by cases d; rfl
@[simp] theorem Dev.updPause_pair (p q : Nat) (f : Pause → Pause) : (d.updPause p q f).pair = d.pair := by cases d; rfl
@[simp] theorem Dev.updPause_tap (p q : Nat) (f : Pause → Pause) : (d.updPause p q f).tap = d.tap := by cases d; rfl
@[simp] theorem Dev.updPause_trie (p q : Nat) (f : Pause → Pause) : (d.updPause p q f).trie = d.trie := by cases d; rfl
@[simp] theorem Dev.updPause_heldWrites (p q : Nat) (f : Pause → Pause) : (d.updPause p q f).heldWrites = d.heldWrites := by cases d; rfl

@[simp] theorem Dev.updMod_clk (b : Nat) (f : ModBus → ModBus) : (d.updMod b f).clk = d.clk := by cases d; rfl
@[simp] theorem Dev.updMod_csr (b : Nat) (f : ModBus → ModBus) : (d.updMod b f).csr = d.csr := by cases d; rfl
@[simp] theorem Dev.updMod_cnt (b : Nat) (f : ModBus → ModBus) : (d.updMod b f).cnt = d.cnt := by cases d; rfl
@[simp] theorem Dev.updMod_tly (b : Nat) (f : ModBus → ModBus) : (d.updMod b f).tly = d.tly := by cases d; rfl
@[simp] theorem Dev.updMod_mem (b : Nat) (f : ModBus → ModBus) : (d.updMod b f).mem = d.mem := by cases d; rfl
@[simp] theorem Dev.updMod_stores (b : Nat) (f : ModBus → ModBus) : (d.updMod b f).stores = d.stores := by cases d; rfl
@[simp] theorem Dev.updMod_out (b : Nat) (f : ModBus → ModBus) : (d.updMod b f).out = d.out := by cases d; rfl
@[simp] theorem Dev.updMod_raised (b : Nat) (f : ModBus → ModBus) : (d.updMod b f).raised = d.raised := by cases d; rfl
@[simp] theorem Dev.updMod_board (b : Nat) (f : ModBus → ModBus) : (d.updMod b f).board = d.board := by cases d; rfl
@[simp] theorem Dev.updMod_span (b : Nat) (f : ModBus → ModBus) : (d.updMod b f).span = d.span := by cases d; rfl
@[simp] theorem Dev.updMod_sb (b : Nat) (f : ModBus → ModBus) : (d.updMod b f).sb = d.sb := by cases d; rfl
@[simp] theorem Dev.updMod_released (b : Nat) (f : ModBus → ModBus) : (d.updMod b f).released = d.released := by cases d; rfl
@[simp] theorem Dev.updMod_ports (b : Nat) (f : ModBus → ModBus) : (d.updMod b f).ports = d.ports := by cases d; rfl
@[simp] theorem Dev.updMod_pause (b : Nat) (f : ModBus → ModBus) : (d.updMod b f).pause = d.pause := by cases d; rfl
@[simp] theorem Dev.updMod_pkts (b : Nat) (f : ModBus → ModBus) : (d.updMod b f).pkts = d.pkts := by cases d; rfl
@[simp] theorem Dev.updMod_marks (b : Nat) (f : ModBus → ModBus) : (d.updMod b f).marks = d.marks := by cases d; rfl
@[simp] theorem Dev.updMod_draws (b : Nat) (f : ModBus → ModBus) : (d.updMod b f).draws = d.draws := by cases d; rfl
@[simp] theorem Dev.updMod_ctxs (b : Nat) (f : ModBus → ModBus) : (d.updMod b f).ctxs = d.ctxs := by cases d; rfl
@[simp] theorem Dev.updMod_pktCores (b : Nat) (f : ModBus → ModBus) : (d.updMod b f).pktCores = d.pktCores := by cases d; rfl
@[simp] theorem Dev.updMod_fifos (b : Nat) (f : ModBus → ModBus) : (d.updMod b f).fifos = d.fifos := by cases d; rfl
@[simp] theorem Dev.updMod_thrs (b : Nat) (f : ModBus → ModBus) : (d.updMod b f).thrs = d.thrs := by cases d; rfl
@[simp] theorem Dev.updMod_boot (b : Nat) (f : ModBus → ModBus) : (d.updMod b f).boot = d.boot := by cases d; rfl
@[simp] theorem Dev.updMod_safety (b : Nat) (f : ModBus → ModBus) : (d.updMod b f).safety = d.safety := by cases d; rfl
@[simp] theorem Dev.updMod_pair (b : Nat) (f : ModBus → ModBus) : (d.updMod b f).pair = d.pair := by cases d; rfl
@[simp] theorem Dev.updMod_tap (b : Nat) (f : ModBus → ModBus) : (d.updMod b f).tap = d.tap := by cases d; rfl
@[simp] theorem Dev.updMod_trie (b : Nat) (f : ModBus → ModBus) : (d.updMod b f).trie = d.trie := by cases d; rfl
@[simp] theorem Dev.updMod_heldWrites (b : Nat) (f : ModBus → ModBus) : (d.updMod b f).heldWrites = d.heldWrites := by cases d; rfl

@[simp] theorem Dev.updPkt_clk (id : Nat) (f : Pkt → Pkt) : (d.updPkt id f).clk = d.clk := by cases d; rfl
@[simp] theorem Dev.updPkt_csr (id : Nat) (f : Pkt → Pkt) : (d.updPkt id f).csr = d.csr := by cases d; rfl
@[simp] theorem Dev.updPkt_cnt (id : Nat) (f : Pkt → Pkt) : (d.updPkt id f).cnt = d.cnt := by cases d; rfl
@[simp] theorem Dev.updPkt_tly (id : Nat) (f : Pkt → Pkt) : (d.updPkt id f).tly = d.tly := by cases d; rfl
@[simp] theorem Dev.updPkt_mem (id : Nat) (f : Pkt → Pkt) : (d.updPkt id f).mem = d.mem := by cases d; rfl
@[simp] theorem Dev.updPkt_stores (id : Nat) (f : Pkt → Pkt) : (d.updPkt id f).stores = d.stores := by cases d; rfl
@[simp] theorem Dev.updPkt_out (id : Nat) (f : Pkt → Pkt) : (d.updPkt id f).out = d.out := by cases d; rfl
@[simp] theorem Dev.updPkt_raised (id : Nat) (f : Pkt → Pkt) : (d.updPkt id f).raised = d.raised := by cases d; rfl
@[simp] theorem Dev.updPkt_board (id : Nat) (f : Pkt → Pkt) : (d.updPkt id f).board = d.board := by cases d; rfl
@[simp] theorem Dev.updPkt_span (id : Nat) (f : Pkt → Pkt) : (d.updPkt id f).span = d.span := by cases d; rfl
@[simp] theorem Dev.updPkt_sb (id : Nat) (f : Pkt → Pkt) : (d.updPkt id f).sb = d.sb := by cases d; rfl
@[simp] theorem Dev.updPkt_released (id : Nat) (f : Pkt → Pkt) : (d.updPkt id f).released = d.released := by cases d; rfl
@[simp] theorem Dev.updPkt_ports (id : Nat) (f : Pkt → Pkt) : (d.updPkt id f).ports = d.ports := by cases d; rfl
@[simp] theorem Dev.updPkt_pause (id : Nat) (f : Pkt → Pkt) : (d.updPkt id f).pause = d.pause := by cases d; rfl
@[simp] theorem Dev.updPkt_mods (id : Nat) (f : Pkt → Pkt) : (d.updPkt id f).mods = d.mods := by cases d; rfl
@[simp] theorem Dev.updPkt_marks (id : Nat) (f : Pkt → Pkt) : (d.updPkt id f).marks = d.marks := by cases d; rfl
@[simp] theorem Dev.updPkt_draws (id : Nat) (f : Pkt → Pkt) : (d.updPkt id f).draws = d.draws := by cases d; rfl
@[simp] theorem Dev.updPkt_ctxs (id : Nat) (f : Pkt → Pkt) : (d.updPkt id f).ctxs = d.ctxs := by cases d; rfl
@[simp] theorem Dev.updPkt_pktCores (id : Nat) (f : Pkt → Pkt) : (d.updPkt id f).pktCores = d.pktCores := by cases d; rfl
@[simp] theorem Dev.updPkt_fifos (id : Nat) (f : Pkt → Pkt) : (d.updPkt id f).fifos = d.fifos := by cases d; rfl
@[simp] theorem Dev.updPkt_thrs (id : Nat) (f : Pkt → Pkt) : (d.updPkt id f).thrs = d.thrs := by cases d; rfl
@[simp] theorem Dev.updPkt_boot (id : Nat) (f : Pkt → Pkt) : (d.updPkt id f).boot = d.boot := by cases d; rfl
@[simp] theorem Dev.updPkt_safety (id : Nat) (f : Pkt → Pkt) : (d.updPkt id f).safety = d.safety := by cases d; rfl
@[simp] theorem Dev.updPkt_pair (id : Nat) (f : Pkt → Pkt) : (d.updPkt id f).pair = d.pair := by cases d; rfl
@[simp] theorem Dev.updPkt_tap (id : Nat) (f : Pkt → Pkt) : (d.updPkt id f).tap = d.tap := by cases d; rfl
@[simp] theorem Dev.updPkt_trie (id : Nat) (f : Pkt → Pkt) : (d.updPkt id f).trie = d.trie := by cases d; rfl
@[simp] theorem Dev.updPkt_heldWrites (id : Nat) (f : Pkt → Pkt) : (d.updPkt id f).heldWrites = d.heldWrites := by cases d; rfl

@[simp] theorem Dev.updCtx_clk (c t : Nat) (f : Ctx → Ctx) : (d.updCtx c t f).clk = d.clk := by cases d; rfl
@[simp] theorem Dev.updCtx_csr (c t : Nat) (f : Ctx → Ctx) : (d.updCtx c t f).csr = d.csr := by cases d; rfl
@[simp] theorem Dev.updCtx_cnt (c t : Nat) (f : Ctx → Ctx) : (d.updCtx c t f).cnt = d.cnt := by cases d; rfl
@[simp] theorem Dev.updCtx_tly (c t : Nat) (f : Ctx → Ctx) : (d.updCtx c t f).tly = d.tly := by cases d; rfl
@[simp] theorem Dev.updCtx_mem (c t : Nat) (f : Ctx → Ctx) : (d.updCtx c t f).mem = d.mem := by cases d; rfl
@[simp] theorem Dev.updCtx_stores (c t : Nat) (f : Ctx → Ctx) : (d.updCtx c t f).stores = d.stores := by cases d; rfl
@[simp] theorem Dev.updCtx_out (c t : Nat) (f : Ctx → Ctx) : (d.updCtx c t f).out = d.out := by cases d; rfl
@[simp] theorem Dev.updCtx_raised (c t : Nat) (f : Ctx → Ctx) : (d.updCtx c t f).raised = d.raised := by cases d; rfl
@[simp] theorem Dev.updCtx_board (c t : Nat) (f : Ctx → Ctx) : (d.updCtx c t f).board = d.board := by cases d; rfl
@[simp] theorem Dev.updCtx_span (c t : Nat) (f : Ctx → Ctx) : (d.updCtx c t f).span = d.span := by cases d; rfl
@[simp] theorem Dev.updCtx_sb (c t : Nat) (f : Ctx → Ctx) : (d.updCtx c t f).sb = d.sb := by cases d; rfl
@[simp] theorem Dev.updCtx_released (c t : Nat) (f : Ctx → Ctx) : (d.updCtx c t f).released = d.released := by cases d; rfl
@[simp] theorem Dev.updCtx_ports (c t : Nat) (f : Ctx → Ctx) : (d.updCtx c t f).ports = d.ports := by cases d; rfl
@[simp] theorem Dev.updCtx_pause (c t : Nat) (f : Ctx → Ctx) : (d.updCtx c t f).pause = d.pause := by cases d; rfl
@[simp] theorem Dev.updCtx_mods (c t : Nat) (f : Ctx → Ctx) : (d.updCtx c t f).mods = d.mods := by cases d; rfl
@[simp] theorem Dev.updCtx_pkts (c t : Nat) (f : Ctx → Ctx) : (d.updCtx c t f).pkts = d.pkts := by cases d; rfl
@[simp] theorem Dev.updCtx_marks (c t : Nat) (f : Ctx → Ctx) : (d.updCtx c t f).marks = d.marks := by cases d; rfl
@[simp] theorem Dev.updCtx_draws (c t : Nat) (f : Ctx → Ctx) : (d.updCtx c t f).draws = d.draws := by cases d; rfl
@[simp] theorem Dev.updCtx_pktCores (c t : Nat) (f : Ctx → Ctx) : (d.updCtx c t f).pktCores = d.pktCores := by cases d; rfl
@[simp] theorem Dev.updCtx_fifos (c t : Nat) (f : Ctx → Ctx) : (d.updCtx c t f).fifos = d.fifos := by cases d; rfl
@[simp] theorem Dev.updCtx_thrs (c t : Nat) (f : Ctx → Ctx) : (d.updCtx c t f).thrs = d.thrs := by cases d; rfl
@[simp] theorem Dev.updCtx_boot (c t : Nat) (f : Ctx → Ctx) : (d.updCtx c t f).boot = d.boot := by cases d; rfl
@[simp] theorem Dev.updCtx_safety (c t : Nat) (f : Ctx → Ctx) : (d.updCtx c t f).safety = d.safety := by cases d; rfl
@[simp] theorem Dev.updCtx_pair (c t : Nat) (f : Ctx → Ctx) : (d.updCtx c t f).pair = d.pair := by cases d; rfl
@[simp] theorem Dev.updCtx_tap (c t : Nat) (f : Ctx → Ctx) : (d.updCtx c t f).tap = d.tap := by cases d; rfl
@[simp] theorem Dev.updCtx_trie (c t : Nat) (f : Ctx → Ctx) : (d.updCtx c t f).trie = d.trie := by cases d; rfl
@[simp] theorem Dev.updCtx_heldWrites (c t : Nat) (f : Ctx → Ctx) : (d.updCtx c t f).heldWrites = d.heldWrites := by cases d; rfl

@[simp] theorem Dev.updCore_clk (c : Nat) (f : PktCore → PktCore) : (d.updCore c f).clk = d.clk := by cases d; rfl
@[simp] theorem Dev.updCore_csr (c : Nat) (f : PktCore → PktCore) : (d.updCore c f).csr = d.csr := by cases d; rfl
@[simp] theorem Dev.updCore_cnt (c : Nat) (f : PktCore → PktCore) : (d.updCore c f).cnt = d.cnt := by cases d; rfl
@[simp] theorem Dev.updCore_tly (c : Nat) (f : PktCore → PktCore) : (d.updCore c f).tly = d.tly := by cases d; rfl
@[simp] theorem Dev.updCore_mem (c : Nat) (f : PktCore → PktCore) : (d.updCore c f).mem = d.mem := by cases d; rfl
@[simp] theorem Dev.updCore_stores (c : Nat) (f : PktCore → PktCore) : (d.updCore c f).stores = d.stores := by cases d; rfl
@[simp] theorem Dev.updCore_out (c : Nat) (f : PktCore → PktCore) : (d.updCore c f).out = d.out := by cases d; rfl
@[simp] theorem Dev.updCore_raised (c : Nat) (f : PktCore → PktCore) : (d.updCore c f).raised = d.raised := by cases d; rfl
@[simp] theorem Dev.updCore_board (c : Nat) (f : PktCore → PktCore) : (d.updCore c f).board = d.board := by cases d; rfl
@[simp] theorem Dev.updCore_span (c : Nat) (f : PktCore → PktCore) : (d.updCore c f).span = d.span := by cases d; rfl
@[simp] theorem Dev.updCore_sb (c : Nat) (f : PktCore → PktCore) : (d.updCore c f).sb = d.sb := by cases d; rfl
@[simp] theorem Dev.updCore_released (c : Nat) (f : PktCore → PktCore) : (d.updCore c f).released = d.released := by cases d; rfl
@[simp] theorem Dev.updCore_ports (c : Nat) (f : PktCore → PktCore) : (d.updCore c f).ports = d.ports := by cases d; rfl
@[simp] theorem Dev.updCore_pause (c : Nat) (f : PktCore → PktCore) : (d.updCore c f).pause = d.pause := by cases d; rfl
@[simp] theorem Dev.updCore_mods (c : Nat) (f : PktCore → PktCore) : (d.updCore c f).mods = d.mods := by cases d; rfl
@[simp] theorem Dev.updCore_pkts (c : Nat) (f : PktCore → PktCore) : (d.updCore c f).pkts = d.pkts := by cases d; rfl
@[simp] theorem Dev.updCore_marks (c : Nat) (f : PktCore → PktCore) : (d.updCore c f).marks = d.marks := by cases d; rfl
@[simp] theorem Dev.updCore_draws (c : Nat) (f : PktCore → PktCore) : (d.updCore c f).draws = d.draws := by cases d; rfl
@[simp] theorem Dev.updCore_ctxs (c : Nat) (f : PktCore → PktCore) : (d.updCore c f).ctxs = d.ctxs := by cases d; rfl
@[simp] theorem Dev.updCore_fifos (c : Nat) (f : PktCore → PktCore) : (d.updCore c f).fifos = d.fifos := by cases d; rfl
@[simp] theorem Dev.updCore_thrs (c : Nat) (f : PktCore → PktCore) : (d.updCore c f).thrs = d.thrs := by cases d; rfl
@[simp] theorem Dev.updCore_boot (c : Nat) (f : PktCore → PktCore) : (d.updCore c f).boot = d.boot := by cases d; rfl
@[simp] theorem Dev.updCore_safety (c : Nat) (f : PktCore → PktCore) : (d.updCore c f).safety = d.safety := by cases d; rfl
@[simp] theorem Dev.updCore_pair (c : Nat) (f : PktCore → PktCore) : (d.updCore c f).pair = d.pair := by cases d; rfl
@[simp] theorem Dev.updCore_tap (c : Nat) (f : PktCore → PktCore) : (d.updCore c f).tap = d.tap := by cases d; rfl
@[simp] theorem Dev.updCore_trie (c : Nat) (f : PktCore → PktCore) : (d.updCore c f).trie = d.trie := by cases d; rfl
@[simp] theorem Dev.updCore_heldWrites (c : Nat) (f : PktCore → PktCore) : (d.updCore c f).heldWrites = d.heldWrites := by cases d; rfl

@[simp] theorem Dev.updThr_clk (k : Nat) (f : Thr → Thr) : (d.updThr k f).clk = d.clk := by cases d; rfl
@[simp] theorem Dev.updThr_csr (k : Nat) (f : Thr → Thr) : (d.updThr k f).csr = d.csr := by cases d; rfl
@[simp] theorem Dev.updThr_cnt (k : Nat) (f : Thr → Thr) : (d.updThr k f).cnt = d.cnt := by cases d; rfl
@[simp] theorem Dev.updThr_tly (k : Nat) (f : Thr → Thr) : (d.updThr k f).tly = d.tly := by cases d; rfl
@[simp] theorem Dev.updThr_mem (k : Nat) (f : Thr → Thr) : (d.updThr k f).mem = d.mem := by cases d; rfl
@[simp] theorem Dev.updThr_stores (k : Nat) (f : Thr → Thr) : (d.updThr k f).stores = d.stores := by cases d; rfl
@[simp] theorem Dev.updThr_out (k : Nat) (f : Thr → Thr) : (d.updThr k f).out = d.out := by cases d; rfl
@[simp] theorem Dev.updThr_raised (k : Nat) (f : Thr → Thr) : (d.updThr k f).raised = d.raised := by cases d; rfl
@[simp] theorem Dev.updThr_board (k : Nat) (f : Thr → Thr) : (d.updThr k f).board = d.board := by cases d; rfl
@[simp] theorem Dev.updThr_span (k : Nat) (f : Thr → Thr) : (d.updThr k f).span = d.span := by cases d; rfl
@[simp] theorem Dev.updThr_sb (k : Nat) (f : Thr → Thr) : (d.updThr k f).sb = d.sb := by cases d; rfl
@[simp] theorem Dev.updThr_released (k : Nat) (f : Thr → Thr) : (d.updThr k f).released = d.released := by cases d; rfl
@[simp] theorem Dev.updThr_ports (k : Nat) (f : Thr → Thr) : (d.updThr k f).ports = d.ports := by cases d; rfl
@[simp] theorem Dev.updThr_pause (k : Nat) (f : Thr → Thr) : (d.updThr k f).pause = d.pause := by cases d; rfl
@[simp] theorem Dev.updThr_mods (k : Nat) (f : Thr → Thr) : (d.updThr k f).mods = d.mods := by cases d; rfl
@[simp] theorem Dev.updThr_pkts (k : Nat) (f : Thr → Thr) : (d.updThr k f).pkts = d.pkts := by cases d; rfl
@[simp] theorem Dev.updThr_marks (k : Nat) (f : Thr → Thr) : (d.updThr k f).marks = d.marks := by cases d; rfl
@[simp] theorem Dev.updThr_draws (k : Nat) (f : Thr → Thr) : (d.updThr k f).draws = d.draws := by cases d; rfl
@[simp] theorem Dev.updThr_ctxs (k : Nat) (f : Thr → Thr) : (d.updThr k f).ctxs = d.ctxs := by cases d; rfl
@[simp] theorem Dev.updThr_pktCores (k : Nat) (f : Thr → Thr) : (d.updThr k f).pktCores = d.pktCores := by cases d; rfl
@[simp] theorem Dev.updThr_fifos (k : Nat) (f : Thr → Thr) : (d.updThr k f).fifos = d.fifos := by cases d; rfl
@[simp] theorem Dev.updThr_boot (k : Nat) (f : Thr → Thr) : (d.updThr k f).boot = d.boot := by cases d; rfl
@[simp] theorem Dev.updThr_safety (k : Nat) (f : Thr → Thr) : (d.updThr k f).safety = d.safety := by cases d; rfl
@[simp] theorem Dev.updThr_pair (k : Nat) (f : Thr → Thr) : (d.updThr k f).pair = d.pair := by cases d; rfl
@[simp] theorem Dev.updThr_tap (k : Nat) (f : Thr → Thr) : (d.updThr k f).tap = d.tap := by cases d; rfl
@[simp] theorem Dev.updThr_trie (k : Nat) (f : Thr → Thr) : (d.updThr k f).trie = d.trie := by cases d; rfl
@[simp] theorem Dev.updThr_heldWrites (k : Nat) (f : Thr → Thr) : (d.updThr k f).heldWrites = d.heldWrites := by cases d; rfl

@[simp] theorem Dev.safe_clk (f : Safety → Safety) : (d.safe f).clk = d.clk := by cases d; rfl
@[simp] theorem Dev.safe_csr (f : Safety → Safety) : (d.safe f).csr = d.csr := by cases d; rfl
@[simp] theorem Dev.safe_cnt (f : Safety → Safety) : (d.safe f).cnt = d.cnt := by cases d; rfl
@[simp] theorem Dev.safe_tly (f : Safety → Safety) : (d.safe f).tly = d.tly := by cases d; rfl
@[simp] theorem Dev.safe_mem (f : Safety → Safety) : (d.safe f).mem = d.mem := by cases d; rfl
@[simp] theorem Dev.safe_stores (f : Safety → Safety) : (d.safe f).stores = d.stores := by cases d; rfl
@[simp] theorem Dev.safe_out (f : Safety → Safety) : (d.safe f).out = d.out := by cases d; rfl
@[simp] theorem Dev.safe_raised (f : Safety → Safety) : (d.safe f).raised = d.raised := by cases d; rfl
@[simp] theorem Dev.safe_board (f : Safety → Safety) : (d.safe f).board = d.board := by cases d; rfl
@[simp] theorem Dev.safe_span (f : Safety → Safety) : (d.safe f).span = d.span := by cases d; rfl
@[simp] theorem Dev.safe_sb (f : Safety → Safety) : (d.safe f).sb = d.sb := by cases d; rfl
@[simp] theorem Dev.safe_released (f : Safety → Safety) : (d.safe f).released = d.released := by cases d; rfl
@[simp] theorem Dev.safe_ports (f : Safety → Safety) : (d.safe f).ports = d.ports := by cases d; rfl
@[simp] theorem Dev.safe_pause (f : Safety → Safety) : (d.safe f).pause = d.pause := by cases d; rfl
@[simp] theorem Dev.safe_mods (f : Safety → Safety) : (d.safe f).mods = d.mods := by cases d; rfl
@[simp] theorem Dev.safe_pkts (f : Safety → Safety) : (d.safe f).pkts = d.pkts := by cases d; rfl
@[simp] theorem Dev.safe_marks (f : Safety → Safety) : (d.safe f).marks = d.marks := by cases d; rfl
@[simp] theorem Dev.safe_draws (f : Safety → Safety) : (d.safe f).draws = d.draws := by cases d; rfl
@[simp] theorem Dev.safe_ctxs (f : Safety → Safety) : (d.safe f).ctxs = d.ctxs := by cases d; rfl
@[simp] theorem Dev.safe_pktCores (f : Safety → Safety) : (d.safe f).pktCores = d.pktCores := by cases d; rfl
@[simp] theorem Dev.safe_fifos (f : Safety → Safety) : (d.safe f).fifos = d.fifos := by cases d; rfl
@[simp] theorem Dev.safe_thrs (f : Safety → Safety) : (d.safe f).thrs = d.thrs := by cases d; rfl
@[simp] theorem Dev.safe_boot (f : Safety → Safety) : (d.safe f).boot = d.boot := by cases d; rfl
@[simp] theorem Dev.safe_pair (f : Safety → Safety) : (d.safe f).pair = d.pair := by cases d; rfl
@[simp] theorem Dev.safe_tap (f : Safety → Safety) : (d.safe f).tap = d.tap := by cases d; rfl
@[simp] theorem Dev.safe_trie (f : Safety → Safety) : (d.safe f).trie = d.trie := by cases d; rfl
@[simp] theorem Dev.safe_heldWrites (f : Safety → Safety) : (d.safe f).heldWrites = d.heldWrites := by cases d; rfl

@[simp] theorem Dev.updBoot_clk (f : Boot → Boot) : (d.updBoot f).clk = d.clk := by cases d; rfl
@[simp] theorem Dev.updBoot_csr (f : Boot → Boot) : (d.updBoot f).csr = d.csr := by cases d; rfl
@[simp] theorem Dev.updBoot_cnt (f : Boot → Boot) : (d.updBoot f).cnt = d.cnt := by cases d; rfl
@[simp] theorem Dev.updBoot_tly (f : Boot → Boot) : (d.updBoot f).tly = d.tly := by cases d; rfl
@[simp] theorem Dev.updBoot_mem (f : Boot → Boot) : (d.updBoot f).mem = d.mem := by cases d; rfl
@[simp] theorem Dev.updBoot_stores (f : Boot → Boot) : (d.updBoot f).stores = d.stores := by cases d; rfl
@[simp] theorem Dev.updBoot_out (f : Boot → Boot) : (d.updBoot f).out = d.out := by cases d; rfl
@[simp] theorem Dev.updBoot_raised (f : Boot → Boot) : (d.updBoot f).raised = d.raised := by cases d; rfl
@[simp] theorem Dev.updBoot_board (f : Boot → Boot) : (d.updBoot f).board = d.board := by cases d; rfl
@[simp] theorem Dev.updBoot_span (f : Boot → Boot) : (d.updBoot f).span = d.span := by cases d; rfl
@[simp] theorem Dev.updBoot_sb (f : Boot → Boot) : (d.updBoot f).sb = d.sb := by cases d; rfl
@[simp] theorem Dev.updBoot_released (f : Boot → Boot) : (d.updBoot f).released = d.released := by cases d; rfl
@[simp] theorem Dev.updBoot_ports (f : Boot → Boot) : (d.updBoot f).ports = d.ports := by cases d; rfl
@[simp] theorem Dev.updBoot_pause (f : Boot → Boot) : (d.updBoot f).pause = d.pause := by cases d; rfl
@[simp] theorem Dev.updBoot_mods (f : Boot → Boot) : (d.updBoot f).mods = d.mods := by cases d; rfl
@[simp] theorem Dev.updBoot_pkts (f : Boot → Boot) : (d.updBoot f).pkts = d.pkts := by cases d; rfl
@[simp] theorem Dev.updBoot_marks (f : Boot → Boot) : (d.updBoot f).marks = d.marks := by cases d; rfl
@[simp] theorem Dev.updBoot_draws (f : Boot → Boot) : (d.updBoot f).draws = d.draws := by cases d; rfl
@[simp] theorem Dev.updBoot_ctxs (f : Boot → Boot) : (d.updBoot f).ctxs = d.ctxs := by cases d; rfl
@[simp] theorem Dev.updBoot_pktCores (f : Boot → Boot) : (d.updBoot f).pktCores = d.pktCores := by cases d; rfl
@[simp] theorem Dev.updBoot_fifos (f : Boot → Boot) : (d.updBoot f).fifos = d.fifos := by cases d; rfl
@[simp] theorem Dev.updBoot_thrs (f : Boot → Boot) : (d.updBoot f).thrs = d.thrs := by cases d; rfl
@[simp] theorem Dev.updBoot_safety (f : Boot → Boot) : (d.updBoot f).safety = d.safety := by cases d; rfl
@[simp] theorem Dev.updBoot_pair (f : Boot → Boot) : (d.updBoot f).pair = d.pair := by cases d; rfl
@[simp] theorem Dev.updBoot_tap (f : Boot → Boot) : (d.updBoot f).tap = d.tap := by cases d; rfl
@[simp] theorem Dev.updBoot_trie (f : Boot → Boot) : (d.updBoot f).trie = d.trie := by cases d; rfl
@[simp] theorem Dev.updBoot_heldWrites (f : Boot → Boot) : (d.updBoot f).heldWrites = d.heldWrites := by cases d; rfl

@[simp] theorem Dev.updPair_clk (f : Pair → Pair) : (d.updPair f).clk = d.clk := by cases d; rfl
@[simp] theorem Dev.updPair_csr (f : Pair → Pair) : (d.updPair f).csr = d.csr := by cases d; rfl
@[simp] theorem Dev.updPair_cnt (f : Pair → Pair) : (d.updPair f).cnt = d.cnt := by cases d; rfl
@[simp] theorem Dev.updPair_tly (f : Pair → Pair) : (d.updPair f).tly = d.tly := by cases d; rfl
@[simp] theorem Dev.updPair_mem (f : Pair → Pair) : (d.updPair f).mem = d.mem := by cases d; rfl
@[simp] theorem Dev.updPair_stores (f : Pair → Pair) : (d.updPair f).stores = d.stores := by cases d; rfl
@[simp] theorem Dev.updPair_out (f : Pair → Pair) : (d.updPair f).out = d.out := by cases d; rfl
@[simp] theorem Dev.updPair_raised (f : Pair → Pair) : (d.updPair f).raised = d.raised := by cases d; rfl
@[simp] theorem Dev.updPair_board (f : Pair → Pair) : (d.updPair f).board = d.board := by cases d; rfl
@[simp] theorem Dev.updPair_span (f : Pair → Pair) : (d.updPair f).span = d.span := by cases d; rfl
@[simp] theorem Dev.updPair_sb (f : Pair → Pair) : (d.updPair f).sb = d.sb := by cases d; rfl
@[simp] theorem Dev.updPair_released (f : Pair → Pair) : (d.updPair f).released = d.released := by cases d; rfl
@[simp] theorem Dev.updPair_ports (f : Pair → Pair) : (d.updPair f).ports = d.ports := by cases d; rfl
@[simp] theorem Dev.updPair_pause (f : Pair → Pair) : (d.updPair f).pause = d.pause := by cases d; rfl
@[simp] theorem Dev.updPair_mods (f : Pair → Pair) : (d.updPair f).mods = d.mods := by cases d; rfl
@[simp] theorem Dev.updPair_pkts (f : Pair → Pair) : (d.updPair f).pkts = d.pkts := by cases d; rfl
@[simp] theorem Dev.updPair_marks (f : Pair → Pair) : (d.updPair f).marks = d.marks := by cases d; rfl
@[simp] theorem Dev.updPair_draws (f : Pair → Pair) : (d.updPair f).draws = d.draws := by cases d; rfl
@[simp] theorem Dev.updPair_ctxs (f : Pair → Pair) : (d.updPair f).ctxs = d.ctxs := by cases d; rfl
@[simp] theorem Dev.updPair_pktCores (f : Pair → Pair) : (d.updPair f).pktCores = d.pktCores := by cases d; rfl
@[simp] theorem Dev.updPair_fifos (f : Pair → Pair) : (d.updPair f).fifos = d.fifos := by cases d; rfl
@[simp] theorem Dev.updPair_thrs (f : Pair → Pair) : (d.updPair f).thrs = d.thrs := by cases d; rfl
@[simp] theorem Dev.updPair_boot (f : Pair → Pair) : (d.updPair f).boot = d.boot := by cases d; rfl
@[simp] theorem Dev.updPair_safety (f : Pair → Pair) : (d.updPair f).safety = d.safety := by cases d; rfl
@[simp] theorem Dev.updPair_tap (f : Pair → Pair) : (d.updPair f).tap = d.tap := by cases d; rfl
@[simp] theorem Dev.updPair_trie (f : Pair → Pair) : (d.updPair f).trie = d.trie := by cases d; rfl
@[simp] theorem Dev.updPair_heldWrites (f : Pair → Pair) : (d.updPair f).heldWrites = d.heldWrites := by cases d; rfl

end Sys2Proof.Machine
end

