-- ==== Sys2Proof/Laws/Stavte.lean ====
section
/-! SUPPORT. What the fetch and the issue of an instruction leave alone, and the step of a thread that is ready. -/

namespace Sys2Proof.Machine

open Sys2Proof

/-- The threads of every core, their cores and the clock stand in two devices alike. -/
def Dev.sameThreads (d d' : Dev) : Prop := d'.thrs = d.thrs ∧ d'.ctxs = d.ctxs ∧ d'.clk = d.clk

theorem Dev.sameThreads_rfl (d : Dev) : d.sameThreads d := ⟨rfl, rfl, rfl⟩

theorem Dev.sameThreads_trans {a b c : Dev} (h : a.sameThreads b) (h' : b.sameThreads c) : a.sameThreads c :=
  ⟨h'.1.trans h.1, h'.2.1.trans h.2.1, h'.2.2.trans h.2.2⟩

theorem Dev.storeRaw_threads (d : Dev) (a : Nat) (bs : List Byte) : d.sameThreads (d.storeRaw a bs) := by
  induction bs generalizing d a with
  | nil => exact d.sameThreads_rfl
  | cons b t ih => exact Dev.sameThreads_trans ⟨rfl, rfl, rfl⟩ (ih { d with stores := .byte a b :: d.stores } (a + 1))

theorem Dev.dropLines_threads (d : Dev) (a n : Nat) : d.sameThreads (d.dropLines a n) := by
  unfold Dev.dropLines
  split <;> exact d.sameThreads_rfl

theorem Dev.storeFree_threads (d : Dev) (a : Nat) (bs : List Byte) (m : Bool) : d.sameThreads (d.storeFree a bs m) := by
  unfold Dev.storeFree
  have h := Dev.sameThreads_trans (d.storeRaw_threads a bs) ((d.storeRaw a bs).dropLines_threads a bs.length)
  dsimp only
  split
  · exact h
  · split <;> exact h

theorem Dev.storeMarked_threads (d : Dev) (a : Nat) (bs : List Byte) (m : Bool) : d.sameThreads (d.storeMarked a bs m) := by
  unfold Dev.storeMarked
  split
  · exact d.storeFree_threads a bs m
  · have : ∀ (l : List (Nat × Nat)) (e : Dev), d.sameThreads e →
        d.sameThreads (l.foldl (fun d p => if d.protected p.1 p.2 then d else d.storeFree p.1 (sliceB bs (p.1 - a) p.2) m) e) := by
      intro l
      induction l with
      | nil => exact fun e h => h
      | cons p t ih =>
        intro e h
        refine ih _ ?_
        dsimp only
        split
        · exact h
        · exact Dev.sameThreads_trans h (e.storeFree_threads _ _ _)
    exact this _ _ ⟨by simp, by simp, by simp⟩

theorem Dev.sameThreads_ite {β : Type} {c : Prop} [Decidable c] {d : Dev} {a b : Dev × β} (ha : d.sameThreads a.1) (hb : d.sameThreads b.1) :
    d.sameThreads (if c then a else b).1 := by
  split <;> assumption

/-- A walk of the page tables changes no thread. -/
theorem Dev.walk_threads (d : Dev) (core asid priv : Nat) (kind : AccKind) (va n table : Nat) :
    d.sameThreads (d.walk core asid priv kind va n table).1 := by
  induction n generalizing table with
  | zero => exact d.sameThreads_rfl
  | succ n ih =>
    unfold Dev.walk
    repeat' apply Dev.sameThreads_ite
    all_goals first
      | exact d.sameThreads_rfl
      | exact ih _
      | skip
    generalize withBit _ 6 true = e'
    show d.sameThreads { (if e' = _ then d else d.storeVal _ 8 e') with xlats := _ }
    by_cases h : e' = d.memVal (table + 8 * (va / 2 ^ (12 + 9 * n) % 512)) 8
    · rw [if_pos h]; exact ⟨rfl, rfl, rfl⟩
    · rw [if_neg h]; exact d.storeMarked_threads _ _ _

theorem Dev.translate_threads (d : Dev) (th : Thread) (kind : AccKind) (va : Nat) : d.sameThreads (d.translate th kind va).1 := by
  unfold Dev.translate
  split
  · dsimp only
    repeat' split
    all_goals first
      | exact d.sameThreads_rfl
      | exact d.walk_threads ..
  · exact d.sameThreads_rfl

/-- A fetch that gives a word changes no thread. -/
theorem Dev.fetch_threads {d : Dev} {th : Thread} {pc w : Nat} (h : (d.fetch th pc).2 = .word w) : d.sameThreads (d.fetch th pc).1 := by
  unfold Dev.fetch at h ⊢
  split
  · next hp => simp [hp] at h
  · next hp =>
    simp only [hp, if_false] at h
    cases th with
    | packet c t => dsimp only at h ⊢; split <;> exact d.sameThreads_rfl
    | keystone => dsimp only at h ⊢; split <;> exact d.sameThreads_rfl
    | service c t =>
      have ht := d.translate_threads (.service c t) .fetch pc
      dsimp only at h ⊢
      generalize d.translate (.service c t) .fetch pc = x at h ht ⊢
      obtain ⟨e, y⟩ := x
      cases y <;> dsimp only at h ⊢ <;> try (cases h; done)
      unfold Dev.fetchService at h ⊢
      repeat' split
      all_goals first
        | exact ht
        | (simp_all; done)

theorem Dev.takeSlot_thrs (d : Dev) (c t x : Nat) : (d.takeSlot c t x).thrs = d.thrs := rfl

theorem Dev.takeSlot_ctx (d : Dev) (c t x c' t' : Nat) :
    (d.takeSlot c t x).ctx c' t' = if 16 * c' + t' = 16 * c + t then { d.ctx c t with next := x + 1 } else d.ctx c' t' := by
  show ((d.ctxs).upd {} (16 * c + t) fun k => { k with next := x + 1 }).at {} (16 * c' + t') = _
  rw [NMap.at_upd]; rfl

variable {s : State} {th : Thread} {i : SOp}

/-- A thread that is ready has its registers, its privilege and its other state when the instruction runs. -/
theorem Ready.tregs (h : Ready s th i) : (s.dev.issued th).tregs th = s.dev.tregs th := by
  have hf := Dev.fetch_threads h.2.2.1
  unfold Dev.issued
  cases th with
  | packet c t =>
    show ((Dev.takeSlot _ c.val t.val _).ctx c.val t.val).regs = _
    rw [Dev.takeSlot_ctx, if_pos rfl]
    show ((s.dev.fetch _ _).1.ctxs.at {} _).regs = _
    rw [hf.2.1]; rfl
  | service c t => show ((s.dev.fetch _ _).1.thrs.at _ _).regs = _; rw [hf.1]; rfl
  | keystone => show ((s.dev.fetch _ _).1.thrs.at _ _).regs = _; rw [hf.1]; rfl

theorem Ready.thr (h : Ready s th i) (k : Nat) : (s.dev.issued th).thr k = s.dev.thr k := by
  have hf := Dev.fetch_threads h.2.2.1
  unfold Dev.issued
  cases th with
  | packet c t => show (s.dev.fetch _ _).1.thrs.at _ _ = _; rw [hf.1]; rfl
  | service c t => show (s.dev.fetch _ _).1.thrs.at _ _ = _; rw [hf.1]; rfl
  | keystone => show (s.dev.fetch _ _).1.thrs.at _ _ = _; rw [hf.1]; rfl

theorem Ready.tpriv (h : Ready s th i) : (s.dev.issued th).tpriv th = s.dev.tpriv th := by
  cases th with
  | packet c t => rfl
  | service c t => show ((s.dev.issued _).thr _).tstate % 4 = _; rw [h.thr]; rfl
  | keystone => show ((s.dev.issued _).thr _).tstate % 4 = _; rw [h.thr]; rfl

/-- The issue of an instruction by a thread that is ready for it, whose word decodes to it. -/
theorem Ready.issue (h : Ready s th i) (hd : SOp.decode i.encode = some i) :
    s.dev.issue th i = (s.dev.issued th).runInstr th (s.dev.issueSlot th) i.encode (s.dev.tpc th) i := by
  obtain ⟨_, hm, hf, _, _, _⟩ := h
  unfold Dev.issue Dev.issued Dev.issueSlot
  simp only [hm, not_true, if_false]
  generalize s.dev.fetch th (s.dev.tpc th) = x at hf ⊢
  obtain ⟨e, y⟩ := x
  dsimp only at hf ⊢
  subst hf
  simp only [hd, Option.isNone_some, Bool.false_eq_true, if_false, ne_eq, not_true]
  cases th <;> rfl

/-- Past the checks of profile and privilege an instruction computes a register, or has its effect. -/
theorem Ready.runInstr (h : Ready s th i) (x w pc : Nat) :
    (s.dev.issued th).runInstr th x w pc i = match i.compute (s.dev.tregs th) with
      | some (rd, v) => (s.dev.issued th).leave th rd v (pc + 4)
      | none => (s.dev.issued th).coreInstr th x w pc i := by
  have hp := h.2.2.2.2.2
  unfold Dev.runInstr
  rw [h.tregs, h.tpriv, if_neg (by simp [h.2.2.2.2.1]), if_neg (by omega)]
  all_goals rfl

/-- A command that issues an instruction of a thread that is ready for it: one that computes a register. -/
theorem Ready.on_compute (h : Ready s th i) (hd : SOp.decode i.encode = some i) {rd : Fin 32} {v : DWord} (hc : i.compute (s.dev.tregs th) = some (rd, v)) :
    (s.on fun d => d.issue th i) = .next { s with dev := ((s.dev.issued th).leave th rd v (s.dev.tpc th + 4)).settle s.dev.mem } := by
  rw [on_up h.1, h.issue hd, h.runInstr, hc]

/-- The same for an instruction with another effect. -/
theorem Ready.on_core (h : Ready s th i) (hd : SOp.decode i.encode = some i) (hc : i.compute (s.dev.tregs th) = none) :
    (s.on fun d => d.issue th i) =
      .next { s with dev := ((s.dev.issued th).coreInstr th (s.dev.issueSlot th) i.encode (s.dev.tpc th) i).settle s.dev.mem } := by
  rw [on_up h.1, h.issue hd, h.runInstr, hc]

variable {c : Fin 272} {t : Fin 16} {w : Nat}

/-- A waiting context has its registers and its program counter when it tries its instruction again. -/
theorem Dev.slotted_tregs (d : Dev) (c : Fin 272) (t : Fin 16) : (d.slotted c t).tregs (.packet c t) = d.tregs (.packet c t) := by
  show ((Dev.takeSlot _ c.val t.val _).ctx c.val t.val).regs = _
  rw [Dev.takeSlot_ctx, if_pos rfl]; rfl

theorem Dev.slotted_tpc (d : Dev) (c : Fin 272) (t : Fin 16) : (d.slotted c t).tpc (.packet c t) = d.tpc (.packet c t) := by
  show ((Dev.takeSlot _ c.val t.val _).ctx c.val t.val).pc = _
  rw [Dev.takeSlot_ctx, if_pos rfl]; rfl

/-- A context's program counter once it has taken a slot. -/
theorem Dev.slot_tpc (d : Dev) (c : Fin 272) (t : Fin 16) (x : Nat) : (d.takeSlot c.val t.val x).tpc (.packet c t) = d.tpc (.packet c t) := by
  show ((Dev.takeSlot _ c.val t.val _).ctx c.val t.val).pc = _
  rw [Dev.takeSlot_ctx, if_pos rfl]; rfl

/-- A waiting context tries its instruction again. -/
theorem Waits.retry (h : Waits s c t w i) {kind : SOp → Bool} (hk : kind i = true) :
    s.dev.retry c t kind = (s.dev.slotted c t).packetInstr c t (s.dev.nextSlot c.val t.val) w (s.dev.tpc (.packet c t)) true i := by
  have hb : (s.dev.tblocked (.packet c t)).bind (fun w => (SOp.decode w).map fun i => (w, i)) = some (w, i) := by
    rw [h.2.1]; show (SOp.decode w).map _ = _; rw [h.2.2.1]; rfl
  unfold Dev.retry Dev.slotted
  dsimp only
  rw [hb]
  dsimp only
  rw [if_pos ⟨hk, h.2.2.2⟩]
  unfold Dev.inSlot
  dsimp only
  rw [Dev.slot_tpc]

/-! ### What each kind of instruction is run as -/

section Kinds

variable (d : Dev) (th : Thread) (x w pc : Nat) (rd rs1 rs2 ch : Fin 32)

theorem Dev.coreInstr_branch (op : BranchOp) (o : BitVec 16) : d.coreInstr th x w pc (.branch op rs1 rs2 o) =
    d.leave th 0 0 (if op.holds (gget (d.tregs th) rs1) (gget (d.tregs th) rs2) then jumpTo pc o.toInt else pc + 4) := rfl
theorem Dev.coreInstr_jump (o : BitVec 26) : d.coreInstr th x w pc (.jump o) = d.leave th 0 0 (jumpTo pc o.toInt) := rfl
theorem Dev.coreInstr_jal (o : BitVec 26) : d.coreInstr th x w pc (.jal o) = d.leave th 31 (BitVec.ofNat 64 (pc + 4)) (jumpTo pc o.toInt) := rfl
theorem Dev.coreInstr_jalr (imm : BitVec 16) : d.coreInstr th x w pc (.jalr rd rs1 imm) =
    if effAddr (d.tregs th) rs1 imm % 4 ≠ 0 then d.trap th 3 pc (BitVec.ofNat 64 (effAddr (d.tregs th) rs1 imm))
    else d.leave th rd (BitVec.ofNat 64 (pc + 4)) (effAddr (d.tregs th) rs1 imm) := rfl
theorem Dev.coreInstr_load (op : LoadOp) (imm : BitVec 16) : d.coreInstr th x w pc (.load op rd rs1 imm) = d.memInstr th w pc (.load op rd rs1 imm) none := rfl
theorem Dev.coreInstr_store (op : StoreOp) (imm : BitVec 16) : d.coreInstr th x w pc (.store op rd rs1 imm) = d.memInstr th w pc (.store op rd rs1 imm) none := rfl
theorem Dev.coreInstr_atomic (op : AtomicOp) (wd acq rel : Bool) :
    d.coreInstr th x w pc (.atomic op wd acq rel rd rs1 rs2) = d.memInstr th w pc (.atomic op wd acq rel rd rs1 rs2) none := rfl
theorem Dev.coreInstr_csrr (n : Fin 4096) : d.coreInstr th x w pc (.csrr rd n) = d.csrInstr th x w pc n.val false rd 0 := rfl
theorem Dev.coreInstr_csrw (n : Fin 4096) : d.coreInstr th x w pc (.csrw rs1 n) = d.csrInstr th x w pc n.val true 0 rs1 := rfl
theorem Dev.coreInstr_trap : d.coreInstr th x w pc (.trap rs1) = d.trap th 0x10 pc (gget (d.tregs th) rs1) := rfl
theorem Dev.coreInstr_eret : d.coreInstr th x w pc .eret = d.eret th pc := rfl
theorem Dev.coreInstr_wfe : d.coreInstr th x w pc .wfe = d.wfe th pc := rfl

variable (c : Fin 272) (t : Fin 16) (retry : Bool)

/-- The register values that a channel instruction leaves, or its trap or wait. -/
def chanEnd (c : Fin 272) (t : Fin 16) (w pc : Nat) (d : Dev) (rd : Fin 32) : ChanStep → Dev
  | .done d v => d.leave (.packet c t) rd v (pc + 4)
  | .trap cause ti => d.trap (.packet c t) cause pc (BitVec.ofNat 64 ti)
  | .wait => d.block (.packet c t) w

theorem Dev.coreInstr_fence (b : Fin 32) : d.coreInstr (.packet c t) x w pc (.fence b) = d.packetInstr c t x w pc false (.fence b) := rfl
theorem Dev.coreInstr_fork : d.coreInstr (.packet c t) x w pc (.fork rd rs1 rs2) = d.packetInstr c t x w pc false (.fork rd rs1 rs2) := rfl
theorem Dev.coreInstr_join : d.coreInstr (.packet c t) x w pc (.join rd rs1) = d.packetInstr c t x w pc false (.join rd rs1) := rfl
theorem Dev.coreInstr_quit : d.coreInstr (.packet c t) x w pc (.quit rs1) = d.packetInstr c t x w pc false (.quit rs1) := rfl
theorem Dev.coreInstr_chin : d.coreInstr (.packet c t) x w pc (.chin rd ch) = d.packetInstr c t x w pc false (.chin rd ch) := rfl
theorem Dev.coreInstr_chout : d.coreInstr (.packet c t) x w pc (.chout rd ch) = d.packetInstr c t x w pc false (.chout rd ch) := rfl
theorem Dev.coreInstr_chtest (room : Bool) : d.coreInstr (.packet c t) x w pc (.chtest room rd ch) = d.packetInstr c t x w pc false (.chtest room rd ch) := rfl
theorem Dev.coreInstr_table (op : TblOp) (tb : Fin 64) : d.coreInstr (.packet c t) x w pc (.table op rs1 tb) = d.packetInstr c t x w pc false (.table op rs1 tb) := rfl
theorem Dev.coreInstr_pktld (n : Fin 4) (o : Fin 1024) : d.coreInstr (.packet c t) x w pc (.pktld n rd rs1 o) = d.pktInstr c t pc (d.tregs (.packet c t)) (.pktld n rd rs1 o) := rfl
theorem Dev.coreInstr_pktldm (n : Fin 4) (b : Fin 64) : d.coreInstr (.packet c t) x w pc (.pktldm n rd b) = d.pktInstr c t pc (d.tregs (.packet c t)) (.pktldm n rd b) := rfl
theorem Dev.coreInstr_pktst (n : Fin 4) (o : Fin 1024) : d.coreInstr (.packet c t) x w pc (.pktst n rd rs1 o) = d.pktInstr c t pc (d.tregs (.packet c t)) (.pktst n rd rs1 o) := rfl
theorem Dev.coreInstr_pktstm (n : Fin 4) (o : Fin 1024) : d.coreInstr (.packet c t) x w pc (.pktstm n rd o) = d.pktInstr c t pc (d.tregs (.packet c t)) (.pktstm n rd o) := rfl
theorem Dev.coreInstr_pktlay (o : Fin 1024) : d.coreInstr (.packet c t) x w pc (.pktlay rd o) = d.pktInstr c t pc (d.tregs (.packet c t)) (.pktlay rd o) := rfl
theorem Dev.coreInstr_pktend (op : PktEnd) : d.coreInstr (.packet c t) x w pc (.pktend op) = d.pktInstr c t pc (d.tregs (.packet c t)) (.pktend op) := rfl
theorem Dev.coreInstr_fence_service (c : Fin 52) (t : Fin 2) (b : Fin 32) : d.coreInstr (.service c t) x w pc (.fence b) = d.leave (.service c t) 0 0 (pc + 4) := rfl
theorem Dev.coreInstr_fence_keystone (b : Fin 32) : d.coreInstr .keystone x w pc (.fence b) = d.leave .keystone 0 0 (pc + 4) := rfl

theorem Dev.packetInstr_fence (b : Fin 32) : d.packetInstr c t x w pc retry (.fence b) =
    let e := if retry then d.landStores c.val t.val (fenceSel b.val) else d
    if (e.ctx c.val t.val).stores.any (fenceSel b.val) then e.block (.packet c t) w else e.leave (.packet c t) 0 0 (pc + 4) := rfl
theorem Dev.packetInstr_fork : d.packetInstr c t x w pc retry (.fork rd rs1 rs2) =
    let r := d.fork c.val t.val x (gget (d.tregs (.packet c t)) rs1).toNat (gget (d.tregs (.packet c t)) rs2)
    r.1.leave (.packet c t) rd r.2 (pc + 4) := rfl
theorem Dev.packetInstr_join : d.packetInstr c t x w pc retry (.join rd rs1) =
    match d.join c.val t.val ((gget (d.tregs (.packet c t)) rs1).toNat % 16) with
    | some (d, v) => d.leave (.packet c t) rd v (pc + 4)
    | none => d.block (.packet c t) w := rfl
theorem Dev.packetInstr_quit : d.packetInstr c t x w pc retry (.quit rs1) =
    if t.val = 0 then d.trap (.packet c t) 1 pc (BitVec.ofNat 64 w) else d.endCtx c.val t.val (gget (d.tregs (.packet c t)) rs1) := rfl
theorem Dev.packetInstr_chin : d.packetInstr c t x w pc retry (.chin rd ch) =
    if ch.val = 2 ∧ t.val ≠ 0 then d.trap (.packet c t) 2 pc (BitVec.ofNat 64 w) else chanEnd c t w pc d rd (d.chin c.val t.val x ch.val) := by
  show (if _ then _ else _) = _
  cases d.chin c.val t.val x ch.val <;> rfl
theorem Dev.packetInstr_chout : d.packetInstr c t x w pc retry (.chout rd ch) =
    chanEnd c t w pc d 0 (d.chout c.val t.val x ch.val (gget (d.tregs (.packet c t)) rd)) := by
  show (match d.chout c.val t.val x ch.val (gget (d.tregs (.packet c t)) rd) with
    | .done d v => d.leave (.packet c t) 0 v (pc + 4)
    | .trap cause ti => d.trap (.packet c t) cause pc (BitVec.ofNat 64 ti)
    | .wait => d.block (.packet c t) w) = _
  cases d.chout c.val t.val x ch.val (gget (d.tregs (.packet c t)) rd) <;> rfl
theorem Dev.packetInstr_chtest (room : Bool) : d.packetInstr c t x w pc retry (.chtest room rd ch) =
    if ch.val = 2 ∧ t.val ≠ 0 then d.trap (.packet c t) 2 pc (BitVec.ofNat 64 w) else chanEnd c t w pc d rd (d.chtest c.val t.val x ch.val room) := by
  show (if _ then _ else _) = _
  cases d.chtest c.val t.val x ch.val room <;> rfl
theorem Dev.packetInstr_table (op : TblOp) (tb : Fin 64) : d.packetInstr c t x w pc retry (.table op rs1 tb) =
    d.tableInstr c t w pc (gget (d.tregs (.packet c t)) rs1).toNat op tb.val := rfl

/-- CHIN on a bound channel: the head of its FIFO, once it has been there for a cycle. -/
theorem Dev.chin_bound (c t x ch : Nat) (h : 4 ≤ ch) : d.chin c t x ch = match d.bound c t ch with
    | some (f, false) =>
      match d.fifo (coreBlock c) f with
      | [] => .wait
      | w :: r => if w.2 < x then .done (d.setFifo (coreBlock c) f r) w.1 else .wait
    | _ => .trap 0xE ch := by
  unfold Dev.chin; split <;> first | omega | rfl

/-- CHTEST on a bound channel. -/
theorem Dev.chtest_bound (c t x ch : Nat) (room : Bool) (h : 4 ≤ ch) : d.chtest c t x ch room = match d.bound c t ch with
    | some (f, _) => .done d (BitVec.ofNat 64 (if room then 4 - (d.fifo (coreBlock c) f).length else readable (d.fifo (coreBlock c) f) x))
    | none => .trap 0xE ch := by
  unfold Dev.chtest; dsimp only; split <;> first | omega | rfl

end Kinds

/-! ### Memory accesses of the threads whose accesses are not translated -/

section Accesses

variable {d : Dev} {th : Thread} {va n : Nat}

/-- A packet core's accesses and the Keystone's are not translated (R330). -/
theorem Dev.translate_plain (ht : ∀ c t, th ≠ .service c t) (kind : AccKind) : d.translate th kind va = (d, .at_ va) := by
  cases th with
  | service c t => exact absurd rfl (ht c t)
  | packet c t => rfl
  | keystone => rfl

/-- Memory that an access reaches is in no host window. -/
theorem Dev.target_mem {wr : Bool} (h : d.target th va n wr = .mem) : inHostWindow va = false := by
  have hp : ∀ k, d.plainTarget k va wr = .mem → inHostWindow va = false := by
    intro k h
    unfold Dev.plainTarget at h
    split at h
    · cases h
    · split at h
      · cases h
      · split at h
        · split at h <;> cases h
        · next hh => simpa using hh
  cases th with
  | service c t => exact hp _ h
  | keystone => exact hp _ h
  | packet c t =>
    unfold Dev.target at h
    dsimp only at h
    split at h
    · split at h <;> cases h
    · split at h
      · exact hp _ h
      · cases h

/-- A load that does not hold its thread (R312, R336). -/
theorem Dev.load_issue (ht : ∀ c t, th ≠ .service c t) (ha : va % n = 0) {tg : Target} (hg : d.target th va n false = tg) (hn : tg ≠ .nowhere)
    (hw : d.mustWait th va tg = false) : d.load th va n none = d.loadNow th va va n tg := by
  simp only [Dev.load, Dev.translate_plain ht, xfault, Xres.addr, hg, ha, hn, hw]
  simp

/-- A store into local memory (R340). -/
theorem Dev.storeOut_local (ht : ∀ c t, th ≠ .service c t) (ha : va % n = 0) {key : Nat} (hg : d.target th va n true = .local_ key) (v : Nat) :
    d.storeOut th va n v none = .done (d.storeFree key (leBytes n v)) 0 := by
  simp only [Dev.storeOut, Dev.translate_plain ht, xfault, Xres.addr, hg, ha]
  simp

/-- A packet core's store into memory joins the outstanding ones while fewer than 8 are (R336). -/
theorem Dev.storeOut_packet {c : Fin 272} {t : Fin 16} (ha : va % n = 0) (hg : d.target (.packet c t) va n true = .mem) (v : Nat) (hl : (d.ctx c.val t.val).stores.length < 8) :
    d.storeOut (.packet c t) va n v none = .done (d.updCtx c.val t.val fun k => { k with stores := k.stores ++ [(va, n, v)] }) 0 := by
  simp only [Dev.storeOut, Dev.translate_plain (th := .packet c t) (by intro _ _ h; cases h), xfault, Xres.addr, hg, ha, Dev.askPages, Dev.target_mem hg]
  simp [Nat.not_le.2 hl]

/-- The Keystone's store into memory lands at once. -/
theorem Dev.storeOut_keystone (ha : va % n = 0) (hg : d.target .keystone va n true = .mem) (v : Nat) (hh : d.held va = false) :
    d.storeOut .keystone va n v none = .done ((d.touchPages 4 va n).store va (leBytes n v)) 0 := by
  simp only [Dev.storeOut, Dev.translate_plain (th := .keystone) (by intro _ _ h; cases h), xfault, Xres.addr, hg, ha, Dev.storeHeld, hh, Dev.hostReady, Dev.target_mem hg]
  simp [Dev.storeNow, Dev.cached, Dev.countPage, regionOf]

/-- An atomic in local memory (R314). -/
theorem Dev.atomic_local (ht : ∀ c t, th ≠ .service c t) (ha : va % n = 0) (hb : atomicBarred th va = false) {key : Nat} (hg : d.target th va n true = .local_ key)
    (op : AtomicOp) (x y : Nat) : d.atomic th op va n x y none = d.atomicMem th op va key n x y true := by
  simp only [Dev.atomic, Dev.translate_plain ht, xfault, Xres.addr, hg, ha, hb]
  simp

/-- The Keystone's atomic in memory (R314). -/
theorem Dev.atomic_keystone (ha : va % n = 0) (hb : atomicBarred .keystone va = false) (hg : d.target .keystone va n true = .mem) (hh : d.held va = false)
    (op : AtomicOp) (x y : Nat) : d.atomic .keystone op va n x y none = d.atomicMem .keystone op va va n x y false := by
  simp only [Dev.atomic, Dev.translate_plain (th := .keystone) (by intro _ _ h; cases h), xfault, Xres.addr, hg, ha, hb, hh, isPacket]
  simp

end Accesses

end Sys2Proof.Machine
end

