-- ==== Sys2Proof/WellFormed.lean ====
section
/-! DEFINITION. Well-formed commands: the limits that the manual sets on what a command can carry, beyond the ranges that the operand types hold already. -/

namespace Sys2Proof

/-- No element of a list stands in it twice. -/
def noneTwice {α : Type} [BEq α] : List α → Bool
  | [] => true
  | x :: t => !t.contains x && noneTwice t

/-- Writes that meet in one cycle come from different writers (R16, R17). -/
def writesOk (ws : List Write) : Bool := noneTwice (ws.map fun w => w.writer)

/-- An internal address has 48 bits (R482). -/
def addrOk (a : Nat) : Bool := decide (a < 2 ^ 48)

/-- A list's length lies between two bounds. -/
def lengthOk {α : Type} (lo hi : Nat) (l : List α) : Bool := decide (lo ≤ l.length ∧ l.length ≤ hi)

/-- A bitfield lies within 64 bits (R310). -/
def fieldOk (lsb widthM1 : Fin 64) : Bool := decide (lsb.val + widthM1.val < 64)

/-- Cells of each kind on the chip (R425); kind 0 is none. -/
def cellsOfKind (kind : Fin 10) : Nat := [0, 272, 52, 680, 52, 16, 20, 68, 10, 16].getD kind.val 0

/-- A cell number of its kind. -/
def cellOk (kind : Fin 10) (cell : Fin 1024) : Bool := decide (cell.val < cellsOfKind kind)

/-- Serial numbers have 64 bits (R171, R463). -/
def beatOk (h : Heartbeat) : Bool := decide (h.serial < 2 ^ 64)

/-- Whether a command is well formed. -/
def Instr.wf (i : Instr) : Bool :=
  match i with
  | .pwrgdRise _ _ _ => true
  | .pwrgdLowPulse => true
  | .vretLoss => true
  | .perstAssert _ => true
  | .perstDeassert _ => true
  | .registerWrite addr cycle => addrOk addr && writesOk cycle.writes && noneTwice cycle.readers
  | .counterReadClear addr readers => addrOk addr && noneTwice readers
  | .sidebandRegisterWrite _ _ addr _ => addrOk addr
  | .sidebandWriteCommit others => writesOk others
  | .sidebandRegisterRead _ _ addr => addrOk addr
  | .spanBoundary _ => true
  | .spanCfgWrite ws => writesOk ws
  | .timeCounterStep ws => writesOk ws
  | .syncChange c => (match c with
    | .write ws => writesOk ws
    | .announce _ v => decide (v.priority1 < 256 ∧ v.quality < 2 ^ 32 ∧ v.priority2 < 256 ∧ v.identity < 2 ^ 64 ∧ v.steps < 65536)
    | _ => true)
  | .ppsInEdge => true
  | .ppsOutSecond => true
  | .laneMapWrite ws => writesOk ws
  | .portEnable _ ws => writesOk ws
  | .portDisable _ ws => writesOk ws
  | .portCfgChange _ ws => writesOk ws
  | .anResolved _ _ _ => true
  | .anNoCommonMode _ => true
  | .anBasePageTimeout _ => true
  | .trainingComplete _ => true
  | .trainingFail _ => true
  | .trialAligned _ => true
  | .trialTimeout _ => true
  | .pcsAlignmentLoss _ => true
  | .remoteFaultReceived _ => true
  | .remoteFaultCleared _ => true
  | .frameReceiveStart _ head => lengthOk 1 256 head
  | .cellArrival _ data _ => lengthOk 1 256 data
  | .frameReceiveEnd _ => true
  | .controlFrameReceive _ _ => true
  | .pauseHoldExpiry _ _ => true
  | .pauseRefresh _ _ => true
  | .pauseFrameSend _ => true
  | .pfcModeChange _ ws => writesOk ws
  | .pfcTxEnChange _ ws => writesOk ws
  | .pauseWatermarkWrite _ _ _ ws => writesOk ws
  | .stormStateEntry _ _ => true
  | .pauseGapExpiry _ _ => true
  | .stormStateExit _ _ => true
  | .watchdogCfgWrite _ ws => writesOk ws
  | .watchdogDisable _ ws => writesOk ws
  | .gclCommit _ ws => writesOk ws
  | .gclConfigChange _ => true
  | .gateEntryChange _ => true
  | .gateCycleStart _ => true
  | .frameTransmitStart _ => true
  | .frameTransmitEnd _ => true
  | .modCmdGo _ _ ws => writesOk ws
  | .modCmdDone _ _ _ => true
  | .modStretchTimeout _ => true
  | .modBusRecovery _ _ => true
  | .modRecoveryWaitExpiry _ _ => true
  | .pipelineSlotGrant _ => true
  | .recircWaitExpiry _ => true
  | .packetParse _ => true
  | .stageLookup _ _ => true
  | .deferFetchComplete _ => true
  | .passExit _ => true
  | .parseBankCommit _ ws => writesOk ws
  | .tableCfgWrite _ _ _ ws => writesOk ws
  | .lookup _ ws => writesOk ws
  | .insert _ ws => writesOk ws
  | .delete _ ws => writesOk ws
  | .tmpl _ ws => writesOk ws
  | .cread _ ws => writesOk ws
  | .tread _ ws => writesOk ws
  | .fwd _ _ => true
  | .drop _ _ => true
  | .mirror _ _ => true
  | .setmd _ _ => true
  | .police _ _ => true
  | .count _ _ => true
  | .encap _ _ => true
  | .decap _ _ => true
  | .attachSa _ _ => true
  | .deliverHost _ _ => true
  | .deliverPool _ _ => true
  | .recirc _ _ => true
  | .next _ _ => true
  | .setctx _ _ => true
  | .tuqDoorbell ws => writesOk ws
  | .tuqNop => true
  | .tuqAdd => true
  | .tuqDel => true
  | .tuqCommit => true
  | .tuqSetnh => true
  | .trieNodeFree => true
  | .learnRequest _ => true
  | .learnInsert _ => true
  | .sweeperVisit _ _ => true
  | .sweepRoundStart _ _ => true
  | .tnodeWrite _ _ _ ws => writesOk ws
  | .policerWrite _ _ _ ws => writesOk ws
  | .hostPortEnable _ ws => writesOk ws
  | .hostLinkUp _ _ _ => true
  | .hostLinkDown _ _ => true
  | .configRequest _ _ _ => true
  | .vfEnable _ _ _ => true
  | .functionEnable _ => true
  | .funcResWrite _ _ ws => writesOk ws
  | .hostMemoryRead _ _ _ _ => true
  | .hostMemoryWrite _ _ _ data _ => lengthOk 1 4096 data
  | .hostCompletionReceive _ _ _ => true
  | .completionTimeout _ => true
  | .atsInvalidate _ _ _ _ => true
  | .atsInvalidateComplete _ => true
  | .pageRequestResponse _ _ _ _ => true
  | .msixUnmask _ _ => true
  | .flrInitiate _ => true
  | .flrComplete _ => true
  | .doorbell _ _ _ _ => true
  | .eqDoorbell _ _ _ => true
  | .queueServiceTurn _ _ => true
  | .tx _ _ => true
  | .txSeg _ _ => true
  | .rx _ _ desc => lengthOk 64 64 desc
  | .copy _ _ => true
  | .fill _ _ => true
  | .rxFrameDelivery _ _ => true
  | .jobCompletion _ _ _ desc => lengthOk 64 64 desc
  | .cqArmWrite _ _ ws => writesOk ws
  | .eventWrite => true
  | .qpStop _ _ ws => writesOk ws
  | .chainStart _ _ ws => writesOk ws
  | .chainResume _ _ ws => writesOk ws
  | .chainHalt _ _ ws => writesOk ws
  | .chainEntryDone _ _ _ _ => true
  | .rmSend _ _ _ => true
  | .rmSendImm _ _ _ => true
  | .rmWrite _ _ _ => true
  | .rmWriteImm _ _ _ => true
  | .rmRead _ _ _ => true
  | .rmCmpSwap _ _ _ => true
  | .rmFetchAdd _ _ _ => true
  | .rmAtomicWrite _ _ => true
  | .rmFlush _ _ => true
  | .rdmaRequestReceive _ _ _ => true
  | .rdmaResponseReceive _ => true
  | .mpDataReceive _ _ _ => true
  | .cnpReceive _ => true
  | .ackTimeout _ _ => true
  | .rnrTimerExpiry _ => true
  | .odpPageResolved _ _ _ => true
  | .localPageFaultTimeout _ => true
  | .qpWrite _ ws => writesOk ws
  | .qpRead _ ws => writesOk ws
  | .keyWrite _ ws => writesOk ws
  | .keyRead _ ws => writesOk ws
  | .keyInval _ ws => writesOk ws
  | .keyInvalComplete _ => true
  | .fabricCommandComplete _ _ _ _ => true
  | .pathDown _ ws => writesOk ws
  | .nvmeCcEnable _ _ => true
  | .nvmeCcDisable _ _ => true
  | .nvmeShutdown _ _ => true
  | .nvmeShutdownComplete _ => true
  | .nvmeDoorbell _ _ _ => true
  | .nvmeCreateIoSq _ sqe => lengthOk 64 64 sqe
  | .nvmeCreateIoCq _ sqe => lengthOk 64 64 sqe
  | .nvmeDeleteIoSq _ sqe => lengthOk 64 64 sqe
  | .nvmeDeleteIoCq _ sqe => lengthOk 64 64 sqe
  | .nvmeIdentify _ sqe => lengthOk 64 64 sqe
  | .nvmeGetLogPage _ sqe _ => lengthOk 64 64 sqe
  | .nvmeGetFeatures _ sqe => lengthOk 64 64 sqe
  | .nvmeSetFeatures _ sqe => lengthOk 64 64 sqe
  | .nvmeAbort _ sqe => lengthOk 64 64 sqe
  | .nvmeAsyncEventRequest _ sqe => lengthOk 64 64 sqe
  | .nvmeRead _ _ sqe _ => lengthOk 64 64 sqe
  | .nvmeWrite _ _ sqe _ _ => lengthOk 64 64 sqe
  | .nvmeFlush _ _ sqe => lengthOk 64 64 sqe
  | .nvmeWriteZeroes _ _ sqe => lengthOk 64 64 sqe
  | .nvmeDatasetManagement _ _ cmd => lengthOk 64 64 cmd.sqe
  | .cbfIssue _ ws => writesOk ws
  | .cbfDoneClear _ ws => writesOk ws
  | .cbfRead _ => true
  | .cbfWrite _ _ _ => true
  | .cbfFlush _ => true
  | .cbfCommandEnd _ _ => true
  | .idleReqSet _ ws => writesOk ws
  | .idleReqClear _ ws => writesOk ws
  | .idleAck _ => true
  | .tlsSeal _ _ => true
  | .tlsOpen _ _ => true
  | .saWrite ws => writesOk ws
  | .saRead ws => writesOk ws
  | .saDelete ws => writesOk ws
  | .modexp _ _ _ => true
  | .ecPubkey _ _ _ => true
  | .ecdsaSign _ _ _ => true
  | .ecdsaVerify _ _ _ => true
  | .ecdh _ _ _ => true
  | .ed25519Pubkey _ _ _ => true
  | .ed25519Sign _ _ _ => true
  | .ed25519Verify _ _ _ => true
  | .x25519 _ _ _ => true
  | .mlKemKeygen _ _ _ => true
  | .mlKemEncaps _ _ _ => true
  | .mlKemDecaps _ _ _ => true
  | .mlDsaKeygen _ _ _ => true
  | .mlDsaSign _ _ _ => true
  | .mlDsaVerify _ _ _ => true
  | .pkOperationComplete _ => true
  | .cvuAssignWrite _ ws => writesOk ws
  | .cvuFeed _ _ ws => writesOk ws
  | .cvuReset _ ws => writesOk ws
  | .cvuMsg _ ws => writesOk ws
  | .cvuSeal _ ws => writesOk ws
  | .check _ ws => writesOk ws
  | .add _ _ _ _ => true
  | .sub _ _ _ _ => true
  | .and _ _ _ _ => true
  | .or _ _ _ _ => true
  | .xor _ _ _ _ => true
  | .andn _ _ _ _ => true
  | .sll _ _ _ _ => true
  | .srl _ _ _ _ => true
  | .sra _ _ _ _ => true
  | .ror _ _ _ _ => true
  | .slt _ _ _ _ => true
  | .sltu _ _ _ _ => true
  | .min _ _ _ _ => true
  | .max _ _ _ _ => true
  | .minu _ _ _ _ => true
  | .maxu _ _ _ _ => true
  | .clz _ _ _ => true
  | .ctz _ _ _ => true
  | .popc _ _ _ => true
  | .bswap _ _ _ => true
  | .mul _ _ _ _ => true
  | .mulh _ _ _ _ => true
  | .mulhu _ _ _ _ => true
  | .div _ _ _ _ => true
  | .divu _ _ _ _ => true
  | .rem _ _ _ _ => true
  | .remu _ _ _ _ => true
  | .addi _ _ _ _ => true
  | .andi _ _ _ _ => true
  | .ori _ _ _ _ => true
  | .xori _ _ _ _ => true
  | .slti _ _ _ _ => true
  | .sltiu _ _ _ _ => true
  | .shiSll _ _ _ _ => true
  | .shiSrl _ _ _ _ => true
  | .shiSra _ _ _ _ => true
  | .shiRor _ _ _ _ => true
  | .lui _ _ _ => true
  | .shori _ _ _ _ => true
  | .lb _ _ _ _ => true
  | .lbu _ _ _ _ => true
  | .lh _ _ _ _ => true
  | .lhu _ _ _ _ => true
  | .lw _ _ _ _ => true
  | .lwu _ _ _ _ => true
  | .ld _ _ _ _ => true
  | .sb _ _ _ _ => true
  | .sh _ _ _ _ => true
  | .sw _ _ _ _ => true
  | .sd _ _ _ _ => true
  | .memoryAccessComplete _ _ => true
  | .beq _ _ _ _ => true
  | .bne _ _ _ _ => true
  | .blt _ _ _ _ => true
  | .bge _ _ _ _ => true
  | .bltu _ _ _ _ => true
  | .bgeu _ _ _ _ => true
  | .j _ _ => true
  | .jal _ _ => true
  | .jalr _ _ _ _ => true
  | .cas _ _ _ _ _ _ _ => true
  | .fadd _ _ _ _ _ _ _ => true
  | .swap _ _ _ _ _ _ _ => true
  | .bfx _ _ _ _ lsb widthM1 => fieldOk lsb widthM1
  | .bfi _ _ _ lsb widthM1 => fieldOk lsb widthM1
  | .crc _ _ _ _ _ _ => true
  | .mix _ _ _ _ => true
  | .fence _ _ => true
  | .fenceComplete _ _ => true
  | .fork _ _ _ _ => true
  | .join _ _ _ => true
  | .joinUnblock _ _ => true
  | .quit _ _ => true
  | .chin _ _ _ => true
  | .chinUnblock _ _ => true
  | .chout _ _ _ => true
  | .choutUnblock _ _ => true
  | .chtest _ _ _ _ => true
  | .pktld _ _ _ _ _ => true
  | .pktldm _ _ _ _ => true
  | .pktst _ _ _ _ _ => true
  | .pktstm _ _ _ _ => true
  | .pktlay _ _ _ => true
  | .pktfwd _ => true
  | .pktdrop _ => true
  | .pktrecirc _ => true
  | .tlookup _ _ _ => true
  | .tinsert _ _ _ => true
  | .tdelete _ _ _ => true
  | .tableOpResult _ _ => true
  | .tableOpUnblock _ _ => true
  | .csrr _ _ _ => true
  | .csrw _ _ _ => true
  | .xlinv _ _ => true
  | .tickcmpWrite _ _ => true
  | .ctxcmdRestart _ _ => true
  | .ctxcmdKill _ _ => true
  | .chbindBind _ _ => true
  | .chbindUnbind _ _ => true
  | .trap _ _ => true
  | .eret _ => true
  | .wfe _ => true
  | .wfeWake _ => true
  | .interruptTaken _ => true
  | .timerCompare _ => true
  | .sccMsgWrite _ ws => writesOk ws
  | .coreRun _ _ ws => writesOk ws
  | .coreStop _ _ ws => writesOk ws
  | .sfaultAckTimeout _ => true
  | .serviceCoreRelease _ ws => writesOk ws
  | .threadSwitch _ => true
  | .dispatch _ => true
  | .directoryRequest _ _ _ _ => true
  | .moveStart _ => true
  | .moveSwitch _ => true
  | .moveDrain _ => true
  | .flowBucketMoveStart _ => true
  | .flowBucketSwitch _ _ => true
  | .flowBucketHoldExpiry _ _ => true
  | .qpctxWorkMove _ _ _ => true
  | .pin ws => writesOk ws
  | .unpin ws => writesOk ws
  | .hint ws => writesOk ws
  | .unhint ws => writesOk ws
  | .query ws => writesOk ws
  | .allocPage ws => writesOk ws
  | .freePage ws => writesOk ws
  | .freezeWrite ws => writesOk ws
  | .fbmapPoolWrite _ _ ws => writesOk ws
  | .actionProgramSwap _ ws => writesOk ws
  | .swapComplete _ => true
  | .poolSwap _ ws => writesOk ws
  | .bootAttemptStart _ => true
  | .release => true
  | .bootAttemptFail => true
  | .bootRetryWaitExpiry => true
  | .bootPrefWrite ws => writesOk ws
  | .deepSleepEntry _ => true
  | .sleepRecordWrite _ => true
  | .sleepAbort => true
  | .installSc ws _ _ => writesOk ws
  | .installPc ws _ _ => writesOk ws
  | .installAct ws _ _ => writesOk ws
  | .installParse ws _ _ => writesOk ws
  | .loaderCommandComplete => true
  | .pldmRequestUpdate => true
  | .pldmActivateFirmware => true
  | .pldmCancelUpdate => true
  | .pldmMonitoring _ => true
  | .getMeasurements _ => true
  | .eccErrorDetected kind cell _ _ _ => cellOk kind cell
  | .parityErrorDetected kind cell _ => cellOk kind cell
  | .lockstepMiscompare => true
  | .lookoutWatchdogExpiry => true
  | .clockMonitorTrip _ => true
  | .voltageMonitorTrip _ _ => true
  | .thermalTrip _ _ => true
  | .chipRebootTimer => true
  | .safeStateReset ws => writesOk ws
  | .spareSubstitutionComplete => true
  | .regionRestore _ ws => writesOk ws
  | .regionRejoin _ _ => true
  | .scrubVisit kind cell _ _ _ => cellOk kind cell
  | .selftestRound _ => true
  | .bistComplete kind cell _ _ _ => cellOk kind cell
  | .flumeHeartbeatSend _ => true
  | .flumeHeartbeatReceive _ beat => beatOk beat
  | .flumeRefreshTimeout => true
  | .peerHeartbeatTimeout _ _ => true
  | .peerActiveChange _ => true
  | .commitApply _ _ _ _ => true
  | .commitAck _ => true
  | .intentRecord _ => true
  | .intentAck _ => true
  | .intentTimeout => true
  | .promotion => true
  | .electTimerExpiry => true
  | .bulkCopyComplete _ => true
  | .promote ws => writesOk ws
  | .switch ws => writesOk ws
  | .cascadeReplicationApply _ _ _ => true
  | .flumeRemoteFrameReceive _ _ _ _ md _ => lengthOk 64 64 md
  | .tallyBaseWrite _ ws => writesOk ws
  | .bypass => true
  | .idcode => true
  | .samplePreload _ _ => true
  | .extest => true
  | .clamp => true
  | .highz => true
  | .flumePortUp _ _ => true
  | .flumeLaneLoss _ => true
  | .dramTrainingComplete => true
  | .pldmComponentTransfer _ => true
  | .spdmSecureSession _ => true

end Sys2Proof
end

