-- ==== Sys2Proof/Tests/Slice0.lean ====
section
/-! SUPPORT. Tests: every hypothesis of a statement is met somewhere, ill-formed commands are refused, and words of the spec decode to its instructions. -/

namespace Sys2Proof.Tests

open Sys2Proof Sys2Proof.Machine

set_option maxRecDepth 8000
set_option Elab.async false
set_option linter.unusedVariables false

/-- The state after reset with another device. -/
def st (d : Dev) : State := { State.reset with dev := d }

/-- The device after reset. -/
def d0 : Dev := {}

/-- A device whose factory image runs and follows a master. -/
def facDev : Dev := { d0 with released := true, timeAware := { best := some (0, ⟨128, 5, 128, 7, 0⟩) } }

/-- A write by the Keystone. -/
def ks (v : Nat) : Write := ⟨.keystone, BitVec.ofNat 32 v⟩

/-- A pause frame (or, with opcode 0x101, a priority one) of 64 bytes with its FCS. -/
def pauseBytes (op : Nat) : List Byte :=
  let f := beBytes 6 0x0180C2000001 ++ beBytes 6 2 ++ beBytes 2 0x8808 ++ beBytes 2 op ++ beBytes 2 1 ++ beBytes 42 7
  f ++ fcsOf f

/-- The PAUSE frame that port 0 sends with the quanta of reset. -/
def pauseOut : List Byte := d0.pauseFrame 0 (d0.fld F.MAC_PAUSE_QUANTA_QUANTA 0)

/-- A port that is up and has a frame in an egress queue, and the choice that it makes. -/
def txDev : Dev :=
  { d0.setFld F.MAC_PORT_STAT_UP 0 0 1 with
    pkts := [(1, { bytes := List.replicate 60 0, place := .queue 0 0 })], egressQ := [(0, [1])] }

def txChoice : Dev × Option (Nat × Nat × Nat × Bool × Bool) :=
  (((txDev.advanceTo (txDev.port 0).wireBusy).each (List.range 8) fun q d => (d.settleHold 0 q).stormTest 0 q)).portChoice 0

/-- A device with one packet at a place of the pipeline of region 0. -/
def pipeDev (p : Place) : Dev := { d0 with pkts := [(1, { bytes := List.replicate 60 0, place := p })], pipeQ := [(0, [1])] }

/-- A device with a packet waiting for a slot of region 0. -/
def waitDev (src : Nat) : Dev := { d0 with pkts := [(1, { place := .input src })], inputQ := [(src, [1])] }

/-- A device whose trie update queue holds one entry with an operation code. -/
def tuqDev (op : Nat) : Dev :=
  { (d0.setFld F.FWD_TUQ_CTL_EN 0 0 1).setFld F.FWD_TUQ_PI_PI 0 0 1 with mem := if op = 0 then [] else [(d0.tuqBase, BitVec.ofNat 8 op)] }

/-- A device with a table of region 0 whose buckets exist and whose stash holds an entry, and with learn requests. -/
def learnDev (bport : Nat) (static : Bool) (x : Learn) : Dev :=
  { d0 with
    tbls := [(0, { stash := [(0, some { key := [1], adata := bport + natOf static * 2 ^ 63 })] })]
    tblPlaces := [(0, some {})]
    learnReqs := [(0, [x])], learnIns := [(0, [x])] }

/-- A table that is full. -/
def fullDev (x : Learn) : Dev :=
  { d0.setFld F.CLS_TBL_NB_K 0 0 0 with
    tbls := [(0, { ways := (List.range 4).map fun i => (i, some { key := [0, BitVec.ofNat 8 i], record := i })
                   stash := (List.range 32).map fun i => (i, some { key := [0, 0, BitVec.ofNat 8 i], record := 4 + i }) })]
    tblPlaces := [(0, some {})], learnIns := [(0, [x])] }

/-- A device after release whose function 0 may be reached and may issue, with queue pairs, event queues, vectors, QP numbers and keys. -/
def hostDev : Dev :=
  let d := { d0 with released := true }
  let d := (d.setFld F.HIF_LINK_STAT_UP 0 0 1).setFld F.HIF_FUNC_RES_QP_CNT 0 0 4
  let d := (d.setFld F.HIF_FUNC_RES_EQ_CNT 0 0 4).setFld F.HIF_FUNC_RES_VEC_CNT 0 0 4
  let d := (d.setFld F.RMA_FUNC_QPN_BASE 0 0 2).setFld F.RMA_FUNC_QPN_CNT 0 0 8
  let d := (d.setFld F.RMA_FUNC_KEY_BASE 0 0 1).setFld F.RMA_FUNC_KEY_CNT 0 0 8
  let d := (d.setFld F.RMA_CTX_CFG_QP_MAX 0 0 100).setFld F.RMA_CTX_CFG_KEY_MAX 0 0 100
  ((d.setCfg 0 .busMasterEnable 1).setCfg 0 .memorySpaceEnable 1).setCfg 0 .msixEnable 1

/-- The same with queue pair 1 and event queue 1 enabled. -/
def qpDev : Dev := (hostDev.setFld F.QCP_CTL_EN 1 0 1).setFld F.EQC_CTL_EN 1 0 1

/-- The same with a job of queue pair 1 whose descriptor has an opcode, a length and a QP number. -/
def jobOf (op len qpn : Nat) (st : JobAt) (rq : Bool) : Job :=
  { qp := 1, rq := rq, state := st, desc := leBytes 4 op ++ leBytes 4 len ++ leBytes 24 0 ++ leBytes 28 qpn ++ leBytes 4 1 }

def jobDev (op len : Nat) (st : JobAt) (rq : Bool := false) : Dev := { qpDev with jobs := [(7, jobOf op len 5 st rq)] }

/-- A transport QP in RTS on the channel that is queue pair 1. -/
def qpImage (mp : Bool) : List Byte := [3, 1] ++ leBytes 126 (2 ^ 72 + natOf mp * 2 ^ 144 + 16 * 2 ^ 160)

/-- The same with transport QP 5 in RTS on that queue pair. -/
def rdmaDev (mp : Bool) (x : Dev) : Dev := { x with qpctxs := [(5, { img := qpImage mp })] }

/-- A device with a transport packet at the head of a transport engine's queue, and the packet. -/
def engineDev (mp : Bool) (ib : List Byte) : Dev :=
  let d := rdmaDev mp qpDev
  let (eth, ip, udp) := (d.qctx 5).outer 0 (ib.length + 4)
  { d with pkts := [(1, { bytes := eth ++ ip ++ udp ++ ib ++ icrc ip udp ib, place := .pool 63 })], poolQ := [(63, [1])] }

/-- A transport packet of an opcode for QP 5 with PSN 0. -/
def ibOf (op : Nat) : List Byte := bth op 0 5 true 0 ++ List.replicate 28 0

/-- A multipath packet for QP 5 that carries a read response. -/
def mpBytes : List Byte := bth 0xE0 0 5 true 0 ++ beBytes 1 0xE0 ++ List.replicate 27 0

/-- A submission queue that holds one entry. -/
def sq (cq : Nat) : NvmeQ := { size := 4, tail := 1, cq := cq }

/-- An entry of a submission queue: opcode, namespace, and dwords 10 to 12. -/
def sqe (op nsid dw10 dw11 dw12 : Nat) : List Byte :=
  leBytes 4 op ++ leBytes 4 nsid ++ leBytes 32 0 ++ leBytes 4 dw10 ++ leBytes 4 dw11 ++ leBytes 4 dw12 ++ leBytes 12 0

/-- A device whose function 0 has a ready NVMe controller and a compact block function, both on namespace 3, of 4096-byte blocks, with identifier 1. -/
def nvDev : Dev :=
  let d := (hostDev.setFld F.STO_FUNC_NVME_EN 0 0 1).setFld F.STO_FUNC_IOQ_MAX 0 0 8
  let d := (d.setFld F.STO_FUNC_CBF_EN 0 0 1).setFld F.STO_FUNC_CBF_NS 0 0 3
  let d := (d.setFld F.STO_NS_VALID 0 3 1).setFld F.STO_NS_NSID 0 3 1
  let d := (d.setFld F.STO_NS_SIZE_LO 0 3 1000).setFld F.STO_NS_BS4K 0 3 1
  { d with nvmes := [(0, { cc := 1, rdy := true, sqs := [(0, some (sq 0)), (1, some (sq 1))], cqs := [(0, some (sq 0)), (1, some (sq 1)), (2, some (sq 2))] })] }

/-- A compact block function whose oldest tag has a slot of an opcode and a number of blocks. -/
def cbfDev (op blocks : Nat) : Dev :=
  { nvDev with cbfs := [(0, { order := [4], slots := [(4, leBytes 4 op ++ leBytes 4 blocks ++ leBytes 56 0)] })] }

/-- A chain engine of region 0 at an entry of an operation. -/
def chainDev (engine op : Nat) (finished : Bool) : Dev :=
  { d0.setChnState engine 1 with chains := [(engine, { entry := leBytes 64 op, finished := finished })] }

/-- A copy engine of region 0 at a copy from a host window whose read has not been sent. -/
def windowCopy : Dev :=
  let d := (((hostDev.setFld F.HIF_OTT_VALID 0 0 1).setFld F.HIF_OTT_LOG2 0 0 12).setChnState 3 1)
  { d with chains := [(3, { entry := leBytes 4 4 ++ leBytes 4 8 ++ leBytes 8 0x80000000000 ++ leBytes 8 0 ++ leBytes 8 0x1000000000 ++ leBytes 32 0 })] }

/-- What a run of an entry comes to. -/
theorem waits_of {e : ChainEnd} (h : (match e with | .waits _ => true | .ends _ _ _ => false) = true) : ∃ d, e = .waits d := by
  cases e with
  | waits d => exact ⟨d, rfl⟩
  | ends d st n => exact absurd h Bool.false_ne_true

theorem ends_of {e : ChainEnd} (h : (match e with | .waits _ => false | .ends _ _ _ => true) = true) : ∃ d st n, e = .ends d st n := by
  cases e with
  | waits d => exact absurd h Bool.false_ne_true
  | ends d st n => exact ⟨d, st, n, rfl⟩

/-- A public-key engine's chain at an entry with an operation, its parameter, its size and the length of its operands. -/
def pkDev (op param size len : Nat) : Dev :=
  let e := leBytes 4 0x40 ++ leBytes 4 len ++ leBytes 8 0x1000000000 ++ leBytes 1 op ++ leBytes 1 param ++ leBytes 2 size ++ leBytes 4 0 ++ leBytes 8 0x1000001000 ++ leBytes 32 0
  { d0.setChnState 4 1 with chains := [(4, { entry := e })] }

/-- A word in memory, the bytes that memory lists anyway left out. -/
def wordCells (a w : Nat) : List Host.Cell := ((List.range 4).map fun i => (a + i, BitVec.ofNat 8 (w / 256 ^ i))).filter fun c => c.2 != Memory.blank c.1

/-- Packet core 0 with an instruction at the program counter of one context. -/
def pcDev (t : Nat) (i : SOp) (f : Ctx → Ctx := id) : Dev :=
  { d0.setCoreState 0 1 with mem := wordCells (codeBase 0) i.encode, boot := { pcCode := [(0, 0, 65536)], dram := true }, ctxs := [(t, f { st := 1 })] }

/-- Service core 0 with an instruction at the program counter of thread 0. -/
def scDev (i : SOp) (f : Thr → Thr := id) : Dev :=
  { d0.setFld F.SCC_CORE_STATE 0 0 1 with mem := wordCells 0x100000000 i.encode, boot := { scCode := [(0x100000000, 0x1000)] }, thrs := [(0, f { pc := 0x100000000 })] }

/-- The Keystone with an instruction at its program counter. -/
def ksDev (i : SOp) (f : Thr → Thr := id) : Dev := { d0 with mem := wordCells 0 i.encode, thrs := [(104, f { tstate := 2 })] }

/-- General registers with one value in g2 and another in g3. -/
def regs (a b : Nat) : List DWord := (List.range 32).map fun i => if i = 2 then BitVec.ofNat 64 a else if i = 3 then BitVec.ofNat 64 b else 0

/-- A device with a packet queued in pool 62 of region 0 and a member of that pool that is ready. -/
def dispDev : Dev :=
  let d := (d0.setCoreState 1 1).setFld F.PCB_POOLMAP_MEMBER 0 17 1
  { d.setFld F.PCB_POOLMAP_POOL 0 17 62 with pkts := [(9, { place := .pool 62 })], poolQ := [(62, [9])], ctxs := [(17, { st := 1 })] }

/-- A device whose retained store holds a complete sleep record but for its MAC. -/
def sleepRec : Dev :=
  { d0 with stores := (d0.storeRaw retained (leBytes 4 0x52545331 ++ [1])).stores }

theorem memBytes_eq (d e : Dev) (a n : Nat) (hm : d.mem = e.mem) (hs : d.stores = e.stores) : d.memBytes a n = e.memBytes a n := by
  simp only [Dev.memBytes, Dev.memByte, hm, hs]

theorem storeRaw_csr (d : Dev) (a : Nat) (bs : List Byte) : ∃ l, d.storeRaw a bs = { d with stores := l } := by
  induction bs generalizing d a with
  | nil => exact ⟨_, rfl⟩
  | cons b t ih => obtain ⟨l, h⟩ := ih { d with stores := .byte a b :: d.stores } (a + 1); exact ⟨l, h⟩

theorem with_stores (d e : Dev) (h : ∃ l, e = { d with stores := l }) : ({ d with stores := e.stores } : Dev) = e := by
  obtain ⟨l, rfl⟩ := h; rfl

/-- The same with its MAC. -/
def fastDev : Dev := { sleepRec with stores := (sleepRec.storeRaw (retained + 0xFC0) (hmac384 sleepKey sleepRec.retCovered)).stores }

theorem fast_bytes (a n : Nat) : fastDev.memBytes a n = (sleepRec.storeRaw (retained + 0xFC0) (hmac384 sleepKey sleepRec.retCovered)).memBytes a n := by
  rw [fastDev, with_stores _ _ (storeRaw_csr _ _ _)]

theorem fast_below (a n : Nat) (h : a + n ≤ retained + 0xFC0) : fastDev.memBytes a n = sleepRec.memBytes a n :=
  (fast_bytes a n).trans (Dev.storeRaw_memBytes_of_le _ _ _ _ _ h)

theorem fast_covered : fastDev.retCovered = sleepRec.retCovered := by
  unfold Dev.retCovered
  rw [fast_below _ _ (by decide), fast_below _ _ (by decide), fast_below _ _ (by decide)]

theorem fastPath_test (d : Dev) (hm : d.mem = fastDev.mem) (hs : d.stores = fastDev.stores) (he : d.boot = fastDev.boot) : d.fastPath 0 = true := by
  have h (a n) : d.memBytes a n = fastDev.memBytes a n := memBytes_eq _ _ _ _ hm hs
  have hc : d.retCovered = sleepRec.retCovered := by rw [← fast_covered]; simp only [Dev.retCovered, h]
  have hmac : d.memBytes (retained + 0xFC0) 48 = hmac384 sleepKey sleepRec.retCovered := by
    rw [h, fast_bytes]
    have := Dev.storeRaw_memBytes_same sleepRec (retained + 0xFC0) (hmac384 sleepKey sleepRec.retCovered)
    rwa [hmac384_length] at this
  have hb : d.boot = sleepRec.boot := he
  unfold Dev.fastPath
  rw [hc, hmac, hb]
  simp only [Dev.memVal, h]
  rw [fast_below _ _ (by decide), fast_below _ _ (by decide), fast_below _ _ (by decide)]
  simp only [beq_self_eq_true, Bool.and_true]
  decide +kernel

theorem setFault_mem (d : Dev) (b : Bool) : (d.setFault b).mem = d.mem ∧ (d.setFault b).stores = d.stores ∧ (d.setFault b).boot = d.boot := by
  unfold Dev.setFault; split <;> exact ⟨rfl, rfl, rfl⟩

theorem showLatent_mem (d : Dev) : d.showLatent.mem = d.mem ∧ d.showLatent.stores = d.stores ∧ d.showLatent.boot = d.boot := by
  simp only [Dev.showLatent, setFault_mem, Dev.setChip, Dev.setFld_mem, Dev.setFld_stores, Dev.setFld_boot, and_self]

theorem showProofs_mem (d : Dev) :
    (d.showProofs 4095).mem = d.mem ∧ (d.showProofs 4095).stores = d.stores ∧ (d.showProofs 4095).boot = d.boot := by
  have h : ¬ (4095 % 4096 ≠ 4095 ∧ ¬ d.flag F.ERR_STAT_LATENT = true) := fun x => x.1 rfl
  simp only [Dev.showProofs, if_neg h, showLatent_mem, Dev.setChip, Dev.setFld_mem, Dev.setFld_stores, Dev.setFld_boot, and_self]

theorem chosen (d : Dev) (hm : d.mem = fastDev.mem) (hs : d.stores = fastDev.stores) : d.bankChosen = 0 := by
  have h (a n) : d.memBytes a n = fastDev.memBytes a n := memBytes_eq _ _ _ _ hm hs
  simp only [Dev.bankChosen, Dev.attempts, Dev.retValid, Dev.pref, Dev.memVal, h]
  rw [fast_below _ _ (by decide), fast_below _ _ (by decide), fast_below _ _ (by decide)]
  decide +kernel

theorem hyp_fastPath : ∃ (s : State) (proofs : Fin 4096), Up s ∧ s.dev.released = false ∧ s.dev.boot.attempt = false ∧ s.dev.boot.updating = false ∧ s.dev.boot.waitFrom = none ∧ s.dev.safety.keystoneHeld = false ∧ let d0 := s.dev.showProofs proofs.val; let b := d0.bankChosen; d0.fastPath b = true := by
  have hp := showProofs_mem fastDev
  refine ⟨{ State.reset with dev := fastDev }, ⟨4095, by decide⟩, by decide +kernel, by decide +kernel, by decide +kernel, by decide +kernel, by decide +kernel, by decide +kernel, ?_⟩
  show (fastDev.showProofs 4095).fastPath (fastDev.showProofs 4095).bankChosen = true
  rw [chosen _ hp.1 hp.2.1]
  exact fastPath_test _ hp.1 hp.2.1 hp.2.2

/-- Every page of placed space, allocated. -/
def allPages (n : Nat) : NMap (Option Parcel) := (List.range n).map fun p => (fwpageId p, some {})

theorem get_pages (l : List Nat) (n : Nat) (h : n ∈ l) (f : Nat → Nat) (v : Option Parcel) :
    Sparse.get (fun _ => none) (l.map fun p => (f p, v)) (f n) = v := by
  induction l with
  | nil => exact absurd h (by simp)
  | cons a t ih =>
    simp only [List.map_cons, Sparse.get]
    by_cases he : f n = f a
    · rw [if_pos he]
    · rw [if_neg he]; exact ih ((List.mem_cons.1 h).resolve_left fun x => he (by rw [x]))

theorem freePage_none (d : Dev) (N : Nat) (hN : 12582912 ≤ N) (hd : d.parcels = allPages N) (fuel n : Nat) : d.freePage fuel n = none := by
  induction fuel generalizing n with
  | zero => rfl
  | succ fuel ih =>
    rw [Dev.freePage]
    by_cases h : n < 12582912
    · have hg : d.parcels.at none (fwpageId n) = some {} := by
        rw [hd]; exact get_pages _ _ (List.mem_range.2 (Nat.lt_of_lt_of_le h hN)) _ _
      have hp : d.parcel (fwpageId n) = some {} := by simp only [Dev.parcel, hg]
      rw [if_pos h, hp, if_neg (by simp)]; exact ih _
    · rw [if_neg h]

/-- A device in which every page is allocated. -/
def pagesDev (n : Nat) : Dev := { d0 with parcels := allPages n }

theorem pagesDev_none (n : Nat) (hn : 12582912 ≤ n) (k : RegKey) (v : Word) (fuel m : Nat) : ((pagesDev n).plainWrite k v).freePage fuel m = none :=
  freePage_none _ n hn rfl fuel m

/-- A write that nothing stands against wins. -/
theorem alone_word {d : Dev} {p : Writer → Bool} {a : Nat} {w : Write} (h : d.sbTop a = none) (hp : p w.writer = true) : d.arbitrate p a [w] = (d, some w) := by
  simp [Dev.arbitrate, h, Dev.topWrite, hp, Dev.each]

/-- A command that acts while power is good has a next state. -/
theorem nexts {c : Instr} {s : State} {f : Dev → Dev} (hx : Sys2Proof.Machine.exec c s = s.on f) (h : Up s) :
    Sys2Proof.Machine.exec c s = .next { s with dev := (f s.dev).settle s.dev.mem } := by
  rw [hx, on_up h]

theorem steps {s : State} (h : Up s) (hp : s.pending = []) : step s = .next { s with dev := (s.dev.landWrites.advance 1).settle s.dev.mem } := by
  obtain ⟨d, p⟩ := s; subst hp; exact on_up h (fun d => d.landWrites.advance 1)

theorem nexts_word {s : State} {addr : Nat} {ws : List Write} (h : Up s) :
    Sys2Proof.Machine.exec (.registerWrite addr ⟨ws, []⟩) s = .next { s with dev := (
      let d := s.dev.settleMessage.readers (addr - addr % 4) []
      if d.reach (addr - addr % 4) = .nowhere then d.each ws fun w d => d.status w.writer (addr - addr % 4) 5 else d.writeWord (addr - addr % 4) ws).settle s.dev.mem } := by
  simp only [exec, execRegisterWrite]; exact on_up h _

/-! ### The hypotheses of every clause of every statement are met -/

theorem test_hyp_SpanAndTimeCommandsComplete :
    (∃ (s : State), Up s ∧ s.dev.flag F.MAC_TC_CTL_PPS_IN_EN = true) ∧
    (∃ (s : State), Up s ∧ s.dev.flag F.MAC_TC_CTL_PPS_OUT_EN = true ∧ s.dev.ppsOut = true) ∧
    (∃ (s : State), Up s ∧ s.dev.flag F.MAC_TC_CTL_PPS_OUT_EN = true ∧ s.dev.ppsOut = false) ∧
    (∃ (s : State) (ws : List Write) (w : Write) (d : Dev), Takes s ⟨.SPAN_CFG, 0, 0, 0⟩ ws w d ∧ 10 ≤ F.SPAN_CFG_LEN_US.ofWord w.value ∧ F.SPAN_CFG_LEN_US.ofWord w.value ≤ 1000) ∧
    (∃ (s : State) (ws : List Write) (w : Write) (d : Dev), Takes s ⟨.SPAN_CFG, 0, 0, 0⟩ ws w d ∧ (F.SPAN_CFG_LEN_US.ofWord w.value < 10 ∨ 1000 < F.SPAN_CFG_LEN_US.ofWord w.value)) ∧
    (∃ (s : State) (ws : List Write) (w : Write) (d : Dev), Takes s ⟨.MAC_TC_CTL, 0, 0, 0⟩ ws w d ∧ let e := d.plainWrite ⟨.MAC_TC_CTL, 0, 0, 0⟩ w.value; e.flag F.MAC_TC_CTL_SYNC ≠ d.flag F.MAC_TC_CTL_SYNC ∧ (d.ppsOut = false ∨ e.flag F.MAC_TC_CTL_PPS_OUT_EN = true)) ∧
    (∃ (s : State) (ws : List Write) (w : Write) (d : Dev), Takes s ⟨.MAC_TC_CTL, 0, 0, 0⟩ ws w d ∧ let e := d.plainWrite ⟨.MAC_TC_CTL, 0, 0, 0⟩ w.value; e.flag F.MAC_TC_CTL_SYNC ≠ d.flag F.MAC_TC_CTL_SYNC ∧ d.ppsOut = true ∧ e.flag F.MAC_TC_CTL_PPS_OUT_EN = false) ∧
    (∃ (s : State), Up s ∧ s.dev.factoryRuns = true ∧ s.dev.timeAware.best ≠ none ∧ s.dev.flag F.MAC_TC_CTL_SYNC = true) ∧
    (∃ (s : State) (word : Fin 2) (ws : List Write) (w : Write) (d : Dev), Takes s ⟨.TLY_BASE, 0, 0, word.val⟩ ws w d ∧ d.flag F.TLY_BASE_EN = false ∧ (d.plainWrite ⟨.TLY_BASE, 0, 0, word.val⟩ w.value).inDram (d.plainWrite ⟨.TLY_BASE, 0, 0, word.val⟩ w.value).tlyBase 0x8000000 = true) ∧
    (∃ (s : State) (ws : List Write) (w : Write) (d : Dev), Takes s ⟨.MAC_TC_ADJ, 0, 0, 1⟩ ws w d) ∧
    (∃ (s : State), Up s) := ⟨
  ⟨st (d0.setFld F.MAC_TC_CTL_PPS_IN_EN 0 0 1), by decide +kernel⟩,
  ⟨st ({ (d0.setFld F.MAC_TC_CTL_PPS_OUT_EN 0 0 1) with ppsOut := true }), by decide +kernel⟩,
  ⟨st (d0.setFld F.MAC_TC_CTL_PPS_OUT_EN 0 0 1), by decide +kernel⟩,
  ⟨st d0, [ks 10], ks 10, d0, takes_alone (by decide +kernel), by decide +kernel⟩,
  ⟨st d0, [ks 1001], ks 1001, d0, takes_alone (by decide +kernel), by decide +kernel⟩,
  ⟨st d0, [ks 0x80000000], ks 0x80000000, d0, takes_alone (by decide +kernel), by decide +kernel⟩,
  ⟨st ({ d0 with ppsOut := true }.setFld F.MAC_TC_CTL_PPS_OUT_EN 0 0 1), [ks 0x80000000], ks 0x80000000, ({ d0 with ppsOut := true }.setFld F.MAC_TC_CTL_PPS_OUT_EN 0 0 1), takes_alone (by decide +kernel), by decide +kernel⟩,
  ⟨st (facDev.setFld F.MAC_TC_CTL_SYNC 0 0 1), by decide +kernel⟩,
  ⟨st d0, 1, [ks 0x10], ks 0x10, d0, takes_alone (by decide +kernel), by decide +kernel⟩,
  ⟨st d0, [ks 0], ks 0, d0, takes_alone (by decide +kernel)⟩,
  ⟨st d0, by decide +kernel⟩⟩

theorem test_hyp_PortCommandsComplete :
    (∃ (s : State) (ws : List Write) (w : Write) (d : Dev), Takes s ⟨.MAC_LANE_MAP, 0, 0, 0⟩ ws w d ∧ mapValid w.value.toNat = true) ∧
    (∃ (s : State) (ws : List Write) (w : Write) (d : Dev), Takes s ⟨.MAC_LANE_MAP, 0, 0, 0⟩ ws w d ∧ mapValid w.value.toNat = false) ∧
    (∃ (s : State) (lane : Fin 16) (ws : List Write) (w : Write) (d : Dev), s.dev.isPort lane.val = true ∧ Takes s ⟨.MAC_PORT_CFG, lane.val, 0, 0⟩ ws w d ∧ let k : RegKey := ⟨.MAC_PORT_CFG, lane.val, 0, 0⟩; let v := d.wouldBe k w.value; 64 ≤ F.MAC_PORT_CFG_MAX_LEN.ofWord v ∧ F.MAC_PORT_CFG_LANE_RATE.ofWord v ≤ 5 ∧ v.toNat / 2 ^ 24 ≠ (d.word k).toNat / 2 ^ 24) ∧
    (∃ (s : State) (lane : Fin 16) (ws : List Write) (w : Write) (d : Dev), s.dev.isPort lane.val = true ∧ Takes s ⟨.MAC_PORT_CFG, lane.val, 0, 0⟩ ws w d ∧ let k : RegKey := ⟨.MAC_PORT_CFG, lane.val, 0, 0⟩; let v := d.wouldBe k w.value; 64 ≤ F.MAC_PORT_CFG_MAX_LEN.ofWord v ∧ F.MAC_PORT_CFG_LANE_RATE.ofWord v ≤ 5 ∧ v.toNat / 2 ^ 24 = (d.word k).toNat / 2 ^ 24) ∧
    (∃ (s : State) (port : Fin 16) (rates : List (Fin 6)) (fecs : List (Fin 6 × Fin 4)) (rate fec : Nat), Up s ∧ s.dev.portState port.val = 1 ∧ s.dev.resolveMode port.val (rates.map Fin.val) (fecs.map fun e => (e.1.val, e.2.val)) = some (rate, fec)) ∧
    (∃ (s : State) (port : Fin 16), Up s ∧ s.dev.portState port.val = 1) ∧
    (∃ (s : State) (port : Fin 16), Up s ∧ s.dev.portState port.val = 2) ∧
    (∃ (s : State) (port : Fin 16), Up s ∧ s.dev.portState port.val = 2 ∧ (s.dev.port port.val).held = false ∧ (s.dev.port port.val).remoteFault = false) ∧
    (∃ (s : State) (port : Fin 16), Up s ∧ s.dev.portState port.val = 2 ∧ (s.dev.port port.val).held = false ∧ (s.dev.port port.val).remoteFault = true) ∧
    (∃ (s : State) (port : Fin 16), Up s ∧ s.dev.portState port.val = 3 ∧ (s.dev.port port.val).held = false ∧ s.dev.clk.now ≤ (s.dev.port port.val).trialFrom + cyclesOfMs 500 ∧ (s.dev.port port.val).remoteFault = false) ∧
    (∃ (s : State) (port : Fin 16), Up s ∧ s.dev.portState port.val = 3 ∧ (s.dev.port port.val).held = false) ∧
    (∃ (s : State) (port : Fin 16), Up s ∧ s.dev.portState port.val = 4) ∧
    (∃ (s : State) (port : Fin 16), Up s ∧ (s.dev.updPort port.val fun x => { x with remoteFault := true }).portUp port.val = true) ∧
    (∃ (s : State) (port : Fin 16), Up s ∧ ((s.dev.updPort port.val fun x => { x with remoteFault := false }).port port.val).held = true) := ⟨
  ⟨st d0, [ks 0], ks 0, d0, takes_alone (by decide +kernel), by decide +kernel⟩,
  ⟨st d0, [ks 1], ks 1, d0, takes_alone (by decide +kernel), by decide +kernel⟩,
  ⟨st d0, 0, [ks (2 ^ 31 + 64)], ks (2 ^ 31 + 64), d0, by decide +kernel, takes_alone (by decide +kernel), by decide +kernel⟩,
  ⟨st d0, 0, [ks 0xC00005F2], ks 0xC00005F2, d0, by decide +kernel, takes_alone (by decide +kernel), by decide +kernel⟩,
  ⟨st ((d0.setFld F.MAC_PORT_STAT_STATE 0 0 1).setFld F.MAC_PORT_CFG_LANE_RATE 0 0 3), 0, [5, 3, 2], [(5, 0), (3, 0), (2, 1)], 3, 0, by decide +kernel⟩,
  ⟨st (d0.setFld F.MAC_PORT_STAT_STATE 0 0 1), 0, by decide +kernel⟩,
  ⟨st (d0.setFld F.MAC_PORT_STAT_STATE 0 0 2), 0, by decide +kernel⟩,
  ⟨st (d0.setFld F.MAC_PORT_STAT_STATE 0 0 2), 0, by decide +kernel⟩,
  ⟨st ((d0.setFld F.MAC_PORT_STAT_STATE 0 0 2).updPort 0 fun x => { x with remoteFault := true }), 0, by decide +kernel⟩,
  ⟨st (d0.setFld F.MAC_PORT_STAT_STATE 0 0 3), 0, by decide +kernel⟩,
  ⟨st (d0.setFld F.MAC_PORT_STAT_STATE 0 0 3), 0, by decide +kernel⟩,
  ⟨st (d0.setFld F.MAC_PORT_STAT_STATE 0 0 4), 0, by decide +kernel⟩,
  ⟨st ((d0.setFld F.MAC_PORT_STAT_UP 0 0 1)), 0, by decide +kernel⟩,
  ⟨st (d0.updPort 0 fun x => { x with held := true }), 0, by decide +kernel⟩⟩

theorem test_hyp_PauseCommandsComplete :
    (∃ (s : State) (port : Fin 16) (f : List Byte) (t : List (List Byte)), Up s ∧ s.dev.portUp port.val = true ∧ s.dev.mute = false ∧ (s.dev.port port.val).txPkt = none ∧ (s.dev.port port.val).control = f :: t) ∧
    (∃ (s : State) (port : Fin 16) (f : List Byte), Up s ∧ s.dev.portUp port.val = true ∧ s.dev.mute = false ∧ (s.dev.port port.val).txPkt = none ∧ (s.dev.port port.val).control = [] ∧ s.dev.dueFrame port.val (s.dev.pfcMode port.val) ≠ none ∧ (s.dev.advanceTo (s.dev.port port.val).wireBusy).dueFrame port.val ((s.dev.advanceTo (s.dev.port port.val).wireBusy).pfcMode port.val) = some f) ∧
    (∃ (s : State) (port : Fin 16) (prio : Fin 8), Up s ∧ (s.dev.pauseOf port.val prio.val).xoff = true) ∧
    (∃ (s : State) (port : Fin 16) (ws : List Write) (w : Write) (d : Dev), s.dev.isPort port.val = true ∧ Takes s ⟨.MAC_PFC_CFG, port.val, 0, 0⟩ ws w d ∧ F.MAC_PFC_CFG_MODE.ofWord (d.wouldBe ⟨.MAC_PFC_CFG, port.val, 0, 0⟩ w.value) ≠ 3) ∧
    (∃ (s : State) (port : Fin 16) (prio : Fin 8) (ws : List Write) (w : Write) (d : Dev), s.dev.isPort port.val = true ∧ Takes s ⟨.MAC_PAUSE_HWM, port.val, prio.val, 0⟩ ws w d) ∧
    (∃ (s : State) (port : Fin 16) (prio : Fin 8) (ws : List Write) (w : Write) (d : Dev), s.dev.isPort port.val = true ∧ Takes s ⟨.MAC_PAUSE_LWM, port.val, prio.val, 0⟩ ws w d ∧ F.MAC_PAUSE_LWM_CELLS.ofWord (d.wouldBe ⟨.MAC_PAUSE_LWM, port.val, prio.val, 0⟩ w.value) < d.fld F.MAC_PAUSE_HWM_CELLS port.val prio.val) ∧
    (∃ (s : State) (port : Fin 16) (ws : List Write) (w : Write) (d : Dev), s.dev.isPort port.val = true ∧ Takes s ⟨.MAC_WD_CFG, port.val, 0, 0⟩ ws w d ∧ let k : RegKey := ⟨.MAC_WD_CFG, port.val, 0, 0⟩; let v := d.wouldBe k w.value; (1 ≤ F.MAC_WD_CFG_TREC_MS.ofWord v ∧ F.MAC_WD_CFG_TREC_MS.ofWord v ≤ 10000) ∧ (1 ≤ F.MAC_WD_CFG_TWD_MS.ofWord v ∧ F.MAC_WD_CFG_TWD_MS.ofWord v ≤ 10000) ∧ (d.setWord k v).flag F.MAC_WD_CFG_EN port.val = true) ∧
    (∃ (s : State) (port : Fin 16) (ws : List Write) (w : Write) (d : Dev), s.dev.isPort port.val = true ∧ Takes s ⟨.MAC_WD_CFG, port.val, 0, 0⟩ ws w d ∧ let k : RegKey := ⟨.MAC_WD_CFG, port.val, 0, 0⟩; let v := d.wouldBe k w.value; (1 ≤ F.MAC_WD_CFG_TREC_MS.ofWord v ∧ F.MAC_WD_CFG_TREC_MS.ofWord v ≤ 10000) ∧ (1 ≤ F.MAC_WD_CFG_TWD_MS.ofWord v ∧ F.MAC_WD_CFG_TWD_MS.ofWord v ≤ 10000) ∧ (d.setWord k v).flag F.MAC_WD_CFG_EN port.val = false) ∧
    (∃ (s : State) (port : Fin 16) (frame : List Byte) (t : Nat × Nat) (l : List (Nat × Nat)), Up s ∧ s.dev.portUp port.val = true ∧ beVal (sliceB frame 12 2) = 0x8808 ∧ s.dev.passive = false ∧ fcsGood frame = true ∧ 64 ≤ frame.length ∧ frame.length ≤ s.dev.fld F.MAC_PORT_CFG_MAX_LEN port.val ∧ let op := beVal (sliceB frame 14 2); let d := ((s.dev.countGoodRx port.val frame).onlyIf (op == 1) fun d => d.portCount port.val 21).onlyIf (op == 0x101) fun d => d.each ((List.range 8).filter fun q => bitOf (beVal (sliceB frame 16 2)) q) fun q d => d.portCount port.val (23 + q); d.pauseNamed port.val frame = t :: l) ∧
    (∃ (s : State) (port : Fin 16) (frame : List Byte), Up s ∧ s.dev.portUp port.val = true ∧ beVal (sliceB frame 12 2) = 0x8808 ∧ s.dev.passive = false ∧ fcsGood frame = true ∧ 64 ≤ frame.length ∧ frame.length ≤ s.dev.fld F.MAC_PORT_CFG_MAX_LEN port.val ∧ let op := beVal (sliceB frame 14 2); let d := ((s.dev.countGoodRx port.val frame).onlyIf (op == 1) fun d => d.portCount port.val 21).onlyIf (op == 0x101) fun d => d.each ((List.range 8).filter fun q => bitOf (beVal (sliceB frame 16 2)) q) fun q d => d.portCount port.val (23 + q); d.pauseNamed port.val frame = []) ∧
    (∃ (s : State) (port : Fin 16) (prio : Fin 8) (e : Nat), Up s ∧ (s.dev.pauseOf port.val prio.val).hold = some e) ∧
    (∃ (s : State) (port : Fin 16) (prio : Fin 8) (g : Nat), Up s ∧ (s.dev.pauseOf port.val prio.val).gap = some g) ∧
    (∃ (s : State) (port : Fin 16) (prio : Fin 8) (e t : Nat), Up s ∧ (s.dev.pauseOf port.val prio.val).hold = some e ∧ (s.dev.pauseOf port.val prio.val).timed = some t ∧ max (t + s.dev.twd port.val) s.dev.clk.now < e) ∧
    (∃ (s : State) (port : Fin 16) (prio : Fin 8), Up s ∧ (s.dev.pauseOf port.val prio.val).storm = true) := ⟨
  ⟨st ((d0.setFld F.MAC_PORT_STAT_UP 0 0 1).updPort 0 fun x => { x with control := [[0]] }), 0, [0], [], by decide +kernel⟩,
  ⟨st (((d0.setFld F.MAC_PORT_STAT_UP 0 0 1).setFld F.MAC_PFC_CFG_MODE 0 0 1).updPause 0 0 fun x => { x with due := some true }), 0, pauseOut, by decide +kernel⟩,
  ⟨st (d0.updPause 0 0 fun x => { x with xoff := true }), 0, 0, by decide +kernel⟩,
  ⟨st d0, 0, [ks 0x80000000], ks 0x80000000, d0, by decide +kernel, takes_alone (by decide +kernel), by decide +kernel⟩,
  ⟨st d0, 0, 0, [ks 100], ks 100, d0, by decide +kernel, takes_alone (by decide +kernel)⟩,
  ⟨st ((d0.setFld F.MAC_PAUSE_HWM_CELLS 0 0 100)), 0, 0, [ks 99], ks 99, ((d0.setFld F.MAC_PAUSE_HWM_CELLS 0 0 100)), by decide +kernel, takes_alone (by decide +kernel), by decide +kernel⟩,
  ⟨st d0, 0, [ks 0xA7100001], ks 0xA7100001, d0, by decide +kernel, takes_alone (by decide +kernel), by decide +kernel⟩,
  ⟨st d0, 0, [ks 0x00012710], ks 0x00012710, d0, by decide +kernel, takes_alone (by decide +kernel), by decide +kernel⟩,
  ⟨st (((d0.setFld F.MAC_PORT_STAT_UP 0 0 1).setFld F.MAC_PFC_CFG_MODE 0 0 1).setFld F.MAC_PFC_CFG_RX_EN 0 0 1), 0, pauseBytes 1, (0, 1), [(1, 1), (2, 1), (3, 1), (4, 1), (5, 1), (6, 1), (7, 1)], by decide +kernel⟩,
  ⟨st ((d0.setFld F.MAC_PORT_STAT_UP 0 0 1)), 0, pauseBytes 1, by decide +kernel⟩,
  ⟨st (d0.updPause 0 0 fun x => { x with hold := some 5 }), 0, 0, 5, by decide +kernel⟩,
  ⟨st (d0.updPause 0 0 fun x => { x with gap := some 5 }), 0, 0, 5, by decide +kernel⟩,
  ⟨st (d0.updPause 0 0 fun x => { x with hold := some (10 ^ 9), timed := some 0 }), 0, 0, 10 ^ 9, 0, by decide +kernel⟩,
  ⟨st (d0.updPause 0 0 fun x => { x with storm := true }), 0, 0, by decide +kernel⟩⟩

theorem test_hyp_GateCommandsComplete :
    (∃ (s : State) (port : Fin 16) (ws : List Write) (w : Write) (d : Dev), s.dev.isPort port.val = true ∧ Takes s ⟨.MAC_GCL_CTL, port.val, 0, 0⟩ ws w d ∧ bitOf w.value.toNat 31 = true ∧ 1 ≤ F.MAC_GCL_CTL_LEN.ofWord (d.wouldBe ⟨.MAC_GCL_CTL, port.val, 0, 0⟩ w.value) ∧ F.MAC_GCL_CTL_LEN.ofWord (d.wouldBe ⟨.MAC_GCL_CTL, port.val, 0, 0⟩ w.value) ≤ 1024) ∧
    (∃ (s : State) (port : Fin 16) (g : GateList), Up s ∧ (s.dev.port port.val).gatePend = some g ∧ g.valid = true) ∧
    (∃ (s : State) (port : Fin 16) (g : GateList), Up s ∧ (s.dev.port port.val).gatePend = some g ∧ g.valid = false) ∧
    (∃ (s : State) (port : Fin 16) (g : GateList) (e : Nat × Nat), Up s ∧ (s.dev.port port.val).gateOper = some g ∧ g.entries[(s.dev.port port.val).gateIdx + 1]? = some e ∧ (s.dev.port port.val).gateNext < (s.dev.port port.val).gateCycle) ∧
    (∃ (s : State) (port : Fin 16), Up s ∧ (s.dev.port port.val).gateOper.isSome = true) := ⟨
  ⟨st d0, 0, [ks 0x80000400], ks 0x80000400, d0, by decide +kernel, takes_alone (by decide +kernel), by decide +kernel⟩,
  ⟨st ({ d0 with ports := [(0, { gatePend := some ⟨[(64, 255)], 1000, 0, 0⟩ })] }), 0, ⟨[(64, 255)], 1000, 0, 0⟩, by decide +kernel⟩,
  ⟨st ({ d0 with ports := [(0, { gatePend := some ⟨[(64, 255)], 999, 0, 0⟩ })] }), 0, ⟨[(64, 255)], 999, 0, 0⟩, by decide +kernel⟩,
  ⟨st ({ d0 with ports := [(0, { gateOper := some ⟨[(64, 255), (64, 0)], 1000, 0, 0⟩, gateCycle := 1000 })] }), 0, ⟨[(64, 255), (64, 0)], 1000, 0, 0⟩, (64, 0), by decide +kernel⟩,
  ⟨st ({ d0 with ports := [(0, { gateOper := some ⟨[], 0, 0, 0⟩ })] }), 0, by decide +kernel⟩⟩

theorem test_hyp_ModuleBusCommandsComplete :
    (∃ (s : State) (bus : Fin 16) (sdaLow : Bool) (ws : List Write) (w : Write) (d : Dev), Takes s ⟨.MAC_MOD_CMD, bus.val, 0, 0⟩ ws w d ∧ bitOf w.value.toNat 31 = true ∧ d.flag F.MAC_MOD_STAT_BUSY bus.val = false ∧ 1 ≤ F.MAC_MOD_CMD_LEN.ofWord (d.wouldBe ⟨.MAC_MOD_CMD, bus.val, 0, 0⟩ w.value) ∧ F.MAC_MOD_CMD_LEN.ofWord (d.wouldBe ⟨.MAC_MOD_CMD, bus.val, 0, 0⟩ w.value) ≤ 8 ∧ let k : RegKey := ⟨.MAC_MOD_CMD, bus.val, 0, 0⟩; let e := (d.setWord k (d.wouldBe k w.value)).setFld F.MAC_MOD_STAT_BUSY bus.val 0 1; (e.modBus bus.val).recovered = true ∧ sdaLow = false ∧ e.flag F.MAC_MOD_STAT_UNAVAIL bus.val = false) ∧
    (∃ (s : State) (bus : Fin 16) (sdaLow : Bool) (ws : List Write) (w : Write) (d : Dev), Takes s ⟨.MAC_MOD_CMD, bus.val, 0, 0⟩ ws w d ∧ bitOf w.value.toNat 31 = true ∧ d.flag F.MAC_MOD_STAT_BUSY bus.val = false ∧ 1 ≤ F.MAC_MOD_CMD_LEN.ofWord (d.wouldBe ⟨.MAC_MOD_CMD, bus.val, 0, 0⟩ w.value) ∧ F.MAC_MOD_CMD_LEN.ofWord (d.wouldBe ⟨.MAC_MOD_CMD, bus.val, 0, 0⟩ w.value) ≤ 8 ∧ let k : RegKey := ⟨.MAC_MOD_CMD, bus.val, 0, 0⟩; let e := (d.setWord k (d.wouldBe k w.value)).setFld F.MAC_MOD_STAT_BUSY bus.val 0 1; ((e.modBus bus.val).recovered = false ∨ sdaLow = true ∨ e.flag F.MAC_MOD_STAT_UNAVAIL bus.val = true)) ∧
    (∃ (s : State) (bus : Fin 16) (nack : Bool), Up s ∧ (s.dev.modBus bus.val).phase = .command ∧ (s.dev.flag F.MAC_MOD_CMD_READ bus.val = false ∨ nack = true)) ∧
    (∃ (s : State) (bus : Fin 16) (nack : Bool), Up s ∧ (s.dev.modBus bus.val).phase = .command ∧ s.dev.flag F.MAC_MOD_CMD_READ bus.val = true ∧ nack = false) ∧
    (∃ (s : State) (bus : Fin 16), Up s ∧ (s.dev.modBus bus.val).phase = .command) ∧
    (∃ (s : State) (bus : Fin 16) (t0 : Nat), Up s ∧ (s.dev.modBus bus.val).phase = .recover t0) ∧
    (∃ (s : State) (bus : Fin 16) (t0 : Nat), Up s ∧ (s.dev.modBus bus.val).phase = .wait t0) ∧
    (∃ (s : State) (bus : Fin 16) (t0 : Nat), Up s ∧ (s.dev.modBus bus.val).phase = .wait t0 ∧ let d := ((s.dev.advanceTo (t0 + cyclesOfUs 35180)).onlyIf (!(s.dev.advanceTo (t0 + cyclesOfUs 35180)).flag F.MAC_MOD_STAT_UNAVAIL bus.val) fun d => (d.setFld F.MAC_MOD_STAT_UNAVAIL bus.val 0 1).chipEvent 0x0C bus.val).updMod bus.val fun x => { x with recovered := true }; (d.modBus bus.val).queued = true) := ⟨
  ⟨st (d0.updMod 3 fun x => { x with recovered := true }), 3, false, [ks 0x80000001], ks 0x80000001, (d0.updMod 3 fun x => { x with recovered := true }), takes_alone (by decide +kernel), by decide +kernel⟩,
  ⟨st d0, 3, true, [ks 0x80000008], ks 0x80000008, d0, takes_alone (by decide +kernel), by decide +kernel⟩,
  ⟨st (d0.updMod 3 fun x => { x with phase := .command }), 3, true, by decide +kernel⟩,
  ⟨st ((d0.updMod 3 fun x => { x with phase := .command }).setFld F.MAC_MOD_CMD_READ 3 0 1), 3, false, by decide +kernel⟩,
  ⟨st (d0.updMod 3 fun x => { x with phase := .command }), 3, by decide +kernel⟩,
  ⟨st (d0.updMod 3 fun x => { x with phase := .recover 0 }), 3, 0, by decide +kernel⟩,
  ⟨st (d0.updMod 3 fun x => { x with phase := .wait 0 }), 3, 0, by decide +kernel⟩,
  ⟨st (d0.updMod 3 fun x => { x with phase := .wait 0, queued := true }), 3, 0, by decide +kernel⟩⟩

theorem test_hyp_PacketPathCommandsComplete :
    (∃ (s : State) (port : Fin 16) (head : List Byte), Up s ∧ s.dev.portUp port.val = true ∧ s.dev.rx.at none port.val = none ∧ beVal (sliceB head 12 2) ≠ 0x8808 ∧ s.dev.passive = false) ∧
    (∃ (s : State) (port : Fin 16) (noSlot : Bool) (x : Rx), Up s ∧ s.dev.rx.at none port.val = some x ∧ x.dead = false ∧ x.bytes.length < s.dev.fld F.MAC_PORT_CFG_MAX_LEN port.val ∧ (noSlot = false ∨ s.dev.portWidth port.val ≠ 8) ∧ s.dev.occ port.val (s.dev.pkt x.pkt).prio < s.dev.fld F.SCH_IN_LIMIT_CELLS (port.val / 4) (8 * (port.val % 4) + (s.dev.pkt x.pkt).prio) ∧ s.dev.fld F.SCH_BUF_STAT_USED (s.dev.pkt x.pkt).region < 65536) ∧
    (∃ (s : State) (port : Fin 16) (corrected uncorrectable : Nat) (x : Rx) (d : Dev) (f : List Byte), Up s ∧ s.dev.portUp port.val = true ∧ s.dev.rx.at none port.val = some x ∧ x.dead = false ∧ let e : Dev := { (s.dev.portCount port.val 50 corrected).portCount port.val 51 uncorrectable with rx := s.dev.rx.set none port.val none }; 64 ≤ x.bytes.length ∧ x.bytes.length ≤ e.fld F.MAC_PORT_CFG_MAX_LEN port.val ∧ fcsGood x.bytes = true ∧ (e.countRx port.val x.bytes).macsecRx port.val (x.bytes.take (x.bytes.length - 4)) = (d, some f)) ∧
    (∃ (s : State) (region : Fin 4), Up s ∧ bitOf (s.dev.fld F.ERR_STAT_FENCED) region.val = false ∧ let r := region.val; let d0 := (s.dev.advanceTo (s.dev.arbs.at {} r).next).dropOldRecirc r; let d : Dev := { d0 with arbs := d0.arbs.upd {} r fun a => { a with next := d0.clk.now + 1 } }; d.waiting r 0 ≠ []) ∧
    (∃ (s : State) (region : Fin 4), Up s ∧ bitOf (s.dev.fld F.ERR_STAT_FENCED) region.val = false ∧ let r := region.val; let d0 := (s.dev.advanceTo (s.dev.arbs.at {} r).next).dropOldRecirc r; let d : Dev := { d0 with arbs := d0.arbs.upd {} r fun a => { a with next := d0.clk.now + 1 } }; ∃ (src : Nat) (a : Arb), d.waiting r 0 = [] ∧ d.arbPick r (d.arbs.at {} r) = some (src, a)) ∧
    (∃ (s : State) (region : Fin 4) (id : Nat) (l : List Nat), Up s ∧ s.dev.waiting region.val 1 = id :: l) ∧
    (∃ (s : State) (region : Fin 4) (id : Nat), Up s ∧ ((s.dev.pipeQ.at [] region.val).find? fun id => (s.dev.pkt id).place == .parser) = some id) ∧
    (∃ (s : State) (region : Fin 4) (ws : List Write) (w : Write) (d : Dev), Takes s ⟨.CLS_PARSE_CTL, region.val, 0, 0⟩ ws w d ∧ bitOf w.value.toNat 31 = true) ∧
    (∃ (s : State) (region : Fin 4) (stage : Fin 12) (id : Nat), Up s ∧ ((s.dev.pipeQ.at [] region.val).find? fun id => (s.dev.pkt id).place == .stage stage.val) = some id ∧ let d := s.dev.advanceTo ((s.dev.pkt id).slot + 96 + 128 * stage.val); let t := (d.pkt id).nextTbl; let e := d.stageLookup region.val stage.val t id; t < 64 ∧ d.tblLive region.val t = true ∧ d.fld F.CLS_TBL_STAGE region.val t = stage.val ∧ (e.hasPkt id = false ∨ (e.pkt id).policed = (d.pkt id).policed ∨ d.olderAhead id = false)) ∧
    (∃ (s : State) (region : Fin 4) (stage : Fin 12) (id : Nat), Up s ∧ ((s.dev.pipeQ.at [] region.val).find? fun id => (s.dev.pkt id).place == .stage stage.val) = some id ∧ let d := s.dev.advanceTo ((s.dev.pkt id).slot + 96 + 128 * stage.val); let t := (d.pkt id).nextTbl; 64 ≤ t) ∧
    (∃ (s : State) (region : Fin 4) (f : Fetch), Up s ∧ (s.dev.fetches.find? fun f => f.region == region.val && !f.arrived) = some f) ∧
    (∃ (s : State) (region : Fin 4) (id : Nat), Up s ∧ s.dev.exiting region.val = some id ∧ let r := region.val; let d0 := s.dev.advanceTo ((s.dev.pkt id).slot + 1632); let d1 : Dev := { d0 with pipeQ := d0.pipeQ.upd [] r (·.erase id) }; let k := d1.pkt id; k.sa = none) ∧
    (∃ (s : State) (region : Fin 4) (id : Nat), Up s ∧ s.dev.exiting region.val = some id ∧ let r := region.val; let d0 := s.dev.advanceTo ((s.dev.pkt id).slot + 1632); let d1 : Dev := { d0 with pipeQ := d0.pipeQ.upd [] r (·.erase id) }; let k := d1.pkt id; ∃ x, k.sa = some x) := ⟨
  ⟨st ((d0.setFld F.MAC_PORT_STAT_UP 0 0 1)), 0, [], by decide +kernel⟩,
  ⟨st ({ d0 with rx := [(0, some { pkt := 1, bytes := List.replicate 1521 0 })] }), 0, true, { pkt := 1, bytes := List.replicate 1521 0 }, by decide +kernel⟩,
  ⟨st ({ (d0.setFld F.MAC_PORT_STAT_UP 0 0 1) with rx := [(0, some { pkt := 1, bytes := (List.replicate 60 0 ++ fcsOf (List.replicate 60 0)) })] }), 0, 0, 0, { pkt := 1, bytes := (List.replicate 60 0 ++ fcsOf (List.replicate 60 0)) }, _, List.replicate 60 0, by decide +kernel, by decide +kernel, by decide +kernel, by decide +kernel, by decide +kernel, by decide +kernel, by decide +kernel, rfl⟩,
  ⟨st (waitDev 0), 0, by decide +kernel⟩,
  ⟨st (waitDev 2), 0, by decide +kernel, by decide +kernel, 2, { turn := 2, used := 1, next := 1 }, by decide +kernel⟩,
  ⟨st (waitDev 1), 0, 1, [], by decide +kernel⟩,
  ⟨st (pipeDev .parser), 0, 1, by decide +kernel⟩,
  ⟨st d0, 3, [ks 0x80000000], ks 0x80000000, d0, takes_alone (by decide +kernel), by decide +kernel⟩,
  ⟨st (((pipeDev (.stage 11)).updPkt 1 fun k => { k with nextTbl := 63 }).setFld F.CLS_TBL_EN 0 63 1 |>.setFld F.CLS_TBL_STAGE 0 63 11), 0, 11, 1, by decide +kernel⟩,
  ⟨st ((pipeDev (.stage 11)).updPkt 1 fun k => { k with nextTbl := 64 }), 0, 11, 1, by decide +kernel⟩,
  ⟨st ({ d0 with fetches := [{}] }), 0, {}, by decide +kernel⟩,
  ⟨st (pipeDev (.stage 12)), 0, 1, by decide +kernel⟩,
  ⟨st ((pipeDev (.stage 12)).updPkt 1 fun k => { k with sa := some 9 }), 0, 1, by decide +kernel, by decide +kernel, 9, by decide +kernel⟩⟩

theorem test_hyp_SchedulerCommandsComplete :
    (∃ (s : State) (port : Fin 16) (c tn id : Nat) (p3 c3 : Bool) (d e : Dev) (b : List Byte), Up s ∧ s.dev.isPort port.val = true ∧ s.dev.portUp port.val = true ∧ s.dev.mute = false ∧ (s.dev.port port.val).txPkt = none ∧ (s.dev.port port.val).control = [] ∧ s.dev.dueFrame port.val (s.dev.pfcMode port.val) = none ∧ ((s.dev.advanceTo (s.dev.port port.val).wireBusy).each (List.range 8) fun q d => (d.settleHold port.val q).stormTest port.val q).portChoice port.val = (d, some (c, tn, id, p3, c3)) ∧ (d.pauseOf port.val c).storm = false ∧ d.wireLen port.val (d.pkt id) ≤ d.maxFrame port.val c ∧ (((d.pkt id).encaps = [] ∨ (d.pkt id).frameLen ≤ d.fld F.MAC_PORT_CFG_MAX_LEN port.val)) ∧ d.protectTx port.val (d.pkt id) = (e, some b)) ∧
    (∃ (s : State) (port : Fin 16) (id : Nat), Up s ∧ (s.dev.port port.val).txPkt = some id) ∧
    (∃ (s : State) (region : Fin 4) (node : Fin 4096) (word : Fin 2) (ws : List Write) (w : Write) (d : Dev), Takes s ⟨.SCH_TNODE, region.val, node.val, word.val⟩ ws w d ∧ let k : RegKey := ⟨.SCH_TNODE, region.val, node.val, word.val⟩; let e := d.setWord k (d.wouldBe k w.value); e.fld F.SCH_TNODE_WEIGHT region.val node.val ≠ 0 ∧ (e.nodeQueues region.val node.val).2 ≤ 16383 ∧ e.fld F.SCH_TNODE_CLASS region.val node.val = d.fld F.SCH_TNODE_CLASS region.val node.val ∧ e.nodeQueues region.val node.val = d.nodeQueues region.val node.val ∧ (e.flag F.SCH_TNODE_EN region.val node.val = d.flag F.SCH_TNODE_EN region.val node.val)) ∧
    (∃ (s : State) (region : Fin 4) (policer : Fin 65536) (word : Fin 4) (ws : List Write) (w : Write) (d : Dev), Takes s ⟨.SCH_POL, region.val, policer.val, word.val⟩ ws w d ∧ let k : RegKey := ⟨.SCH_POL, region.val, policer.val, word.val⟩; let v := d.wouldBe k w.value; (word.val = 0 → bitsOf v.toNat 31 30 ≠ 3 ∧ bitsOf v.toNat 20 0 ≤ 1600000) ∧ (word.val = 2 → bitsOf v.toNat 20 0 ≤ 1600000)) := ⟨
  ⟨st txDev, 0, 0, 36, 1, true, true, txChoice.1, txChoice.1, List.replicate 60 0, by decide +kernel, by decide +kernel, by decide +kernel, by decide +kernel, by decide +kernel, by decide +kernel, by decide +kernel, Prod.ext rfl (by decide +kernel), by decide +kernel, by decide +kernel, by decide +kernel, Prod.ext rfl (by decide +kernel)⟩,
  ⟨st (d0.updPort 0 fun x => { x with txPkt := some 7 }), 0, 7, by decide +kernel⟩,
  ⟨st d0, 0, 0, 0, [ks 0x80000001], ks 0x80000001, d0, takes_alone (by decide +kernel), by decide +kernel⟩,
  ⟨st d0, 0, 0, 2, [ks 1600000], ks 1600000, d0, takes_alone (by decide +kernel), by decide +kernel⟩⟩

theorem test_hyp_PrimitivesComplete :
    (∃ (s : State) (id : Nat), Up s ∧ s.dev.inStage id = true) ∧
    (∃ (s : State) (id : Nat) (x : DWord), Up s ∧ s.dev.inStage id = true ∧ let d := s.dev; let k := d.pkt id; let op := x.toNat; d.flag F.CLS_MIRROR_EN k.region (op % 64) = true ∧ k.mirrors.length < 2) ∧
    (∃ (s : State) (id : Nat) (x : DWord), Up s ∧ s.dev.inStage id = true ∧ let d := s.dev; let k := d.pkt id; let op := x.toNat; d.flag F.CLS_MIRROR_EN k.region (op % 64) = true ∧ 2 ≤ k.mirrors.length) ∧
    (∃ (s : State) (id : Nat), Up s ∧ s.dev.inStage id = true ∧ let d := s.dev; d.olderAhead id = false) ∧
    (∃ (s : State) (id : Nat) (x : DWord), Up s ∧ s.dev.inStage id = true ∧ let op := x.toNat; 1 ≤ op % 16 ∧ op % 16 ≤ 11) ∧
    (∃ (s : State) (id : Nat) (x : DWord), Up s ∧ s.dev.inStage id = true ∧ let op := x.toNat; bitOf op 31 = true ∧ bitOf op 30 = false) ∧
    (∃ (s : State) (id : Nat) (x : DWord), Up s ∧ s.dev.inStage id = true ∧ let op := x.toNat; bitOf op 31 = false ∧ bitOf op 30 = true) ∧
    (∃ (s : State) (id : Nat) (x : DWord), Up s ∧ s.dev.inStage id = true ∧ let op := x.toNat; bitOf op 31 = true ∧ bitOf op 30 = true) := ⟨
  ⟨st (pipeDev (.stage 0)), 1, by decide +kernel⟩,
  ⟨st ((pipeDev (.stage 0)).setFld F.CLS_MIRROR_EN 0 63 1), 1, 63, by decide +kernel⟩,
  ⟨st (((pipeDev (.stage 0)).updPkt 1 fun k => { k with mirrors := [1, 2] }).setFld F.CLS_MIRROR_EN 0 63 1), 1, 63, by decide +kernel⟩,
  ⟨st (pipeDev (.stage 0)), 1, by decide +kernel⟩,
  ⟨st (pipeDev (.stage 0)), 1, 11, by decide +kernel⟩,
  ⟨st (pipeDev (.stage 0)), 1, 0x80000000, by decide +kernel⟩,
  ⟨st (pipeDev (.stage 0)), 1, 0x40000000, by decide +kernel⟩,
  ⟨st (pipeDev (.stage 0)), 1, 0xC0000000, by decide +kernel⟩⟩

theorem test_hyp_TableCommandsComplete :
    (∃ (s : State) (region : Fin 4) (table : Fin 64) (word : Fin 6) (ws : List Write) (w : Write) (d : Dev), Takes s ⟨.CLS_TBL, region.val, table.val, word.val⟩ ws w d ∧ let k : RegKey := ⟨.CLS_TBL, region.val, table.val, word.val⟩; let v := d.wouldBe k w.value; (word.val = 0 → F.CLS_TBL_KIND.ofWord v ≠ 3 ∧ F.CLS_TBL_STAGE.ofWord v ≤ 11 ∧ 1 ≤ F.CLS_TBL_KEY_WORDS.ofWord v ∧ F.CLS_TBL_KEY_WORDS.ofWord v ≤ 16) ∧ (word.val = 2 → 1 ≤ F.CLS_TBL_NB_K.ofWord v ∧ F.CLS_TBL_NB_K.ofWord v ≤ 16384) ∧ d.fld F.CLS_TBL_ENTRIES (d.homeOf region.val table.val) table.val = 0 ∧ d.tblPlaces.at none (64 * region.val + table.val) = none ∧ (d.setWord k v).tblEn region.val table.val = false) ∧
    (∃ (s : State) (region : Fin 4) (table : Fin 64) (word : Fin 6) (ws : List Write) (w : Write) (d : Dev), word.val ∈ [1, 2] ∧ Takes s ⟨.CLS_TBL, region.val, table.val, word.val⟩ ws w d ∧ let k : RegKey := ⟨.CLS_TBL, region.val, table.val, word.val⟩; let v := d.wouldBe k w.value; (word.val = 2 → 1 ≤ F.CLS_TBL_NB_K.ofWord v ∧ F.CLS_TBL_NB_K.ofWord v ≤ 16384) ∧ v ≠ d.word k ∧ d.fld F.CLS_TBL_ENTRIES (d.homeOf region.val table.val) table.val ≠ 0) ∧
    (∃ (s : State) (region : Fin 4) (ws : List Write) (w : Write) (d : Dev), Takes s ⟨.CLS_TCMD, region.val, 0, 0⟩ ws w d ∧ let r := region.val; let k : RegKey := ⟨.CLS_TCMD, r, 0, 0⟩; let v := d.wouldBe k w.value; let op := F.CLS_TCMD_OP.ofWord v; let t := F.CLS_TCMD_TBL.ofWord v; let e := d.setWord k v; let x := e.tableOp r t op (e.tkey r (e.keyWords (e.homeOf r t) t)) (e.fld F.CLS_TACT_ACTION r) (e.fld F.CLS_TDATA_HI r * 2 ^ 32 + e.fld F.CLS_TDATA_LO r) (e.rank w.writer); bitOf w.value.toNat 31 = true ∧ d.flag F.CLS_TCMD_BUSY r = false ∧ op = 0 ∧ x.2.1 ≠ 0) ∧
    (∃ (s : State) (region : Fin 4) (ws : List Write) (w : Write) (d : Dev), Takes s ⟨.CLS_TCMD, region.val, 0, 0⟩ ws w d ∧ let r := region.val; let k : RegKey := ⟨.CLS_TCMD, r, 0, 0⟩; let v := d.wouldBe k w.value; let op := F.CLS_TCMD_OP.ofWord v; let t := F.CLS_TCMD_TBL.ofWord v; let e := d.setWord k v; let x := e.tableOp r t op (e.tkey r (e.keyWords (e.homeOf r t) t)) (e.fld F.CLS_TACT_ACTION r) (e.fld F.CLS_TDATA_HI r * 2 ^ 32 + e.fld F.CLS_TDATA_LO r) (e.rank w.writer); bitOf w.value.toNat 31 = true ∧ d.flag F.CLS_TCMD_BUSY r = false ∧ op = 0 ∧ x.2.1 = 0) ∧
    (∃ (s : State) (region : Fin 4) (ws : List Write) (w : Write) (d : Dev), Takes s ⟨.CLS_TCMD, region.val, 0, 0⟩ ws w d ∧ let r := region.val; let k : RegKey := ⟨.CLS_TCMD, r, 0, 0⟩; let v := d.wouldBe k w.value; let op := F.CLS_TCMD_OP.ofWord v; bitOf w.value.toNat 31 = true ∧ d.flag F.CLS_TCMD_BUSY r = false ∧ op = 1) ∧
    (∃ (s : State) (region : Fin 4) (ws : List Write) (w : Write) (d : Dev), Takes s ⟨.CLS_TCMD, region.val, 0, 0⟩ ws w d ∧ let r := region.val; let k : RegKey := ⟨.CLS_TCMD, r, 0, 0⟩; let v := d.wouldBe k w.value; let op := F.CLS_TCMD_OP.ofWord v; bitOf w.value.toNat 31 = true ∧ d.flag F.CLS_TCMD_BUSY r = false ∧ op = 2) ∧
    (∃ (s : State) (region : Fin 4) (ws : List Write) (w : Write) (d : Dev), Takes s ⟨.CLS_TCMD, region.val, 0, 0⟩ ws w d ∧ let r := region.val; let k : RegKey := ⟨.CLS_TCMD, r, 0, 0⟩; let v := d.wouldBe k w.value; let op := F.CLS_TCMD_OP.ofWord v; let e := d.setWord k v; bitOf w.value.toNat 31 = true ∧ d.flag F.CLS_TCMD_BUSY r = false ∧ op = 3 ∧ e.member = false) ∧
    (∃ (s : State) (region : Fin 4) (ws : List Write) (w : Write) (d : Dev), Takes s ⟨.CLS_TCMD, region.val, 0, 0⟩ ws w d ∧ let r := region.val; let k : RegKey := ⟨.CLS_TCMD, r, 0, 0⟩; let v := d.wouldBe k w.value; let op := F.CLS_TCMD_OP.ofWord v; bitOf w.value.toNat 31 = true ∧ d.flag F.CLS_TCMD_BUSY r = false ∧ op = 4) ∧
    (∃ (s : State) (region : Fin 4) (ws : List Write) (w : Write) (d : Dev), Takes s ⟨.CLS_TCMD, region.val, 0, 0⟩ ws w d ∧ let r := region.val; let k : RegKey := ⟨.CLS_TCMD, r, 0, 0⟩; let v := d.wouldBe k w.value; let op := F.CLS_TCMD_OP.ofWord v; bitOf w.value.toNat 31 = true ∧ d.flag F.CLS_TCMD_BUSY r = false ∧ op = 5) := ⟨
  ⟨st d0, 0, 0, 0, [ks 0x0B100000], ks 0x0B100000, d0, takes_alone (by decide +kernel), by decide +kernel⟩,
  ⟨st (d0.setFld F.CLS_TBL_ENTRIES 0 0 1), 0, 0, 1, [ks 5], ks 5, d0.setFld F.CLS_TBL_ENTRIES 0 0 1, by decide +kernel, takes_alone (by decide +kernel), by decide +kernel⟩,
  ⟨st ({ d0 with tblPlaces := [(0, some {})] }), 0, [ks 0x80000000], ks 0x80000000, ({ d0 with tblPlaces := [(0, some {})] }), takes_alone (by decide +kernel), by decide +kernel⟩,
  ⟨st ({ d0 with tbls := [(0, { stash := [(0, some { key := beBytes 4 0 })] })], tblPlaces := [(0, some {})] }), 0, [ks 0x80000000], ks 0x80000000, ({ d0 with tbls := [(0, { stash := [(0, some { key := beBytes 4 0 })] })], tblPlaces := [(0, some {})] }), takes_alone (by decide +kernel), by decide +kernel⟩,
  ⟨st d0, 0, [ks 0x88000000], ks 0x88000000, d0, takes_alone (by decide +kernel), by decide +kernel⟩,
  ⟨st d0, 0, [ks 0x90000000], ks 0x90000000, d0, takes_alone (by decide +kernel), by decide +kernel⟩,
  ⟨st d0, 0, [ks 0x98000000], ks 0x98000000, d0, takes_alone (by decide +kernel), by decide +kernel⟩,
  ⟨st d0, 0, [ks 0xA0000000], ks 0xA0000000, d0, takes_alone (by decide +kernel), by decide +kernel⟩,
  ⟨st d0, 0, [ks 0xA8000000], ks 0xA8000000, d0, takes_alone (by decide +kernel), by decide +kernel⟩⟩

theorem test_hyp_ForwardingCommandsComplete :
    (∃ (s : State) (ws : List Write) (w : Write) (d : Dev), Takes s ⟨.FWD_TUQ_PI, 0, 0, 0⟩ ws w d) ∧
    (∃ (s : State) (e : List Byte), Up s ∧ s.dev.tuqEntry = some e ∧ (e.headD 0).toNat = 0) ∧
    (∃ (s : State) (e : List Byte), Up s ∧ s.dev.tuqEntry = some e ∧ 4 < (e.headD 0).toNat) ∧
    (∃ (s : State) (e : List Byte), Up s ∧ s.dev.tuqEntry = some e ∧ (e.headD 0).toNat = 1) ∧
    (∃ (s : State) (e : List Byte), Up s ∧ s.dev.tuqEntry = some e ∧ (e.headD 0).toNat = 2) ∧
    (∃ (s : State) (e : List Byte), Up s ∧ s.dev.tuqEntry = some e ∧ (e.headD 0).toNat = 3 ∧ s.dev.rebuilding = []) ∧
    (∃ (s : State) (e : List Byte), Up s ∧ s.dev.tuqEntry = some e ∧ (e.headD 0).toNat = 4) ∧
    (∃ (s : State) (t : Nat × Trie) (l : List (Nat × Trie)), Up s ∧ s.dev.trieFree = t :: l) ∧
    (∃ (s : State) (region : Fin 4) (x : Learn) (l : List Learn), Up s ∧ s.dev.learnReqs.at [] region.val = x :: l ∧ let d : Dev := { s.dev with learnReqs := s.dev.learnReqs.set [] region.val l }; let e := d.before x.home x.table; let stands := (e.findKey x.home x.table x.key).bind (e.tbl x.home x.table).entry; stands = none) ∧
    (∃ (s : State) (region : Fin 4) (x : Learn) (l : List Learn), Up s ∧ s.dev.learnReqs.at [] region.val = x :: l ∧ let d : Dev := { s.dev with learnReqs := s.dev.learnReqs.set [] region.val l }; let e := d.before x.home x.table; let stands := (e.findKey x.home x.table x.key).bind (e.tbl x.home x.table).entry; ∃ (y : Way), stands = some y ∧ adBport y.adata = x.bport) ∧
    (∃ (s : State) (region : Fin 4) (x : Learn) (l : List Learn), Up s ∧ s.dev.learnReqs.at [] region.val = x :: l ∧ let d : Dev := { s.dev with learnReqs := s.dev.learnReqs.set [] region.val l }; let e := d.before x.home x.table; let stands := (e.findKey x.home x.table x.key).bind (e.tbl x.home x.table).entry; ∃ (y : Way), stands = some y ∧ adBport y.adata ≠ x.bport ∧ adStatic y.adata = true) ∧
    (∃ (s : State) (region : Fin 4) (x : Learn) (l : List Learn), Up s ∧ s.dev.learnReqs.at [] region.val = x :: l ∧ let d : Dev := { s.dev with learnReqs := s.dev.learnReqs.set [] region.val l }; let e := d.before x.home x.table; let stands := (e.findKey x.home x.table x.key).bind (e.tbl x.home x.table).entry; ∃ (y : Way), stands = some y ∧ adBport y.adata ≠ x.bport ∧ adStatic y.adata = false) ∧
    (∃ (s : State) (region : Fin 4) (x : Learn) (l : List Learn), Up s ∧ s.dev.learnIns.at [] region.val = x :: l ∧ let d : Dev := { s.dev with learnIns := s.dev.learnIns.set [] region.val l }; d.hasBuckets x.home x.table = true ∧ d.staticAt x.home x.table x.key = true) ∧
    (∃ (s : State) (region : Fin 4) (x : Learn) (l : List Learn), Up s ∧ s.dev.learnIns.at [] region.val = x :: l ∧ let d : Dev := { s.dev with learnIns := s.dev.learnIns.set [] region.val l }; let y := d.tableReq x.home x.table 5000 true x.key (x.action.getD (d.fld F.FWD_LEARN_CFG_ACT)) x.bport; d.hasBuckets x.home x.table = true ∧ d.staticAt x.home x.table x.key = false ∧ y.2 = 3) ∧
    (∃ (s : State) (region : Fin 4) (x : Learn) (l : List Learn), Up s ∧ s.dev.learnIns.at [] region.val = x :: l ∧ let d : Dev := { s.dev with learnIns := s.dev.learnIns.set [] region.val l }; let y := d.tableReq x.home x.table 5000 true x.key (x.action.getD (d.fld F.FWD_LEARN_CFG_ACT)) x.bport; d.hasBuckets x.home x.table = true ∧ d.staticAt x.home x.table x.key = false ∧ y.2 = 1) ∧
    (∃ (s : State) (region : Fin 4) (x : Learn) (l : List Learn), Up s ∧ s.dev.learnIns.at [] region.val = x :: l ∧ let d : Dev := { s.dev with learnIns := s.dev.learnIns.set [] region.val l }; let y := d.tableReq x.home x.table 5000 true x.key (x.action.getD (d.fld F.FWD_LEARN_CFG_ACT)) x.bport; d.hasBuckets x.home x.table = true ∧ d.staticAt x.home x.table x.key = false ∧ y.2 ≠ 3 ∧ y.2 ≠ 1) ∧
    (∃ (s : State) (region : Fin 4) (table : Fin 64) (x : Sweep), Up s ∧ s.dev.sweeps.at none (64 * region.val + table.val) = some x ∧ let r := region.val; let t := table.val; x.pos < s.dev.positions r t ∧ s.dev.aged r t = true) ∧
    (∃ (s : State) (region : Fin 4) (table : Fin 64) (x : Sweep), Up s ∧ s.dev.sweeps.at none (64 * region.val + table.val) = some x ∧ let r := region.val; let t := table.val; (s.dev.aged r t = false ∨ s.dev.positions r t ≤ x.pos)) := ⟨
  ⟨st d0, [ks 5], ks 5, d0, takes_alone (by decide +kernel)⟩,
  ⟨st (tuqDev 0), (tuqDev 0).memBytes d0.tuqBase 32, by decide +kernel⟩,
  ⟨st (tuqDev 5), (tuqDev 5).memBytes d0.tuqBase 32, by decide +kernel⟩,
  ⟨st (tuqDev 1), (tuqDev 1).memBytes d0.tuqBase 32, by decide +kernel⟩,
  ⟨st (tuqDev 2), (tuqDev 2).memBytes d0.tuqBase 32, by decide +kernel⟩,
  ⟨st (tuqDev 3), (tuqDev 3).memBytes d0.tuqBase 32, by decide +kernel⟩,
  ⟨st (tuqDev 4), (tuqDev 4).memBytes d0.tuqBase 32, by decide +kernel⟩,
  ⟨st ({ d0 with trieFree := [(8, {}), (9, {})] }), (8, {}), [(9, {})], by decide +kernel⟩,
  ⟨st (learnDev 0 false { key := [2], bport := 5 }), 0, { key := [2], bport := 5 }, [], by decide +kernel⟩,
  ⟨st (learnDev 5 false { key := [1], bport := 5 }), 0, { key := [1], bport := 5 }, [], by decide +kernel, by decide +kernel, { key := [1], adata := 5 }, by decide +kernel⟩,
  ⟨st (learnDev 4 true { key := [1], bport := 5 }), 0, { key := [1], bport := 5 }, [], by decide +kernel, by decide +kernel, { key := [1], adata := 4 + 2 ^ 63 }, by decide +kernel⟩,
  ⟨st (learnDev 4 false { key := [1], bport := 5 }), 0, { key := [1], bport := 5 }, [], by decide +kernel, by decide +kernel, { key := [1], adata := 4 }, by decide +kernel⟩,
  ⟨st (learnDev 5 true { key := [1], bport := 5 }), 0, { key := [1], bport := 5 }, [], by decide +kernel⟩,
  ⟨st (fullDev { key := [9], bport := 5 }), 0, { key := [9], bport := 5 }, [], by decide +kernel⟩,
  ⟨st (learnDev 5 false { key := [1], bport := 5 }), 0, { key := [1], bport := 5 }, [], by decide +kernel⟩,
  ⟨st (learnDev 5 false { key := [2], bport := 5 }), 0, { key := [2], bport := 5 }, [], by decide +kernel⟩,
  ⟨st ({ (d0.setFld F.FWD_AGE_EN 0 0 1) with sweeps := [(0, some { pos := 4127 })] }), 0, 0, { pos := 4127 }, by decide +kernel⟩,
  ⟨st ({ d0 with sweeps := [(0, some { pos := 4128 })] }), 0, 0, { pos := 4128 }, by decide +kernel⟩⟩

theorem test_hyp_HostFunctionCommandsComplete :
    (∃ (s : State) (fn : Fin 512) (vector : Fin 2048), Up s ∧ s.dev.pendBit fn.val vector.val = true ∧ s.dev.usesMessages fn.val = true ∧ s.dev.vecMasked fn.val vector.val = false ∧ s.dev.canIssue fn.val = true) ∧
    (∃ (s : State) (fn : Fin 512), Up s ∧ s.dev.fnExists fn.val = true ∧ (s.dev.fn fn.val).built = false ∧ (s.dev.fn fn.val).inReset = none) ∧
    (∃ (s : State) (fn : Fin 512) (word : Fin 3) (ws : List Write) (w : Write) (d : Dev), Takes s ⟨.HIF_FUNC_RES, 0, fn.val, word.val⟩ ws w d ∧ let e := d.plainWrite ⟨.HIF_FUNC_RES, 0, fn.val, word.val⟩ w.value; d.resBad fn.val (e.resWritten fn.val) = true) ∧
    (∃ (s : State) (fn : Fin 512) (word : Fin 3) (ws : List Write) (w : Write) (d : Dev), Takes s ⟨.HIF_FUNC_RES, 0, fn.val, word.val⟩ ws w d ∧ let e := d.plainWrite ⟨.HIF_FUNC_RES, 0, fn.val, word.val⟩ w.value; d.resBad fn.val (e.resWritten fn.val) = false ∧ (d.fn fn.val).enabled = true) ∧
    (∃ (s : State), Up s) ∧
    (∃ (s : State) (fn : Fin 512) (id : Nat) (tags : List Nat), Up s ∧ (s.dev.invals.find? fun x => x.1 == fn.val) = some (fn.val, id, tags) ∧ (tags.any fun t => (s.dev.reads.at none t).isSome) = false) ∧
    (∃ (s : State) (host : Fin 2) (link : Fin 4) (gen : Fin 8), Up s ∧ s.dev.flag F.HIF_PORT_CFG_EN 0 host.val = true ∧ s.dev.perst.at false host.val = false ∧ s.dev.boot.waitFrom = none ∧ link.val < linksOf (s.dev.shape host.val).1 ∧ s.dev.pfsOn host.val link.val ≠ [] ∧ 0 < min gen.val (s.dev.shape host.val).2) ∧
    (∃ (s : State) (host : Fin 2) (link : Fin 4), Up s ∧ ∃ loss bit, (loss, bit) ∈ [(LinkLoss.dataLinkProtocol, aerDataLink), (.flowControl, aerFlowControl), (.receiverOverflow, aerOverflow)] ∧ s.dev.linkUp host.val link.val = true) ∧
    (∃ (s : State) (host : Fin 2) (link : Fin 4), Up s ∧ ∃ loss bit, (loss, bit) ∈ [(LinkLoss.dataLinkProtocol, aerDataLink), (.flowControl, aerFlowControl), (.receiverOverflow, aerOverflow)] ∧ s.dev.linkUp host.val link.val = false) ∧
    (∃ (s : State) (fn : Fin 512), Up s ∧ s.dev.released = true ∧ s.dev.fnExists fn.val = true ∧ (s.dev.fn fn.val).inReset = none) ∧
    (∃ (s : State) (fn : Fin 512), Up s ∧ (s.dev.fn fn.val).inReset.isSome = true ∧ s.dev.perst.at false (s.dev.hostOf fn.val) = false) ∧
    (∃ (s : State) (fn : Fin 512), Up s ∧ s.dev.cfgArrives fn.val = true ∧ s.dev.released = true ∧ (s.dev.fn fn.val).inReset = none ∧ s.dev.fnExists fn.val = true) ∧
    (∃ (s : State) (fn : Fin 512), Up s ∧ fn.val < 16 ∧ s.dev.released = true ∧ s.dev.fnExists fn.val = true ∧ (s.dev.fn fn.val).inReset = none) ∧
    (∃ (s : State) (host : Fin 2), Up s ∧ s.dev.perst.at false host.val = false) ∧
    (∃ (s : State) (host : Fin 2), Up s ∧ s.dev.perst.at false host.val = true) ∧
    (∃ (s : State) (host : Fin 2) (ws : List Write) (w : Write) (d : Dev), Takes s ⟨.HIF_PORT_CFG, 0, host.val, 0⟩ ws w d ∧ let v := d.wouldBe ⟨.HIF_PORT_CFG, 0, host.val, 0⟩ w.value; let e := d.setWord ⟨.HIF_PORT_CFG, 0, host.val, 0⟩ v; F.HIF_PORT_CFG_BIFURC.ofWord v ≠ 3 ∧ F.HIF_PORT_CFG_MAX_GEN.ofWord v ≠ 0 ∧ d.flag F.HIF_PORT_CFG_EN 0 host.val = false ∧ e.flag F.HIF_PORT_CFG_EN 0 host.val = true) ∧
    (∃ (s : State) (host : Fin 2) (ws : List Write) (w : Write) (d : Dev), Takes s ⟨.HIF_PORT_CFG, 0, host.val, 0⟩ ws w d ∧ let v := d.wouldBe ⟨.HIF_PORT_CFG, 0, host.val, 0⟩ w.value; let e := d.setWord ⟨.HIF_PORT_CFG, 0, host.val, 0⟩ v; F.HIF_PORT_CFG_BIFURC.ofWord v ≠ 3 ∧ F.HIF_PORT_CFG_MAX_GEN.ofWord v ≠ 0 ∧ d.flag F.HIF_PORT_CFG_EN 0 host.val = true ∧ e.flag F.HIF_PORT_CFG_EN 0 host.val = false) := ⟨
  ⟨st ((hostDev.setPend 0 2 true).setFld F.MSIX_TBL_MASK 0 2 0), 0, 2, by decide +kernel⟩,
  ⟨st (hostDev), 0, by decide +kernel⟩,
  ⟨st (hostDev), 0, 1, [ks 0x80900000], ks 0x80900000, (hostDev), takes_alone (by decide +kernel), by decide +kernel⟩,
  ⟨st (hostDev), 0, 1, [ks 0x01000000], ks 0x01000000, (hostDev), takes_alone (by decide +kernel), by decide +kernel⟩,
  ⟨st d0, by decide +kernel⟩,
  ⟨st ({ d0 with invals := [(3, 9, [1])] }), 3, 9, [1], by decide +kernel⟩,
  ⟨st (hostDev.setFld F.HIF_PORT_CFG_EN 0 0 1), 0, 0, 7, by decide +kernel⟩,
  ⟨st hostDev, 0, 0, by decide +kernel, .flowControl, _, List.Mem.tail _ (List.Mem.head _), by decide +kernel⟩,
  ⟨st d0, 0, 0, by decide +kernel, .receiverOverflow, _, List.Mem.tail _ (List.Mem.tail _ (List.Mem.head _)), by decide +kernel⟩,
  ⟨st (hostDev), 0, by decide +kernel⟩,
  ⟨st ({ hostDev with fns := hostDev.fns.upd {} 0 fun x => { x with inReset := some 0 } }), 0, by decide +kernel⟩,
  ⟨st (hostDev), 0, by decide +kernel⟩,
  ⟨st (hostDev), 0, by decide +kernel⟩,
  ⟨st (hostDev), 1, by decide +kernel⟩,
  ⟨st ({ d0 with perst := [(1, true)] }), 1, by decide +kernel⟩,
  ⟨st (d0.setFld F.HIF_PORT_CFG_EN 0 0 0), 0, [ks 0x84000000], ks 0x84000000, (d0.setFld F.HIF_PORT_CFG_EN 0 0 0), takes_alone (by decide +kernel), by decide +kernel⟩,
  ⟨st (d0.setFld F.HIF_PORT_CFG_EN 0 0 1), 0, [ks 0x04000000], ks 0x04000000, (d0.setFld F.HIF_PORT_CFG_EN 0 0 1), takes_alone (by decide +kernel), by decide +kernel⟩⟩

theorem test_hyp_HostAccessCommandsComplete :
    (∃ (s : State) (fn : Fin 512) (tlp : Tlp) (d : Dev), Up s ∧ s.dev.landWrites.requestArrives fn.val = true ∧ s.dev.landWrites.takeTlp fn.val tlp = (d, true) ∧ d.flag F.ERR_STAT_SAFE = false ∧ (d.fn fn.val).inReset = none ∧ d.unclaimed fn.val = false) ∧
    (∃ (s : State) (fn : Fin 512) (tlp : Tlp) (d : Dev), Up s ∧ s.dev.requestArrives fn.val = true ∧ s.dev.takeTlp fn.val tlp = (d, true) ∧ d.flag F.ERR_STAT_SAFE = false ∧ (d.fn fn.val).inReset = none ∧ d.unclaimed fn.val = false ∧ d.passive = false) ∧
    (∃ (d : Dev) (i : Nat) (tlp : Tlp), d.flag F.HIF_ITT_WR 0 i = true ∧ tlp.ep = false ∧ (d.flag F.HIF_ITT_ORDER 0 i = true ∨ tlp.relaxed = false ∧ tlp.idBased = false) ∧ tlp.held = false) ∧
    (∃ (d : Dev) (i : Nat) (tlp : Tlp), d.flag F.HIF_ITT_WR 0 i = true ∧ tlp.ep = false ∧ (d.flag F.HIF_ITT_ORDER 0 i = true ∨ tlp.relaxed = false ∧ tlp.idBased = false) ∧ tlp.held = true) ∧
    (∃ (d : Dev) (fn : Fin 512) (i : Nat) (tlp : Tlp), d.flag F.HIF_ITT_WR 0 i = true ∧ tlp.ep = false ∧ d.flag F.HIF_ITT_ORDER 0 i = false ∧ (tlp.relaxed = true ∨ (tlp.idBased = true ∧ ∀ y ∈ d.heldWrites, y.fn ≠ fn)) ∧ tlp.held = false) ∧
    (∃ (d : Dev) (fn : Fin 512) (i : Nat) (tlp : Tlp), d.flag F.HIF_ITT_WR 0 i = true ∧ tlp.ep = false ∧ d.flag F.HIF_ITT_ORDER 0 i = false ∧ (tlp.relaxed = true ∨ (tlp.idBased = true ∧ ∀ y ∈ d.heldWrites, y.fn ≠ fn)) ∧ tlp.held = true) ∧
    (∃ (s : State) (fn : Fin 512) (tag : Nat) (tlp : Tlp) (d : Dev), Up s ∧ s.dev.landWrites.cfgArrives fn.val = true ∧ s.dev.landWrites.takeTlp fn.val tlp = (d, true) ∧ d.reads.at none tag = none) ∧
    (∃ (s : State) (fn : Fin 512) (tag : Nat) (tlp : Tlp) (d : Dev), Up s ∧ s.dev.landWrites.cfgArrives fn.val = true ∧ s.dev.landWrites.takeTlp fn.val tlp = (d, true) ∧ ∃ (r : HostRead), d.reads.at none tag = some r ∧ r.fn ≠ fn.val) ∧
    (∃ (s : State) (fn : Fin 512) (tag : Nat) (tlp : Tlp) (d : Dev), Up s ∧ s.dev.landWrites.cfgArrives fn.val = true ∧ s.dev.landWrites.takeTlp fn.val tlp = (d, true) ∧ ∃ (r : HostRead), d.reads.at none tag = some r ∧ r.fn = fn.val ∧ r.who.byTag = true) ∧
    (∃ (s : State) (tag : Nat) (r : HostRead), Up s ∧ s.dev.reads.at none tag = some r ∧ r.who.byTag = true) := ⟨
  ⟨st hostDev, 0, {}, _, by decide +kernel, by decide +kernel, Prod.ext rfl (by decide +kernel), by decide +kernel⟩,
  ⟨st hostDev, 0, { corrected := [.badTlp] }, _, by decide +kernel, by decide +kernel, Prod.ext rfl (by decide +kernel), by decide +kernel⟩,
  ⟨(d0.setFld F.HIF_ITT_WR 0 3 1).setFld F.HIF_ITT_ORDER 0 3 1, 3, { relaxed := true }, by decide +kernel⟩,
  ⟨d0.setFld F.HIF_ITT_WR 0 3 1, 3, { held := true }, by decide +kernel⟩,
  ⟨{ d0.setFld F.HIF_ITT_WR 0 3 1 with heldWrites := [⟨5, 0, [], false⟩] }, 4, 3, { idBased := true }, by decide +kernel⟩,
  ⟨d0.setFld F.HIF_ITT_WR 0 3 1, 4, 3, { relaxed := true, held := true }, by decide +kernel⟩,
  ⟨st hostDev, 0, 4, {}, _, by decide +kernel, by decide +kernel, Prod.ext rfl (by decide +kernel), by decide +kernel⟩,
  ⟨st ({ hostDev with reads := [(4, some { fn := 2 })] }), 0, 4, {}, _, by decide +kernel, by decide +kernel, Prod.ext rfl (by decide +kernel), { fn := 2 }, by decide +kernel⟩,
  ⟨st ({ hostDev with reads := [(4, some {})] }), 0, 4, {}, _, by decide +kernel, by decide +kernel, Prod.ext rfl (by decide +kernel), {}, by decide +kernel⟩,
  ⟨st ({ d0 with reads := [(4, some {})] }), 4, {}, by decide +kernel⟩⟩

theorem test_hyp_QueueCommandsComplete :
    (∃ (s : State) (fn : Fin 512) (qp : Fin 256) (v : Word), Up s ∧ s.dev.passive = false ∧ s.dev.peerWaits = false ∧ s.dev.hasQp (256 * fn.val + qp.val) = true ∧ s.dev.flag F.QCP_CTL_EN (256 * fn.val + qp.val) = true ∧ let n := 256 * fn.val + qp.val; let p := v.toNat % 65536; s.dev.ringAccepts n false p = true) ∧
    (∃ (s : State) (fn : Fin 512) (qp : Fin 256) (v : Word), Up s ∧ s.dev.passive = false ∧ s.dev.peerWaits = false ∧ s.dev.hasQp (256 * fn.val + qp.val) = true ∧ s.dev.flag F.QCP_CTL_EN (256 * fn.val + qp.val) = true ∧ let n := 256 * fn.val + qp.val; let p := v.toNat % 65536; s.dev.ringAccepts n true p = true) ∧
    (∃ (s : State) (fn : Fin 512) (qp : Fin 256) (v : Word), Up s ∧ s.dev.passive = false ∧ s.dev.peerWaits = false ∧ s.dev.hasQp (256 * fn.val + qp.val) = true ∧ s.dev.flag F.QCP_CTL_EN (256 * fn.val + qp.val) = true ∧ let n := 256 * fn.val + qp.val; let p := v.toNat % 65536; ∃ rq, s.dev.ringAccepts n rq p = false) ∧
    (∃ (s : State) (fn : Fin 512) (eq : Fin 16) (v : Word), Up s ∧ s.dev.passive = false ∧ s.dev.peerWaits = false ∧ s.dev.hasEq fn.val eq.val = true ∧ s.dev.flag F.EQC_CTL_EN (16 * fn.val + eq.val) = true ∧ let n := 16 * fn.val + eq.val; let ci := s.dev.fld F.EQC_STAT_CI n; let pi := s.dev.fld F.EQC_STAT_PI n; let c := v.toNat % 65536; idxDist pi ci < idxDist c ci) ∧
    (∃ (s : State) (fn : Fin 512) (eq : Fin 16) (v : Word), Up s ∧ s.dev.passive = false ∧ s.dev.peerWaits = false ∧ s.dev.hasEq fn.val eq.val = true ∧ s.dev.flag F.EQC_CTL_EN (16 * fn.val + eq.val) = true ∧ let n := 16 * fn.val + eq.val; let ci := s.dev.fld F.EQC_STAT_CI n; let pi := s.dev.fld F.EQC_STAT_PI n; let c := v.toNat % 65536; idxDist c ci ≤ idxDist pi ci ∧ bitOf v.toNat 31 = true ∧ pi ≠ c) ∧
    (∃ (s : State) (fn : Fin 512) (qp : Fin 256) (ws : List Write) (w : Write) (d : Dev), Takes s ⟨.QCP_CQ_ARM, 256 * fn.val + qp.val, 0, 0⟩ ws w d ∧ d.peerWaits = false) ∧
    (∃ (s : State) (fn : Fin 512) (qp : Fin 256) (ws : List Write) (w : Write) (d : Dev), Takes s ⟨.QCP_CTL, 256 * fn.val + qp.val, 0, 0⟩ ws w d ∧ d.flag F.QCP_CTL_EN (256 * fn.val + qp.val) = true ∧ bitOf w.value.toNat 31 = false ∧ F.QCP_CTL_PV.ofWord (d.wouldBe ⟨.QCP_CTL, 256 * fn.val + qp.val, 0, 0⟩ w.value) = d.fld F.QCP_CTL_PV (256 * fn.val + qp.val) ∧ F.QCP_CTL_PASID.ofWord (d.wouldBe ⟨.QCP_CTL, 256 * fn.val + qp.val, 0, 0⟩ w.value) = d.fld F.QCP_CTL_PASID (256 * fn.val + qp.val)) ∧
    (∃ (s : State) (host : Fin 2) (n : Nat) (t : Turn), Up s ∧ nextTurn (s.dev.turns.at {} host.val) (s.dev.sqReady host.val) = some (n, t) ∧ s.dev.readRoom (n / 256) = true) ∧
    (∃ (s : State) (fn : Fin 512) (qp : Fin 256) (j : Nat) (x : Job), Up s ∧ s.dev.nextFetched (256 * fn.val + qp.val) = some (j, x) ∧ x.op = 1 ∧ x.state = .ready) ∧
    (∃ (s : State) (fn : Fin 512) (qp : Fin 256) (j : Nat) (x : Job), Up s ∧ s.dev.nextFetched (256 * fn.val + qp.val) = some (j, x) ∧ x.op = 1 ∧ x.state ≠ .ready ∧ 0 < x.len) ∧
    (∃ (s : State) (fn : Fin 512) (qp : Fin 256) (j : Nat) (x : Job), Up s ∧ s.dev.nextFetched (256 * fn.val + qp.val) = some (j, x) ∧ x.op = 2 ∧ x.state = .ready) ∧
    (∃ (s : State) (fn : Fin 512) (qp : Fin 256) (j : Nat) (x : Job), Up s ∧ s.dev.nextFetched (256 * fn.val + qp.val) = some (j, x) ∧ x.op = 2 ∧ x.state ≠ .ready ∧ 0 < x.len) ∧
    (∃ (s : State) (fn : Fin 512) (qp : Fin 256) (j : Nat) (x : Job), Up s ∧ s.dev.nextFetched (256 * fn.val + qp.val) = some (j, x) ∧ x.op = 4 ∧ 0 < x.len) ∧
    (∃ (s : State) (fn : Fin 512) (qp : Fin 256) (j : Nat) (x : Job), Up s ∧ s.dev.nextFetched (256 * fn.val + qp.val) = some (j, x) ∧ x.op = 4 ∧ x.len = 0) ∧
    (∃ (s : State) (fn : Fin 512) (qp : Fin 256) (j : Nat) (x : Job), Up s ∧ s.dev.nextFetched (256 * fn.val + qp.val) = some (j, x) ∧ x.op = 5 ∧ s.dev.canIssue x.fn = true) ∧
    (∃ (s : State) (fn : Fin 512) (qp : Fin 256) (j : Nat) (x : Job), Up s ∧ s.dev.nextFetched (256 * fn.val + qp.val) = some (j, x) ∧ x.op = 0x30) ∧
    (∃ (s : State) (fn : Fin 512) (qp : Fin 256) (j : Nat) (x : Job), Up s ∧ s.dev.nextFetched (256 * fn.val + qp.val) = some (j, x) ∧ x.op = 0x31) ∧
    (∃ (s : State) (fn : Fin 512) (qp : Fin 256), Up s ∧ let n := 256 * fn.val + qp.val; let x := s.dev.rqRead n; s.dev.hasQp n = true ∧ s.dev.flag F.QCP_CTL_EN n = true ∧ s.dev.working fn.val = true ∧ s.dev.readRoom fn.val = true ∧ (s.dev.qp n).replayRq = 0 ∧ idxDist x (s.dev.fld F.QCP_IDX_RQ_CI n) < idxDist (s.dev.qp n).rqPi (s.dev.fld F.QCP_IDX_RQ_CI n)) ∧
    (∃ (s : State) (fn : Fin 512) (queue : Fin 512) (id j : Nat) (l : List Nat), Up s ∧ s.dev.hostQ.at [] (512 * fn.val + queue.val) = id :: l ∧ queue.val < 256 ∧ let n := 256 * fn.val + queue.val; s.dev.hasQp n = true ∧ s.dev.flag F.QCP_CTL_EN n = true ∧ s.dev.isChannel n = false ∧ s.dev.rqEmpty n = false ∧ s.dev.cqFull n = false ∧ s.dev.canIssue fn.val = true ∧ s.dev.rxNext n = some j) ∧
    (∃ (s : State) (fn : Fin 512) (qp : Fin 256) (rq : Bool) (j : Nat) (x : Job) (l : List (Nat × Job)), Up s ∧ s.dev.jobsOf (256 * fn.val + qp.val) rq = (j, x) :: l ∧ ((s.dev.settleStamp j).job j).state = .done) ∧
    (∃ (s : State) (ev : Event) (l : List Event), Up s ∧ s.dev.raised = ev :: l) := ⟨
  ⟨st (qpDev), 0, 1, 1, by decide +kernel⟩,
  ⟨st (qpDev), 0, 1, 1, by decide +kernel⟩,
  ⟨st qpDev, 0, 1, 0xFFFF, by decide +kernel, by decide +kernel, by decide +kernel, by decide +kernel, by decide +kernel, false, by decide +kernel⟩,
  ⟨st (qpDev), 0, 1, 1, by decide +kernel⟩,
  ⟨st (qpDev.setFld F.EQC_STAT_PI 1 0 2), 0, 1, 0x80000001, by decide +kernel⟩,
  ⟨st (qpDev), 0, 1, [ks 0x80000000], ks 0x80000000, (qpDev), takes_alone (by decide +kernel), by decide +kernel⟩,
  ⟨st (qpDev), 0, 1, [ks 0], ks 0, (qpDev), takes_alone (by decide +kernel), by decide +kernel⟩,
  ⟨st ({ qpDev with qps := [(1, { sqPi := 1 })] }), 0, 1, { round := 1, last := some 1 }, by decide +kernel⟩,
  ⟨st (jobDev 1 0 .ready), 0, 1, 7, jobOf 1 0 5 .ready false, by decide +kernel⟩,
  ⟨st (jobDev 1 1 .fetched), 0, 1, 7, jobOf 1 1 5 .fetched false, by decide +kernel⟩,
  ⟨st (jobDev 2 0 .ready), 0, 1, 7, jobOf 2 0 5 .ready false, by decide +kernel⟩,
  ⟨st (jobDev 2 1 .fetched), 0, 1, 7, jobOf 2 1 5 .fetched false, by decide +kernel⟩,
  ⟨st (jobDev 4 1 .fetched), 0, 1, 7, jobOf 4 1 5 .fetched false, by decide +kernel⟩,
  ⟨st (jobDev 4 0 .fetched), 0, 1, 7, jobOf 4 0 5 .fetched false, by decide +kernel⟩,
  ⟨st (jobDev 5 0 .fetched), 0, 1, 7, jobOf 5 0 5 .fetched false, by decide +kernel⟩,
  ⟨st (jobDev 0x30 0 .fetched), 0, 1, 7, jobOf 0x30 0 5 .fetched false, by decide +kernel⟩,
  ⟨st (jobDev 0x31 0 .fetched), 0, 1, 7, jobOf 0x31 0 5 .fetched false, by decide +kernel⟩,
  ⟨st ({ qpDev with qps := [(1, { rqPi := 1 })] }), 0, 1, by decide +kernel⟩,
  ⟨st ({ jobDev 3 64 .fetched true with qps := [(1, { rqPi := 1 })], hostQ := [(1, [9])] }), 0, 1, 9, 7, [], by decide +kernel⟩,
  ⟨st (jobDev 1 0 .done), 0, 1, false, 7, jobOf 1 0 5 .done false, [], by decide +kernel⟩,
  ⟨st ({ d0 with raised := [⟨1, none, 0, 0, 0, 0⟩] }), ⟨1, none, 0, 0, 0, 0⟩, [], by decide +kernel⟩⟩

theorem test_hyp_WindowCommandsComplete :
    (∃ (s : State) (fn : Fin 512) (ws : List Write) (w : Write) (d : Dev), Takes s ⟨.RMW_CMD, fn.val, 0, 0⟩ ws w d ∧ bitOf w.value.toNat 31 = true ∧ d.flag F.RMW_CMD_BUSY fn.val = false ∧ let f := fn.val; let e := d.plainWrite ⟨.RMW_CMD, fn.val, 0, 0⟩ w.value; e.fld F.RMW_CMD_OP f = 1) ∧
    (∃ (s : State) (fn : Fin 512) (ws : List Write) (w : Write) (d : Dev), Takes s ⟨.RMW_CMD, fn.val, 0, 0⟩ ws w d ∧ bitOf w.value.toNat 31 = true ∧ d.flag F.RMW_CMD_BUSY fn.val = false ∧ let f := fn.val; let e := d.plainWrite ⟨.RMW_CMD, fn.val, 0, 0⟩ w.value; e.fld F.RMW_CMD_OP f = 2) ∧
    (∃ (s : State) (fn : Fin 512) (ws : List Write) (w : Write) (d : Dev), Takes s ⟨.RMW_CMD, fn.val, 0, 0⟩ ws w d ∧ bitOf w.value.toNat 31 = true ∧ d.flag F.RMW_CMD_BUSY fn.val = false ∧ let f := fn.val; let e := d.plainWrite ⟨.RMW_CMD, fn.val, 0, 0⟩ w.value; e.fld F.RMW_CMD_OP f = 3) ∧
    (∃ (s : State) (fn : Fin 512) (ws : List Write) (w : Write) (d : Dev), Takes s ⟨.RMW_CMD, fn.val, 0, 0⟩ ws w d ∧ bitOf w.value.toNat 31 = true ∧ d.flag F.RMW_CMD_BUSY fn.val = false ∧ let f := fn.val; let e := d.plainWrite ⟨.RMW_CMD, fn.val, 0, 0⟩ w.value; e.fld F.RMW_CMD_OP f = 4) ∧
    (∃ (s : State) (fn : Fin 512) (ws : List Write) (w : Write) (d : Dev), Takes s ⟨.RMW_CMD, fn.val, 0, 0⟩ ws w d ∧ bitOf w.value.toNat 31 = true ∧ d.flag F.RMW_CMD_BUSY fn.val = false ∧ let f := fn.val; let e := d.plainWrite ⟨.RMW_CMD, fn.val, 0, 0⟩ w.value; let id := e.fld F.RMW_CMD_ID f; e.fld F.RMW_CMD_OP f = 5 ∧ e.ownsKey f id = true) ∧
    (∃ (s : State) (fn : Fin 512), Up s ∧ s.dev.keyInvals.at 0 fn.val ≠ 0 ∧ (s.dev.qpctxs.any fun e => e.2.keysOut.contains (s.dev.keyInvals.at 0 fn.val - 1)) = false) ∧
    (∃ (s : State) (fn : Fin 512) (page pasid : Nat), Up s ∧ s.dev.pageReqs.contains (fn.val, page, pasid) = true) ∧
    (∃ (s : State) (fn : Fin 512) (page pasid : Nat), Up s ∧ s.dev.pageReqs.contains (fn.val, page, pasid) = true ∧ ∃ (code : Fin 16), code.val ≠ 0 ∧ code.val ≠ 15) ∧
    (∃ (s : State) (key : Fin 16777216) (page : Nat) (at_ : Option Nat) (w : Nat × Nat × Nat × Nat), Up s ∧ keyDram (s.dev.key key.val) = true ∧ s.dev.tablePage (page * 4096) 4 (keyB (s.dev.key key.val) 28 8 / 4096 * 4096) = at_ ∧ (s.dev.odpWaits.find? fun e => e.1 == key.val && e.2.1 == page) = some w) := ⟨
  ⟨st (hostDev), 0, [ks 0x88000005], ks 0x88000005, (hostDev), takes_alone (by decide +kernel), by decide +kernel⟩,
  ⟨st (hostDev), 0, [ks 0x90000005], ks 0x90000005, (hostDev), takes_alone (by decide +kernel), by decide +kernel⟩,
  ⟨st (hostDev), 0, [ks 0x98000005], ks 0x98000005, (hostDev), takes_alone (by decide +kernel), by decide +kernel⟩,
  ⟨st (hostDev), 0, [ks 0xA0000005], ks 0xA0000005, (hostDev), takes_alone (by decide +kernel), by decide +kernel⟩,
  ⟨st (hostDev), 0, [ks 0xA8000005], ks 0xA8000005, (hostDev), takes_alone (by decide +kernel), by decide +kernel⟩,
  ⟨st ({ d0 with keyInvals := [(0, 6)] }), 0, by decide +kernel⟩,
  ⟨st ({ d0 with pageReqs := [(0, 3, 4)] }), 0, 3, 4, by decide +kernel⟩,
  ⟨st ({ d0 with pageReqs := [(0, 3, 4)] }), 0, 3, 4, by decide +kernel, by decide +kernel, 1, by decide +kernel⟩,
  ⟨st ({ d0 with odpWaits := [(5, 3, 0, 0)], keys := [(5, [0, 0x80])] }), 5, 3, none, (5, 3, 0, 0), by decide +kernel⟩⟩

theorem test_hyp_TransportCommandsComplete :
    (∃ (s : State) (fn : Fin 512) (qp : Fin 256) (j op : Nat) (x : Job), Up s ∧ let n := 256 * fn.val + qp.val; let d0 := s.dev.rmDrain; let d := (d0.updQctx x.qpn fun c => { c with stall := none }).touch (qpctxId x.qpn) (d0.qpRegion x.qpn); d0.rmNext n op = some (j, x) ∧ d0.ownsQpn fn.val x.qpn = true ∧ (d0.qctx x.qpn).state = 3 ∧ (d0.qctx x.qpn).page = n ∧ (d0.qctx x.qpn).bad = false ∧ (x.op = 0x28 → x.plt = 1 ∨ x.plt = 2) ∧ d.canIssue fn.val = true ∧ op = 0x20) ∧
    (∃ (s : State) (fn : Fin 512) (qp : Fin 256) (j op : Nat) (x : Job), Up s ∧ let n := 256 * fn.val + qp.val; let d0 := s.dev.rmDrain; let d := (d0.updQctx x.qpn fun c => { c with stall := none }).touch (qpctxId x.qpn) (d0.qpRegion x.qpn); d0.rmNext n op = some (j, x) ∧ d0.ownsQpn fn.val x.qpn = true ∧ (d0.qctx x.qpn).state = 3 ∧ (d0.qctx x.qpn).page = n ∧ (d0.qctx x.qpn).bad = false ∧ (x.op = 0x28 → x.plt = 1 ∨ x.plt = 2) ∧ d.canIssue fn.val = true ∧ op = 0x21) ∧
    (∃ (s : State) (fn : Fin 512) (qp : Fin 256) (j op : Nat) (x : Job), Up s ∧ let n := 256 * fn.val + qp.val; let d0 := s.dev.rmDrain; let d := (d0.updQctx x.qpn fun c => { c with stall := none }).touch (qpctxId x.qpn) (d0.qpRegion x.qpn); d0.rmNext n op = some (j, x) ∧ d0.ownsQpn fn.val x.qpn = true ∧ (d0.qctx x.qpn).state = 3 ∧ (d0.qctx x.qpn).page = n ∧ (d0.qctx x.qpn).bad = false ∧ (x.op = 0x28 → x.plt = 1 ∨ x.plt = 2) ∧ d.canIssue fn.val = true ∧ op = 0x22) ∧
    (∃ (s : State) (fn : Fin 512) (qp : Fin 256) (j op : Nat) (x : Job), Up s ∧ let n := 256 * fn.val + qp.val; let d0 := s.dev.rmDrain; let d := (d0.updQctx x.qpn fun c => { c with stall := none }).touch (qpctxId x.qpn) (d0.qpRegion x.qpn); d0.rmNext n op = some (j, x) ∧ d0.ownsQpn fn.val x.qpn = true ∧ (d0.qctx x.qpn).state = 3 ∧ (d0.qctx x.qpn).page = n ∧ (d0.qctx x.qpn).bad = false ∧ (x.op = 0x28 → x.plt = 1 ∨ x.plt = 2) ∧ d.canIssue fn.val = true ∧ op = 0x23) ∧
    (∃ (s : State) (fn : Fin 512) (qp : Fin 256) (j op : Nat) (x : Job), Up s ∧ let n := 256 * fn.val + qp.val; let d0 := s.dev.rmDrain; let d := (d0.updQctx x.qpn fun c => { c with stall := none }).touch (qpctxId x.qpn) (d0.qpRegion x.qpn); d0.rmNext n op = some (j, x) ∧ d0.ownsQpn fn.val x.qpn = true ∧ (d0.qctx x.qpn).state = 3 ∧ (d0.qctx x.qpn).page = n ∧ (d0.qctx x.qpn).bad = false ∧ (x.op = 0x28 → x.plt = 1 ∨ x.plt = 2) ∧ d.canIssue fn.val = true ∧ op = 0x24) ∧
    (∃ (s : State) (fn : Fin 512) (qp : Fin 256) (j op : Nat) (x : Job), Up s ∧ let n := 256 * fn.val + qp.val; let d0 := s.dev.rmDrain; let d := (d0.updQctx x.qpn fun c => { c with stall := none }).touch (qpctxId x.qpn) (d0.qpRegion x.qpn); d0.rmNext n op = some (j, x) ∧ d0.ownsQpn fn.val x.qpn = true ∧ (d0.qctx x.qpn).state = 3 ∧ (d0.qctx x.qpn).page = n ∧ (d0.qctx x.qpn).bad = false ∧ (x.op = 0x28 → x.plt = 1 ∨ x.plt = 2) ∧ d.canIssue fn.val = true ∧ op = 0x25) ∧
    (∃ (s : State) (fn : Fin 512) (qp : Fin 256) (j op : Nat) (x : Job), Up s ∧ let n := 256 * fn.val + qp.val; let d0 := s.dev.rmDrain; let d := (d0.updQctx x.qpn fun c => { c with stall := none }).touch (qpctxId x.qpn) (d0.qpRegion x.qpn); d0.rmNext n op = some (j, x) ∧ d0.ownsQpn fn.val x.qpn = true ∧ (d0.qctx x.qpn).state = 3 ∧ (d0.qctx x.qpn).page = n ∧ (d0.qctx x.qpn).bad = false ∧ (x.op = 0x28 → x.plt = 1 ∨ x.plt = 2) ∧ d.canIssue fn.val = true ∧ op = 0x26) ∧
    (∃ (s : State) (fn : Fin 512) (qp : Fin 256) (j op : Nat) (x : Job), Up s ∧ let n := 256 * fn.val + qp.val; let d0 := s.dev.rmDrain; let d := (d0.updQctx x.qpn fun c => { c with stall := none }).touch (qpctxId x.qpn) (d0.qpRegion x.qpn); d0.rmNext n op = some (j, x) ∧ d0.ownsQpn fn.val x.qpn = true ∧ (d0.qctx x.qpn).state = 3 ∧ (d0.qctx x.qpn).page = n ∧ (d0.qctx x.qpn).bad = false ∧ (x.op = 0x28 → x.plt = 1 ∨ x.plt = 2) ∧ d.canIssue fn.val = true ∧ op = 0x27) ∧
    (∃ (s : State) (fn : Fin 512) (qp : Fin 256) (j op : Nat) (x : Job), Up s ∧ let n := 256 * fn.val + qp.val; let d0 := s.dev.rmDrain; let d := (d0.updQctx x.qpn fun c => { c with stall := none }).touch (qpctxId x.qpn) (d0.qpRegion x.qpn); d0.rmNext n op = some (j, x) ∧ d0.ownsQpn fn.val x.qpn = true ∧ (d0.qctx x.qpn).state = 3 ∧ (d0.qctx x.qpn).page = n ∧ (d0.qctx x.qpn).bad = false ∧ (x.op = 0x28 → x.plt = 1 ∨ x.plt = 2) ∧ d.canIssue fn.val = true ∧ op = 0x28) ∧
    (∃ (s : State) (qpn : Fin 16777216) (path : Fin 8) (t : Nat), Up s ∧ ((s.dev.qctx qpn.val).path path.val).timer = some t ∧ ((s.dev.qctx qpn.val).state = 2 ∨ (s.dev.qctx qpn.val).state = 3) ∧ ((s.dev.qctx qpn.val).path path.val).unacked ≠ [] ∧ ((s.dev.qctx qpn.val).path path.val).waits = false) ∧
    (∃ (s : State) (qpn : Fin 16777216) (t : Nat) (l : List Nat), Up s ∧ ((s.dev.qctx qpn.val).paths.filterMap fun p => p.rnrUntil) = t :: l) ∧
    (∃ (s : State) (qpn : Fin 16777216) (t j : Nat), Up s ∧ (s.dev.qctx qpn.val).stall = some (t, j)) ∧
    (∃ (s : State) (region : Fin 4) (id : Nat) (ib : List Byte) (ce : Bool), Up s ∧ s.dev.enginePacket region.val = some (id, some (ib, ce)) ∧ let op := be ib 0 1; let q := be ib 5 3; let d0 := s.dev.rmDrain.engineTake id; let d := d0.touch (qpctxId q) (s.dev.qpRegion q); (d.qctx q).state = 3 ∧ (d.qctx q).bad = false ∧ op = 0x11 ∧ (d.qctx q).mp = false) ∧
    (∃ (s : State) (region : Fin 4) (id : Nat) (ib : List Byte) (ce : Bool), Up s ∧ s.dev.enginePacket region.val = some (id, some (ib, ce)) ∧ let op := be ib 0 1; let q := be ib 5 3; let d0 := s.dev.rmDrain.engineTake id; let d := d0.touch (qpctxId q) (s.dev.qpRegion q); (d.qctx q).state = 3 ∧ (d.qctx q).bad = false ∧ op = 0x12 ∧ (d.qctx q).mp = false) ∧
    (∃ (s : State) (region : Fin 4) (id : Nat) (ib : List Byte) (ce : Bool), Up s ∧ s.dev.enginePacket region.val = some (id, some (ib, ce)) ∧ let op := be ib 0 1; let q := be ib 5 3; let d0 := s.dev.rmDrain.engineTake id; let d := d0.touch (qpctxId q) (s.dev.qpRegion q); (d.qctx q).state = 3 ∧ (d.qctx q).bad = false ∧ op = 0xE1 ∧ (d.qctx q).mp = true) ∧
    (∃ (s : State) (region : Fin 4) (id : Nat) (ib : List Byte) (ce : Bool), Up s ∧ s.dev.enginePacket region.val = some (id, some (ib, ce)) ∧ let op := be ib 0 1; let q := be ib 5 3; let d0 := s.dev.rmDrain.engineTake id; let d := d0.touch (qpctxId q) (s.dev.qpRegion q); (d.qctx q).state = 3 ∧ (d.qctx q).bad = false ∧ 0x0D ≤ op ∧ op ≤ 0x10 ∧ (d.qctx q).mp = false) ∧
    (∃ (s : State) (region : Fin 4) (id : Nat) (ib : List Byte) (y : Bool), Up s ∧ s.dev.enginePacket region.val = some (id, some (ib, y)) ∧ let q := be ib 5 3; let d := (s.dev.rmDrain.engineTake id).rmCount q 10; be ib 0 1 = 0x81 ∧ ((s.dev.rmDrain.engineTake id).qctx q).state = 3 ∧ d.flag F.RMA_CC_EN = true) ∧
    (∃ (s : State) (region : Fin 4) (qpn no : Fin 16777216) (id : Nat) (ib : List Byte) (ce : Bool), Up s ∧ s.dev.enginePacket region.val = some (id, some (ib, ce)) ∧ let op := be ib 0 1; let q := be ib 5 3; let psn := be ib 9 3; let c := s.dev.rmDrain.qctx q; let d := (s.dev.rmDrain.touch (qpctxId q) (s.dev.rmDrain.qpRegion q)).resyncRx q 0 psn; q = qpn.val ∧ psn = no.val ∧ opClass op = 1 ∧ s.dev.rmDrain.qpHears q = true ∧ c.mp = false ∧ c.bad = false ∧ psn = ((d.qctx q).path 0).expect ∧ (rcKind op).1 = 0) ∧
    (∃ (s : State) (region : Fin 4) (qpn no : Fin 16777216) (id : Nat) (ib : List Byte) (ce : Bool), Up s ∧ s.dev.enginePacket region.val = some (id, some (ib, ce)) ∧ let op := be ib 0 1; let q := be ib 5 3; let psn := be ib 9 3; let c := s.dev.rmDrain.qctx q; let d := (s.dev.rmDrain.touch (qpctxId q) (s.dev.rmDrain.qpRegion q)).resyncRx q 0 psn; q = qpn.val ∧ psn = no.val ∧ opClass op = 1 ∧ s.dev.rmDrain.qpHears q = true ∧ c.mp = false ∧ c.bad = false ∧ psn = ((d.qctx q).path 0).expect ∧ (rcKind op).1 = 2) ∧
    (∃ (s : State) (region : Fin 4) (qpn no : Fin 16777216) (id : Nat) (ib : List Byte) (ce : Bool), Up s ∧ s.dev.enginePacket region.val = some (id, some (ib, ce)) ∧ let op := be ib 0 1; let q := be ib 5 3; let psn := be ib 9 3; let c := s.dev.rmDrain.qctx q; let d := (s.dev.rmDrain.touch (qpctxId q) (s.dev.rmDrain.qpRegion q)).resyncRx q 0 psn; q = qpn.val ∧ psn = no.val ∧ opClass op = 1 ∧ s.dev.rmDrain.qpHears q = true ∧ c.mp = false ∧ c.bad = false ∧ psn = ((d.qctx q).path 0).expect ∧ (rcKind op).1 ≠ 0 ∧ (rcKind op).1 ≠ 2) ∧
    (∃ (s : State) (region : Fin 4) (qpn no : Fin 16777216) (id : Nat) (ib : List Byte) (ce : Bool) (e : Dev), Up s ∧ s.dev.enginePacket region.val = some (id, some (ib, ce)) ∧ let q := be ib 5 3; let psn := be ib 9 3; let p := be ib 12 1 / 4 % 8; let c := s.dev.qctx q; let d := (s.dev.rmDrain.touch (qpctxId q) (s.dev.rmDrain.qpRegion q)).resyncRx q p psn; q = qpn.val ∧ psn = no.val ∧ be ib 0 1 = 0xE0 ∧ s.dev.rmDrain.qpHears q = true ∧ c.mp = true ∧ c.bad = false ∧ psn = ((d.qctx q).path p).expect ∧ d.mpInOrder q p psn ib = .done e true ∧ (e.congestion q ce).qpHears q = true) := ⟨
  ⟨st (rdmaDev false (jobDev 0x20 0 .fetched)), 0, 1, 7, 0x20, jobOf 0x20 0 5 .fetched false, by decide +kernel⟩,
  ⟨st (rdmaDev false (jobDev 0x21 0 .fetched)), 0, 1, 7, 0x21, jobOf 0x21 0 5 .fetched false, by decide +kernel⟩,
  ⟨st (rdmaDev false (jobDev 0x22 0 .fetched)), 0, 1, 7, 0x22, jobOf 0x22 0 5 .fetched false, by decide +kernel⟩,
  ⟨st (rdmaDev false (jobDev 0x23 0 .fetched)), 0, 1, 7, 0x23, jobOf 0x23 0 5 .fetched false, by decide +kernel⟩,
  ⟨st (rdmaDev false (jobDev 0x24 0 .fetched)), 0, 1, 7, 0x24, jobOf 0x24 0 5 .fetched false, by decide +kernel⟩,
  ⟨st (rdmaDev false (jobDev 0x25 0 .fetched)), 0, 1, 7, 0x25, jobOf 0x25 0 5 .fetched false, by decide +kernel⟩,
  ⟨st (rdmaDev false (jobDev 0x26 0 .fetched)), 0, 1, 7, 0x26, jobOf 0x26 0 5 .fetched false, by decide +kernel⟩,
  ⟨st (rdmaDev false (jobDev 0x27 0 .fetched)), 0, 1, 7, 0x27, jobOf 0x27 0 5 .fetched false, by decide +kernel⟩,
  ⟨st (rdmaDev false (jobDev 0x28 0 .fetched)), 0, 1, 7, 0x28, jobOf 0x28 0 5 .fetched false, by decide +kernel⟩,
  ⟨st ((rdmaDev false d0).updQctx 5 fun c => { c with paths := [{ timer := some 0, unacked := [{}] }] }), 5, 0, 0, by decide +kernel⟩,
  ⟨st ((rdmaDev false d0).updQctx 5 fun c => { c with paths := [{ rnrUntil := some 5 }] }), 5, 5, [], by decide +kernel⟩,
  ⟨st ((rdmaDev false d0).updQctx 5 fun c => { c with stall := some (5, 7) }), 5, 5, 7, by decide +kernel⟩,
  ⟨st (engineDev false (ibOf 0x11)), 1, 1, ibOf 0x11, false, by decide +kernel⟩,
  ⟨st (engineDev false (ibOf 0x12)), 1, 1, ibOf 0x12, false, by decide +kernel⟩,
  ⟨st (engineDev true (ibOf 0xE1)), 1, 1, ibOf 0xE1, false, by decide +kernel⟩,
  ⟨st (engineDev false (ibOf 0x10)), 1, 1, ibOf 0x10, false, by decide +kernel⟩,
  ⟨st ((engineDev false (ibOf 0x81)).setFld F.RMA_CC_EN 0 0 1), 1, 1, ibOf 0x81, false, by decide +kernel⟩,
  ⟨st (engineDev false (ibOf 4)), 1, 5, 0, 1, ibOf 4, false, by decide +kernel⟩,
  ⟨st (engineDev false (ibOf 10)), 1, 5, 0, 1, ibOf 10, false, by decide +kernel⟩,
  ⟨st (engineDev false (ibOf 0x0C)), 1, 5, 0, 1, ibOf 0x0C, false, by decide +kernel⟩,
  ⟨st (engineDev true mpBytes), 1, 5, 0, 1, mpBytes, false, _, by decide +kernel, by decide +kernel, by decide +kernel, by decide +kernel, by decide +kernel, by decide +kernel, by decide +kernel, by decide +kernel, by decide +kernel, rfl, by decide +kernel⟩⟩

theorem test_hyp_NvmeControlCommandsComplete :
    (∃ (s : State) (fn : Fin 512) (value : Word), Up s ∧ s.dev.passive = false ∧ s.dev.hasNvme fn.val = true ∧ let f := fn.val; let v := value.toNat; let e := s.dev.updNvme f fun c => { c with cc := v % 2 ^ 24 }; bitOf v 0 = true ∧ bitOf (s.dev.nvme f).cc 0 = false ∧ bitsOf v 15 14 = 0 ∧ bitsOf (e.nvme f).cc 10 7 ≤ 4 ∧ bitsOf (e.nvme f).cc 6 4 = 0 ∧ bitsOf (e.nvme f).cc 13 11 = 0) ∧
    (∃ (s : State) (fn : Fin 512) (value : Word), Up s ∧ s.dev.passive = false ∧ s.dev.hasNvme fn.val = true ∧ let f := fn.val; let v := value.toNat; bitOf v 0 = false ∧ bitOf (s.dev.nvme f).cc 0 = true ∧ bitsOf v 15 14 = 0) ∧
    (∃ (s : State) (fn : Fin 512) (value : Word), Up s ∧ s.dev.passive = false ∧ s.dev.hasNvme fn.val = true ∧ let f := fn.val; let v := value.toNat; let e := s.dev.updNvme f fun c => { c with cc := v % 2 ^ 24 }; bitOf v 0 = bitOf (s.dev.nvme f).cc 0 ∧ bitsOf v 15 14 ≠ 0 ∧ (e.nvme f).shut = 0) ∧
    (∃ (s : State) (fn : Fin 512), Up s ∧ (s.dev.stoCmds.any fun e => e.2.fn == fn.val && e.2.ofNvme) = false ∧ (s.dev.nvme fn.val).shut = 1 ∧ s.dev.nvFabric fn.val = []) ∧
    (∃ (s : State) (fn : Fin 512), Up s ∧ (s.dev.stoCmds.any fun e => e.2.fn == fn.val && e.2.ofNvme) = false ∧ (s.dev.nvme fn.val).shut = 1 ∧ s.dev.nvFabric fn.val ≠ []) ∧
    (∃ (s : State) (fn : Fin 512), Up s ∧ (s.dev.stoCmds.any fun e => e.2.fn == fn.val && e.2.ofNvme) = false ∧ (s.dev.nvme fn.val).shut = 2) ∧
    (∃ (s : State) (fn : Fin 512) (y : Fin 1025) (value : Word) (q : NvmeQ), Up s ∧ s.dev.passive = false ∧ s.dev.hasNvme fn.val = true ∧ s.dev.peerWaits = false ∧ (s.dev.nvme fn.val).rdy = true ∧ value.toNat % 65536 < q.size ∧ (s.dev.nvme fn.val).sqs.at none y.val = some q) ∧
    (∃ (s : State) (fn : Fin 512) (y : Fin 1025) (value : Word) (q : NvmeQ), Up s ∧ s.dev.passive = false ∧ s.dev.hasNvme fn.val = true ∧ s.dev.peerWaits = false ∧ (s.dev.nvme fn.val).rdy = true ∧ value.toNat % 65536 < q.size ∧ (s.dev.nvme fn.val).cqs.at none y.val = some q) ∧
    (∃ (s : State) (fn : Fin 512) (sqe : List Byte) (op : Nat) (q : NvmeQ), Fetches s fn.val 0 op sqe q ∧ let f := fn.val; let d := s.dev.nvTaken f 0 q; let id := sqeDw sqe 10 % 65536; let n := sqeDw sqe 10 / 65536; let dw := sqeDw sqe 11; op = 5 ∧ id ≠ 0 ∧ id ≤ (d.res f).ioqMax ∧ (d.nvme f).cqs.at none id = none ∧ n ≠ 0 ∧ bitOf dw 0 = true ∧ dw / 65536 < (d.res f).vecCnt) ∧
    (∃ (s : State) (fn : Fin 512) (sqe : List Byte) (op : Nat) (q : NvmeQ), Fetches s fn.val 0 op sqe q ∧ let f := fn.val; let d := s.dev.nvTaken f 0 q; let id := sqeDw sqe 10 % 65536; let n := sqeDw sqe 10 / 65536; let dw := sqeDw sqe 11; op = 1 ∧ id ≠ 0 ∧ id ≤ (d.res f).ioqMax ∧ (d.nvme f).sqs.at none id = none ∧ n ≠ 0 ∧ dw / 65536 ≠ 0 ∧ (d.nvme f).cqs.at none (dw / 65536) ≠ none ∧ bitOf dw 0 = true) ∧
    (∃ (s : State) (fn : Fin 512) (sqe : List Byte) (op : Nat) (q : NvmeQ), Fetches s fn.val 0 op sqe q ∧ let f := fn.val; let d := s.dev.nvTaken f 0 q; let id := sqeDw sqe 10 % 65536; op = 4 ∧ id ≠ 0 ∧ (d.nvme f).cqs.at none id ≠ none ∧ ((∀ e ∈ (d.nvme f).sqs, e.1 = 0 ∨ ∀ x, e.2 = some x → x.cq ≠ id))) ∧
    (∃ (s : State) (fn : Fin 512) (sqe : List Byte) (op : Nat) (q : NvmeQ), Fetches s fn.val 0 op sqe q ∧ let f := fn.val; let d := s.dev.nvTaken f 0 q; let id := sqeDw sqe 10 % 65536; op = 0 ∧ ((id = 0 ∨ (d.nvme f).sqs.at none id = none))) ∧
    (∃ (s : State) (fn : Fin 512) (sqe : List Byte) (op : Nat) (q : NvmeQ), Fetches s fn.val 0 op sqe q ∧ let f := fn.val; let d := s.dev.nvTaken f 0 q; op = 6 ∧ sqeDw sqe 10 % 256 ≤ 3 ∧ ∃ bs, d.identify f (sqeDw sqe 10 % 256) (sqeNsid sqe) = some bs) ∧
    (∃ (s : State) (fn : Fin 512) (sqe : List Byte) (op : Nat) (q : NvmeQ), Fetches s fn.val 0 op sqe q ∧ let n := sqeDw sqe 10 / 65536; let dw := sqeDw sqe 11; op = 2 ∧ sqeDw sqe 10 % 256 = 4 ∧ 4 * (n + dw % 65536 * 65536 + 1) ≤ 1048576) ∧
    (∃ (s : State) (fn : Fin 512) (sqe : List Byte) (op : Nat) (q : NvmeQ), Fetches s fn.val 0 op sqe q ∧ op = 0x0A ∧ sqeDw sqe 10 % 256 ∈ featIds ∧ bitsOf (sqeDw sqe 10) 10 8 = 0) ∧
    (∃ (s : State) (fn : Fin 512) (sqe : List Byte) (op : Nat) (q : NvmeQ), Fetches s fn.val 0 op sqe q ∧ op = 9 ∧ sqeDw sqe 10 % 256 ∈ featIds ∧ bitOf (sqeDw sqe 10) 31 = false ∧ sqeDw sqe 10 % 256 ≠ 7 ∧ sqeDw sqe 10 % 256 ≠ 9) ∧
    (∃ (s : State) (fn : Fin 512) (sqe : List Byte) (op : Nat) (q : NvmeQ), Fetches s fn.val 0 op sqe q ∧ op = 8) ∧
    (∃ (s : State) (fn : Fin 512) (sqe : List Byte) (op : Nat) (q : NvmeQ), Fetches s fn.val 0 op sqe q ∧ let f := fn.val; let d := s.dev.nvTaken f 0 q; op = 0x0C ∧ (d.nvme f).aers = []) := ⟨
  ⟨st (nvDev.updNvme 0 fun c => { c with cc := 0 }), 0, 1, by decide +kernel⟩,
  ⟨st (nvDev), 0, 0, by decide +kernel⟩,
  ⟨st (nvDev), 0, 0x4001, by decide +kernel⟩,
  ⟨st (d0.updNvme 0 fun c => { c with shut := 1 }), 0, by decide +kernel⟩,
  ⟨st (((nvDev.setFld F.STO_NS_KIND 0 3 1).updNvme 0 fun c => { c with shut := 1 })), 0, by decide +kernel⟩,
  ⟨st (d0.updNvme 0 fun c => { c with shut := 2 }), 0, by decide +kernel⟩,
  ⟨st (nvDev), 0, 1, 3, sq 1, by decide +kernel⟩,
  ⟨st (nvDev), 0, 2, 3, sq 2, by decide +kernel⟩,
  ⟨st (nvDev), 0, sqe 5 0 65544 196609 0, 5, sq 0, by decide +kernel⟩,
  ⟨st (nvDev), 0, sqe 1 0 65544 131073 0, 1, sq 0, by decide +kernel⟩,
  ⟨st nvDev, 0, sqe 4 0 2 0 0, 4, { sq 0 with cq := 0 }, by decide +kernel, rfl, by decide +kernel, by decide +kernel, by decide +kernel⟩,
  ⟨st (nvDev), 0, sqe 0 0 0 0 0, 0, sq 0, by decide +kernel⟩,
  ⟨st nvDev, 0, sqe 6 1 0 0 0, 6, sq 0, by decide +kernel, by decide +kernel, by decide +kernel, _, (Option.some_get (by decide +kernel)).symm⟩,
  ⟨st (nvDev), 0, sqe 2 0 4294901764 3 0, 2, sq 0, by decide +kernel⟩,
  ⟨st (nvDev), 0, sqe 10 0 7 0 0, 10, sq 0, by decide +kernel⟩,
  ⟨st (nvDev), 0, sqe 9 0 1 5 0, 9, sq 0, by decide +kernel⟩,
  ⟨st (nvDev), 0, sqe 8 0 0 0 0, 8, sq 0, by decide +kernel⟩,
  ⟨st (nvDev), 0, sqe 12 0 0 0 0, 12, sq 0, by decide +kernel⟩⟩

theorem test_hyp_NvmeIoCommandsComplete :
    (∃ (s : State) (fn : Fin 512) (sq : Fin 1025) (sqe : List Byte) (op : Nat) (q : NvmeQ), sq.val ≠ 0 ∧ Fetches s fn.val sq.val op sqe q ∧ let f := fn.val; let d := s.dev.nvTaken f sq.val q; d.nvNs f (sqeNsid sqe) = none ∧ op = 2) ∧
    (∃ (s : State) (fn : Fin 512) (sq : Fin 1025) (sqe : List Byte) (op : Nat) (q : NvmeQ), sq.val ≠ 0 ∧ Fetches s fn.val sq.val op sqe q ∧ let f := fn.val; let d := s.dev.nvTaken f sq.val q; d.nvNs f (sqeNsid sqe) = none ∧ op = 1) ∧
    (∃ (s : State) (fn : Fin 512) (sq : Fin 1025) (sqe : List Byte) (op : Nat) (q : NvmeQ), sq.val ≠ 0 ∧ Fetches s fn.val sq.val op sqe q ∧ let f := fn.val; let d := s.dev.nvTaken f sq.val q; d.nvNs f (sqeNsid sqe) = none ∧ op = 0) ∧
    (∃ (s : State) (fn : Fin 512) (sq : Fin 1025) (sqe : List Byte) (op : Nat) (q : NvmeQ), sq.val ≠ 0 ∧ Fetches s fn.val sq.val op sqe q ∧ let f := fn.val; let d := s.dev.nvTaken f sq.val q; d.nvNs f (sqeNsid sqe) = none ∧ op = 8) ∧
    (∃ (s : State) (fn : Fin 512) (sq : Fin 1025) (sqe : List Byte) (op : Nat) (q : NvmeQ), sq.val ≠ 0 ∧ Fetches s fn.val sq.val op sqe q ∧ let f := fn.val; let d := s.dev.nvTaken f sq.val q; d.nvNs f (sqeNsid sqe) = none ∧ op = 9) ∧
    (∃ (s : State) (fn : Fin 512) (sq : Fin 1025) (sqe : List Byte) (op n : Nat) (q : NvmeQ), sq.val ≠ 0 ∧ Fetches s fn.val sq.val op sqe q ∧ let f := fn.val; let d := s.dev.nvTaken f sq.val q; let lba := sqeDw sqe 11 * 2 ^ 32 + sqeDw sqe 10; let blocks := sqeDw sqe 12 % 65536 + 1; let bytes := blocks * d.nsBlock n; let fits := lba + blocks ≤ d.nsSize n; d.nvNs f (sqeNsid sqe) = some n ∧ op = 2 ∧ bytes ≤ 1048576 ∧ fits ∧ 0 < bytes) ∧
    (∃ (s : State) (fn : Fin 512) (sq : Fin 1025) (sqe : List Byte) (op n : Nat) (q : NvmeQ), sq.val ≠ 0 ∧ Fetches s fn.val sq.val op sqe q ∧ let f := fn.val; let d := s.dev.nvTaken f sq.val q; let lba := sqeDw sqe 11 * 2 ^ 32 + sqeDw sqe 10; let blocks := sqeDw sqe 12 % 65536 + 1; let bytes := blocks * d.nsBlock n; let fits := lba + blocks ≤ d.nsSize n; d.nvNs f (sqeNsid sqe) = some n ∧ op = 1 ∧ bytes ≤ 1048576 ∧ fits ∧ 0 < bytes) ∧
    (∃ (s : State) (fn : Fin 512) (sq : Fin 1025) (sqe : List Byte) (op n : Nat) (q : NvmeQ), sq.val ≠ 0 ∧ Fetches s fn.val sq.val op sqe q ∧ let f := fn.val; let d := s.dev.nvTaken f sq.val q; let blocks := sqeDw sqe 12 % 65536 + 1; let bytes := blocks * d.nsBlock n; d.nvNs f (sqeNsid sqe) = some n ∧ (op = 1 ∨ op = 2) ∧ 1048576 < bytes ∧ op = 2) ∧
    (∃ (s : State) (fn : Fin 512) (sq : Fin 1025) (sqe : List Byte) (op n : Nat) (q : NvmeQ), sq.val ≠ 0 ∧ Fetches s fn.val sq.val op sqe q ∧ let f := fn.val; let d := s.dev.nvTaken f sq.val q; let blocks := sqeDw sqe 12 % 65536 + 1; let bytes := blocks * d.nsBlock n; d.nvNs f (sqeNsid sqe) = some n ∧ (op = 1 ∨ op = 2) ∧ 1048576 < bytes ∧ op = 1) ∧
    (∃ (s : State) (fn : Fin 512) (sq : Fin 1025) (sqe : List Byte) (op n : Nat) (q : NvmeQ), sq.val ≠ 0 ∧ Fetches s fn.val sq.val op sqe q ∧ let f := fn.val; let d := s.dev.nvTaken f sq.val q; d.nvNs f (sqeNsid sqe) = some n ∧ op = 0) ∧
    (∃ (s : State) (fn : Fin 512) (sq : Fin 1025) (sqe : List Byte) (op n : Nat) (q : NvmeQ), sq.val ≠ 0 ∧ Fetches s fn.val sq.val op sqe q ∧ let f := fn.val; let d := s.dev.nvTaken f sq.val q; let lba := sqeDw sqe 11 * 2 ^ 32 + sqeDw sqe 10; let blocks := sqeDw sqe 12 % 65536 + 1; let fits := lba + blocks ≤ d.nsSize n; d.nvNs f (sqeNsid sqe) = some n ∧ op = 8 ∧ fits) ∧
    (∃ (s : State) (fn : Fin 512) (sq : Fin 1025) (sqe : List Byte) (op n : Nat) (q : NvmeQ), sq.val ≠ 0 ∧ Fetches s fn.val sq.val op sqe q ∧ let f := fn.val; let d := s.dev.nvTaken f sq.val q; let lba := sqeDw sqe 11 * 2 ^ 32 + sqeDw sqe 10; let blocks := sqeDw sqe 12 % 65536 + 1; let fits := lba + blocks ≤ d.nsSize n; d.nvNs f (sqeNsid sqe) = some n ∧ op = 8 ∧ ¬ fits) ∧
    (∃ (s : State) (fn : Fin 512) (sq : Fin 1025) (sqe data : List Byte) (op n : Nat) (q : NvmeQ), sq.val ≠ 0 ∧ Fetches s fn.val sq.val op sqe q ∧ let f := fn.val; let d := s.dev.nvTaken f sq.val q; d.nvNs f (sqeNsid sqe) = some n ∧ let count := sqeDw sqe 10 % 256 + 1; op = 9 ∧ d.rangesOut n count data = true) ∧
    (∃ (s : State) (fn : Fin 512) (sq : Fin 1025) (sqe data : List Byte) (op n : Nat) (q : NvmeQ), sq.val ≠ 0 ∧ Fetches s fn.val sq.val op sqe q ∧ let f := fn.val; let d := s.dev.nvTaken f sq.val q; d.nvNs f (sqeNsid sqe) = some n ∧ let count := sqeDw sqe 10 % 256 + 1; op = 9 ∧ d.rangesOut n count data = false) ∧
    (∃ (s : State) (id : Nat) (p : Nat), Up s ∧ (s.dev.stoCmd id).path = some p ∧ ∃ e, (s.dev.stoCmd id).outcome = some e) ∧
    (∃ (s : State) (id status : Nat) (p : Nat), Up s ∧ (s.dev.stoCmd id).path = some p ∧ (s.dev.stoCmd id).outcome = none ∧ status ≠ 0) ∧
    (∃ (s : State) (id status : Nat) (p : Nat), Up s ∧ (s.dev.stoCmd id).path = some p ∧ (s.dev.stoCmd id).outcome = none ∧ status = 0 ∧ (s.dev.stoCmd id).op = 2) ∧
    (∃ (s : State) (path : Fin 255), Up s ∧ s.dev.pathLive path.val = true ∧ s.dev.fld F.STO_PATH_KIND 0 path.val = 0 ∧ (s.dev.qctx (s.dev.fld F.STO_PATH_HANDLE 0 path.val)).state = 4) ∧
    (∃ (s : State) (path : Fin 255) (ws : List Write) (w : Write) (d : Dev), Takes s ⟨.STO_PATH, 0, path.val, 0⟩ ws w d ∧ s.dev.pathLive path.val = false) := ⟨
  ⟨st (nvDev), 0, 1, sqe 2 9 0 0 0, 2, sq 1, by decide +kernel⟩,
  ⟨st (nvDev), 0, 1, sqe 1 9 0 0 0, 1, sq 1, by decide +kernel⟩,
  ⟨st (nvDev), 0, 1, sqe 0 9 0 0 0, 0, sq 1, by decide +kernel⟩,
  ⟨st (nvDev), 0, 1, sqe 8 9 0 0 0, 8, sq 1, by decide +kernel⟩,
  ⟨st (nvDev), 0, 1, sqe 9 9 0 0 0, 9, sq 1, by decide +kernel⟩,
  ⟨st (nvDev), 0, 1, sqe 2 1 744 0 255, 2, 3, sq 1, by decide +kernel⟩,
  ⟨st (nvDev), 0, 1, sqe 1 1 999 0 0, 1, 3, sq 1, by decide +kernel⟩,
  ⟨st (nvDev), 0, 1, sqe 2 1 0 0 256, 2, 3, sq 1, by decide +kernel⟩,
  ⟨st (nvDev), 0, 1, sqe 1 1 0 0 256, 1, 3, sq 1, by decide +kernel⟩,
  ⟨st (nvDev), 0, 1, sqe 0 1 0 0 0, 0, 3, sq 1, by decide +kernel⟩,
  ⟨st (nvDev), 0, 1, sqe 8 1 0 0 999, 8, 3, sq 1, by decide +kernel⟩,
  ⟨st (nvDev), 0, 1, sqe 8 1 0 0 1000, 8, 3, sq 1, by decide +kernel⟩,
  ⟨st nvDev, 0, 1, sqe 9 1 0 0 0, leBytes 4 0 ++ leBytes 4 1 ++ leBytes 8 1000, 9, 3, sq 1, by decide +kernel⟩,
  ⟨st nvDev, 0, 1, sqe 9 1 0 0 0, leBytes 4 0 ++ leBytes 4 1 ++ leBytes 8 999, 9, 3, sq 1, by decide +kernel⟩,
  ⟨st ({ d0 with stoCmds := [(1, { path := some 2, outcome := some .ok })] }), 1, 2, by decide +kernel, by decide +kernel, .ok, by decide +kernel⟩,
  ⟨st ({ d0 with stoCmds := [(1, { path := some 2 })] }), 1, 5, 2, by decide +kernel⟩,
  ⟨st ({ d0 with stoCmds := [(1, { path := some 2, op := 2 })] }), 1, 0, 2, by decide +kernel⟩,
  ⟨st (((d0.setFld F.STO_PATH_VALID 0 254 1).setFld F.STO_PATH_HANDLE 0 254 5).updQctx 5 fun c => { c with img := [4] }), 254, by decide +kernel⟩,
  ⟨st d0, 254, [ks 0x80000000], ks 0x80000000, d0, takes_alone (by decide +kernel), by decide +kernel⟩⟩

theorem test_hyp_BlockFunctionCommandsComplete :
    (∃ (s : State) (fn : Fin 512) (ws : List Write) (w : Write) (d : Dev), Takes s ⟨.CBF_ISSUE, fn.val, 0, 0⟩ ws w d ∧ d.passive = false ∧ d.hasCbf fn.val = true ∧ d.peerWaits = false) ∧
    (∃ (s : State) (fn : Fin 512) (ws : List Write) (w : Write) (d : Dev), Takes s ⟨.CBF_DONE, fn.val, 0, 0⟩ ws w d ∧ d.passive = false ∧ d.peerWaits = false) ∧
    (∃ (s : State) (fn : Fin 512) (ws : List Write) (w : Write) (d : Dev), Takes s ⟨.CBF_PWR, fn.val, 0, 0⟩ ws w d ∧ bitOf w.value.toNat 31 = true ∧ d.flag F.CBF_PWR_IDLE_REQ fn.val = false) ∧
    (∃ (s : State) (fn : Fin 512) (ws : List Write) (w : Write) (d : Dev), Takes s ⟨.CBF_PWR, fn.val, 0, 0⟩ ws w d ∧ bitOf w.value.toNat 31 = false) ∧
    (∃ (s : State) (fn : Fin 512) (t : Nat) (rest : List Nat), Up s ∧ s.dev.working fn.val = true ∧ (s.dev.cbf fn.val).order = t :: rest ∧ let f := fn.val; let b := (s.dev.cbf f).slots.at [] t; let op := slotOp b; ∃ y, s.dev.slotBad f b = some y ∧ op = 1) ∧
    (∃ (s : State) (fn : Fin 512) (t : Nat) (rest : List Nat), Up s ∧ s.dev.working fn.val = true ∧ (s.dev.cbf fn.val).order = t :: rest ∧ let f := fn.val; let b := (s.dev.cbf f).slots.at [] t; let op := slotOp b; ∃ y, s.dev.slotBad f b = some y ∧ op = 2) ∧
    (∃ (s : State) (fn : Fin 512) (t : Nat) (rest : List Nat), Up s ∧ s.dev.working fn.val = true ∧ (s.dev.cbf fn.val).order = t :: rest ∧ let f := fn.val; let b := (s.dev.cbf f).slots.at [] t; let op := slotOp b; ∃ y, s.dev.slotBad f b = some y ∧ op = 3) ∧
    (∃ (s : State) (fn : Fin 512) (t : Nat) (rest : List Nat), Up s ∧ s.dev.working fn.val = true ∧ (s.dev.cbf fn.val).order = t :: rest ∧ let f := fn.val; let b := (s.dev.cbf f).slots.at [] t; let op := slotOp b; s.dev.slotBad f b = none ∧ (op < 3 → s.dev.cbfOverlaps f t = false) ∧ op = 1) ∧
    (∃ (s : State) (fn : Fin 512) (t : Nat) (rest : List Nat), Up s ∧ s.dev.working fn.val = true ∧ (s.dev.cbf fn.val).order = t :: rest ∧ let f := fn.val; let b := (s.dev.cbf f).slots.at [] t; let op := slotOp b; s.dev.slotBad f b = none ∧ (op < 3 → s.dev.cbfOverlaps f t = false) ∧ op = 2) ∧
    (∃ (s : State) (fn : Fin 512) (t : Nat) (rest : List Nat), Up s ∧ s.dev.working fn.val = true ∧ (s.dev.cbf fn.val).order = t :: rest ∧ let f := fn.val; let b := (s.dev.cbf f).slots.at [] t; let op := slotOp b; s.dev.slotBad f b = none ∧ (op < 3 → s.dev.cbfOverlaps f t = false) ∧ op = 3) ∧
    (∃ (s : State) (fn : Fin 512) (tag : Fin 32) (op n : Nat) (y : StoEnd), Up s ∧ (s.dev.cbf fn.val).ended.find? (fun e => e.1 == tag.val) = some (tag.val, op, y, n)) ∧
    (∃ (s : State) (fn : Fin 512), Up s ∧ s.dev.flag F.CBF_PWR_ENTERING fn.val = true ∧ s.dev.fld F.CBF_BUSY_TAGS fn.val = 0 ∧ s.dev.cbfFlushing fn.val = false ∧ (s.dev.cbf fn.val).flushed = (s.dev.cbf fn.val).writes) := ⟨
  ⟨st (nvDev), 0, [ks 0x80000001], ks 0x80000001, (nvDev), takes_alone (by decide +kernel), by decide +kernel⟩,
  ⟨st (nvDev), 0, [ks 1], ks 1, (nvDev), takes_alone (by decide +kernel), by decide +kernel⟩,
  ⟨st (nvDev), 0, [ks 0x80000000], ks 0x80000000, (nvDev), takes_alone (by decide +kernel), by decide +kernel⟩,
  ⟨st (nvDev), 0, [ks 0], ks 0, (nvDev), takes_alone (by decide +kernel), by decide +kernel⟩,
  ⟨st (cbfDev 1 0), 0, 4, [], by decide +kernel, by decide +kernel, by decide +kernel, .lengthBad, by decide +kernel⟩,
  ⟨st (cbfDev 2 257), 0, 4, [], by decide +kernel, by decide +kernel, by decide +kernel, .lengthBad, by decide +kernel⟩,
  ⟨st (cbfDev 3 1), 0, 4, [], by decide +kernel, by decide +kernel, by decide +kernel, .lengthBad, by decide +kernel⟩,
  ⟨st (cbfDev 1 256), 0, 4, [], by decide +kernel⟩,
  ⟨st (cbfDev 2 1), 0, 4, [], by decide +kernel⟩,
  ⟨st (cbfDev 3 0), 0, 4, [], by decide +kernel⟩,
  ⟨st ({ d0 with cbfs := [(0, { ended := [(31, 1, .ok, 4096)] })] }), 0, 31, 1, 4096, .ok, by decide +kernel⟩,
  ⟨st (d0.setFld F.CBF_PWR_ENTERING 0 0 1), 0, by decide +kernel⟩⟩

theorem test_hyp_SaCommandsComplete :
    (∃ (s : State) (ws : List Write) (w : Write) (d : Dev), Takes s ⟨.CRY_SACMD, 0, 0, 0⟩ ws w d ∧ bitOf w.value.toNat 31 = true ∧ d.flag F.CRY_SACMD_BUSY = false ∧ let e := d.plainWrite ⟨.CRY_SACMD, 0, 0, 0⟩ w.value; let op := e.fld F.CRY_SACMD_OP; op = 1) ∧
    (∃ (s : State) (ws : List Write) (w : Write) (d : Dev), Takes s ⟨.CRY_SACMD, 0, 0, 0⟩ ws w d ∧ bitOf w.value.toNat 31 = true ∧ d.flag F.CRY_SACMD_BUSY = false ∧ let e := d.plainWrite ⟨.CRY_SACMD, 0, 0, 0⟩ w.value; let id := e.fld F.CRY_SACMD_ID; let op := e.fld F.CRY_SACMD_OP; op = 2 ∧ saIdOk id = true ∧ e.sa id = none) ∧
    (∃ (s : State) (ws : List Write) (w : Write) (d : Dev), Takes s ⟨.CRY_SACMD, 0, 0, 0⟩ ws w d ∧ bitOf w.value.toNat 31 = true ∧ d.flag F.CRY_SACMD_BUSY = false ∧ let e := d.plainWrite ⟨.CRY_SACMD, 0, 0, 0⟩ w.value; let id := e.fld F.CRY_SACMD_ID; let op := e.fld F.CRY_SACMD_OP; op = 2 ∧ saIdOk id = true ∧ ∃ x, e.sa id = some x) ∧
    (∃ (s : State) (ws : List Write) (w : Write) (d : Dev), Takes s ⟨.CRY_SACMD, 0, 0, 0⟩ ws w d ∧ bitOf w.value.toNat 31 = true ∧ d.flag F.CRY_SACMD_BUSY = false ∧ let e := d.plainWrite ⟨.CRY_SACMD, 0, 0, 0⟩ w.value; let id := e.fld F.CRY_SACMD_ID; let op := e.fld F.CRY_SACMD_OP; op = 3 ∧ saIdOk id = true) ∧
    (∃ (s : State) (ws : List Write) (w : Write) (d : Dev), Takes s ⟨.CRY_SACMD, 0, 0, 0⟩ ws w d ∧ bitOf w.value.toNat 31 = true ∧ d.flag F.CRY_SACMD_BUSY = false ∧ let e := d.plainWrite ⟨.CRY_SACMD, 0, 0, 0⟩ w.value; let id := e.fld F.CRY_SACMD_ID; let op := e.fld F.CRY_SACMD_OP; (op = 2 ∨ op = 3) ∧ saIdOk id = false) := ⟨
  ⟨st d0, [ks 0x88000005], ks 0x88000005, d0, takes_alone (by decide +kernel), by decide +kernel⟩,
  ⟨st d0, [ks 0x9003FFFF], ks 0x9003FFFF, d0, takes_alone (by decide +kernel), by decide +kernel⟩,
  ⟨st ({ d0 with sas := [(5, some {})] }), [ks 0x90000005], ks 0x90000005, { d0 with sas := [(5, some {})] }, takes_alone (by decide +kernel), by decide +kernel, by decide +kernel, by decide +kernel, by decide +kernel, {}, by decide +kernel⟩,
  ⟨st d0, [ks 0x98000000], ks 0x98000000, d0, takes_alone (by decide +kernel), by decide +kernel⟩,
  ⟨st d0, [ks 0x90400000], ks 0x90400000, d0, takes_alone (by decide +kernel), by decide +kernel⟩⟩

theorem test_hyp_ChainCommandsComplete :
    (∃ (s : State) (region : Fin 4) (engine : Fin 8) (ws : List Write) (w : Write) (d : Dev), Takes s ⟨.CHN_CTL, region.val, engine.val, 0⟩ ws w d ∧ let n := 8 * region.val + engine.val; w.value.toNat / 2 ^ 29 = 4 ∧ d.chnState n ≠ 1) ∧
    (∃ (s : State) (region : Fin 4) (engine : Fin 8) (ws : List Write) (w : Write) (d : Dev), Takes s ⟨.CHN_CTL, region.val, engine.val, 0⟩ ws w d ∧ let n := 8 * region.val + engine.val; w.value.toNat / 2 ^ 29 = 2 ∧ d.chnState n = 2) ∧
    (∃ (s : State) (region : Fin 4) (engine : Fin 8) (ws : List Write) (w : Write) (d : Dev), Takes s ⟨.CHN_CTL, region.val, engine.val, 0⟩ ws w d ∧ let n := 8 * region.val + engine.val; w.value.toNat / 2 ^ 29 = 1 ∧ d.chnState n = 1) ∧
    (∃ (s : State) (region : Fin 4) (engine : Fin 8) (ws : List Write) (w : Write) (d : Dev), Takes s ⟨.CHN_CTL, region.val, engine.val, 0⟩ ws w d ∧ let n := 8 * region.val + engine.val; w.value.toNat / 2 ^ 29 = 1 ∧ d.chnState n = 2) ∧
    (∃ (s : State) (region : Fin 4) (engine : Fin 8) (ws : List Write) (w : Write) (d : Dev), Takes s ⟨.CHN_CTL, region.val, engine.val, 0⟩ ws w d ∧ let n := 8 * region.val + engine.val; w.value.toNat / 2 ^ 29 = 1 ∧ d.chnState n = 3) ∧
    (∃ (s : State) (region : Fin 4) (engine : Fin 8) (host : List Byte) (at_ : ReadEnd), Up s ∧ let n := 8 * region.val + engine.val; let x := s.dev.chainJob n; s.dev.chainRuns n = true ∧ (engine.val < 4 ∨ x.op ≠ 0x40) ∧ ∃ d, s.dev.chainRun n x host at_ = .waits d) ∧
    (∃ (s : State) (region : Fin 4) (engine : Fin 8) (host : List Byte) (at_ : ReadEnd), Up s ∧ let n := 8 * region.val + engine.val; let x := s.dev.chainJob n; s.dev.chainRuns n = true ∧ (engine.val < 4 ∨ x.op ≠ 0x40) ∧ ∃ d st bytes, s.dev.chainRun n x host at_ = .ends d st bytes) ∧
    (∃ (s : State) (region : Fin 4) (engine : Fin 8), Up s ∧ let n := 8 * region.val + engine.val; let x := s.dev.chainJob n; s.dev.chainRuns n = true ∧ 4 ≤ engine.val ∧ x.op = 0x40 ∧ (s.dev.chain n).finished = true) ∧
    (∃ (s : State) (region : Fin 4) (engine : Fin 8), Up s ∧ let n := 8 * region.val + engine.val; let x := s.dev.chainJob n; s.dev.chainRuns n = true ∧ 4 ≤ engine.val ∧ x.op = 0x40 ∧ (s.dev.chain n).finished = false ∧ ∃ st, s.dev.pkBad x = some st) ∧
    (∃ (s : State) (region : Fin 4) (engine : Fin 8), Up s ∧ let n := 8 * region.val + engine.val; let x := s.dev.chainJob n; s.dev.chainRuns n = true ∧ 4 ≤ engine.val ∧ x.op = 0x40 ∧ (s.dev.chain n).finished = false ∧ s.dev.pkBad x = none) := ⟨
  ⟨st d0, 0, 7, [ks 0x80000000], ks 0x80000000, d0, takes_alone (by decide +kernel), by decide +kernel⟩,
  ⟨st (d0.setChnState 7 2), 0, 7, [ks 0x40000000], ks 0x40000000, (d0.setChnState 7 2), takes_alone (by decide +kernel), by decide +kernel⟩,
  ⟨st (d0.setChnState 7 1), 0, 7, [ks 0x20000000], ks 0x20000000, (d0.setChnState 7 1), takes_alone (by decide +kernel), by decide +kernel⟩,
  ⟨st (d0.setChnState 7 2), 0, 7, [ks 0x20000000], ks 0x20000000, (d0.setChnState 7 2), takes_alone (by decide +kernel), by decide +kernel⟩,
  ⟨st (d0.setChnState 7 3), 0, 7, [ks 0x20000000], ks 0x20000000, (d0.setChnState 7 3), takes_alone (by decide +kernel), by decide +kernel⟩,
  ⟨st windowCopy, 0, 3, [], .good, by decide +kernel, by decide +kernel, by decide +kernel, waits_of (by decide +kernel)⟩,
  ⟨st (chainDev 3 4 false), 0, 3, [], .good, by decide +kernel, by decide +kernel, by decide +kernel, ends_of (by decide +kernel)⟩,
  ⟨st (chainDev 4 0x40 true), 0, 4, by decide +kernel⟩,
  ⟨st (chainDev 4 0x40 false), 0, 4, by decide +kernel, by decide +kernel, by decide +kernel, by decide +kernel, by decide +kernel, 4, by decide +kernel⟩,
  ⟨st (pkDev 1 0 1024 384), 0, 4, by decide +kernel⟩⟩

theorem test_hyp_PublicKeyCommandsComplete :
    (∃ (s : State) (region : Fin 4) (host : List Byte) (at_ : ReadEnd) (c : Instr) (op e lo hi n us : Nat), Up s ∧ (c, op) ∈ [(Instr.modexp region host at_, 0x01), (.ecPubkey region host at_, 0x10), (.ecdsaSign region host at_, 0x11), (.ecdsaVerify region host at_, 0x12), (.ecdh region host at_, 0x13), (.ed25519Pubkey region host at_, 0x20), (.ed25519Sign region host at_, 0x21), (.ed25519Verify region host at_, 0x22), (.x25519 region host at_, 0x23), (.mlKemKeygen region host at_, 0x30), (.mlKemEncaps region host at_, 0x31), (.mlKemDecaps region host at_, 0x32), (.mlDsaKeygen region host at_, 0x40), (.mlDsaSign region host at_, 0x41), (.mlDsaVerify region host at_, 0x42)] ∧ let r := region.val; let d0 := s.dev.each (List.range 4) fun i d => d.onlyIf (d.chainRuns (8 * r + 4 + i)) fun d => d.chainAsk (8 * r + 4 + i); let x := d0.chainJob (8 * r + e); d0.pk.at none r = none ∧ d0.pkTurn r = some e ∧ x.pkOp = op ∧ pkShape op x.pkParam x.pkSize = some (lo, hi, n, us) ∧ ∃ d bs ms, (d0.touchPages r x.addr x.len).intRead x.addr x.len host at_ (.chain (8 * r + e)) = (d, bs, ms)) ∧
    (∃ (s : State) (region : Fin 4) (k : PkRun), Up s ∧ s.dev.pk.at none region.val = some k ∧ let r := region.val; let n := 8 * r + k.engine; let d0 := s.dev.advanceTo k.due; let x := d0.chainJob n; let d1 : Dev := { d0 with pk := d0.pk.set none r none }; d0.hostReady x.addr2 k.out.length true = true ∧ d1.reaches x.addr2 k.out.length true = true) ∧
    (∃ (s : State) (region : Fin 4) (k : PkRun), Up s ∧ s.dev.pk.at none region.val = some k ∧ let r := region.val; let n := 8 * r + k.engine; let d0 := s.dev.advanceTo k.due; let x := d0.chainJob n; let d1 : Dev := { d0 with pk := d0.pk.set none r none }; d0.hostReady x.addr2 k.out.length true = true ∧ d1.reaches x.addr2 k.out.length true = false) := ⟨
  ⟨st (pkDev 1 0 1024 384), 0, [], .good, .modexp 0 [] .good, 1, 4, 384, 384, 128, 340, by decide +kernel, by decide +kernel, by decide +kernel, by decide +kernel, by decide +kernel, by decide +kernel, _, _, _, rfl⟩,
  ⟨st ({ pkDev 1 0 1024 384 with pk := [(0, some { out := [0] })] }), 0, { out := [0] }, by decide +kernel⟩,
  ⟨st ({ d0 with pk := [(0, some { out := [0] })] }), 0, { out := [0] }, by decide +kernel⟩⟩

theorem test_hyp_CheckUnitCommandsComplete :
    (∃ (s : State) (unit : Fin 64) (ws : List Write) (w : Write) (d : Dev), Takes s ⟨.CVU_ASSIGN, 0, unit.val, 0⟩ ws w d ∧ let e := d.plainWrite ⟨.CVU_ASSIGN, 0, unit.val, 0⟩ w.value; let owner := e.fld F.CVU_ASSIGN_OWNER 0 unit.val; owner = 1) ∧
    (∃ (s : State) (unit : Fin 64) (ws : List Write) (w : Write) (d : Dev), Takes s ⟨.CVU_ASSIGN, 0, unit.val, 0⟩ ws w d ∧ let e := d.plainWrite ⟨.CVU_ASSIGN, 0, unit.val, 0⟩ w.value; let owner := e.fld F.CVU_ASSIGN_OWNER 0 unit.val; let id := e.fld F.CVU_ASSIGN_ID 0 unit.val; owner ≠ 0 ∧ owner ≠ 1 ∧ e.cvuOwn.at (0, 0) unit.val ≠ (owner, id)) ∧
    (∃ (s : State) (unit : Fin 64) (ws : List Write) (w : Write) (d : Dev), Takes s ⟨.CVU_FEED, unit.val, 0, 0⟩ ws w d ∧ d.flag F.CVU_CFG_EN unit.val = true) ∧
    (∃ (s : State) (unit : Fin 64) (ws : List Write) (w : Write) (d : Dev) (c : Instr) (bit : Nat), (c, bit) ∈ [(Instr.cvuReset unit ws, 31), (.cvuMsg unit ws, 30), (.cvuSeal unit ws, 29), (.check unit ws, 28)] ∧ Takes s ⟨.CVU_CTL, unit.val, 0, 0⟩ (ws.filter fun w => bitOf w.value.toNat bit) w d ∧ d.flag F.CVU_CFG_EN unit.val = true) := ⟨
  ⟨st d0, 63, [ks 0x40000000], ks 0x40000000, d0, takes_alone (by decide +kernel), by decide +kernel⟩,
  ⟨st d0, 63, [ks 0x80000005], ks 0x80000005, d0, takes_alone (by decide +kernel), by decide +kernel⟩,
  ⟨st (d0.setFld F.CVU_CFG_EN 0 0 1), 0, [ks 5], ks 5, (d0.setFld F.CVU_CFG_EN 0 0 1), takes_alone (by decide +kernel), by decide +kernel⟩,
  ⟨st (d0.setFld F.CVU_CFG_EN 0 0 1), 0, [ks 0x90000000], ks 0x90000000, d0.setFld F.CVU_CFG_EN 0 0 1, .check 0 [ks 0x90000000], 28, by decide +kernel, takes_alone (by decide +kernel), by decide +kernel⟩⟩

theorem test_hyp_AluInstructions :
    (∃ (s : State) (th : Thread) (rd rs1 rs2 : Fin 32), Ready s th (.alu .add rd rs1 rs2)) ∧
    (∃ (s : State) (th : Thread) (rd rs1 rs2 : Fin 32), Ready s th (.alu .sub rd rs1 rs2)) ∧
    (∃ (s : State) (th : Thread) (rd rs1 rs2 : Fin 32), Ready s th (.alu .and rd rs1 rs2)) ∧
    (∃ (s : State) (th : Thread) (rd rs1 rs2 : Fin 32), Ready s th (.alu .or rd rs1 rs2)) ∧
    (∃ (s : State) (th : Thread) (rd rs1 rs2 : Fin 32), Ready s th (.alu .xor rd rs1 rs2)) ∧
    (∃ (s : State) (th : Thread) (rd rs1 rs2 : Fin 32), Ready s th (.alu .andn rd rs1 rs2)) ∧
    (∃ (s : State) (th : Thread) (rd rs1 rs2 : Fin 32), Ready s th (.alu .sll rd rs1 rs2)) ∧
    (∃ (s : State) (th : Thread) (rd rs1 rs2 : Fin 32), Ready s th (.alu .srl rd rs1 rs2)) ∧
    (∃ (s : State) (th : Thread) (rd rs1 rs2 : Fin 32), Ready s th (.alu .sra rd rs1 rs2)) ∧
    (∃ (s : State) (th : Thread) (rd rs1 rs2 : Fin 32), Ready s th (.alu .ror rd rs1 rs2)) ∧
    (∃ (s : State) (th : Thread) (rd rs1 rs2 : Fin 32), Ready s th (.alu .slt rd rs1 rs2)) ∧
    (∃ (s : State) (th : Thread) (rd rs1 rs2 : Fin 32), Ready s th (.alu .sltu rd rs1 rs2)) ∧
    (∃ (s : State) (th : Thread) (rd rs1 rs2 : Fin 32), Ready s th (.alu .min rd rs1 rs2)) ∧
    (∃ (s : State) (th : Thread) (rd rs1 rs2 : Fin 32), Ready s th (.alu .max rd rs1 rs2)) ∧
    (∃ (s : State) (th : Thread) (rd rs1 rs2 : Fin 32), Ready s th (.alu .minu rd rs1 rs2)) ∧
    (∃ (s : State) (th : Thread) (rd rs1 rs2 : Fin 32), Ready s th (.alu .maxu rd rs1 rs2)) ∧
    (∃ (s : State) (th : Thread) (rd rs1 : Fin 32), Ready s th (.alu .clz rd rs1 0)) ∧
    (∃ (s : State) (th : Thread) (rd rs1 : Fin 32), Ready s th (.alu .ctz rd rs1 0)) ∧
    (∃ (s : State) (th : Thread) (rd rs1 : Fin 32), Ready s th (.alu .popc rd rs1 0)) ∧
    (∃ (s : State) (th : Thread) (rd rs1 : Fin 32), Ready s th (.alu .bswap rd rs1 0)) ∧
    (∃ (s : State) (th : Thread) (rd rs1 : Fin 32) (amount : Fin 64), Ready s th (.shi 0 rd rs1 amount)) ∧
    (∃ (s : State) (th : Thread) (rd rs1 : Fin 32) (amount : Fin 64), Ready s th (.shi 1 rd rs1 amount)) ∧
    (∃ (s : State) (th : Thread) (rd rs1 : Fin 32) (amount : Fin 64), Ready s th (.shi 2 rd rs1 amount)) ∧
    (∃ (s : State) (th : Thread) (rd rs1 : Fin 32) (amount : Fin 64), Ready s th (.shi 3 rd rs1 amount)) ∧
    (∃ (funct : Nat) (op : AluOp), (funct, op) ∈ [(0, AluOp.add), (1, .sub), (2, .and), (3, .or), (4, .xor), (5, .andn), (6, .sll), (7, .srl), (8, .sra), (9, .ror), (10, .slt), (11, .sltu), (12, .min), (13, .max), (14, .minu), (15, .maxu)]) ∧
    (∃ (funct : Nat) (op : AluOp), (funct, op) ∈ [(16, AluOp.clz), (17, .ctz), (18, .popc), (19, .bswap)]) := ⟨
  ⟨st (pcDev 0 (.alu .add 1 2 3)), .packet 0 0, 1, 2, 3, by decide +kernel⟩,
  ⟨st (pcDev 0 (.alu .sub 1 2 3)), .packet 0 0, 1, 2, 3, by decide +kernel⟩,
  ⟨st (pcDev 0 (.alu .and 1 2 3)), .packet 0 0, 1, 2, 3, by decide +kernel⟩,
  ⟨st (pcDev 0 (.alu .or 1 2 3)), .packet 0 0, 1, 2, 3, by decide +kernel⟩,
  ⟨st (pcDev 0 (.alu .xor 1 2 3)), .packet 0 0, 1, 2, 3, by decide +kernel⟩,
  ⟨st (pcDev 0 (.alu .andn 1 2 3)), .packet 0 0, 1, 2, 3, by decide +kernel⟩,
  ⟨st (pcDev 0 (.alu .sll 1 2 3)), .packet 0 0, 1, 2, 3, by decide +kernel⟩,
  ⟨st (pcDev 0 (.alu .srl 1 2 3)), .packet 0 0, 1, 2, 3, by decide +kernel⟩,
  ⟨st (pcDev 0 (.alu .sra 1 2 3)), .packet 0 0, 1, 2, 3, by decide +kernel⟩,
  ⟨st (pcDev 0 (.alu .ror 1 2 3)), .packet 0 0, 1, 2, 3, by decide +kernel⟩,
  ⟨st (pcDev 0 (.alu .slt 1 2 3)), .packet 0 0, 1, 2, 3, by decide +kernel⟩,
  ⟨st (pcDev 0 (.alu .sltu 1 2 3)), .packet 0 0, 1, 2, 3, by decide +kernel⟩,
  ⟨st (pcDev 0 (.alu .min 1 2 3)), .packet 0 0, 1, 2, 3, by decide +kernel⟩,
  ⟨st (pcDev 0 (.alu .max 1 2 3)), .packet 0 0, 1, 2, 3, by decide +kernel⟩,
  ⟨st (pcDev 0 (.alu .minu 1 2 3)), .packet 0 0, 1, 2, 3, by decide +kernel⟩,
  ⟨st (pcDev 0 (.alu .maxu 1 2 3)), .packet 0 0, 1, 2, 3, by decide +kernel⟩,
  ⟨st (pcDev 0 (.alu .clz 1 2 0)), .packet 0 0, 1, 2, by decide +kernel⟩,
  ⟨st (pcDev 0 (.alu .ctz 1 2 0)), .packet 0 0, 1, 2, by decide +kernel⟩,
  ⟨st (pcDev 0 (.alu .popc 1 2 0)), .packet 0 0, 1, 2, by decide +kernel⟩,
  ⟨st (pcDev 0 (.alu .bswap 1 2 0)), .packet 0 0, 1, 2, by decide +kernel⟩,
  ⟨st (pcDev 0 (.shi 0 1 2 63)), .packet 0 0, 1, 2, 63, by decide +kernel⟩,
  ⟨st (pcDev 0 (.shi 1 1 2 63)), .packet 0 0, 1, 2, 63, by decide +kernel⟩,
  ⟨st (pcDev 0 (.shi 2 1 2 63)), .packet 0 0, 1, 2, 63, by decide +kernel⟩,
  ⟨st (pcDev 0 (.shi 3 1 2 63)), .packet 0 0, 1, 2, 63, by decide +kernel⟩,
  ⟨0, .add, by decide +kernel⟩,
  ⟨19, .bswap, by decide +kernel⟩⟩

theorem test_hyp_MultiplyAndDivide :
    (∃ (s : State) (th : Thread) (rd rs1 rs2 : Fin 32), Ready s th (.alu .mul rd rs1 rs2)) ∧
    (∃ (s : State) (th : Thread) (rd rs1 rs2 : Fin 32), Ready s th (.alu .mulh rd rs1 rs2)) ∧
    (∃ (s : State) (th : Thread) (rd rs1 rs2 : Fin 32), Ready s th (.alu .mulhu rd rs1 rs2)) ∧
    (∃ (s : State) (th : Thread) (rd rs1 rs2 : Fin 32), let a := gget (s.dev.tregs th) rs1; let b := gget (s.dev.tregs th) rs2; b.toInt = 0 ∧ 0 ≤ a.toInt ∧ Ready s th (.alu .div rd rs1 rs2)) ∧
    (∃ (s : State) (th : Thread) (rd rs1 rs2 : Fin 32), let a := gget (s.dev.tregs th) rs1; let b := gget (s.dev.tregs th) rs2; b.toInt = 0 ∧ a.toInt < 0 ∧ Ready s th (.alu .div rd rs1 rs2)) ∧
    (∃ (s : State) (th : Thread) (rd rs1 rs2 : Fin 32), let b := gget (s.dev.tregs th) rs2; b.toInt = 0 ∧ Ready s th (.alu .divu rd rs1 rs2)) ∧
    (∃ (s : State) (th : Thread) (rd rs1 rs2 : Fin 32), let b := gget (s.dev.tregs th) rs2; b.toInt = 0 ∧ Ready s th (.alu .rem rd rs1 rs2)) ∧
    (∃ (s : State) (th : Thread) (rd rs1 rs2 : Fin 32), let b := gget (s.dev.tregs th) rs2; b.toInt = 0 ∧ Ready s th (.alu .remu rd rs1 rs2)) ∧
    (∃ (s : State) (th : Thread) (rd rs1 rs2 : Fin 32), let a := gget (s.dev.tregs th) rs1; let b := gget (s.dev.tregs th) rs2; let big := a.toInt = -2 ^ 63 ∧ b.toInt = -1; big ∧ Ready s th (.alu .div rd rs1 rs2)) ∧
    (∃ (s : State) (th : Thread) (rd rs1 rs2 : Fin 32), let a := gget (s.dev.tregs th) rs1; let b := gget (s.dev.tregs th) rs2; let big := a.toInt = -2 ^ 63 ∧ b.toInt = -1; big ∧ Ready s th (.alu .rem rd rs1 rs2)) ∧
    (∃ (s : State) (th : Thread) (rd rs1 rs2 : Fin 32), let a := gget (s.dev.tregs th) rs1; let b := gget (s.dev.tregs th) rs2; let big := a.toInt = -2 ^ 63 ∧ b.toInt = -1; b.toInt ≠ 0 ∧ ¬ big ∧ ∃ (q r : Int), a.toInt = q * b.toInt + r ∧ r.natAbs < b.toInt.natAbs ∧ (0 ≤ a.toInt → 0 ≤ r) ∧ (a.toInt ≤ 0 → r ≤ 0) ∧ Ready s th (.alu .div rd rs1 rs2)) ∧
    (∃ (s : State) (th : Thread) (rd rs1 rs2 : Fin 32), let a := gget (s.dev.tregs th) rs1; let b := gget (s.dev.tregs th) rs2; let big := a.toInt = -2 ^ 63 ∧ b.toInt = -1; b.toInt ≠ 0 ∧ ¬ big ∧ ∃ (q r : Int), a.toInt = q * b.toInt + r ∧ r.natAbs < b.toInt.natAbs ∧ (0 ≤ a.toInt → 0 ≤ r) ∧ (a.toInt ≤ 0 → r ≤ 0) ∧ Ready s th (.alu .rem rd rs1 rs2)) ∧
    (∃ (s : State) (th : Thread) (rd rs1 rs2 : Fin 32), let b := gget (s.dev.tregs th) rs2; b.toNat ≠ 0 ∧ Ready s th (.alu .divu rd rs1 rs2)) ∧
    (∃ (s : State) (th : Thread) (rd rs1 rs2 : Fin 32), let b := gget (s.dev.tregs th) rs2; b.toNat ≠ 0 ∧ Ready s th (.alu .remu rd rs1 rs2)) := ⟨
  ⟨st (pcDev 0 (.alu .mul 1 2 3)), .packet 0 0, 1, 2, 3, by decide +kernel⟩,
  ⟨st (pcDev 0 (.alu .mulh 1 2 3)), .packet 0 0, 1, 2, 3, by decide +kernel⟩,
  ⟨st (pcDev 0 (.alu .mulhu 1 2 3)), .packet 0 0, 1, 2, 3, by decide +kernel⟩,
  ⟨st (pcDev 0 (.alu .div 1 2 3) fun k => { k with regs := regs (0) (0) }), .packet 0 0, 1, 2, 3, by decide +kernel, by decide +kernel, by decide +kernel⟩,
  ⟨st (pcDev 0 (.alu .div 1 2 3) fun k => { k with regs := regs (2 ^ 64 - 1) (0) }), .packet 0 0, 1, 2, 3, by decide +kernel, by decide +kernel, by decide +kernel⟩,
  ⟨st (pcDev 0 (.alu .divu 1 2 3) fun k => { k with regs := regs (5) (0) }), .packet 0 0, 1, 2, 3, by decide +kernel, by decide +kernel⟩,
  ⟨st (pcDev 0 (.alu .rem 1 2 3) fun k => { k with regs := regs (5) (0) }), .packet 0 0, 1, 2, 3, by decide +kernel, by decide +kernel⟩,
  ⟨st (pcDev 0 (.alu .remu 1 2 3) fun k => { k with regs := regs (5) (0) }), .packet 0 0, 1, 2, 3, by decide +kernel, by decide +kernel⟩,
  ⟨st (pcDev 0 (.alu .div 1 2 3) fun k => { k with regs := regs (2 ^ 63) (2 ^ 64 - 1) }), .packet 0 0, 1, 2, 3, by decide +kernel, by decide +kernel⟩,
  ⟨st (pcDev 0 (.alu .rem 1 2 3) fun k => { k with regs := regs (2 ^ 63) (2 ^ 64 - 1) }), .packet 0 0, 1, 2, 3, by decide +kernel, by decide +kernel⟩,
  ⟨st (pcDev 0 (.alu .div 1 2 3) fun k => { k with regs := regs (2 ^ 64 - 7) (2) }), .packet 0 0, 1, 2, 3, by decide +kernel, by decide +kernel, -3, -1, by decide +kernel⟩,
  ⟨st (pcDev 0 (.alu .rem 1 2 3) fun k => { k with regs := regs (2 ^ 63) (1) }), .packet 0 0, 1, 2, 3, by decide +kernel, by decide +kernel, -2 ^ 63, 0, by decide +kernel⟩,
  ⟨st (pcDev 0 (.alu .divu 1 2 3) fun k => { k with regs := regs (7) (2) }), .packet 0 0, 1, 2, 3, by decide +kernel, by decide +kernel⟩,
  ⟨st (pcDev 0 (.alu .remu 1 2 3) fun k => { k with regs := regs (7) (2) }), .packet 0 0, 1, 2, 3, by decide +kernel, by decide +kernel⟩⟩

theorem test_hyp_ImmediateInstructions :
    (∃ (s : State) (th : Thread) (rd rs1 : Fin 32) (imm : BitVec 16), Ready s th (.imm .addi rd rs1 imm)) ∧
    (∃ (s : State) (th : Thread) (rd rs1 : Fin 32) (imm : BitVec 16), Ready s th (.imm .slti rd rs1 imm)) ∧
    (∃ (s : State) (th : Thread) (rd rs1 : Fin 32) (imm : BitVec 16), Ready s th (.imm .sltiu rd rs1 imm)) ∧
    (∃ (s : State) (th : Thread) (rd rs1 : Fin 32) (imm : BitVec 16), Ready s th (.imm .andi rd rs1 imm)) ∧
    (∃ (s : State) (th : Thread) (rd rs1 : Fin 32) (imm : BitVec 16), Ready s th (.imm .ori rd rs1 imm)) ∧
    (∃ (s : State) (th : Thread) (rd rs1 : Fin 32) (imm : BitVec 16), Ready s th (.imm .xori rd rs1 imm)) ∧
    (∃ (s : State) (th : Thread) (rd : Fin 32) (imm : BitVec 16), Ready s th (.imm .lui rd 0 imm)) ∧
    (∃ (s : State) (th : Thread) (rd rs1 : Fin 32) (imm : BitVec 16), Ready s th (.imm .shori rd rs1 imm)) := ⟨
  ⟨st (pcDev 0 (.imm .addi 1 2 0x8000)), .packet 0 0, 1, 2, 0x8000, by decide +kernel⟩,
  ⟨st (pcDev 0 (.imm .slti 1 2 0x8000)), .packet 0 0, 1, 2, 0x8000, by decide +kernel⟩,
  ⟨st (pcDev 0 (.imm .sltiu 1 2 0x8000)), .packet 0 0, 1, 2, 0x8000, by decide +kernel⟩,
  ⟨st (pcDev 0 (.imm .andi 1 2 0x8000)), .packet 0 0, 1, 2, 0x8000, by decide +kernel⟩,
  ⟨st (pcDev 0 (.imm .ori 1 2 0x8000)), .packet 0 0, 1, 2, 0x8000, by decide +kernel⟩,
  ⟨st (pcDev 0 (.imm .xori 1 2 0x8000)), .packet 0 0, 1, 2, 0x8000, by decide +kernel⟩,
  ⟨st (pcDev 0 (.imm .lui 1 0 0xFFFF)), .packet 0 0, 1, 0xFFFF, by decide +kernel⟩,
  ⟨st (pcDev 0 (.imm .shori 1 2 0xFFFF)), .packet 0 0, 1, 2, 0xFFFF, by decide +kernel⟩⟩

theorem test_hyp_BitfieldAndCheckInstructions :
    (∃ (s : State) (th : Thread) (rd rs1 : Fin 32) (lsb wm : Fin 64), let a := gget (s.dev.tregs th) rs1; ∃ (signed : Bool) (x : DWord), ((∀ i : Fin 64, x.getLsbD i.val = if i.val ≤ wm.val then a.getLsbD (lsb.val + i.val) else signed && a.getLsbD (lsb.val + wm.val))) ∧ Ready s th (.bfx signed rd rs1 lsb wm)) ∧
    (∃ (s : State) (th : Thread) (rd rs1 : Fin 32) (lsb wm : Fin 64), let a := gget (s.dev.tregs th) rs1; let old := gget (s.dev.tregs th) rd; ∃ (x : DWord), ((∀ i : Fin 64, x.getLsbD i.val = if lsb.val ≤ i.val ∧ i.val ≤ lsb.val + wm.val then a.getLsbD (i.val - lsb.val) else old.getLsbD i.val)) ∧ Ready s th (.bfi rd rs1 lsb wm)) ∧
    (∃ (s : State) (th : Thread) (rd rs1 rs2 : Fin 32) (ieee : Bool) (size : Fin 4), Ready s th (.crc ieee size rd rs1 rs2)) ∧
    (∃ (s : State) (th : Thread) (rd rs1 rs2 : Fin 32), Ready s th (.mix rd rs1 rs2)) ∧
    (∃ (imm : Nat), imm < 65536 ∧ let at_ := imm / 1024; let width := imm / 16 % 64 + 1; imm % 8 = 0 ∧ at_ + width ≤ 64) ∧
    (∃ (imm : Nat), imm < 65536 ∧ let at_ := imm / 1024; let width := imm / 16 % 64 + 1; imm % 16 = 1 ∧ at_ + width ≤ 64) ∧
    (∃ (imm : Nat), imm < 65536 ∧ let at_ := imm / 1024; let width := imm / 16 % 64 + 1; (2 ≤ imm % 8 ∨ 64 < at_ + width ∨ imm % 16 = 9)) ∧
    (∃ (funct : Nat), funct < 8) := ⟨
  ⟨st (pcDev 0 (.bfx true 1 2 56 7) fun k => { k with regs := regs (0x80 * 2 ^ 56) 0 }), .packet 0 0, 1, 2, 56, 7, true, BitVec.ofNat 64 (2 ^ 64 - 128), by decide +kernel, by decide +kernel⟩,
  ⟨st (pcDev 0 (.bfi 3 2 56 7) fun k => { k with regs := regs 0xFF 5 }), .packet 0 0, 3, 2, 56, 7, BitVec.ofNat 64 (0xFF * 2 ^ 56 + 5), by decide +kernel, by decide +kernel⟩,
  ⟨st (pcDev 0 (.crc true 3 1 2 3)), .packet 0 0, 1, 2, 3, true, 3, by decide +kernel⟩,
  ⟨st (pcDev 0 (.mix 1 2 3)), .packet 0 0, 1, 2, 3, by decide +kernel⟩,
  ⟨64512, by decide +kernel, by decide +kernel, by decide +kernel⟩,
  ⟨1009, by decide +kernel, by decide +kernel, by decide +kernel⟩,
  ⟨2032, by decide +kernel, by decide +kernel⟩,
  ⟨7, by decide +kernel⟩⟩

theorem test_hyp_BranchesAndJumps :
    (∃ (s : State) (th : Thread) (rs1 rs2 : Fin 32) (offset : BitVec 16), let a := gget (s.dev.tregs th) rs1; let b := gget (s.dev.tregs th) rs2; ∃ (c : Instr) (op : BranchOp) (taken : Prop), (c, op, taken) ∈ [(Instr.beq th rs1 rs2 offset, BranchOp.eq, a = b), (.bne th rs1 rs2 offset, .ne, a ≠ b), (.blt th rs1 rs2 offset, .lt, a.toInt < b.toInt), (.bge th rs1 rs2 offset, .ge, b.toInt ≤ a.toInt), (.bltu th rs1 rs2 offset, .ltu, a.toNat < b.toNat), (.bgeu th rs1 rs2 offset, .geu, b.toNat ≤ a.toNat)] ∧ Ready s th (.branch op rs1 rs2 offset) ∧ taken) ∧
    (∃ (s : State) (th : Thread) (rs1 rs2 : Fin 32) (offset : BitVec 16), let a := gget (s.dev.tregs th) rs1; let b := gget (s.dev.tregs th) rs2; ∃ (c : Instr) (op : BranchOp) (taken : Prop), (c, op, taken) ∈ [(Instr.beq th rs1 rs2 offset, BranchOp.eq, a = b), (.bne th rs1 rs2 offset, .ne, a ≠ b), (.blt th rs1 rs2 offset, .lt, a.toInt < b.toInt), (.bge th rs1 rs2 offset, .ge, b.toInt ≤ a.toInt), (.bltu th rs1 rs2 offset, .ltu, a.toNat < b.toNat), (.bgeu th rs1 rs2 offset, .geu, b.toNat ≤ a.toNat)] ∧ Ready s th (.branch op rs1 rs2 offset) ∧ ¬ taken) ∧
    (∃ (s : State) (th : Thread) (far : BitVec 26), Ready s th (.jump far)) ∧
    (∃ (s : State) (th : Thread) (far : BitVec 26), Ready s th (.jal far)) ∧
    (∃ (s : State) (th : Thread) (rs1 rd : Fin 32) (imm : BitVec 16), let a := gget (s.dev.tregs th) rs1; let t := ((a.toNat : Int) + imm.toInt) % 2 ^ 64; Ready s th (.jalr rd rs1 imm) ∧ t % 4 = 0) ∧
    (∃ (s : State) (th : Thread) (rs1 rd : Fin 32) (imm : BitVec 16), let a := gget (s.dev.tregs th) rs1; let t := ((a.toNat : Int) + imm.toInt) % 2 ^ 64; Ready s th (.jalr rd rs1 imm) ∧ t % 4 ≠ 0) := ⟨
  ⟨st (pcDev 0 (.branch .eq 2 3 0x8000) fun k => { k with regs := regs 5 5 }), .packet 0 0, 2, 3, 0x8000, .beq (.packet 0 0) 2 3 0x8000, .eq, _, List.Mem.head _, by decide +kernel, by decide +kernel⟩,
  ⟨st (pcDev 0 (.branch .ne 2 3 0x7FFF) fun k => { k with regs := regs 5 5 }), .packet 0 0, 2, 3, 0x7FFF, .bne (.packet 0 0) 2 3 0x7FFF, .ne, _, List.Mem.tail _ (List.Mem.head _), by decide +kernel, by decide +kernel⟩,
  ⟨st (pcDev 0 (.jump 0x2000000)), .packet 0 0, 0x2000000, by decide +kernel⟩,
  ⟨st (pcDev 0 (.jal 0x1FFFFFF)), .packet 0 0, 0x1FFFFFF, by decide +kernel⟩,
  ⟨st (pcDev 0 (.jalr 1 2 0x8000) fun k => { k with regs := regs 0x8000 0 }), .packet 0 0, 2, 1, 0x8000, by decide +kernel, by decide +kernel⟩,
  ⟨st (pcDev 0 (.jalr 1 2 2) fun k => { k with regs := regs 0 0 }), .packet 0 0, 2, 1, 2, by decide +kernel, by decide +kernel⟩⟩

theorem test_hyp_DirectMemoryInstructions :
    (∃ (s : State) (th : Thread) (rd rs1 : Fin 32) (imm : BitVec 16), let g := s.dev.tregs th; let d := s.dev.issued th; let a := (gget g rs1 + imm.signExtend 64).toNat; ∃ (c : Instr) (op : LoadOp) (size : Nat) (signed : Bool), (c, op, size, signed) ∈ [(Instr.lb th rd rs1 imm, LoadOp.lb, 1, true), (.lbu th rd rs1 imm, .lbu, 1, false), (.lh th rd rs1 imm, .lh, 2, true), (.lhu th rd rs1 imm, .lhu, 2, false), (.lw th rd rs1 imm, .lw, 4, true), (.lwu th rd rs1 imm, .lwu, 4, false), (.ld th rd rs1 imm, .ld, 8, false)] ∧ Ready s th (.load op rd rs1 imm) ∧ a % size = 0 ∧ ∃ core ctx key, th = .packet core ctx ∧ d.target th a size false = .local_ key ∧ d.marked key size = false) ∧
    (∃ (s : State) (th : Thread) (rd rs1 : Fin 32) (imm : BitVec 16), let g := s.dev.tregs th; let d := s.dev.issued th; let a := (gget g rs1 + imm.signExtend 64).toNat; ∃ (c : Instr) (op : LoadOp) (size : Nat) (signed : Bool), (c, op, size, signed) ∈ [(Instr.lb th rd rs1 imm, LoadOp.lb, 1, true), (.lbu th rd rs1 imm, .lbu, 1, false), (.lh th rd rs1 imm, .lh, 2, true), (.lhu th rd rs1 imm, .lhu, 2, false), (.lw th rd rs1 imm, .lw, 4, true), (.lwu th rd rs1 imm, .lwu, 4, false), (.ld th rd rs1 imm, .ld, 8, false)] ∧ Ready s th (.load op rd rs1 imm) ∧ a % size = 0 ∧ th = .keystone ∧ d.target th a size false = .mem ∧ d.held a = false ∧ d.tagBad a size = false ∧ d.marked a size = false) ∧
    (∃ (s : State) (th : Thread) (rd rs1 : Fin 32) (imm : BitVec 16), let g := s.dev.tregs th; let d := s.dev.issued th; let a := (gget g rs1 + imm.signExtend 64).toNat; ∃ (c : Instr) (op : StoreOp) (size : Nat), (c, op, size) ∈ [(Instr.sb th rd rs1 imm, StoreOp.sb, 1), (.sh th rd rs1 imm, .sh, 2), (.sw th rd rs1 imm, .sw, 4), (.sd th rd rs1 imm, .sd, 8)] ∧ Ready s th (.store op rd rs1 imm) ∧ a % size = 0 ∧ ∃ core ctx key, th = .packet core ctx ∧ d.target th a size true = .local_ key) ∧
    (∃ (s : State) (th : Thread) (rd rs1 : Fin 32) (imm : BitVec 16), let g := s.dev.tregs th; let d := s.dev.issued th; let a := (gget g rs1 + imm.signExtend 64).toNat; ∃ (c : Instr) (op : StoreOp) (size : Nat), (c, op, size) ∈ [(Instr.sb th rd rs1 imm, StoreOp.sb, 1), (.sh th rd rs1 imm, .sh, 2), (.sw th rd rs1 imm, .sw, 4), (.sd th rd rs1 imm, .sd, 8)] ∧ Ready s th (.store op rd rs1 imm) ∧ a % size = 0 ∧ ∃ core ctx, th = .packet core ctx ∧ d.target th a size true = .mem ∧ (d.ctx core.val ctx.val).stores.length < 8) ∧
    (∃ (s : State) (th : Thread) (rd rs1 : Fin 32) (imm : BitVec 16), let g := s.dev.tregs th; let d := s.dev.issued th; let a := (gget g rs1 + imm.signExtend 64).toNat; ∃ (c : Instr) (op : StoreOp) (size : Nat), (c, op, size) ∈ [(Instr.sb th rd rs1 imm, StoreOp.sb, 1), (.sh th rd rs1 imm, .sh, 2), (.sw th rd rs1 imm, .sw, 4), (.sd th rd rs1 imm, .sd, 8)] ∧ Ready s th (.store op rd rs1 imm) ∧ a % size = 0 ∧ th = .keystone ∧ d.target th a size true = .mem ∧ d.held a = false) ∧
    (∃ (s : State) (th : Thread) (rd rs1 rs2 : Fin 32) (word acq rel : Bool), let g := s.dev.tregs th; let d := s.dev.issued th; let at_ := (gget g rs1).toNat; let n := if word then 4 else 8; ∃ (c : Instr) (op : AtomicOp), (c, op) ∈ [(Instr.cas th word acq rel rd rs1 rs2, AtomicOp.cas), (.fadd th word acq rel rd rs1 rs2, .fadd), (.swap th word acq rel rd rs1 rs2, .swap)] ∧ Ready s th (.atomic op word acq rel rd rs1 rs2) ∧ at_ % n = 0 ∧ atomicBarred th at_ = false ∧ ∃ core ctx key, th = .packet core ctx ∧ d.target th at_ n true = .local_ key ∧ d.marked key n = false) ∧
    (∃ (s : State) (th : Thread) (rd rs1 rs2 : Fin 32) (word acq rel : Bool), let g := s.dev.tregs th; let d := s.dev.issued th; let at_ := (gget g rs1).toNat; let n := if word then 4 else 8; ∃ (c : Instr) (op : AtomicOp), (c, op) ∈ [(Instr.cas th word acq rel rd rs1 rs2, AtomicOp.cas), (.fadd th word acq rel rd rs1 rs2, .fadd), (.swap th word acq rel rd rs1 rs2, .swap)] ∧ Ready s th (.atomic op word acq rel rd rs1 rs2) ∧ at_ % n = 0 ∧ atomicBarred th at_ = false ∧ th = .keystone ∧ d.target th at_ n true = .mem ∧ d.held at_ = false ∧ d.tagBad at_ n = false ∧ d.marked at_ n = false) := ⟨
  ⟨st (pcDev 0 (.load .ld 3 2 8) fun k => { k with regs := regs 0x20002FF0 0 }), .packet 0 0, 3, 2, 8, .ld (.packet 0 0) 3 2 8, .ld, 8, false, by decide +kernel, by decide +kernel, by decide +kernel, 0, 0, 2 ^ 48 + 0x2FF8, by decide +kernel⟩,
  ⟨st (ksDev (.load .lb 3 2 8) fun k => { k with regs := regs 0x107FFFF7 0 }), .keystone, 3, 2, 8, .lb .keystone 3 2 8, .lb, 1, true, by decide +kernel, by decide +kernel, by decide +kernel, by decide +kernel⟩,
  ⟨st (pcDev 0 (.store .sd 3 2 8) fun k => { k with regs := regs 0x2003FFF0 0 }), .packet 0 0, 3, 2, 8, .sd (.packet 0 0) 3 2 8, .sd, 8, by decide +kernel, by decide +kernel, by decide +kernel, 0, 0, 2 ^ 48 + 0x3FFF8, by decide +kernel⟩,
  ⟨st (let d := pcDev 0 (.store .sw 3 2 8) fun k => { k with regs := regs 0x1000000000 0 }; ((d.setFld F.PCB_WIN_BASE_HI 0 0 16).setFld F.PCB_WIN_VALID 0 0 1).setFld F.PCB_WIN_WR 0 0 1 |>.setFld F.PCB_WIN_LOG2 0 0 12), .packet 0 0, 3, 2, 8, .sw (.packet 0 0) 3 2 8, .sw, 4, by decide +kernel, by decide +kernel, by decide +kernel, 0, 0, by decide +kernel⟩,
  ⟨st (ksDev (.store .sb 3 2 8) fun k => { k with regs := regs 0x10000000 0 }), .keystone, 3, 2, 8, .sb .keystone 3 2 8, .sb, 1, by decide +kernel, by decide +kernel, by decide +kernel, by decide +kernel⟩,
  ⟨st (pcDev 0 (.atomic .cas true true true 1 2 3) fun k => { k with regs := regs 0x20000000 0 }), .packet 0 0, 1, 2, 3, true, true, true, .cas (.packet 0 0) true true true 1 2 3, .cas, by decide +kernel, by decide +kernel, by decide +kernel, by decide +kernel, 0, 0, 2 ^ 48, by decide +kernel⟩,
  ⟨st (ksDev (.atomic .swap false false false 1 2 3) fun k => { k with regs := regs 0x10000000 0 }), .keystone, 1, 2, 3, false, false, false, .swap .keystone false false false 1 2 3, .swap, by decide +kernel, by decide +kernel, by decide +kernel, by decide +kernel, by decide +kernel⟩⟩

theorem test_hyp_WaitedMemoryCommandsComplete :
    (∃ (s : State) (th : Thread) (bits : Fin 32), Ready s th (.fence bits) ∧ ∃ core ctx, th = .packet core ctx ∧ (s.dev.ctx core.val ctx.val).stores.any (fenceSel bits.val) = false) ∧
    (∃ (s : State) (th : Thread) (bits : Fin 32), Ready s th (.fence bits) ∧ ∃ core ctx, th = .packet core ctx ∧ (s.dev.ctx core.val ctx.val).stores.any (fenceSel bits.val) = true) ∧
    (∃ (s : State) (th : Thread) (bits : Fin 32), Ready s th (.fence bits) ∧ (∀ core ctx, th ≠ .packet core ctx)) ∧
    (∃ (s : State) (core : Fin 272) (ctx : Fin 16) (w : Nat) (bits : Fin 32), Waits s core ctx w (.fence bits) ∧ let d := (s.dev.slotted core ctx).landStores core.val ctx.val (fenceSel bits.val); (d.ctx core.val ctx.val).stores.any (fenceSel bits.val) = false) ∧
    (∃ (s : State) (core : Fin 272) (ctx : Fin 16) (w : Nat) (op : LoadOp) (rd rs1 : Fin 32) (imm : BitVec 16), Waits s core ctx w (.load op rd rs1 imm) ∧ let th := Thread.packet core ctx; let d := s.dev.slotted core ctx; let e := d.landAll th; let a := (gget (s.dev.tregs th) rs1 + imm.signExtend 64).toNat; let n := op.shape.1; a % n = 0 ∧ d.target th a n false = .mem ∧ d.held a = false ∧ e.tagBad a n = false ∧ e.marked a n = false) ∧
    (∃ (s : State) (core : Fin 272) (ctx : Fin 16) (x : Nat × Nat × Nat), Up s ∧ s.dev.tblocked (.packet core ctx) = none ∧ (s.dev.ctx core.val ctx.val).stores.find? (fun x => !s.dev.storeHeld x) = some x) := ⟨
  ⟨st (pcDev 0 (.fence 31)), .packet 0 0, 31, by decide +kernel, 0, 0, by decide +kernel⟩,
  ⟨st (pcDev 0 (.fence 31) fun k => { k with stores := [(0x100000000, 8, 5)] }), .packet 0 0, 31, by decide +kernel, 0, 0, by decide +kernel⟩,
  ⟨st (ksDev (.fence 31)), .keystone, 31, by decide +kernel, (fun _ _ => by simp)⟩,
  ⟨st (pcDev 0 (.fence 31) fun k => { k with blocked := some (SOp.fence 31).encode, stores := [(0x100000000, 8, 5)] }), 0, 0, (SOp.fence 31).encode, 31, by decide +kernel, by decide +kernel⟩,
  ⟨st ((((pcDev 0 (.fence 31) fun k => { k with blocked := some (SOp.load .ld 3 2 8).encode, regs := regs 0x1000000000 0 }).setFld F.PCB_WIN_BASE_HI 0 0 16).setFld F.PCB_WIN_VALID 0 0 1).setFld F.PCB_WIN_RD 0 0 1 |>.setFld F.PCB_WIN_LOG2 0 0 12), 0, 0, (SOp.load .ld 3 2 8).encode, .ld, 3, 2, 8, by decide +kernel, by decide +kernel⟩,
  ⟨st (d0.updCtx 0 0 fun k => { k with stores := [(0x100000000, 8, 5)] }), 0, 0, (0x100000000, 8, 5), by decide +kernel⟩⟩

theorem test_hyp_ThreadInstructionsComplete :
    (∃ (s : State) (core : Fin 272) (ctx : Fin 16) (rd rs1 rs2 : Fin 32), let th := Thread.packet core ctx; let d := s.dev.issued th; Ready s th (.fork rd rs1 rs2) ∧ ∃ u, ((List.range 16).find? fun u => u != 0 && (d.ctx core.val u).st == 0) = some u) ∧
    (∃ (s : State) (core : Fin 272) (ctx : Fin 16) (rd rs1 rs2 : Fin 32), let th := Thread.packet core ctx; let d := s.dev.issued th; Ready s th (.fork rd rs1 rs2) ∧ ((List.range 16).find? fun u => u != 0 && (d.ctx core.val u).st == 0) = none) ∧
    (∃ (s : State) (core : Fin 272) (ctx : Fin 16) (rd rs1 : Fin 32), let th := Thread.packet core ctx; let d := s.dev.issued th; let g := s.dev.tregs th; Ready s th (.join rd rs1) ∧ let u := (gget g rs1).toNat % 16; let k := d.ctx core.val u; (k.parent ≠ some ctx.val ∨ k.st = 0)) ∧
    (∃ (s : State) (core : Fin 272) (ctx : Fin 16) (rd rs1 : Fin 32), let th := Thread.packet core ctx; let d := s.dev.issued th; let g := s.dev.tregs th; Ready s th (.join rd rs1) ∧ let u := (gget g rs1).toNat % 16; let k := d.ctx core.val u; k.parent = some ctx.val ∧ k.st = 2) ∧
    (∃ (s : State) (core : Fin 272) (ctx : Fin 16) (rd rs1 : Fin 32), let th := Thread.packet core ctx; let d := s.dev.issued th; let g := s.dev.tregs th; Ready s th (.join rd rs1) ∧ let u := (gget g rs1).toNat % 16; let k := d.ctx core.val u; k.parent = some ctx.val ∧ k.st ≠ 0 ∧ k.st ≠ 2) ∧
    (∃ (s : State) (core : Fin 272) (ctx : Fin 16) (rs1 : Fin 32), let th := Thread.packet core ctx; Ready s th (.quit rs1) ∧ ctx.val ≠ 0) ∧
    (∃ (s : State) (core : Fin 272) (ctx : Fin 16) (rs1 : Fin 32), let th := Thread.packet core ctx; Ready s th (.quit rs1) ∧ ctx.val = 0) ∧
    (∃ (s : State) (core : Fin 272) (ctx : Fin 16) (w : Nat) (rd rs1 : Fin 32), Waits s core ctx w (.join rd rs1) ∧ let th := Thread.packet core ctx; let d := s.dev.slotted core ctx; let u := (gget (s.dev.tregs th) rs1).toNat % 16; (d.ctx core.val u).parent = some ctx.val ∧ (d.ctx core.val u).st = 2) ∧
    (∃ (s : State) (th : Thread) (rs1 : Fin 32), (∀ core ctx, th ≠ .packet core ctx) ∧ let k := thrOf th; let x := s.dev.thr k; Ready s th (.trap rs1) ∧ bitOf x.tstate 7 = false) ∧
    (∃ (s : State) (th : Thread), (∀ core ctx, th ≠ .packet core ctx) ∧ let k := thrOf th; let x := s.dev.thr k; Ready s th .eret ∧ x.tpc % 4 = 0) ∧
    (∃ (s : State) (th : Thread), (∀ core ctx, th ≠ .packet core ctx) ∧ let k := thrOf th; let d := s.dev.issued th; Ready s th .wfe ∧ d.irqsOn k ≠ 0) ∧
    (∃ (s : State) (th : Thread), (∀ core ctx, th ≠ .packet core ctx) ∧ let k := thrOf th; let d := s.dev.issued th; Ready s th .wfe ∧ d.irqsOn k = 0) ∧
    (∃ (s : State) (th : Thread), (∀ core ctx, th ≠ .packet core ctx) ∧ let k := thrOf th; let x := s.dev.thr k; Up s ∧ s.dev.mayWake th = true ∧ x.wfe = true ∧ s.dev.irqsOn k ≠ 0) ∧
    (∃ (s : State) (th : Thread), (∀ core ctx, th ≠ .packet core ctx) ∧ let k := thrOf th; let x := s.dev.thr k; Up s ∧ s.dev.threadRuns th = true ∧ x.wfe = false ∧ x.blocked = none ∧ x.stopped = false ∧ s.dev.irqReady k = true ∧ (s.dev.irqsOn k).log2 ≠ 3) ∧
    (∃ (s : State) (th : Thread), (∀ core ctx, th ≠ .packet core ctx) ∧ Up s) := ⟨
  ⟨st (pcDev 0 (.fork 1 2 3)), 0, 0, 1, 2, 3, by decide +kernel, 1, by decide +kernel⟩,
  ⟨st ({ pcDev 0 (.fork 1 2 3) with ctxs := (List.range 16).map fun u => (u, { st := 1 }) }), 0, 0, 1, 2, 3, by decide +kernel, by decide +kernel⟩,
  ⟨st (pcDev 0 (.join 1 2)), 0, 0, 1, 2, by decide +kernel, by decide +kernel⟩,
  ⟨st ({ pcDev 0 (.join 1 2) with ctxs := [(0, { st := 1, regs := regs 1 0 }), (1, { st := 2, parent := some 0 })] }), 0, 0, 1, 2, by decide +kernel, by decide +kernel⟩,
  ⟨st ({ pcDev 0 (.join 1 2) with ctxs := [(0, { st := 1, regs := regs 1 0 }), (1, { st := 1, parent := some 0 })] }), 0, 0, 1, 2, by decide +kernel, by decide +kernel⟩,
  ⟨st (pcDev 15 (.quit 2)), 0, 15, 2, by decide +kernel, by decide +kernel⟩,
  ⟨st (pcDev 0 (.quit 2)), 0, 0, 2, by decide +kernel, by decide +kernel⟩,
  ⟨st ({ pcDev 0 (.join 1 2) with ctxs := [(0, { st := 1, regs := regs 1 0, blocked := some (SOp.join 1 2).encode }), (1, { st := 2, parent := some 0 })] }), 0, 0, (SOp.join 1 2).encode, 1, 2, by decide +kernel, by decide +kernel⟩,
  ⟨st (scDev (.trap 2)), .service 0 0, 2, (fun _ _ => by simp), by decide +kernel, by decide +kernel⟩,
  ⟨st (scDev .eret fun k => { k with tpc := 8 }), .service 0 0, (fun _ _ => by simp), by decide +kernel, by decide +kernel⟩,
  ⟨st (scDev .wfe fun k => { k with irqPend := 1, irqEn := 1 }), .service 0 0, (fun _ _ => by simp), by decide +kernel, by decide +kernel⟩,
  ⟨st (scDev .wfe), .service 0 0, (fun _ _ => by simp), by decide +kernel, by decide +kernel⟩,
  ⟨st (scDev .wfe fun k => { k with wfe := true, irqPend := 1, irqEn := 1 }), .service 0 0, (fun _ _ => by simp), by decide +kernel⟩,
  ⟨st (scDev .wfe fun k => { k with tstate := 8, irqPend := 4, irqEn := 4 }), .service 0 0, (fun _ _ => by simp), by decide +kernel⟩,
  ⟨st (d0), .keystone, (fun _ _ => by simp), by decide +kernel⟩⟩

theorem test_hyp_ChannelInstructionsComplete :
    (∃ (s : State) (core : Fin 272) (ctx : Fin 16) (rd ch : Fin 32), let c := core.val; let t := ctx.val; let th := Thread.packet core ctx; let d := s.dev.issued th; let x := s.dev.issueSlot th; Ready s th (.chin rd ch) ∧ ∃ (id p y : Nat), ch.val = 0 ∧ (d.ctx c t).current = none ∧ (d.ctx c t).inbox = some (id, p, y) ∧ y < x) ∧
    (∃ (s : State) (core : Fin 272) (ctx : Fin 16) (rd ch : Fin 32), let c := core.val; let t := ctx.val; let th := Thread.packet core ctx; let d := s.dev.issued th; Ready s th (.chin rd ch) ∧ ∃ (w : DWord) (r : List DWord), ch.val = 3 ∧ (d.ctx c t).results = w :: r) ∧
    (∃ (s : State) (core : Fin 272) (ctx : Fin 16) (rd ch : Fin 32), let c := core.val; let t := ctx.val; let th := Thread.packet core ctx; let d := s.dev.issued th; let x := s.dev.issueSlot th; Ready s th (.chin rd ch) ∧ ∃ (f : Nat) (w : DWord × Nat) (r : List (DWord × Nat)), 4 ≤ ch.val ∧ d.bound c t ch.val = some (f, false) ∧ d.fifo (coreBlock c) f = w :: r ∧ w.2 < x) ∧
    (∃ (s : State) (core : Fin 272) (ctx : Fin 16) (rd ch : Fin 32), let c := core.val; let t := ctx.val; let th := Thread.packet core ctx; let d := s.dev.issued th; Ready s th (.chin rd ch) ∧ ∃ (f : Nat), 4 ≤ ch.val ∧ d.bound c t ch.val = some (f, false) ∧ d.fifo (coreBlock c) f = []) ∧
    (∃ (s : State) (core : Fin 272) (ctx : Fin 16) (rd ch : Fin 32), let c := core.val; let t := ctx.val; let th := Thread.packet core ctx; let d := s.dev.issued th; Ready s th (.chout rd ch) ∧ ∃ (f : Nat), 4 ≤ ch.val ∧ d.bound c t ch.val = some (f, true) ∧ (d.ctx c t).stores = [] ∧ d.fifoDead (coreBlock c) f = false ∧ (d.fifo (coreBlock c) f).length < 4 ∧ d.readerOf (coreBlock c) f = some c) ∧
    (∃ (s : State) (core : Fin 272) (ctx : Fin 16) (rd ch : Fin 32), let c := core.val; let t := ctx.val; let th := Thread.packet core ctx; let d := s.dev.issued th; Ready s th (.chout rd ch) ∧ ∃ (f : Nat), 4 ≤ ch.val ∧ d.bound c t ch.val = some (f, true) ∧ (d.ctx c t).stores = [] ∧ d.fifoDead (coreBlock c) f = false ∧ 4 ≤ (d.fifo (coreBlock c) f).length) ∧
    (∃ (s : State) (core : Fin 272) (ctx : Fin 16) (rd ch : Fin 32), let th := Thread.packet core ctx; ∃ (room : Bool), Ready s th (.chtest room rd ch) ∧ ch.val = 3) ∧
    (∃ (s : State) (core : Fin 272) (ctx : Fin 16) (rd ch : Fin 32), let c := core.val; let t := ctx.val; let th := Thread.packet core ctx; let d := s.dev.issued th; ∃ (room : Bool), Ready s th (.chtest room rd ch) ∧ ∃ (y : Nat × Bool), 4 ≤ ch.val ∧ d.bound c t ch.val = some y) ∧
    (∃ (s : State) (core : Fin 272) (ctx : Fin 16) (rd ch : Fin 32), let c := core.val; let t := ctx.val; ∃ (w f : Nat) (y : DWord × Nat) (r : List (DWord × Nat)), Waits s core ctx w (.chin rd ch) ∧ 4 ≤ ch.val ∧ let e := s.dev.slotted core ctx; e.bound c t ch.val = some (f, false) ∧ e.fifo (coreBlock c) f = y :: r ∧ y.2 < s.dev.nextSlot c t) ∧
    (∃ (s : State) (core : Fin 272) (ctx : Fin 16) (rd ch : Fin 32), let c := core.val; let t := ctx.val; ∃ (w f : Nat), Waits s core ctx w (.chout rd ch) ∧ 4 ≤ ch.val ∧ let e := (s.dev.slotted core ctx).landStores c t fun _ => true; (s.dev.slotted core ctx).bound c t ch.val = some (f, true) ∧ (e.ctx c t).stores = [] ∧ e.fifoDead (coreBlock c) f = false ∧ (e.fifo (coreBlock c) f).length < 4 ∧ e.readerOf (coreBlock c) f = some c) := ⟨
  ⟨st (pcDev 0 (.chin 1 0) fun k => { k with inbox := some (9, 3, 0), next := 1 }), 0, 0, 1, 0, by decide +kernel, 9, 3, 0, by decide +kernel⟩,
  ⟨st (pcDev 0 (.chin 1 3) fun k => { k with results := [5] }), 0, 0, 1, 3, by decide +kernel, 5, [], by decide +kernel⟩,
  ⟨st ({ pcDev 0 (.chin 1 4) fun k => { k with next := 1 } with pktCores := [(0, { binds := [(4, 7, false)] })], fifos := [(7, [(5, 0)])] }), 0, 0, 1, 4, by decide +kernel, 7, (5, 0), [], by decide +kernel⟩,
  ⟨st ({ pcDev 0 (.chin 1 31) fun k => { k with st := 1 } with pktCores := [(0, { binds := [(31, 7, false)] })], fifos := [(7, [])] }), 0, 0, 1, 31, by decide +kernel, 7, by decide +kernel⟩,
  ⟨st ({ pcDev 0 (.chout 1 31) fun k => { k with st := 1 } with pktCores := [(0, { binds := [(31, 7, true), (4, 7, false)] })], fifos := [(7, [(1, 0), (2, 0), (3, 0)])] }), 0, 0, 1, 31, by decide +kernel, 7, by decide +kernel⟩,
  ⟨st ({ pcDev 0 (.chout 1 4) fun k => { k with st := 1 } with pktCores := [(0, { binds := [(4, 7, true)] })], fifos := [(7, [(1, 0), (2, 0), (3, 0), (4, 0)])] }), 0, 0, 1, 4, by decide +kernel, 7, by decide +kernel⟩,
  ⟨st (pcDev 0 (.chtest true 1 3)), 0, 0, 1, 3, true, by decide +kernel, by decide +kernel⟩,
  ⟨st ({ pcDev 0 (.chtest false 1 4) fun k => { k with st := 1 } with pktCores := [(0, { binds := [(4, 7, true)] })], fifos := [(7, [])] }), 0, 0, 1, 4, false, by decide +kernel, (7, true), by decide +kernel⟩,
  ⟨st ({ pcDev 0 (.chin 1 4) fun k => { k with next := 1, blocked := some (SOp.chin 1 4).encode } with pktCores := [(0, { binds := [(4, 7, false)] })], fifos := [(7, [(5, 0)])] }), 0, 0, 1, 4, (SOp.chin 1 4).encode, 7, (5, 0), [], by decide +kernel, by decide +kernel, by decide +kernel⟩,
  ⟨st ({ pcDev 0 (.chout 1 4) fun k => { k with blocked := some (SOp.chout 1 4).encode } with pktCores := [(0, { binds := [(4, 7, true), (5, 7, false)] })], fifos := [(7, [(5, 0)])] }), 0, 0, 1, 4, (SOp.chout 1 4).encode, 7, by decide +kernel, by decide +kernel, by decide +kernel⟩⟩

theorem test_hyp_PacketAndTableInstructionsComplete :
    (∃ (s : State) (core : Fin 272) (ctx : Fin 16) (size : Fin 4) (rd rs1 : Fin 32) (off : Fin 1024) (id : Nat), let th := Thread.packet core ctx; let d := s.dev.issued th; (d.ctx core.val ctx.val).current = some id ∧ Ready s th (.pktld size rd rs1 off)) ∧
    (∃ (s : State) (core : Fin 272) (ctx : Fin 16) (size : Fin 4) (rd : Fin 32) (byte : Fin 64) (id : Nat), let th := Thread.packet core ctx; let d := s.dev.issued th; (d.ctx core.val ctx.val).current = some id ∧ Ready s th (.pktldm size rd byte)) ∧
    (∃ (s : State) (core : Fin 272) (ctx : Fin 16) (rd : Fin 32) (arg : Fin 1024) (id : Nat), let th := Thread.packet core ctx; let d := s.dev.issued th; (d.ctx core.val ctx.val).current = some id ∧ Ready s th (.pktlay rd arg)) ∧
    (∃ (s : State) (core : Fin 272) (ctx : Fin 16) (size : Fin 4) (rd rs1 : Fin 32) (off : Fin 1024) (id : Nat), let th := Thread.packet core ctx; let d := s.dev.issued th; let g := s.dev.tregs th; let k := d.pkt id; let n := 2 ^ size.val; let o := ((gget g rs1).toNat + off.val) % 2 ^ 64; (d.ctx core.val ctx.val).current = some id ∧ Ready s th (.pktst size rd rs1 off) ∧ o + n ≤ min 256 k.bytes.length) ∧
    (∃ (s : State) (core : Fin 272) (ctx : Fin 16) (size : Fin 4) (rd rs1 : Fin 32) (off : Fin 1024) (id : Nat), let th := Thread.packet core ctx; let d := s.dev.issued th; let g := s.dev.tregs th; let k := d.pkt id; let n := 2 ^ size.val; let o := ((gget g rs1).toNat + off.val) % 2 ^ 64; (d.ctx core.val ctx.val).current = some id ∧ Ready s th (.pktst size rd rs1 off) ∧ min 256 k.bytes.length < o + n) ∧
    (∃ (s : State) (core : Fin 272) (ctx : Fin 16) (size : Fin 4) (rd : Fin 32) (arg : Fin 1024) (id : Nat), let th := Thread.packet core ctx; let d := s.dev.issued th; let n := 2 ^ size.val; (d.ctx core.val ctx.val).current = some id ∧ Ready s th (.pktstm size rd arg) ∧ 16 ≤ arg.val ∧ arg.val + n ≤ 64) ∧
    (∃ (s : State) (core : Fin 272) (ctx : Fin 16) (id : Nat), let th := Thread.packet core ctx; let d := s.dev.issued th; (d.ctx core.val ctx.val).current = some id ∧ Ready s th (.pktend .drop)) ∧
    (∃ (s : State) (core : Fin 272) (ctx : Fin 16) (id : Nat), let th := Thread.packet core ctx; let d := s.dev.issued th; (d.ctx core.val ctx.val).current = some id ∧ Ready s th (.pktend .recirc)) ∧
    (∃ (s : State) (core : Fin 272) (ctx : Fin 16) (id : Nat), let th := Thread.packet core ctx; let d := s.dev.issued th; let k := d.pkt id; let left := d.updCtx core.val ctx.val fun k => { k with current := none }; (d.ctx core.val ctx.val).current = some id ∧ Ready s th (.pktend .fwd) ∧ (left.pkt id).pass ≠ 3) ∧
    (∃ (s : State) (core : Fin 272) (ctx : Fin 16) (rs1 : Fin 32) (table : Fin 64) (c : Instr) (op : TblOp), let th := Thread.packet core ctx; let a := (gget (s.dev.tregs th) rs1).toNat; let key := 2 ^ 48 + core.val * 2 ^ 18 + (a - 0x20000000); (c, op) ∈ [(Instr.tlookup th rs1 table, TblOp.lookup), (.tinsert th rs1 table, .insert), (.tdelete th rs1 table, .delete)] ∧ a % 8 = 0 ∧ inLocal th a = true ∧ sliceOpen ctx.val a 80 = true ∧ Ready s th (.table op rs1 table) ∧ (s.dev.issued th).marked key 80 = false ∧ ((s.dev.issued th).ctx core.val ctx.val).tableRoom = true) ∧
    (∃ (s : State) (core : Fin 272) (ctx : Fin 16) (rs1 : Fin 32) (table : Fin 64) (c : Instr) (op : TblOp), let th := Thread.packet core ctx; let a := (gget (s.dev.tregs th) rs1).toNat; let key := 2 ^ 48 + core.val * 2 ^ 18 + (a - 0x20000000); (c, op) ∈ [(Instr.tlookup th rs1 table, TblOp.lookup), (.tinsert th rs1 table, .insert), (.tdelete th rs1 table, .delete)] ∧ a % 8 = 0 ∧ inLocal th a = true ∧ sliceOpen ctx.val a 80 = true ∧ Ready s th (.table op rs1 table) ∧ (s.dev.issued th).marked key 80 = false ∧ ((s.dev.issued th).ctx core.val ctx.val).tableRoom = false) ∧
    (∃ (s : State) (core : Fin 272) (ctx : Fin 16) (rs1 : Fin 32) (table : Fin 64) (c : Instr) (op : TblOp), let th := Thread.packet core ctx; let a := (gget (s.dev.tregs th) rs1).toNat; let key := 2 ^ 48 + core.val * 2 ^ 18 + (a - 0x20000000); (c, op) ∈ [(Instr.tlookup th rs1 table, TblOp.lookup), (.tinsert th rs1 table, .insert), (.tdelete th rs1 table, .delete)] ∧ a % 8 = 0 ∧ inLocal th a = true ∧ sliceOpen ctx.val a 80 = true ∧ ∃ w, Waits s core ctx w (.table op rs1 table) ∧ (s.dev.slotted core ctx).marked key 80 = false ∧ ((s.dev.slotted core ctx).ctx core.val ctx.val).tableRoom = true) ∧
    (∃ (s : State) (core : Fin 272) (ctx : Fin 16) (x : DWord × DWord) (l : List (DWord × DWord)), Up s ∧ (s.dev.ctx core.val ctx.val).ops = x :: l) := ⟨
  ⟨st ({ pcDev 0 (.pktld 3 1 2 1023) fun k => { k with current := some 9 } with pkts := [(9, { bytes := List.replicate 60 5 })] }), 0, 0, 3, 1, 2, 1023, 9, by decide +kernel⟩,
  ⟨st ({ pcDev 0 (.pktldm 3 1 56) fun k => { k with current := some 9 } with pkts := [(9, { bytes := List.replicate 60 5 })] }), 0, 0, 3, 1, 56, 9, by decide +kernel⟩,
  ⟨st ({ pcDev 0 (.pktlay 1 255) fun k => { k with current := some 9 } with pkts := [(9, { bytes := List.replicate 60 5 })] }), 0, 0, 1, 255, 9, by decide +kernel⟩,
  ⟨st ({ pcDev 0 (.pktst 3 1 2 52) fun k => { k with current := some 9 } with pkts := [(9, { bytes := List.replicate 60 5 })] }), 0, 0, 3, 1, 2, 52, 9, by decide +kernel⟩,
  ⟨st ({ pcDev 0 (.pktst 3 1 2 53) fun k => { k with current := some 9 } with pkts := [(9, { bytes := List.replicate 60 5 })] }), 0, 0, 3, 1, 2, 53, 9, by decide +kernel⟩,
  ⟨st ({ pcDev 0 (.pktstm 3 1 56) fun k => { k with current := some 9 } with pkts := [(9, { bytes := List.replicate 60 5 })] }), 0, 0, 3, 1, 56, 9, by decide +kernel⟩,
  ⟨st ({ pcDev 0 (.pktend .drop) fun k => { k with current := some 9 } with pkts := [(9, { bytes := List.replicate 60 5 })] }), 0, 0, 9, by decide +kernel⟩,
  ⟨st ({ pcDev 0 (.pktend .recirc) fun k => { k with current := some 9 } with pkts := [(9, { bytes := List.replicate 60 5 })] }), 0, 0, 9, by decide +kernel⟩,
  ⟨st ({ pcDev 0 (.pktend .fwd) fun k => { k with current := some 9 } with pkts := [(9, { bytes := List.replicate 60 5 })] }), 0, 0, 9, by decide +kernel⟩,
  ⟨st (pcDev 0 (.table .lookup 2 63) fun k => { k with regs := regs 0x20002FB0 0 }), 0, 0, 2, 63, .tlookup (.packet 0 0) 2 63, .lookup, by decide +kernel, by decide +kernel, by decide +kernel, by decide +kernel, by decide +kernel⟩,
  ⟨st (pcDev 0 (.table .insert 2 63) fun k => { k with regs := regs 0x20000000 0, ops := [(0, 0), (0, 0)] }), 0, 0, 2, 63, .tinsert (.packet 0 0) 2 63, .insert, by decide +kernel, by decide +kernel, by decide +kernel, by decide +kernel, by decide +kernel⟩,
  ⟨st (pcDev 0 (.table .delete 2 63) fun k => { k with regs := regs 0x20000000 0, blocked := some (SOp.table .delete 2 63).encode }), 0, 0, 2, 63, .tdelete (.packet 0 0) 2 63, .delete, by decide +kernel, by decide +kernel, by decide +kernel, by decide +kernel, (SOp.table .delete 2 63).encode, by decide +kernel⟩,
  ⟨st (d0.updCtx 271 15 fun k => { k with ops := [(1, 2)] }), 271, 15, (1, 2), [], by decide +kernel⟩⟩

theorem test_hyp_CsrInstructionsComplete :
    (∃ (s : State) (th : Thread) (rd : Fin 32) (num : Fin 4096) (priv : Nat) (writable : Bool), csrInfo (profileOf th) num.val = some (priv, writable) ∧ Ready s th (.csrr rd num) ∧ priv ≤ s.dev.tpriv th) ∧
    (∃ (s : State) (th : Thread) (rs1 : Fin 32) (num : Fin 4096) (priv : Nat) (writable : Bool), csrInfo (profileOf th) num.val = some (priv, writable) ∧ Ready s th (.csrw rs1 num) ∧ writable = true ∧ priv ≤ s.dev.tpriv th) ∧
    (∃ (s : State) (th : Thread) (rs1 : Fin 32) (num : Fin 4096) (priv : Nat) (writable : Bool), csrInfo (profileOf th) num.val = some (priv, writable) ∧ Ready s th (.csrw rs1 num) ∧ writable = false) ∧
    (∃ (s : State) (th : Thread) (rd : Fin 32) (num : Fin 4096) (priv : Nat) (writable : Bool), csrInfo (profileOf th) num.val = some (priv, writable) ∧ Ready s th (.csrr rd num) ∧ s.dev.tpriv th < priv) ∧
    (∃ (s : State) (c : Fin 52) (t : Fin 2) (rs1 : Fin 32), let th := Thread.service c t; 1 ≤ s.dev.tpriv th ∧ Ready s th (.csrw rs1 0x209)) ∧
    (∃ (s : State) (c : Fin 52) (t : Fin 2) (rs1 : Fin 32), let th := Thread.service c t; 1 ≤ s.dev.tpriv th ∧ Ready s th (.csrw rs1 0x20A)) ∧
    (∃ (s : State) (core : Fin 272) (rs1 : Fin 32), let th := Thread.packet core 0; let d := s.dev.issued th; let v := (gget (s.dev.tregs th) rs1).toNat; let c := core.val; let u := v % 16; Ready s th (.csrw rs1 0x101) ∧ u ≠ 0 ∧ bitsOf v 63 62 = 1 ∧ (d.ctx c u).st = 3) ∧
    (∃ (s : State) (core : Fin 272) (rs1 : Fin 32), let th := Thread.packet core 0; let d := s.dev.issued th; let v := (gget (s.dev.tregs th) rs1).toNat; let c := core.val; let u := v % 16; Ready s th (.csrw rs1 0x101) ∧ u ≠ 0 ∧ bitsOf v 63 62 = 2 ∧ ((d.ctx c u).st = 1 ∨ (d.ctx c u).st = 3)) ∧
    (∃ (s : State) (core : Fin 272) (rs1 : Fin 32), let th := Thread.packet core 0; let d := s.dev.issued th; let v := (gget (s.dev.tregs th) rs1).toNat; let c := core.val; let u := v % 16; Ready s th (.csrw rs1 0x110) ∧ let ch := bitsOf v 12 8; let f := bitsOf v 23 16; 4 ≤ ch ∧ bitOf v 63 = true ∧ d.bound c u ch = none ∧ ((bitOf v 62 = true ∨ d.readerOf (coreBlock c) f = none))) ∧
    (∃ (s : State) (core : Fin 272) (rs1 : Fin 32), let th := Thread.packet core 0; let d := s.dev.issued th; let v := (gget (s.dev.tregs th) rs1).toNat; let c := core.val; let u := v % 16; Ready s th (.csrw rs1 0x110) ∧ let ch := bitsOf v 12 8; 4 ≤ ch ∧ ∃ f', bitOf v 63 = false ∧ d.bound c u ch = some (f', false)) := ⟨
  ⟨st (pcDev 15 (.csrr 1 0)), .packet 0 15, 1, 0, 0, false, by decide +kernel⟩,
  ⟨st (scDev (.csrw 2 0x20A)), .service 0 0, 2, 0x20A, 1, true, by decide +kernel⟩,
  ⟨st (pcDev 0 (.csrw 2 5)), .packet 0 0, 2, 5, 0, false, by decide +kernel⟩,
  ⟨st (scDev (.csrr 1 0x200) fun k => { k with tstate := 0 }), .service 0 0, 1, 0x200, 1, true, by decide +kernel⟩,
  ⟨st (scDev (.csrw 2 0x209)), 0, 0, 2, by decide +kernel⟩,
  ⟨st (scDev (.csrw 2 0x20A)), 0, 0, 2, by decide +kernel⟩,
  ⟨st ({ pcDev 0 (.csrw 2 0x101) with ctxs := [(0, { st := 1, regs := regs (2 ^ 62 + 1) 0 }), (1, { st := 3 })] }), 0, 2, by decide +kernel⟩,
  ⟨st ({ pcDev 0 (.csrw 2 0x101) with ctxs := [(0, { st := 1, regs := regs (2 ^ 63 + 1) 0 }), (1, { st := 1 })] }), 0, 2, by decide +kernel⟩,
  ⟨st (pcDev 0 (.csrw 2 0x110) fun k => { k with regs := regs (2 ^ 63 + 4 * 256) 0 }), 0, 2, by decide +kernel, by decide +kernel⟩,
  ⟨st ({ (pcDev 0 (.csrw 2 0x110) fun k => { k with regs := regs (4 * 256) 0 }) with pktCores := [(0, { binds := [(4, 7, false)] })] }), 0, 2, by decide +kernel, by decide +kernel, 7, by decide +kernel⟩⟩

theorem test_hyp_CoreCommandsComplete :
    (∃ (s : State) (region : Fin 4) (core : Fin 68) (c : Instr) (ws : List Write) (w : Write) (d : Dev), c ∈ [Instr.coreRun region core ws, .coreStop region core ws] ∧ Takes s ⟨.PCB_CORE, region.val, core.val, 0⟩ ws w d ∧ let n := 68 * region.val + core.val; let e := d.plainWrite ⟨.PCB_CORE, region.val, core.val, 0⟩ w.value; bitOf w.value.toNat 31 = true ∧ d.flag F.PCB_CORE_SFAULT region.val core.val = false ∧ e.coreState n = 0) ∧
    (∃ (s : State) (region : Fin 4) (core : Fin 68) (c : Instr) (ws : List Write) (w : Write) (d : Dev), c ∈ [Instr.coreRun region core ws, .coreStop region core ws] ∧ Takes s ⟨.PCB_CORE, region.val, core.val, 0⟩ ws w d ∧ bitOf w.value.toNat 31 = true ∧ d.flag F.PCB_CORE_SFAULT region.val core.val = true) ∧
    (∃ (s : State) (region : Fin 4) (core : Fin 68) (c : Instr) (ws : List Write) (w : Write) (d : Dev), c ∈ [Instr.coreRun region core ws, .coreStop region core ws] ∧ Takes s ⟨.PCB_CORE, region.val, core.val, 0⟩ ws w d ∧ let n := 68 * region.val + core.val; let e := d.plainWrite ⟨.PCB_CORE, region.val, core.val, 0⟩ w.value; bitOf w.value.toNat 31 = false ∧ e.coreState n = 1) ∧
    (∃ (s : State) (core : Fin 52) (ws : List Write) (w : Write) (d : Dev), Takes s ⟨.SCC_CORE, core.val / 13, core.val % 13, 0⟩ ws w d ∧ w.writer = .keystone ∧ let e := d.plainWrite ⟨.SCC_CORE, core.val / 13, core.val % 13, 0⟩ w.value; bitOf w.value.toNat 31 = true ∧ d.flag F.SCC_CORE_SFAULT (core.val / 13) (core.val % 13) = false ∧ e.fld F.SCC_CORE_STATE (core.val / 13) (core.val % 13) ≠ 1 ∧ e.cellGone 2 core.val = false) ∧
    (∃ (s : State) (core : Fin 52) (ws : List Write) (w : Write) (d : Dev), Takes s ⟨.SCC_CORE, core.val / 13, core.val % 13, 0⟩ ws w d ∧ w.writer = .keystone ∧ bitOf w.value.toNat 31 = true ∧ d.flag F.SCC_CORE_SFAULT (core.val / 13) (core.val % 13) = true) ∧
    (∃ (s : State) (core : Fin 52) (ws : List Write) (w : Write) (d : Dev), Takes s ⟨.SCC_CORE, core.val / 13, core.val % 13, 0⟩ ws w d ∧ w.writer = .keystone ∧ let e := d.plainWrite ⟨.SCC_CORE, core.val / 13, core.val % 13, 0⟩ w.value; bitOf w.value.toNat 31 = false ∧ e.fld F.SCC_CORE_STATE (core.val / 13) (core.val % 13) = 1) ∧
    (∃ (s : State) (core : Fin 52) (ws : List Write) (w : Write) (d : Dev), Takes s ⟨.SCC_MSG, core.val / 13, core.val % 13, 0⟩ ws w d ∧ bitOf w.value.toNat 0 = true ∧ bitOf w.value.toNat 1 = true) ∧
    (∃ (s : State) (core : Fin 52), Up s ∧ s.dev.scRuns core.val = true ∧ let a := s.dev.scActive.at 0 core.val; let other := s.dev.thr (2 * core.val + (1 - a)); other.wfe = false ∧ other.blocked = none) ∧
    (∃ (s : State) (region : Fin 4), Up s ∧ ∃ id p m, ((s.dev.queuedPkts region.val).find? fun x => (s.dev.memberFor region.val x.2 x.1).isSome) = some (id, p) ∧ s.dev.memberFor region.val p id = some m) ∧
    (∃ (s : State) (region : Fin 4) (line : Nat) (writeback : Option (Fin 52)) (requests : List (Fin 52 × Bool)), Up s ∧ let k := 4 * line + region.val; let l0 := s.dev.lines.at {} k; let l1 : Line := match writeback with
      | some c => if l0.owner = c.val ∧ 2 ≤ l0.st then {} else { l0 with sharers := l0.sharers.filter (· != c.val) }
      | none => l0; let l2 := (requests.foldl (fun a x => insertReq (s.dev.stamp % 52) (x.1.val, x.2) a) []).foldl Line.serve l1; l0.st ≠ 0 ∧ l2.st ≠ 0) := ⟨
  ⟨st (d0), 3, 67, .coreRun 3 67 [ks 0x80000000], [ks 0x80000000], ks 0x80000000, (d0), by decide +kernel, takes_alone (by decide +kernel), by decide +kernel⟩,
  ⟨st (d0.setFld F.PCB_CORE_SFAULT 3 67 1), 3, 67, .coreRun 3 67 [ks 0x80000000], [ks 0x80000000], ks 0x80000000, (d0.setFld F.PCB_CORE_SFAULT 3 67 1), by decide +kernel, takes_alone (by decide +kernel), by decide +kernel⟩,
  ⟨st (d0.setFld F.PCB_CORE_STATE 3 67 1), 3, 67, .coreStop 3 67 [ks 0], [ks 0], ks 0, (d0.setFld F.PCB_CORE_STATE 3 67 1), by decide +kernel, takes_alone (by decide +kernel), by decide +kernel⟩,
  ⟨st d0, 51, [ks 0x80000000], ks 0x80000000, d0, takes_alone (by decide +kernel), rfl, by decide +kernel⟩,
  ⟨st (d0.setFld F.SCC_CORE_SFAULT 3 12 1), 51, [ks 0x80000000], ks 0x80000000, (d0.setFld F.SCC_CORE_SFAULT 3 12 1), takes_alone (by decide +kernel), rfl, by decide +kernel⟩,
  ⟨st (d0.setFld F.SCC_CORE_STATE 3 12 1), 51, [ks 0], ks 0, (d0.setFld F.SCC_CORE_STATE 3 12 1), takes_alone (by decide +kernel), rfl, by decide +kernel⟩,
  ⟨st d0, 51, [ks 3], ks 3, d0, takes_alone (by decide +kernel), by decide +kernel⟩,
  ⟨st (d0.setFld F.SCC_CORE_STATE 0 0 1), 0, by decide +kernel⟩,
  ⟨st dispDev, 0, by decide +kernel, 9, 62, 17, by decide +kernel⟩,
  ⟨st { d0 with lines := [(4 * 5 + 3, { st := 1, sharers := [51] })] }, 3, 5, none, [], by decide +kernel⟩⟩

theorem test_hyp_RegisterWritesComplete :
    (∃ (s : State) (addr : Nat) (ws : List Write) (rs : List Writer) (w : Write) (k : RegKey) (d : Dev), let a := addr - addr % 4; let e := s.dev.settleMessage.readers a rs; Up s ∧ e.reach a = .word k ∧ Takes { s with dev := e } k ws w d) ∧
    (∃ (s : State) (addr : Nat) (ws : List Write) (w : Write) (f o : Nat) (d : Dev), let a := addr - addr % 4; let e := s.dev.settleMessage; Up s ∧ e.reach a = .nvme f o ∧ e.arbitrate (nvmeWriter f) a ws = (d, some w)) ∧
    (∃ (s : State) (addr : Nat), let a := addr - addr % 4; let e := s.dev.settleMessage; Up s ∧ e.reach a = .hole) ∧
    (∃ (s : State) (addr : Nat), let a := addr - addr % 4; let e := s.dev.settleMessage; Up s ∧ e.reach a = .nowhere) ∧
    (∃ (d : Dev) (a : Nat), d.reach a = .nowhere) ∧
    (∃ (d : Dev) (a : Nat), d.reach a ≠ .nowhere) ∧
    (∃ (d : Dev), d.sbOver = false) ∧
    (∃ (d : Dev), ∃ m k, d.sb = some m ∧ m.accepted + 63 < d.clk.now ∧ d.reach m.addr = .word k) := ⟨
  ⟨st d0, (RegKey.addr ⟨.SPAN_CFG, 0, 0, 0⟩), [ks 10], [], ks 10, ⟨.SPAN_CFG, 0, 0, 0⟩, _, by decide +kernel, by decide +kernel, takes_alone (by decide +kernel)⟩,
  ⟨st nvDev, 0x280060014, [ks 1], ks 1, 0, 0x14, nvDev, by decide +kernel, by decide +kernel, alone_word (by decide +kernel) (by decide +kernel)⟩,
  ⟨st d0, 0x280060014, by decide +kernel⟩,
  ⟨st d0, 0x2C0000000, by decide +kernel⟩,
  ⟨d0, 0x2C0000000, by decide +kernel⟩,
  ⟨d0, (RegKey.addr ⟨.SPAN_CFG, 0, 0, 0⟩), by decide +kernel⟩,
  ⟨d0, by decide +kernel⟩,
  ⟨{ d0 with sb := some { addr := (RegKey.addr ⟨.SPAN_CFG, 0, 0, 0⟩), value := 5, accepted := 0 }, clk := { now := 64 } }, { addr := (RegKey.addr ⟨.SPAN_CFG, 0, 0, 0⟩), value := 5, accepted := 0 }, ⟨.SPAN_CFG, 0, 0, 0⟩, by decide +kernel⟩⟩

theorem test_hyp_ReadClearAndSidebandCommandsComplete :
    (∃ (s : State) (addr : Nat) (rs : List Writer) (k : RegKey), let e := s.dev.settleMessage; Up s ∧ e.reach (addr - addr % 8) = .word k ∧ k.reg.clears = true ∧ ∃ top, e.sbTop k.addr = none ∧ e.topWrite (rs.map fun r => ({ writer := r, value := 0 } : Write)) = some top) ∧
    (∃ (s : State) (addr : Nat) (rs : List Writer) (k : RegKey), let e := s.dev.settleMessage; Up s ∧ e.reach (addr - addr % 8) = .word k ∧ k.reg.clears = true ∧ ∃ r rank code, rs = [r] ∧ e.sbTop k.addr = some (rank, code) ∧ rank < e.rank r) ∧
    (∃ (s : State) (addr : Nat) (k : RegKey), let e := s.dev.settleMessage; Up s ∧ e.reach (addr - addr % 8) = .word k ∧ k.reg.isCounter = true ∧ k.reg.clears = false) ∧
    (∃ (s : State) (addr : Nat), Up s ∧ s.dev.settleMessage.reach (addr - addr % 8) = .nowhere) ∧
    (∃ (s : State) (path : MgmtPath) (inSession : Bool), let e := s.dev.settleMessage; Up s ∧ e.sbOpen path = true ∧ e.sb = none ∧ ∃ st, e.sbRefuses path inSession true = some st) ∧
    (∃ (s : State) (addr : Nat) (path : MgmtPath) (inSession : Bool), let e := s.dev.settleMessage; Up s ∧ e.sbOpen path = true ∧ e.sb = none ∧ e.sbRefuses path inSession true = none ∧ ∃ k, e.reach (addr - addr % 4) = .word k ∧ e.permits k .sideband = true) ∧
    (∃ (s : State) (addr : Nat) (path : MgmtPath) (inSession : Bool), let e := s.dev.settleMessage; Up s ∧ e.sbOpen path = true ∧ e.sb = none ∧ e.sbRefuses path inSession true = none ∧ ∃ k, e.reach (addr - addr % 4) = .word k ∧ e.permits k .sideband = false) ∧
    (∃ (s : State) (addr : Nat) (path : MgmtPath) (inSession : Bool), let e := s.dev.settleMessage; Up s ∧ e.sbOpen path = true ∧ e.sb = none ∧ e.sbRefuses path inSession true = none ∧ e.reach (addr - addr % 4) = .nowhere) ∧
    (∃ (s : State) (path : MgmtPath) (inSession : Bool), let e := s.dev.settleMessage; Up s ∧ e.sbOpen path = true ∧ e.sb = none ∧ ∃ st, e.sbRefuses path inSession false = some st) ∧
    (∃ (s : State) (addr : Nat) (path : MgmtPath) (inSession : Bool), let e := s.dev.settleMessage; Up s ∧ e.sbOpen path = true ∧ e.sb = none ∧ e.sbRefuses path inSession false = none ∧ e.counterAt (addr - addr % 8) = none) ∧
    (∃ (s : State) (addr : Nat) (path : MgmtPath) (inSession : Bool), let e := s.dev.settleMessage; Up s ∧ e.sbOpen path = true ∧ e.sb = none ∧ e.sbRefuses path inSession false = none ∧ ∃ k, e.counterAt (addr - addr % 8) = some k) ∧
    (∃ (s : State) (m : SbWrite) (k : RegKey), Up s ∧ s.dev.sb = some m ∧ s.dev.reach m.addr = .word k ∧ m.addr = k.addr ∧ s.dev.clk.now ≤ m.accepted + 63 ∧ m.clear = false ∧ m.beaten = false) ∧
    (∃ (s : State) (m : SbWrite) (k : RegKey), Up s ∧ s.dev.sb = some m ∧ s.dev.reach m.addr = .word k ∧ m.addr = k.addr ∧ s.dev.clk.now ≤ m.accepted + 63 ∧ m.clear = false ∧ m.beaten = true) ∧
    (∃ (s : State) (m : SbWrite) (k : RegKey), Up s ∧ s.dev.sb = some m ∧ s.dev.reach m.addr = .word k ∧ m.addr = k.addr ∧ s.dev.clk.now ≤ m.accepted + 63 ∧ m.clear = true ∧ m.beaten = false) ∧
    (∃ (s : State) (m : SbWrite) (k : RegKey), Up s ∧ s.dev.sb = some m ∧ s.dev.reach m.addr = .word k ∧ m.addr = k.addr ∧ s.dev.clk.now ≤ m.accepted + 63 ∧ ∃ (w : Write), m.clear = false ∧ m.beaten = false ∧ s.dev.permits k w.writer = true ∧ 1 < s.dev.rank w.writer) ∧
    (∃ (s : State) (m : SbWrite) (k : RegKey), Up s ∧ s.dev.sb = some m ∧ s.dev.reach m.addr = .word k ∧ m.addr = k.addr ∧ s.dev.clk.now ≤ m.accepted + 63 ∧ ∃ (w : Write), m.clear = false ∧ m.beaten = false ∧ s.dev.permits k w.writer = true ∧ s.dev.rank w.writer ≤ 1 ∧ let x := (s.dev.beatMessage k.addr).commit k w regEffect; x.sb = some { m with beaten := true } ∧ x.clk = s.dev.clk) := ⟨
  ⟨st d0, (RegKey.addr ⟨.CHIP_CONFLICT_CNT, 0, 0, 0⟩), [.keystone], ⟨.CHIP_CONFLICT_CNT, 0, 0, 0⟩, by decide +kernel, by decide +kernel, by decide +kernel, ⟨.keystone, 0⟩, by decide +kernel⟩,
  ⟨st ({ d0 with sb := some { addr := (RegKey.addr ⟨.CHIP_CONFLICT_CNT, 0, 0, 0⟩), value := 5, accepted := 0, clear := true } }), (RegKey.addr ⟨.CHIP_CONFLICT_CNT, 0, 0, 0⟩), [.serviceCore 0], ⟨.CHIP_CONFLICT_CNT, 0, 0, 0⟩, by decide +kernel, by decide +kernel, by decide +kernel, .serviceCore 0, 1, 2, rfl, by decide +kernel, by decide +kernel⟩,
  ⟨st d0, (RegKey.addr ⟨.CLS_TBYTES, 0, 0, 0⟩), ⟨.CLS_TBYTES, 0, 0, 0⟩, by decide +kernel⟩,
  ⟨st d0, 0x2C0000000, by decide +kernel⟩,
  ⟨st d0, .smbus, false, by decide +kernel, by decide +kernel, by decide +kernel, 0xFF, by decide +kernel⟩,
  ⟨st ({ d0.setFld F.SB_CFG_REQ_SESSION 0 0 0 with released := true }), (RegKey.addr ⟨.SPAN_CFG, 0, 0, 0⟩), .smbus, false, by decide +kernel, by decide +kernel, by decide +kernel, by decide +kernel, ⟨.SPAN_CFG, 0, 0, 0⟩, by decide +kernel⟩,
  ⟨st ({ d0.setFld F.SB_CFG_REQ_SESSION 0 0 0 with released := true }), (RegKey.addr ⟨.CHIP_CONFLICT_CNT, 0, 0, 0⟩), .smbus, false, by decide +kernel, by decide +kernel, by decide +kernel, by decide +kernel, ⟨.CHIP_CONFLICT_CNT, 0, 0, 0⟩, by decide +kernel⟩,
  ⟨st ({ d0.setFld F.SB_CFG_REQ_SESSION 0 0 0 with released := true }), 0x2C0000000, .smbus, false, by decide +kernel⟩,
  ⟨st (d0.setFld F.SB_CFG_VDM_REG 0 0 0), .vdm, false, by decide +kernel, by decide +kernel, by decide +kernel, 0xFF, by decide +kernel⟩,
  ⟨st ({ d0 with released := true }), (RegKey.addr ⟨.SPAN_CFG, 0, 0, 0⟩), .smbus, false, by decide +kernel⟩,
  ⟨st ({ d0 with released := true }), (RegKey.addr ⟨.CHIP_CONFLICT_CNT, 0, 0, 0⟩), .smbus, false, by decide +kernel, by decide +kernel, by decide +kernel, by decide +kernel, ⟨.CHIP_CONFLICT_CNT, 0, 0, 0⟩, by decide +kernel⟩,
  ⟨st ({ d0 with sb := some { addr := (RegKey.addr ⟨.SPAN_CFG, 0, 0, 0⟩), value := 5, accepted := 0, clear := false } }), { addr := (RegKey.addr ⟨.SPAN_CFG, 0, 0, 0⟩), value := 5, accepted := 0, clear := false }, ⟨.SPAN_CFG, 0, 0, 0⟩, by decide +kernel⟩,
  ⟨st ({ d0 with sb := some { addr := (RegKey.addr ⟨.SPAN_CFG, 0, 0, 0⟩), value := 5, accepted := 0, beaten := true } }), { addr := (RegKey.addr ⟨.SPAN_CFG, 0, 0, 0⟩), value := 5, accepted := 0, beaten := true }, ⟨.SPAN_CFG, 0, 0, 0⟩, by decide +kernel⟩,
  ⟨st ({ d0 with sb := some { addr := (RegKey.addr ⟨.CHIP_CONFLICT_CNT, 0, 0, 0⟩), value := 5, accepted := 0, clear := true } }), { addr := (RegKey.addr ⟨.CHIP_CONFLICT_CNT, 0, 0, 0⟩), value := 5, accepted := 0, clear := true }, ⟨.CHIP_CONFLICT_CNT, 0, 0, 0⟩, by decide +kernel⟩,
  ⟨st ({ d0 with sb := some { addr := (RegKey.addr ⟨.CLS_ARB_WT, 0, 0, 0⟩), value := 5, accepted := 0, clear := false } }), { addr := (RegKey.addr ⟨.CLS_ARB_WT, 0, 0, 0⟩), value := 5, accepted := 0, clear := false }, ⟨.CLS_ARB_WT, 0, 0, 0⟩, by decide +kernel, by decide +kernel, by decide +kernel, by decide +kernel, by decide +kernel, ⟨.serviceCore 0, 5⟩, by decide +kernel⟩,
  ⟨st ({ d0 with sb := some { addr := (RegKey.addr ⟨.SPAN_CFG, 0, 0, 0⟩), value := 5, accepted := 0, clear := false } }), { addr := (RegKey.addr ⟨.SPAN_CFG, 0, 0, 0⟩), value := 5, accepted := 0, clear := false }, ⟨.SPAN_CFG, 0, 0, 0⟩, by decide +kernel, by decide +kernel, by decide +kernel, by decide +kernel, by decide +kernel, ks 10, by decide +kernel, by decide +kernel, by decide +kernel, by decide +kernel, by decide +kernel⟩⟩

theorem test_hyp_PowerAndTestPortCommandsComplete :
    (∃ (s : State) (c : Instr) (i : Nat) (levels : List Bool), (c, i, levels) ∈ [(Instr.extest, 3, s.dev.tap.boundary), (.clamp, 4, s.dev.tap.boundary), (.highz, 5, [])] ∧ s.dev.boot.pwrgd = true) ∧
    (∃ (s : State) (c : Instr) (i : Nat) (levels : List Bool), (c, i, levels) ∈ [(Instr.extest, 3, s.dev.tap.boundary), (.clamp, 4, s.dev.tap.boundary), (.highz, 5, [])] ∧ s.dev.boot.pwrgd = false) := ⟨
  ⟨st d0, .highz, 5, [], by decide +kernel⟩,
  ⟨st { d0 with boot := { pwrgd := false } }, .extest, 3, [], by decide +kernel⟩⟩

theorem test_hyp_MoveCommandsComplete :
    (∃ (s : State) (region : Fin 4), Up s ∧ s.dev.movingOf region.val < 4 ∧ ∃ x p y, (s.dev.nextItem region.val fun x => decide (idKind x.id ≤ 4) && !s.dev.isQpMove x) = some x ∧ x.dest = some y ∧ let e := s.dev.dropItem region.val x; e.parcel x.id = some p ∧ p.sram ≠ some y ∧ e.room y p.majority p.tenant p.bytes = true ∧ x.reason ≠ 5) ∧
    (∃ (s : State) (parcel : Nat) (p : Parcel) (m : Move), Up s ∧ s.dev.parcel parcel = some p ∧ p.move = some m ∧ m.step = 1) ∧
    (∃ (s : State) (parcel : Nat) (p : Parcel) (m : Move), Up s ∧ s.dev.parcel parcel = some p ∧ p.move = some m ∧ m.step = 2) ∧
    (∃ (s : State) (region : Fin 4), Up s ∧ ∃ x p y, s.dev.nextItem region.val s.dev.isQpMove = some x ∧ x.dest = some y ∧ (s.dev.dropItem region.val x).parcel x.id = some p) ∧
    (∃ (s : State) (region : Fin 4) (ns : Fin 5001), Up s ∧ ∃ x p y, s.dev.nextItem region.val s.dev.isQpMove = some x ∧ x.dest = some y ∧ (s.dev.dropItem region.val x).parcel x.id = some p ∧ let r := region.val; let e := ((s.dev.dropItem r x).advance (cyclesOfNs ns.val)).tallyMax (tlyRgn r + 0xA0) ns.val; e.room y p.majority p.tenant p.bytes = true) ∧
    (∃ (s : State) (region : Fin 4), Up s ∧ ∃ x, (s.dev.nextItem region.val fun x => idKind x.id == 5) = some x ∧ let e := s.dev.dropItem region.val x; (e.fbMoves.any fun m => m.id == x.id) = false) ∧
    (∃ (s : State) (region : Fin 4) (bucket : Fin 65536), Up s ∧ ∃ m, (s.dev.fbMoves.find? fun m => m.id == fbId region.val bucket.val && !m.idle) = some m ∧ let r := region.val; let b := bucket.val; s.dev.fbDrained r b = true ∧ m.reason ≠ 6) ∧
    (∃ (s : State) (region : Fin 4) (bucket : Fin 65536), Up s ∧ ∃ m, (s.dev.fbMoves.find? fun m => m.id == fbId region.val bucket.val && !m.idle) = some m ∧ let r := region.val; let b := bucket.val; let hold := s.dev.fld F.CRU_WORK_HOLD_NS; let e0 := s.dev.advanceTo (m.t0 + cyclesOfNs hold); e0.fbDrained r b = false ∧ m.retry = false) := ⟨
  ⟨st ({ d0 with plans := [(0, [{ id := 2 * 2 ^ 60 + 5, dest := some 1 }])], parcels := [(2 * 2 ^ 60 + 5, some {}), (3 * 2 ^ 60 + 5, some {})] }), 0, by decide +kernel, by decide +kernel, { id := 2 * 2 ^ 60 + 5, dest := some 1 }, {}, 1, by decide +kernel⟩,
  ⟨st { d0 with parcels := [(5, some { move := some { step := 1 } })] }, 5, { move := some { step := 1 } }, { step := 1 }, by decide +kernel⟩,
  ⟨st { d0 with parcels := [(5, some { move := some { step := 2 } })] }, 5, { move := some { step := 2 } }, { step := 2 }, by decide +kernel⟩,
  ⟨st ({ d0 with plans := [(0, [{ id := 3 * 2 ^ 60 + 5, dest := some 1 }])], parcels := [(2 * 2 ^ 60 + 5, some {}), (3 * 2 ^ 60 + 5, some {})] }), 0, by decide +kernel, { id := 3 * 2 ^ 60 + 5, dest := some 1 }, {}, 1, by decide +kernel⟩,
  ⟨st ({ d0 with plans := [(0, [{ id := 3 * 2 ^ 60 + 5, dest := some 1 }])], parcels := [(2 * 2 ^ 60 + 5, some {}), (3 * 2 ^ 60 + 5, some {})] }), 0, 5000, by decide +kernel, { id := 3 * 2 ^ 60 + 5, dest := some 1 }, {}, 1, by decide +kernel⟩,
  ⟨st ({ d0 with plans := [(0, [{ id := 5 * 2 ^ 60 + 5, dest := some 1 }])], parcels := [(2 * 2 ^ 60 + 5, some {}), (3 * 2 ^ 60 + 5, some {})] }), 0, by decide +kernel, { id := 5 * 2 ^ 60 + 5, dest := some 1 }, by decide +kernel⟩,
  ⟨st { d0 with fbMoves := [{ id := fbId 0 5, src := 1, dst := 2, reason := 1 }] }, 0, 5, by decide +kernel, { id := fbId 0 5, src := 1, dst := 2, reason := 1 }, by decide +kernel⟩,
  ⟨st { d0 with fbMoves := [{ id := fbId 0 5, src := 1, dst := 2, reason := 1 }], pkts := [(9, { flowHash := 5 * 65536 })], ctxs := [(17, { st := 1, current := some 9 })] }, 0, 5, by decide +kernel, { id := fbId 0 5, src := 1, dst := 2, reason := 1 }, by decide +kernel⟩⟩

theorem test_hyp_PlacementCommandsComplete :
    (∃ (s : State) (ws : List Write) (w : Write) (d : Dev) (c : Instr) (op : Nat) (p : Parcel), (c, op) ∈ [(Instr.pin ws, 1), (.unpin ws, 2), (.hint ws, 3), (.unhint ws, 4), (.query ws, 5), (.freePage ws, 7)] ∧ Takes s ⟨.CRU_PCMD, 0, 0, 0⟩ ws w d ∧ let e := d.plainWrite ⟨.CRU_PCMD, 0, 0, 0⟩ w.value; let id := e.fld F.CRU_PCMD_ID_HI * 2 ^ 32 + e.fld F.CRU_PCMD_ID_LO; let tier := e.fld F.CRU_PCMD_TIER; let arg := e.fld F.CRU_PCMD_ARG; bitOf w.value.toNat 31 = true ∧ e.fld F.CRU_PCMD_OP = op ∧ e.parcel id = some p ∧ op = 1 ∧ tier ≠ 3 ∧ ((∀ y, placeOf tier (arg % 4) = some y → p.sram ≠ some y → e.quotaOk p.tenant (tierFor p.majority y) p.bytes = true ∧ p.bytes ≤ e.placeFree y))) ∧
    (∃ (s : State) (ws : List Write) (w : Write) (d : Dev) (c : Instr) (op : Nat) (p : Parcel), (c, op) ∈ [(Instr.pin ws, 1), (.unpin ws, 2), (.hint ws, 3), (.unhint ws, 4), (.query ws, 5), (.freePage ws, 7)] ∧ Takes s ⟨.CRU_PCMD, 0, 0, 0⟩ ws w d ∧ let e := d.plainWrite ⟨.CRU_PCMD, 0, 0, 0⟩ w.value; let id := e.fld F.CRU_PCMD_ID_HI * 2 ^ 32 + e.fld F.CRU_PCMD_ID_LO; bitOf w.value.toNat 31 = true ∧ e.fld F.CRU_PCMD_OP = op ∧ e.parcel id = some p ∧ op = 2) ∧
    (∃ (s : State) (ws : List Write) (w : Write) (d : Dev) (c : Instr) (op : Nat) (p : Parcel), (c, op) ∈ [(Instr.pin ws, 1), (.unpin ws, 2), (.hint ws, 3), (.unhint ws, 4), (.query ws, 5), (.freePage ws, 7)] ∧ Takes s ⟨.CRU_PCMD, 0, 0, 0⟩ ws w d ∧ let e := d.plainWrite ⟨.CRU_PCMD, 0, 0, 0⟩ w.value; let id := e.fld F.CRU_PCMD_ID_HI * 2 ^ 32 + e.fld F.CRU_PCMD_ID_LO; bitOf w.value.toNat 31 = true ∧ e.fld F.CRU_PCMD_OP = op ∧ e.parcel id = some p ∧ op = 3) ∧
    (∃ (s : State) (ws : List Write) (w : Write) (d : Dev) (c : Instr) (op : Nat) (p : Parcel), (c, op) ∈ [(Instr.pin ws, 1), (.unpin ws, 2), (.hint ws, 3), (.unhint ws, 4), (.query ws, 5), (.freePage ws, 7)] ∧ Takes s ⟨.CRU_PCMD, 0, 0, 0⟩ ws w d ∧ let e := d.plainWrite ⟨.CRU_PCMD, 0, 0, 0⟩ w.value; let id := e.fld F.CRU_PCMD_ID_HI * 2 ^ 32 + e.fld F.CRU_PCMD_ID_LO; bitOf w.value.toNat 31 = true ∧ e.fld F.CRU_PCMD_OP = op ∧ e.parcel id = some p ∧ op = 4) ∧
    (∃ (s : State) (ws : List Write) (w : Write) (d : Dev) (c : Instr) (op : Nat) (p : Parcel), (c, op) ∈ [(Instr.pin ws, 1), (.unpin ws, 2), (.hint ws, 3), (.unhint ws, 4), (.query ws, 5), (.freePage ws, 7)] ∧ Takes s ⟨.CRU_PCMD, 0, 0, 0⟩ ws w d ∧ let e := d.plainWrite ⟨.CRU_PCMD, 0, 0, 0⟩ w.value; let id := e.fld F.CRU_PCMD_ID_HI * 2 ^ 32 + e.fld F.CRU_PCMD_ID_LO; bitOf w.value.toNat 31 = true ∧ e.fld F.CRU_PCMD_OP = op ∧ e.parcel id = some p ∧ op = 5) ∧
    (∃ (s : State) (ws : List Write) (w : Write) (d : Dev) (c : Instr) (op : Nat) (p : Parcel), (c, op) ∈ [(Instr.pin ws, 1), (.unpin ws, 2), (.hint ws, 3), (.unhint ws, 4), (.query ws, 5), (.freePage ws, 7)] ∧ Takes s ⟨.CRU_PCMD, 0, 0, 0⟩ ws w d ∧ let e := d.plainWrite ⟨.CRU_PCMD, 0, 0, 0⟩ w.value; let id := e.fld F.CRU_PCMD_ID_HI * 2 ^ 32 + e.fld F.CRU_PCMD_ID_LO; bitOf w.value.toNat 31 = true ∧ e.fld F.CRU_PCMD_OP = op ∧ e.parcel id = some p ∧ op = 7 ∧ idKind id = 4) ∧
    (∃ (s : State) (ws : List Write) (w : Write) (d : Dev), Takes s ⟨.CRU_PCMD, 0, 0, 0⟩ ws w d ∧ let e := d.plainWrite ⟨.CRU_PCMD, 0, 0, 0⟩ w.value; bitOf w.value.toNat 31 = true ∧ e.fld F.CRU_PCMD_OP = 6 ∧ ∃ n, e.freePage (e.parcels.length + 1) 0 = some n) ∧
    (∃ (s : State) (ws : List Write) (w : Write) (d : Dev), Takes s ⟨.CRU_PCMD, 0, 0, 0⟩ ws w d ∧ let e := d.plainWrite ⟨.CRU_PCMD, 0, 0, 0⟩ w.value; bitOf w.value.toNat 31 = true ∧ e.fld F.CRU_PCMD_OP = 6 ∧ e.freePage (e.parcels.length + 1) 0 = none) ∧
    (∃ (s : State) (ws : List Write) (w : Write) (d : Dev), Takes s ⟨.CRU_FREEZE, 0, 0, 0⟩ ws w d ∧ let e := (d.plainWrite ⟨.CRU_FREEZE, 0, 0, 0⟩ w.value).dropFrozen; (∀ r < 4, e.flag F.CRU_SWAP_ACTIVE r = false)) ∧
    (∃ (s : State) (region : Fin 4) (bucket : Fin 65536) (ws : List Write) (w : Write) (d : Dev), Takes s ⟨.CRU_FBMAP, region.val, bucket.val, 0⟩ ws w d ∧ let r := region.val; let b := bucket.val; let p := F.CRU_FBMAP_POOL.ofWord w.value; let old := d.fld F.CRU_FBMAP_POOL r b; let e := (d.plainWrite ⟨.CRU_FBMAP, r, b, 0⟩ w.value).setFld F.CRU_FBMAP_POOL r b old; p ≠ 63 ∧ (e.fbMoves.find? fun m => m.id == fbId r b) = none ∧ p = old) ∧
    (∃ (s : State) (region : Fin 4) (bucket : Fin 65536) (ws : List Write) (w : Write) (d : Dev), Takes s ⟨.CRU_FBMAP, region.val, bucket.val, 0⟩ ws w d ∧ let r := region.val; let b := bucket.val; let p := F.CRU_FBMAP_POOL.ofWord w.value; let old := d.fld F.CRU_FBMAP_POOL r b; let e := (d.plainWrite ⟨.CRU_FBMAP, r, b, 0⟩ w.value).setFld F.CRU_FBMAP_POOL r b old; p ≠ 63 ∧ (e.fbMoves.find? fun m => m.id == fbId r b) = none ∧ let e1 := e.skipItems fun r' x => r' == r && x.id == fbId r b; p ≠ old ∧ e1.classFrozen (e1.fld F.CRU_FBMAP_CLASS r b) = false) ∧
    (∃ (s : State) (region : Fin 4) (bucket : Fin 65536) (ws : List Write) (w : Write) (d : Dev), Takes s ⟨.CRU_FBMAP, region.val, bucket.val, 0⟩ ws w d ∧ let r := region.val; let b := bucket.val; let p := F.CRU_FBMAP_POOL.ofWord w.value; let old := d.fld F.CRU_FBMAP_POOL r b; let e := (d.plainWrite ⟨.CRU_FBMAP, r, b, 0⟩ w.value).setFld F.CRU_FBMAP_POOL r b old; p ≠ 63 ∧ (e.fbMoves.find? fun m => m.id == fbId r b) = none ∧ let e1 := e.skipItems fun r' x => r' == r && x.id == fbId r b; p ≠ old ∧ e1.classFrozen (e1.fld F.CRU_FBMAP_CLASS r b) = true) ∧
    (∃ (s : State) (region : Fin 4) (ws : List Write) (w : Write) (d : Dev), Takes s ⟨.CRU_SWAP, region.val, 0, 0⟩ ws w d ∧ bitOf w.value.toNat 31 = true ∧ d.flag F.CRU_SWAP_ACTIVE region.val = false ∧ (F.CRU_SWAP_KIND.ofWord w.value = 1 → F.CRU_SWAP_NEW.ofWord w.value ≤ 62) ∧ let r := region.val; let e0 := (d.plainWrite ⟨.CRU_SWAP, r, 0, 0⟩ w.value).setFld F.CRU_SWAP_ACTIVE r 0 1; let e := { e0 with swapCmd := e0.swapCmd.set (0, 0, 0) r (F.CRU_SWAP_KIND.ofWord w.value, F.CRU_SWAP_OLD.ofWord w.value, F.CRU_SWAP_NEW.ofWord w.value) }; e.swapKind r = 0) ∧
    (∃ (s : State) (region : Fin 4) (ws : List Write) (w : Write) (d : Dev), Takes s ⟨.CRU_SWAP, region.val, 0, 0⟩ ws w d ∧ bitOf w.value.toNat 31 = true ∧ d.flag F.CRU_SWAP_ACTIVE region.val = false ∧ (F.CRU_SWAP_KIND.ofWord w.value = 1 → F.CRU_SWAP_NEW.ofWord w.value ≤ 62) ∧ let r := region.val; let e0 := (d.plainWrite ⟨.CRU_SWAP, r, 0, 0⟩ w.value).setFld F.CRU_SWAP_ACTIVE r 0 1; let e := { e0 with swapCmd := e0.swapCmd.set (0, 0, 0) r (F.CRU_SWAP_KIND.ofWord w.value, F.CRU_SWAP_OLD.ofWord w.value, F.CRU_SWAP_NEW.ofWord w.value) }; e.swapKind r ≠ 0) ∧
    (∃ (s : State) (region : Fin 4), Up s ∧ s.dev.flag F.CRU_SWAP_ACTIVE region.val = true ∧ s.dev.swapKind region.val = 0 ∧ s.dev.swapFrozen.at 0 region.val = 0 ∧ (s.dev.pkts.any fun e => oldVersion region.val e.2) = false) := ⟨
  ⟨st ({ (d0.setFld F.CRU_PCMD_ID_HI 0 0 0x40000000).setFld F.CRU_PCMD_ID_LO 0 0 5 with parcels := [(4 * 2 ^ 60 + 5, some {})] }), [ks 0x88000003], ks 0x88000003, { (d0.setFld F.CRU_PCMD_ID_HI 0 0 0x40000000).setFld F.CRU_PCMD_ID_LO 0 0 5 with parcels := [(4 * 2 ^ 60 + 5, some {})] }, .pin [ks 0x88000003], 1, {}, by decide +kernel, takes_alone (by decide +kernel), by decide +kernel, by decide +kernel, by decide +kernel, by decide +kernel, by decide +kernel, (fun y h _ => by obtain rfl : 3 = y := Option.some.inj h; decide +kernel)⟩,
  ⟨st ({ (d0.setFld F.CRU_PCMD_ID_HI 0 0 0x40000000).setFld F.CRU_PCMD_ID_LO 0 0 5 with parcels := [(4 * 2 ^ 60 + 5, some {})] }), [ks 0x90000000], ks 0x90000000, { (d0.setFld F.CRU_PCMD_ID_HI 0 0 0x40000000).setFld F.CRU_PCMD_ID_LO 0 0 5 with parcels := [(4 * 2 ^ 60 + 5, some {})] }, .unpin [ks 0x90000000], 2, {}, by decide +kernel, takes_alone (by decide +kernel), by decide +kernel⟩,
  ⟨st ({ (d0.setFld F.CRU_PCMD_ID_HI 0 0 0x40000000).setFld F.CRU_PCMD_ID_LO 0 0 5 with parcels := [(4 * 2 ^ 60 + 5, some {})] }), [ks 0x98000000], ks 0x98000000, { (d0.setFld F.CRU_PCMD_ID_HI 0 0 0x40000000).setFld F.CRU_PCMD_ID_LO 0 0 5 with parcels := [(4 * 2 ^ 60 + 5, some {})] }, .hint [ks 0x98000000], 3, {}, by decide +kernel, takes_alone (by decide +kernel), by decide +kernel⟩,
  ⟨st ({ (d0.setFld F.CRU_PCMD_ID_HI 0 0 0x40000000).setFld F.CRU_PCMD_ID_LO 0 0 5 with parcels := [(4 * 2 ^ 60 + 5, some {})] }), [ks 0xA0000000], ks 0xA0000000, { (d0.setFld F.CRU_PCMD_ID_HI 0 0 0x40000000).setFld F.CRU_PCMD_ID_LO 0 0 5 with parcels := [(4 * 2 ^ 60 + 5, some {})] }, .unhint [ks 0xA0000000], 4, {}, by decide +kernel, takes_alone (by decide +kernel), by decide +kernel⟩,
  ⟨st ({ (d0.setFld F.CRU_PCMD_ID_HI 0 0 0x40000000).setFld F.CRU_PCMD_ID_LO 0 0 5 with parcels := [(4 * 2 ^ 60 + 5, some {})] }), [ks 0xA8000000], ks 0xA8000000, { (d0.setFld F.CRU_PCMD_ID_HI 0 0 0x40000000).setFld F.CRU_PCMD_ID_LO 0 0 5 with parcels := [(4 * 2 ^ 60 + 5, some {})] }, .query [ks 0xA8000000], 5, {}, by decide +kernel, takes_alone (by decide +kernel), by decide +kernel⟩,
  ⟨st ({ (d0.setFld F.CRU_PCMD_ID_HI 0 0 0x40000000).setFld F.CRU_PCMD_ID_LO 0 0 5 with parcels := [(4 * 2 ^ 60 + 5, some {})] }), [ks 0xB8000000], ks 0xB8000000, { (d0.setFld F.CRU_PCMD_ID_HI 0 0 0x40000000).setFld F.CRU_PCMD_ID_LO 0 0 5 with parcels := [(4 * 2 ^ 60 + 5, some {})] }, .freePage [ks 0xB8000000], 7, {}, by decide +kernel, takes_alone (by decide +kernel), by decide +kernel⟩,
  ⟨st d0, [ks 0xB0000000], ks 0xB0000000, d0, takes_alone (by decide +kernel), by decide +kernel, by decide +kernel, 0, by decide +kernel⟩,
  ⟨st (pagesDev 12582912), [ks 0xB0000000], ks 0xB0000000, pagesDev 12582912, takes_alone (by decide +kernel), by decide +kernel, by decide +kernel, pagesDev_none _ (Nat.le_refl _) _ _ _ _⟩,
  ⟨st d0, [ks 0], ks 0, d0, takes_alone (by decide +kernel), by decide +kernel⟩,
  ⟨st d0, 3, 65535, [ks 0], ks 0, d0, takes_alone (by decide +kernel), by decide +kernel⟩,
  ⟨st d0, 3, 65535, [ks 62], ks 62, d0, takes_alone (by decide +kernel), by decide +kernel⟩,
  ⟨st (d0.setFld F.CRU_FREEZE_CLASSES 0 0 1), 3, 65535, [ks 62], ks 62, (d0.setFld F.CRU_FREEZE_CLASSES 0 0 1), takes_alone (by decide +kernel), by decide +kernel⟩,
  ⟨st d0, 3, [ks 0x80000000], ks 0x80000000, d0, takes_alone (by decide +kernel), by decide +kernel⟩,
  ⟨st d0, 3, [ks 0x90000000], ks 0x90000000, d0, takes_alone (by decide +kernel), by decide +kernel⟩,
  ⟨st ({ d0.setFld F.CRU_SWAP_ACTIVE 3 0 1 with swapCmd := [] }), 3, by decide +kernel⟩⟩

theorem test_hyp_BootCommandsComplete :
    (∃ (s : State) (proofs : Fin 4096), Up s ∧ s.dev.released = false ∧ s.dev.boot.attempt = false ∧ s.dev.boot.updating = false ∧ s.dev.boot.waitFrom = none ∧ s.dev.safety.keystoneHeld = false ∧ let d0 := s.dev.showProofs proofs.val; let b := d0.bankChosen; d0.fastPath b = true) ∧
    (∃ (s : State) (proofs : Fin 4096), Up s ∧ s.dev.released = false ∧ s.dev.boot.attempt = false ∧ s.dev.boot.updating = false ∧ s.dev.boot.waitFrom = none ∧ s.dev.safety.keystoneHeld = false ∧ let d0 := s.dev.showProofs proofs.val; let b := d0.bankChosen; let d1 := d0.storeRaw (retained + 4) [0]; let d2 := (d1.setChip F.BOOT_STAT_BANK b).setChip F.BOOT_STAT_PREFMISS (natOf (b != d1.pref)); let d3 := (d2.setChip F.BOOT_STAT_FAST (natOf (d0.fastPath b))).setChip F.BOOT_STAT_CFG_EMPTY (natOf d2.storeEmpty); d0.fastPath b = false ∧ d3.bankFails b ≠ 1 ∧ d3.bankFails b ≠ 2) ∧
    (∃ (s : State), Up s ∧ s.dev.released = false ∧ s.dev.attemptPasses = true ∧ s.dev.quiet = false) ∧
    (∃ (s : State), Up s ∧ s.dev.released = false ∧ s.dev.boot.attempt = true ∧ s.dev.flag F.BOOT_STAT_FAST = false ∧ let x := s.dev.attemptFails (s.dev.fld F.BOOT_STAT_BANK); x ≠ 0) ∧
    (∃ (s : State) (t : Nat), Up s ∧ s.dev.boot.waitFrom = some t) ∧
    (∃ (s : State) (ws : List Write) (w : Write) (d : Dev), Takes s ⟨.BOOT_CTL, 0, 0, 0⟩ ws w d) ∧
    (∃ (s : State), Up s ∧ s.dev.flag F.BOOT_CTL_SLEEP_EN = true ∧ s.dev.boot.asleep = none) ∧
    (∃ (s : State), Up s ∧ s.dev.boot.asleep.isSome = true ∧ s.dev.boot.sleepDone = false ∧ s.dev.released = true) ∧
    (∃ (s : State), Up s ∧ s.dev.boot.asleep.isSome = true) ∧
    (∃ (s : State), Up s) := ⟨
  hyp_fastPath,
  ⟨st d0, ⟨4095, by decide⟩, by decide +kernel, by decide +kernel, by decide +kernel, by decide +kernel, by decide +kernel, by decide +kernel, by decide +kernel, by decide +kernel, by decide +kernel⟩,
  ⟨st ({ d0.setFld F.BOOT_STAT_PHASE 0 0 1 with boot := { d0.boot with attempt := true } }), by decide +kernel⟩,
  ⟨st ({ d0 with mem := [(0xF10000, 0), (0xF10010, 0), (0xF10011, 0), (0xF10012, 0), (0xF10013, 0)], boot := { d0.boot with attempt := true } }), by decide +kernel⟩,
  ⟨st ({ d0 with boot := { d0.boot with waitFrom := some 5 } }), 5, by decide +kernel, by decide +kernel⟩,
  ⟨st d0, [ks 0], ks 0, d0, takes_alone (by decide +kernel)⟩,
  ⟨st (d0.setFld F.BOOT_CTL_SLEEP_EN 0 0 1), by decide +kernel⟩,
  ⟨st ({ d0 with released := true, boot := { d0.boot with asleep := some 5 } }), by decide +kernel⟩,
  ⟨st ({ d0 with released := true, boot := { d0.boot with asleep := some 5 } }), by decide +kernel⟩,
  ⟨st d0, by decide +kernel⟩⟩

theorem test_hyp_LoaderAndManagementCommandsComplete :
    (∃ (s : State) (ws : List Write) (w : Write) (d : Dev) (host : List Byte) (ends : ReadEnd) (c : Instr), c ∈ [Instr.installSc ws host ends, .installPc ws host ends, .installAct ws host ends, .installParse ws host ends] ∧ Takes s ⟨.LDR_CMD, 0, 0, 0⟩ ws w d ∧ bitOf w.value.toNat 31 = true ∧ d.flag F.LDR_CMD_BUSY = true) ∧
    (∃ (s : State) (ws : List Write) (w : Write) (d : Dev) (host : List Byte) (ends : ReadEnd) (c : Instr), c ∈ [Instr.installSc ws host ends, .installPc ws host ends, .installAct ws host ends, .installParse ws host ends] ∧ Takes s ⟨.LDR_CMD, 0, 0, 0⟩ ws w d ∧ bitOf w.value.toNat 31 = true ∧ d.flag F.LDR_CMD_BUSY = false) ∧
    (∃ (s : State) (cmd dst : Nat), Up s ∧ s.dev.boot.ldr = some (cmd, dst)) ∧
    (∃ (s : State), Up s ∧ s.dev.boot.updating = false) ∧
    (∃ (s : State), Up s ∧ s.dev.boot.updating = true) ∧
    (∃ (s : State), Up s ∧ s.dev.boot.updating = true ∧ s.dev.boot.asleep = none ∧ ∃ b, s.dev.boot.updated = some b) ∧
    (∃ (s : State), Up s ∧ s.dev.boot.updating = true ∧ s.dev.boot.asleep = none ∧ ∃ (a : Nat) (data : List Byte) (p : Nat), flashPart a data.length = some p ∧ (p < 2 → s.dev.runningBank ≠ some p) ∧ p = 2) ∧
    (∃ (s : State), Up s ∧ s.dev.boot.updating = true ∧ s.dev.boot.asleep = none ∧ ∃ (a : Nat) (data : List Byte) (p : Nat), flashPart a data.length = some p ∧ (p < 2 → s.dev.runningBank ≠ some p) ∧ p ≠ 2) ∧
    (∃ (s : State), Up s ∧ s.dev.boot.updating = true ∧ s.dev.boot.asleep = none) ∧
    (∃ (s : State), Up s ∧ s.dev.boot.updating = true ∧ s.dev.boot.asleep = none ∧ ∃ i : Fin 4, i.val ≠ 0) ∧
    (∃ (s : State) (path : MgmtPath), Up s ∧ s.dev.pathServes path = true) := ⟨
  ⟨st (d0.setFld F.LDR_CMD_BUSY 0 0 1), [ks 0x80000000], ks 0x80000000, d0.setFld F.LDR_CMD_BUSY 0 0 1, [], .good, .installPc [ks 0x80000000] [] .good, by decide +kernel, takes_alone (by decide +kernel), by decide +kernel, by decide +kernel⟩,
  ⟨st d0, [ks 0x80000000], ks 0x80000000, d0, [], .poisoned, .installSc [ks 0x80000000] [] .poisoned, by decide +kernel, takes_alone (by decide +kernel), by decide +kernel, by decide +kernel⟩,
  ⟨st ({ d0 with boot := { d0.boot with ldr := some (5, 6) } }), 5, 6, by decide +kernel, by decide +kernel⟩,
  ⟨st d0, by decide +kernel⟩,
  ⟨st ({ d0 with boot := { d0.boot with updating := true } }), by decide +kernel⟩,
  ⟨st ({ d0 with boot := { d0.boot with updating := true, updated := some 1 } }), by decide +kernel, by decide +kernel, by decide +kernel, 1, rfl⟩,
  ⟨st ({ d0 with boot := { d0.boot with updating := true } }), by decide +kernel, by decide +kernel, by decide +kernel, 0xF10000, [1, 2], 2, by decide +kernel, by decide +kernel, by decide +kernel⟩,
  ⟨st ({ d0 with boot := { d0.boot with updating := true } }), by decide +kernel, by decide +kernel, by decide +kernel, 0x10000, [1, 2], 0, by decide +kernel, by decide +kernel, by decide +kernel⟩,
  ⟨st ({ d0 with boot := { d0.boot with updating := true } }), by decide +kernel⟩,
  ⟨st ({ d0 with boot := { d0.boot with updating := true } }), by decide +kernel, by decide +kernel, by decide +kernel, 1, by decide +kernel⟩,
  ⟨st d0, .smbus, by decide +kernel, by decide +kernel⟩⟩

theorem test_hyp_FaultCommandsComplete :
    (∃ (s : State), Up s) ∧
    (∃ (s : State) (kind : Fin 10) (cell : Fin 1024), Up s ∧ ∃ r, cellRegion kind.val cell.val = some r) ∧
    (∃ (s : State) (kind : Fin 10) (cell : Fin 1024) (r : Nat), Up s ∧ cellRegion kind.val cell.val = some r ∧ ∃ id, s.dev.hasPkt id = true) ∧
    (∃ (s : State) (kind : Fin 10) (cell : Fin 1024) (r : Nat), Up s ∧ cellRegion kind.val cell.val = some r ∧ ∃ j, (s.dev.jobs.any fun e => e.1 == j) = true) ∧
    (∃ (s : State) (core : Fin 272), Up s ∧ s.dev.sfaultAt.at 0 core.val ≠ 0 ∧ s.dev.flag F.PCB_CORE_SFAULT (coreRegion core.val) (coreIndex core.val) = true) ∧
    (∃ (s : State) (kind n t : Nat) (rest : List (Nat × Nat × Nat)), Up s ∧ s.dev.safety.subs = (kind, n, t) :: rest ∧ kind = 1) ∧
    (∃ (s : State) (kind n t : Nat) (rest : List (Nat × Nat × Nat)), Up s ∧ s.dev.safety.subs = (kind, n, t) :: rest ∧ let e := s.dev.safe fun f => { f with subs := rest }; kind = 2 ∧ e.flag F.SCC_CORE_RUN (n / 13) (n % 13) = true) ∧
    (∃ (s : State) (kind n t : Nat) (rest : List (Nat × Nat × Nat)), Up s ∧ s.dev.safety.subs = (kind, n, t) :: rest ∧ kind = 8) ∧
    (∃ (s : State) (kind n t : Nat) (rest : List (Nat × Nat × Nat)), Up s ∧ s.dev.safety.subs = (kind, n, t) :: rest ∧ kind = 3) := ⟨
  ⟨st d0, by decide +kernel⟩,
  ⟨st d0, 1, 5, by decide +kernel, 0, by decide +kernel⟩,
  ⟨st { d0 with pkts := [(4, {})] }, 1, 5, 0, by decide +kernel, by decide +kernel, 4, by decide +kernel⟩,
  ⟨st (jobDev 1 64 .fetched), 1, 5, 0, by decide +kernel, by decide +kernel, 7, by decide +kernel⟩,
  ⟨st { d0.setFld F.PCB_CORE_SFAULT 0 5 1 with sfaultAt := [(5, 1)] }, 5, by decide +kernel, by decide +kernel, by decide +kernel⟩,
  ⟨st ({ d0 with safety := { d0.safety with subs := [(1, 5, 7)] } }), 1, 5, 7, [], by decide +kernel, by decide +kernel, by decide +kernel⟩,
  ⟨st ({ (d0.setFld F.SCC_CORE_RUN 0 5 1) with safety := { d0.safety with subs := [(2, 5, 7)] } }), 2, 5, 7, [], by decide +kernel, by decide +kernel, by decide +kernel, by decide +kernel⟩,
  ⟨st ({ d0 with safety := { d0.safety with subs := [(8, 5, 7)] } }), 8, 5, 7, [], by decide +kernel, by decide +kernel, by decide +kernel⟩,
  ⟨st ({ d0 with safety := { d0.safety with subs := [(3, 5, 7)] } }), 3, 5, 7, [], by decide +kernel, by decide +kernel, by decide +kernel⟩⟩

theorem test_hyp_SafetyCommandsComplete :
    (∃ (s : State) (c : Instr) (cause mech : Nat) (e : Dev), (c, cause, mech, e) ∈ [(Instr.lockstepMiscompare, 1, 4, s.dev), (.lookoutWatchdogExpiry, 2, 5, s.dev.advanceTo (s.dev.safety.lkBeat + cyclesOfUs (s.dev.fld F.LK_CFG_WD_US)))] ∧ Up s ∧ e.boot.vret = true ∧ e.safety.keystoneHeld = false) ∧
    (∃ (s : State), Up s) ∧
    (∃ (s : State), Up s ∧ ∃ (rail : Fin 8) (uv : Nat), ((uv < railNominal rail.val * (1000 - railWindow rail.val) ∨ railNominal rail.val * (1000 + railWindow rail.val) < uv))) ∧
    (∃ (s : State), Up s ∧ ∃ (t : Int), 1300 ≤ t) ∧
    (∃ (s : State) (t : Nat), Up s ∧ s.dev.safety.safeAt = some t ∧ s.dev.safety.keystoneHeld = true) ∧
    (∃ (s : State) (t : Nat), Up s ∧ s.dev.safety.safeAt = some t ∧ s.dev.safety.keystoneHeld = false ∧ s.dev.fld F.ERR_CTL_REBOOT_MS ≠ 0) ∧
    (∃ (s : State) (t : Nat), Up s ∧ s.dev.safety.safeAt = some t ∧ s.dev.safety.keystoneHeld = false ∧ s.dev.fld F.ERR_CTL_REBOOT_MS = 0) ∧
    (∃ (s : State) (ws : List Write) (w : Write) (d : Dev), Takes s ⟨.ERR_STAT, 0, 0, 0⟩ ws w d ∧ bitOf w.value.toNat 25 = true ∧ (d.plainWrite ⟨.ERR_STAT, 0, 0, 0⟩ w.value).flag F.ERR_STAT_SAFE = true) ∧
    (∃ (s : State) (region : Fin 4) (ws : List Write) (w : Write) (d : Dev), Takes s ⟨.ERR_RGN, 0, region.val, 0⟩ ws w d ∧ bitOf w.value.toNat 30 = true ∧ d.fenced region.val = true ∧ d.safety.restores.at none region.val = none) ∧
    (∃ (s : State) (region : Fin 4), Up s ∧ (s.dev.safety.restores.at none region.val).isSome = true) ∧
    (∃ (s : State), Up s ∧ s.dev.released = true ∧ s.dev.flag F.ERR_STAT_SAFE = false ∧ let e0 := s.dev.advanceTo s.dev.safety.round; let n := e0.safety.rounds; n % 20 < 17) ∧
    (∃ (s : State) (kind : Fin 10) (cell : Fin 1024) (bufferBank : Bool) (t : CellTest), Up s ∧ (s.dev.safety.tests.find? fun t => t.kind == kind.val && t.cell == cell.val) = some t ∧ kind.val ≠ 1 ∧ (kind.val = 3 → bufferBank = false ∨ t.onSpare = true ∨ s.dev.isSpare 3 cell.val = true)) ∧
    (∃ (s : State) (kind : Fin 10) (cell : Fin 1024) (bufferBank : Bool) (t : CellTest), Up s ∧ (s.dev.safety.tests.find? fun t => t.kind == kind.val && t.cell == cell.val) = some t ∧ kind.val = 3 ∧ bufferBank = true ∧ t.onSpare = false ∧ s.dev.isSpare 3 cell.val = false) ∧
    (∃ (s : State) (kind : Fin 10) (cell : Fin 1024) (t : CellTest), Up s ∧ (s.dev.safety.tests.find? fun t => t.kind == kind.val && t.cell == cell.val) = some t ∧ kind.val = 1 ∧ t.onSpare = true ∧ s.dev.coreHolds (spareCell 1 cell.val) = false) ∧
    (∃ (s : State) (kind : Fin 10) (cell : Fin 1024) (t : CellTest), Up s ∧ (s.dev.safety.tests.find? fun t => t.kind == kind.val && t.cell == cell.val) = some t ∧ kind.val = 1 ∧ t.onSpare = false ∧ s.dev.coreState cell.val = 1 ∧ s.dev.coreHolds cell.val = true) := ⟨
  ⟨st d0, .lockstepMiscompare, 1, 4, d0, .head _, by decide +kernel, by decide +kernel, by decide +kernel⟩,
  ⟨st d0, by decide +kernel⟩,
  ⟨st d0, by decide +kernel, 0, 5, by decide +kernel⟩,
  ⟨st d0, by decide +kernel, 1300, by decide⟩,
  ⟨st ({ d0 with safety := { d0.safety with safeAt := some 5, keystoneHeld := true } }), 5, by decide +kernel, by decide +kernel, by decide +kernel⟩,
  ⟨st ({ d0 with safety := { d0.safety with safeAt := some 5 } }), 5, by decide +kernel, by decide +kernel, by decide +kernel, by decide +kernel⟩,
  ⟨st ({ d0.setFld F.ERR_CTL_REBOOT_MS 0 0 0 with safety := { d0.safety with safeAt := some 5 } }), 5, by decide +kernel, by decide +kernel, by decide +kernel, by decide +kernel⟩,
  ⟨st (d0.setFld F.ERR_STAT_SAFE 0 0 1), [ks 0x02000000], ks 0x02000000, d0.setFld F.ERR_STAT_SAFE 0 0 1, takes_alone (by decide +kernel), by decide +kernel, by decide +kernel⟩,
  ⟨st (d0.setFld F.ERR_STAT_FENCED 0 0 1), 0, [ks 0x40000000], ks 0x40000000, d0.setFld F.ERR_STAT_FENCED 0 0 1, takes_alone (by decide +kernel), by decide +kernel, by decide +kernel, by decide +kernel⟩,
  ⟨st ({ d0 with safety := { d0.safety with restores := [(1, some 5)] } }), 1, by decide +kernel, by decide +kernel⟩,
  ⟨st { d0 with released := true }, by decide +kernel, by decide +kernel, by decide +kernel, by decide +kernel⟩,
  ⟨st ({ d0 with safety := { d0.safety with tests := [{ kind := 3, cell := 5 }] } }), 3, 5, false, { kind := 3, cell := 5 }, by decide +kernel, by decide +kernel, by decide +kernel⟩,
  ⟨st ({ d0 with safety := { d0.safety with tests := [{ kind := 3, cell := 5 }] } }), 3, 5, true, { kind := 3, cell := 5 }, by decide +kernel⟩,
  ⟨st ({ d0 with safety := { d0.safety with tests := [{ kind := 1, cell := 5, onSpare := true }] } }), 1, 5, { kind := 1, cell := 5, onSpare := true }, by decide +kernel⟩,
  ⟨st ({ ((d0.setCoreState 5 1).updCtx 5 0 fun c => { c with current := some 9 }) with safety := { d0.safety with tests := [{ kind := 1, cell := 5 }] } }), 1, 5, { kind := 1, cell := 5 }, by decide +kernel, by decide +kernel, by decide +kernel, by decide +kernel, by decide +kernel, by decide +kernel⟩⟩

theorem test_hyp_FlumeCommandsComplete :
    (∃ (s : State) (fl : Fin 2), Up s ∧ s.dev.released = true ∧ s.dev.quiet = false ∧ s.dev.pair.squelched = false ∧ (s.dev.inPair || s.dev.inCascade) = true ∧ let g := ((List.range 5).filter fun i => !s.dev.cellGone 8 (5 * fl.val + i)).length; 2 ≤ g) ∧
    (∃ (s : State) (fl : Fin 2), Up s ∧ s.dev.flumeLive fl.val = true) ∧
    (∃ (s : State) (fl : Fin 2) (beat : Heartbeat), Up s ∧ s.dev.released = true ∧ s.dev.quiet = false ∧ s.dev.flag F.FLM_STAT_UP 0 fl.val = true ∧ s.dev.inCascade = true ∧ beat.role.val = 3) ∧
    (∃ (s : State) (fl : Fin 2) (beat : Heartbeat), Up s ∧ s.dev.released = true ∧ s.dev.quiet = false ∧ s.dev.flag F.FLM_STAT_UP 0 fl.val = true ∧ s.dev.inCascade = false ∧ s.dev.inPair = true ∧ (beat.role.val = 1 ∨ beat.role.val = 2)) ∧
    (∃ (s : State), Up s ∧ s.dev.released = true ∧ s.dev.pair.squelched = false ∧ (s.dev.inPair || s.dev.inCascade) = true) ∧
    (∃ (s : State) (member : Fin 8), Up s ∧ s.dev.inCascade = true ∧ bitOf (s.dev.fld F.CAS_STAT_LIVE) member.val = true ∧ member.val ≠ s.dev.board.cascId ∧ member.val ≠ 0) ∧
    (∃ (s : State) (fl : Fin 2), Up s ∧ s.dev.inCascade = false ∧ s.dev.inPair = true ∧ s.dev.pair.beat.at 0 fl.val ≠ 0 ∧ s.dev.pair.missed.at false fl.val = false) ∧
    (∃ (s : State) (asserted : Bool) (e : Dev), Up s ∧ s.dev.setChip F.PAIR_STAT_PEER_PIN (natOf asserted) = e ∧ e.pairState = 1) ∧
    (∃ (s : State) (asserted : Bool) (e : Dev), Up s ∧ s.dev.setChip F.PAIR_STAT_PEER_PIN (natOf asserted) = e ∧ e.pairState = 2 ∧ ∃ t, e.pair.pinRule = some t ∧ let e1 := e.updPair fun p => { p with pinRule := none }; asserted = true ∧ e1.clk.now ≤ t + cyclesOfUs 1 ∧ e1.fld F.PAIR_STAT_ROLE = 2) ∧
    (∃ (s : State) (asserted : Bool) (e : Dev), Up s ∧ s.dev.setChip F.PAIR_STAT_PEER_PIN (natOf asserted) = e ∧ e.pairState = 2 ∧ ∃ t, e.pair.pinRule = some t ∧ asserted = false) ∧
    (∃ (s : State) (asserted : Bool) (e : Dev), Up s ∧ s.dev.setChip F.PAIR_STAT_PEER_PIN (natOf asserted) = e ∧ e.pairState = 0) ∧
    (∃ (s : State) (t : Nat), Up s ∧ s.dev.pair.electFrom = some t ∧ s.dev.pairState = 1 ∧ let e := (s.dev.advanceTo (t + cyclesOfUs (s.dev.fld F.PAIR_CFG_ELECT_US))).updPair fun p => { p with electFrom := none }; e.pair.peerSeen = true) ∧
    (∃ (s : State) (t : Nat), Up s ∧ s.dev.pair.electFrom = some t ∧ s.dev.pairState = 1 ∧ let e := (s.dev.advanceTo (t + cyclesOfUs (s.dev.fld F.PAIR_CFG_ELECT_US))).updPair fun p => { p with electFrom := none }; e.pair.peerSeen = false ∧ (e.pair.pinSeen = true ∨ e.flag F.PAIR_STAT_PEER_PIN = true)) ∧
    (∃ (s : State) (t : Nat), Up s ∧ s.dev.pair.electFrom = some t ∧ s.dev.pairState = 1 ∧ let e := (s.dev.advanceTo (t + cyclesOfUs (s.dev.fld F.PAIR_CFG_ELECT_US))).updPair fun p => { p with electFrom := none }; e.pair.peerSeen = false ∧ e.pair.pinSeen = false ∧ e.flag F.PAIR_STAT_PEER_PIN = false) ∧
    (∃ (s : State) (fl : Fin 2) (port : Fin 16) (member : Fin 8), Up s ∧ s.dev.inCascade = true ∧ s.dev.released = true ∧ s.dev.quiet = false ∧ s.dev.flag F.FLM_STAT_UP 0 fl.val = true ∧ member.val = s.dev.board.cascId ∧ s.dev.flag F.CAS_STAT_DUPID = false ∧ port.val ≠ 15) ∧
    (∃ (s : State) (fl : Fin 2) (port : Fin 16) (member : Fin 8), Up s ∧ s.dev.inCascade = true ∧ s.dev.released = true ∧ s.dev.quiet = false ∧ s.dev.flag F.FLM_STAT_UP 0 fl.val = true ∧ member.val = s.dev.board.cascId ∧ s.dev.flag F.CAS_STAT_DUPID = false ∧ port.val = 15) := ⟨
  ⟨st ({ (d0.setFld F.PAIR_STAT_ROLE 0 0 1) with released := true }), 0, by decide +kernel, by decide +kernel, by decide +kernel, by decide +kernel, by decide +kernel, by decide +kernel⟩,
  ⟨st ({ ((d0.setFld F.PAIR_STAT_ROLE 0 0 1).setFld F.FLM_STAT_UP 0 0 1) with released := true }), 0, by decide +kernel, by decide +kernel⟩,
  ⟨st ({ ((d0.setFld F.PAIR_STAT_ROLE 0 0 3).setFld F.FLM_STAT_UP 0 0 1) with released := true }), 0, { role := 3, member := 0, state := 0, seq := 0, prio := 0, serial := 0, conceded := false, tc := 0 }, by decide +kernel, by decide +kernel, by decide +kernel, by decide +kernel, by decide +kernel, by decide +kernel⟩,
  ⟨st ({ ((d0.setFld F.PAIR_STAT_ROLE 0 0 1).setFld F.FLM_STAT_UP 0 0 1) with released := true }), 0, { role := 1, member := 0, state := 0, seq := 0, prio := 0, serial := 0, conceded := false, tc := 0 }, by decide +kernel, by decide +kernel, by decide +kernel, by decide +kernel, by decide +kernel, by decide +kernel, by decide +kernel⟩,
  ⟨st ({ (d0.setFld F.PAIR_STAT_ROLE 0 0 1) with released := true }), by decide +kernel, by decide +kernel, by decide +kernel, by decide +kernel⟩,
  ⟨st ({ ((d0.setFld F.PAIR_STAT_ROLE 0 0 3).setFld F.CAS_STAT_LIVE 0 0 2) with released := true }), 1, by decide +kernel, by decide +kernel, by decide +kernel, by decide +kernel, by decide +kernel⟩,
  ⟨st ({ (d0.setFld F.PAIR_STAT_ROLE 0 0 1) with released := true, pair := { d0.pair with beat := [(0, 5)] } }), 0, by decide +kernel, by decide +kernel, by decide +kernel, by decide +kernel, by decide +kernel⟩,
  ⟨st ({ ((d0.setFld F.PAIR_STAT_ROLE 0 0 1).setFld F.PAIR_STAT_STATE 0 0 1) with released := true }), true, ({ ((d0.setFld F.PAIR_STAT_ROLE 0 0 1).setFld F.PAIR_STAT_STATE 0 0 1) with released := true }).setChip F.PAIR_STAT_PEER_PIN (natOf true), by decide +kernel, rfl, by decide +kernel⟩,
  ⟨st ({ ((d0.setFld F.PAIR_STAT_ROLE 0 0 2).setFld F.PAIR_STAT_STATE 0 0 2) with released := true, pair := { d0.pair with pinRule := some 5 } }), true, ({ ((d0.setFld F.PAIR_STAT_ROLE 0 0 2).setFld F.PAIR_STAT_STATE 0 0 2) with released := true, pair := { d0.pair with pinRule := some 5 } }).setChip F.PAIR_STAT_PEER_PIN (natOf true), by decide +kernel, rfl, by decide +kernel, 5, by decide +kernel, by decide +kernel, by decide +kernel, by decide +kernel⟩,
  ⟨st ({ ((d0.setFld F.PAIR_STAT_ROLE 0 0 2).setFld F.PAIR_STAT_STATE 0 0 2) with released := true, pair := { d0.pair with pinRule := some 5 } }), false, ({ ((d0.setFld F.PAIR_STAT_ROLE 0 0 2).setFld F.PAIR_STAT_STATE 0 0 2) with released := true, pair := { d0.pair with pinRule := some 5 } }).setChip F.PAIR_STAT_PEER_PIN (natOf false), by decide +kernel, rfl, by decide +kernel, 5, by decide +kernel, by decide +kernel⟩,
  ⟨st ({ (d0.setFld F.PAIR_STAT_ROLE 0 0 1) with released := true }), false, ({ (d0.setFld F.PAIR_STAT_ROLE 0 0 1) with released := true }).setChip F.PAIR_STAT_PEER_PIN (natOf false), by decide +kernel, rfl, by decide +kernel⟩,
  ⟨st ({ ((d0.setFld F.PAIR_STAT_ROLE 0 0 1).setFld F.PAIR_STAT_STATE 0 0 1) with released := true, pair := { d0.pair with electFrom := some 5, peerSeen := true } }), 5, by decide +kernel, by decide +kernel, by decide +kernel, by decide +kernel⟩,
  ⟨st ({ ((d0.setFld F.PAIR_STAT_ROLE 0 0 1).setFld F.PAIR_STAT_STATE 0 0 1) with released := true, pair := { d0.pair with electFrom := some 5, pinSeen := true } }), 5, by decide +kernel, by decide +kernel, by decide +kernel, by decide +kernel, by decide +kernel⟩,
  ⟨st ({ ((d0.setFld F.PAIR_STAT_ROLE 0 0 1).setFld F.PAIR_STAT_STATE 0 0 1) with released := true, pair := { d0.pair with electFrom := some 5 } }), 5, by decide +kernel, by decide +kernel, by decide +kernel, by decide +kernel, by decide +kernel, by decide +kernel⟩,
  ⟨st ({ ((d0.setFld F.PAIR_STAT_ROLE 0 0 3).setFld F.FLM_STAT_UP 0 0 1) with released := true }), 0, 4, 0, by decide +kernel, by decide +kernel, by decide +kernel, by decide +kernel, by decide +kernel, by decide +kernel, by decide +kernel, by decide +kernel⟩,
  ⟨st ({ ((d0.setFld F.PAIR_STAT_ROLE 0 0 3).setFld F.FLM_STAT_UP 0 0 1) with released := true }), 0, 15, 0, by decide +kernel, by decide +kernel, by decide +kernel, by decide +kernel, by decide +kernel, by decide +kernel, by decide +kernel, by decide +kernel⟩⟩

theorem test_hyp_MirrorCommandsComplete :
    (∃ (s : State) (seq : Word), Up s ∧ s.dev.mirrored = true ∧ s.dev.pair.copied = true ∧ s.dev.pair.applied = true ∧ BitVec.ofNat 32 (s.dev.fld F.PAIR_SEQ_SEQ + 1) = seq) ∧
    (∃ (s : State) (seq : Word), Up s ∧ s.dev.mirrored = true ∧ s.dev.pair.copied = true ∧ s.dev.pair.applied = true ∧ BitVec.ofNat 32 (s.dev.fld F.PAIR_SEQ_SEQ + 1) ≠ seq) ∧
    (∃ (s : State) (seq : Word) (c : Nat × Nat × Nat), Up s ∧ (s.dev.pair.commits.find? fun c => c.1 == seq.toNat) = some c) ∧
    (∃ (s : State), Up s ∧ ∃ x, (s.dev.pair.intents.find? fun x => x.2.1.isNone) = some x) ∧
    (∃ (s : State), Up s ∧ ∃ n, s.dev.mirrored = true ∧ s.dev.pair.recvNext.getD n = n) ∧
    (∃ (s : State), Up s ∧ ∃ n, s.dev.mirrored = true ∧ s.dev.pair.recvNext.getD n ≠ n) ∧
    (∃ (s : State), Up s ∧ ∃ number x, (s.dev.pair.intents.find? fun x => x.1 == number && x.2.1.isSome) = some x) ∧
    (∃ (s : State), Up s ∧ ∃ n t i rest, s.dev.pair.intents = (n, some t, i) :: rest) ∧
    (∃ (s : State), Up s ∧ s.dev.inPair = true ∧ s.dev.pairState = 4 ∧ s.dev.flag F.PAIR_STAT_HB = false ∧ s.dev.flag F.PAIR_STAT_PEER_PIN = false) ∧
    (∃ (s : State) (ws : List Write) (w : Write) (d : Dev), Takes s ⟨.PAIR_CTL, 0, 0, 0⟩ ws w d ∧ d.inPair = true ∧ bitOf w.value.toNat 31 = true ∧ d.pairState = 5) ∧
    (∃ (s : State) (ws : List Write) (w : Write) (d : Dev), Takes s ⟨.PAIR_CTL, 0, 0, 0⟩ ws w d ∧ d.inPair = true ∧ bitOf w.value.toNat 30 = true ∧ d.pairState = 2 ∧ d.flag F.PAIR_STAT_PROTECTED = true) ∧
    (∃ (s : State), Up s ∧ s.dev.inPair = true ∧ s.dev.pairState = 3 ∧ s.dev.pair.copied = false) ∧
    (∃ (s : State) (fl : Fin 2), Up s ∧ s.dev.member = true ∧ s.dev.released = true ∧ s.dev.quiet = false ∧ s.dev.flag F.FLM_STAT_UP 0 fl.val = true ∧ s.dev.flag F.CAS_STAT_DUPID = false ∧ s.dev.flag F.CAS_STAT_HEADLESS = false) ∧
    (∃ (s : State) (fl : Fin 2), Up s ∧ s.dev.member = true ∧ s.dev.released = true ∧ s.dev.quiet = false ∧ s.dev.flag F.FLM_STAT_UP 0 fl.val = true ∧ s.dev.flag F.CAS_STAT_DUPID = false ∧ s.dev.flag F.CAS_STAT_HEADLESS = true) ∧
    (∃ (s : State) (fl : Fin 2), Up s ∧ s.dev.member = true ∧ s.dev.released = true ∧ s.dev.quiet = false ∧ s.dev.flag F.FLM_STAT_UP 0 fl.val = true ∧ s.dev.flag F.CAS_STAT_DUPID = false) := ⟨
  ⟨st ({ ((d0.setFld F.PAIR_STAT_ROLE 0 0 1).setFld F.PAIR_STAT_STATE 0 0 3) with released := true, pair := { d0.pair with copied := true, applied := true } }), 0, by decide +kernel, by decide +kernel, by decide +kernel, by decide +kernel, by decide +kernel⟩,
  ⟨st ({ ((d0.setFld F.PAIR_STAT_ROLE 0 0 1).setFld F.PAIR_STAT_STATE 0 0 3) with released := true, pair := { d0.pair with copied := true, applied := true } }), 2, by decide +kernel, by decide +kernel, by decide +kernel, by decide +kernel, by decide +kernel⟩,
  ⟨st ({ ((d0.setFld F.PAIR_STAT_ROLE 0 0 1).setFld F.PAIR_STAT_STATE 0 0 2) with released := true, pair := { d0.pair with commits := [(4, 5, 6)] } }), 4, (4, 5, 6), by decide +kernel, by decide +kernel⟩,
  ⟨st ({ ((d0.setFld F.PAIR_STAT_ROLE 0 0 1).setFld F.PAIR_STAT_STATE 0 0 2) with released := true, pair := { d0.pair with intents := [(7, none, .doorbell 1 true 2)] } }), by decide +kernel, (7, none, .doorbell 1 true 2), by decide +kernel⟩,
  ⟨st ({ ((d0.setFld F.PAIR_STAT_ROLE 0 0 1).setFld F.PAIR_STAT_STATE 0 0 3) with released := true }), by decide +kernel, 0, by decide +kernel, by decide +kernel⟩,
  ⟨st ({ ((d0.setFld F.PAIR_STAT_ROLE 0 0 1).setFld F.PAIR_STAT_STATE 0 0 3) with released := true, pair := { d0.pair with recvNext := some 4 } }), by decide +kernel, 0, by decide +kernel, by decide +kernel⟩,
  ⟨st ({ ((d0.setFld F.PAIR_STAT_ROLE 0 0 1).setFld F.PAIR_STAT_STATE 0 0 2) with released := true, pair := { d0.pair with intents := [(7, some 9, .doorbell 1 true 2)] } }), by decide +kernel, 7, (7, some 9, .doorbell 1 true 2), by decide +kernel⟩,
  ⟨st ({ ((d0.setFld F.PAIR_STAT_ROLE 0 0 1).setFld F.PAIR_STAT_STATE 0 0 2) with released := true, pair := { d0.pair with intents := [(7, some 9, .doorbell 1 true 2)] } }), by decide +kernel, 7, 9, .doorbell 1 true 2, [], by decide +kernel⟩,
  ⟨st ({ ((d0.setFld F.PAIR_STAT_ROLE 0 0 1).setFld F.PAIR_STAT_STATE 0 0 4) with released := true }), by decide +kernel, by decide +kernel, by decide +kernel, by decide +kernel, by decide +kernel⟩,
  ⟨st ({ ((d0.setFld F.PAIR_STAT_ROLE 0 0 1).setFld F.PAIR_STAT_STATE 0 0 5) with released := true }), [ks 0x80000000], ks 0x80000000, ({ ((d0.setFld F.PAIR_STAT_ROLE 0 0 1).setFld F.PAIR_STAT_STATE 0 0 5) with released := true }), takes_alone (by decide +kernel), by decide +kernel, by decide +kernel, by decide +kernel⟩,
  ⟨st ({ (((d0.setFld F.PAIR_STAT_ROLE 0 0 1).setFld F.PAIR_STAT_STATE 0 0 2).setFld F.PAIR_STAT_PROTECTED 0 0 1) with released := true }), [ks 0x40000000], ks 0x40000000, ({ (((d0.setFld F.PAIR_STAT_ROLE 0 0 1).setFld F.PAIR_STAT_STATE 0 0 2).setFld F.PAIR_STAT_PROTECTED 0 0 1) with released := true }), takes_alone (by decide +kernel), by decide +kernel, by decide +kernel, by decide +kernel, by decide +kernel⟩,
  ⟨st ({ ((d0.setFld F.PAIR_STAT_ROLE 0 0 1).setFld F.PAIR_STAT_STATE 0 0 3) with released := true }), by decide +kernel⟩,
  ⟨st ({ ((d0.setFld F.PAIR_STAT_ROLE 0 0 3).setFld F.FLM_STAT_UP 0 0 1) with released := true, board := { d0.board with cascId := 1 } }), 0, by decide +kernel, by decide +kernel, by decide +kernel, by decide +kernel, by decide +kernel, by decide +kernel, by decide +kernel⟩,
  ⟨st ({ (((d0.setFld F.PAIR_STAT_ROLE 0 0 3).setFld F.FLM_STAT_UP 0 0 1).setFld F.CAS_STAT_HEADLESS 0 0 1) with released := true, board := { d0.board with cascId := 1 } }), 0, by decide +kernel, by decide +kernel, by decide +kernel, by decide +kernel, by decide +kernel, by decide +kernel, by decide +kernel⟩,
  ⟨st ({ ((d0.setFld F.PAIR_STAT_ROLE 0 0 3).setFld F.FLM_STAT_UP 0 0 1) with released := true, board := { d0.board with cascId := 1 } }), 0, by decide +kernel, by decide +kernel, by decide +kernel, by decide +kernel, by decide +kernel, by decide +kernel⟩⟩

theorem test_hyp_StepRunsTheFrontCommand :
    (∃ (s : State) (c : Instr) (rest : List Instr), s.pending = c :: rest) ∧
    (∃ (s : State), s.pending = [] ∧ Up s) := ⟨
  ⟨{ State.reset with pending := [.vretLoss] }, .vretLoss, [], rfl⟩,
  ⟨State.reset, rfl, by decide +kernel⟩⟩

theorem test_hyp_HeldInColdReset :
    (∃ (c : Instr) (s : State), State.Inv s ∧ s.dev.boot.pwrgd = false ∧ (∀ r i w, c ≠ .pwrgdRise r i w) ∧ (∀ a b, c ≠ .samplePreload a b) ∧ (∀ h, c ≠ .perstAssert h) ∧ (∀ h, c ≠ .perstDeassert h) ∧ c ∉ [Instr.pwrgdLowPulse, .vretLoss, .bypass, .idcode, .extest, .clamp, .highz]) ∧
    (∃ (s : State) (h : Fin 2), State.Inv s ∧ s.dev.boot.pwrgd = false ∧ s.dev.perst.at false h.val = false) ∧
    (∃ (s : State) (h : Fin 2), State.Inv s ∧ s.dev.boot.pwrgd = false ∧ s.dev.perst.at false h.val = true) := ⟨
  ⟨.release, st { d0 with boot := { d0.boot with pwrgd := false } }, (by decide +kernel : Memory.wf _ = true ∧ _ = _), by decide +kernel, (fun _ _ _ h => by cases h), (fun _ _ h => by cases h), (fun _ h => by cases h), (fun _ h => by cases h), by decide +kernel⟩,
  ⟨st { d0 with boot := { d0.boot with pwrgd := false } }, 0, (by decide +kernel : Memory.wf _ = true ∧ _ = _), by decide +kernel⟩,
  ⟨st { d0 with boot := { d0.boot with pwrgd := false }, perst := [(0, true)] }, 0, (by decide +kernel : Memory.wf _ = true ∧ _ = _), by decide +kernel⟩⟩

theorem test_hyp_StavteDecodeOfEncode :
    ∃ (i : SOp), i.wf = true :=
  ⟨.imm .addi 4 0 2, by decide +kernel⟩

theorem test_hyp_StavteEncodeOfDecode :
    ∃ (w : Nat) (i : SOp), w < 2 ^ 32 ∧ SOp.decode w = some i :=
  ⟨0x08800002, .imm .addi 4 0 2, by decide +kernel, by decide +kernel⟩

theorem test_hyp_StepKeepsTheInvariant :
    ∃ (s s' : State), State.Inv s ∧ step s = .next s' :=
  ⟨State.reset, _, (by decide +kernel : Memory.wf _ = true ∧ _ = _), steps (by decide +kernel) rfl⟩

theorem test_hyp_HighestRankedWriteTakesEffect :
    (∃ (d : Dev), ∃ (f g : Fin 512), (d.hostOf f.val < d.hostOf g.val ∨ (d.hostOf f.val = d.hostOf g.val ∧ f.val < g.val))) ∧
    (∃ (d : Dev) (f : Fin 512), d.hostOf f.val < 2) ∧
    (∃ (i j : Fin 52), i < j) ∧
    (∃ (i j : Fin 272), i < j) ∧
    (∃ (d : Dev) (k : RegKey) (ws : List Write) (w : Write), d.sbTop k.addr = none ∧ w ∈ ws ∧ d.permits k w.writer = true ∧ (∀ x ∈ ws, d.permits k x.writer = true → x ≠ w → d.rank w.writer < d.rank x.writer)) ∧
    (∃ (d : Dev) (k : RegKey) (ws : List Write) (w : Write), d.sbTop k.addr = none ∧ w ∈ ws ∧ d.permits k w.writer = true ∧ (∀ x ∈ ws, d.permits k x.writer = true → x ≠ w → d.rank w.writer < d.rank x.writer) ∧ ∃ (k' : RegKey), k'.reg ≠ .CHIP_CONFLICT_LOG ∧ k'.reg ≠ .CHIP_CONFLICT_STAT) ∧
    (∃ (d : Dev) (winner : Nat) (w : Writer), winner < 8 ∧ d.writerCode w < 8) ∧
    (∃ (d : Dev) (winner : Nat) (w : Writer), winner < 8 ∧ d.writerCode w < 8 ∧ let x := d.fld F.CHIP_CONFLICT_STAT_NEXT; d.fld F.CHIP_CONFLICT_LOG_VALID 0 x = 1) := ⟨
  ⟨d0, 0, 1, by decide +kernel⟩,
  ⟨d0, 0, by decide +kernel⟩,
  ⟨0, 1, by decide +kernel⟩,
  ⟨0, 1, by decide +kernel⟩,
  ⟨d0, ⟨.SPAN_CFG, 0, 0, 0⟩, [ks 1, ⟨.sideband, 2⟩], ks 1, by decide +kernel, .head _, by decide +kernel, by decide +kernel⟩,
  ⟨d0, ⟨.SPAN_CFG, 0, 0, 0⟩, [ks 1, ⟨.sideband, 2⟩], ks 1, by decide +kernel, .head _, by decide +kernel, by decide +kernel, ⟨.SPAN_CFG, 0, 0, 0⟩, by decide +kernel, by decide +kernel⟩,
  ⟨d0, 1, .keystone, by decide +kernel, by decide +kernel⟩,
  ⟨d0.setFld F.CHIP_CONFLICT_LOG_VALID 0 0 1, 1, .keystone, by decide +kernel, by decide +kernel, by decide +kernel⟩⟩

theorem test_hyp_RefusedWritesAreDiscarded :
    (∃ (s : State) (addr : Nat) (w : Write) (k : RegKey), Up s ∧ s.dev.sbOver = false ∧ s.dev.reach (addr - addr % 4) = .word k ∧ s.dev.permits k w.writer = false ∧ (∃ f, w.writer = .host f)) ∧
    (∃ (s : State) (addr : Nat) (w : Write) (k : RegKey), Up s ∧ s.dev.sbOver = false ∧ s.dev.reach (addr - addr % 4) = .word k ∧ s.dev.permits k w.writer = false ∧ (∀ f, w.writer ≠ .host f)) ∧
    (∃ (s : State) (addr : Nat) (w : Write) (k : RegKey), Up s ∧ s.dev.sbOver = false ∧ s.dev.reach (addr - addr % 4) = .word k ∧ s.dev.sbTop k.addr = none ∧ s.dev.permits k w.writer = true ∧ s.dev.inRange k w.value = false) := ⟨
  ⟨st d0, (RegKey.addr ⟨.SPAN_CFG, 0, 0, 0⟩), ⟨.host 100, 10⟩, ⟨.SPAN_CFG, 0, 0, 0⟩, by decide +kernel, by decide +kernel, by decide +kernel, by decide +kernel, 100, rfl⟩,
  ⟨st d0, (RegKey.addr ⟨.SPAN_CFG, 0, 0, 0⟩), ⟨.serviceCore 0, 10⟩, ⟨.SPAN_CFG, 0, 0, 0⟩, by decide +kernel, by decide +kernel, by decide +kernel, by decide +kernel, (fun _ h => by cases h)⟩,
  ⟨st d0, (RegKey.addr ⟨.MAC_GCL_CYCLE, 0, 0, 0⟩), ks 0, ⟨.MAC_GCL_CYCLE, 0, 0, 0⟩, by decide +kernel⟩⟩

theorem test_hyp_PlainRegisterWriteFrame :
    (∃ (s s' : State) (addr : Nat) (k : RegKey) (w : Write), s.dev.sbOver = false ∧ s.dev.reach (addr - addr % 4) = .word k ∧ Alone s k w ∧ effectMac k.reg = none ∧ effectHost k.reg = none ∧ effectCore k.reg = none ∧ Sys2Proof.Machine.exec (.registerWrite addr ⟨[w], []⟩) s = .next s') ∧
    (∃ (s s' : State) (addr : Nat) (k : RegKey) (w : Write), s.dev.sbOver = false ∧ s.dev.reach (addr - addr % 4) = .word k ∧ Alone s k w ∧ effectMac k.reg = none ∧ effectHost k.reg = none ∧ effectCore k.reg = none ∧ Sys2Proof.Machine.exec (.registerWrite addr ⟨[w], []⟩) s = .next s' ∧ ∃ k', k' ≠ k) := ⟨
  ⟨st d0, _, (RegKey.addr ⟨.MAC_GCL_CYCLE, 0, 0, 0⟩), ⟨.MAC_GCL_CYCLE, 0, 0, 0⟩, ks 1000, by decide +kernel, by decide +kernel, by decide +kernel, by decide +kernel, by decide +kernel, by decide +kernel, nexts_word (by decide +kernel)⟩,
  ⟨st d0, _, (RegKey.addr ⟨.MAC_GCL_CYCLE, 0, 0, 0⟩), ⟨.MAC_GCL_CYCLE, 0, 0, 0⟩, ks 1000, by decide +kernel, by decide +kernel, by decide +kernel, by decide +kernel, by decide +kernel, by decide +kernel, nexts_word (by decide +kernel), ⟨.SPAN_CFG, 0, 0, 0⟩, by decide +kernel⟩⟩

theorem test_hyp_ZeroRegister :
    (∃ (g : List DWord), g.length = 32) ∧
    (∃ (s s' : State) (th : Thread) (rs1 rs2 : Fin 32) (imm : BitVec 16), ((Ready s th (.alu .add 0 rs1 rs2) ∧ Sys2Proof.Machine.exec (.add th 0 rs1 rs2) s = .next s') ∨ (Ready s th (.imm .addi 0 rs1 imm) ∧ Sys2Proof.Machine.exec (.addi th 0 rs1 imm) s = .next s'))) := ⟨
  ⟨List.replicate 32 0, rfl⟩,
  ⟨st (pcDev 0 (.alu .add 0 2 3)), _, .packet 0 0, 2, 3, 0, .inl ⟨by decide +kernel, nexts (f := fun d => d.issue (.packet 0 0) (.alu .add 0 2 3)) rfl (by decide +kernel)⟩⟩⟩

theorem test_hyp_TrapEntryAndReturn :
    (∃ (d : Dev) (th : Thread) (cause : Nat), (∀ c t, th ≠ .packet c t) ∧ cause ≠ 0x10 ∧ cause ≠ 0x11 ∧ bitOf (d.thr (thrOf th)).tstate 7 = false) ∧
    (∃ (d : Dev) (th : Thread) (cause : Nat), (∀ c t, th ≠ .packet c t) ∧ cause ≠ 0x10 ∧ cause ≠ 0x11 ∧ bitOf (d.thr (thrOf th)).tstate 7 = false ∧ let k := thrOf th; ∃ k', k' ≠ k) ∧
    (∃ (d : Dev) (th : Thread) (cause pc : Nat), (∀ c t, th ≠ .packet c t) ∧ cause ≠ 0x10 ∧ cause ≠ 0x11 ∧ bitOf (d.thr (thrOf th)).tstate 7 = false ∧ pc % 4 = 0) ∧
    (∃ (d : Dev) (c : Fin 52) (t : Fin 2), bitOf (d.thr (thrOf (.service c t))).tstate 7 = true) := ⟨
  ⟨d0, .keystone, 2, (fun _ _ h => by cases h), by decide +kernel, by decide +kernel, by decide +kernel⟩,
  ⟨d0, .keystone, 2, (fun _ _ h => by cases h), by decide +kernel, by decide +kernel, by decide +kernel, 0, by decide +kernel⟩,
  ⟨d0, .keystone, 2, 8, (fun _ _ h => by cases h), by decide +kernel, by decide +kernel, by decide +kernel, by decide +kernel⟩,
  ⟨{ d0 with thrs := [(0, { tstate := 0x80 })] }, 0, 0, by decide +kernel⟩⟩

theorem test_hyp_RegisterInstructionFrame :
    (∃ (s s' : State) (th : Thread) (rd rs1 rs2 : Fin 32) (imm off : BitVec 16) (far : BitVec 26) (amount lsb wm : Fin 64) (signed ieee : Bool) (size : Fin 4) (c : Instr) (i : SOp) (dest : Fin 32), (c, i, dest) ∈ [(Instr.add th rd rs1 rs2, SOp.alu .add rd rs1 rs2, rd), (.sub th rd rs1 rs2, .alu .sub rd rs1 rs2, rd), (.and th rd rs1 rs2, .alu .and rd rs1 rs2, rd), (.or th rd rs1 rs2, .alu .or rd rs1 rs2, rd), (.xor th rd rs1 rs2, .alu .xor rd rs1 rs2, rd), (.andn th rd rs1 rs2, .alu .andn rd rs1 rs2, rd), (.sll th rd rs1 rs2, .alu .sll rd rs1 rs2, rd), (.srl th rd rs1 rs2, .alu .srl rd rs1 rs2, rd), (.sra th rd rs1 rs2, .alu .sra rd rs1 rs2, rd), (.ror th rd rs1 rs2, .alu .ror rd rs1 rs2, rd), (.slt th rd rs1 rs2, .alu .slt rd rs1 rs2, rd), (.sltu th rd rs1 rs2, .alu .sltu rd rs1 rs2, rd), (.min th rd rs1 rs2, .alu .min rd rs1 rs2, rd), (.max th rd rs1 rs2, .alu .max rd rs1 rs2, rd), (.minu th rd rs1 rs2, .alu .minu rd rs1 rs2, rd), (.maxu th rd rs1 rs2, .alu .maxu rd rs1 rs2, rd), (.clz th rd rs1, .alu .clz rd rs1 0, rd), (.ctz th rd rs1, .alu .ctz rd rs1 0, rd), (.popc th rd rs1, .alu .popc rd rs1 0, rd), (.bswap th rd rs1, .alu .bswap rd rs1 0, rd), (.mul th rd rs1 rs2, .alu .mul rd rs1 rs2, rd), (.mulh th rd rs1 rs2, .alu .mulh rd rs1 rs2, rd), (.mulhu th rd rs1 rs2, .alu .mulhu rd rs1 rs2, rd), (.div th rd rs1 rs2, .alu .div rd rs1 rs2, rd), (.divu th rd rs1 rs2, .alu .divu rd rs1 rs2, rd), (.rem th rd rs1 rs2, .alu .rem rd rs1 rs2, rd), (.remu th rd rs1 rs2, .alu .remu rd rs1 rs2, rd), (.shiSll th rd rs1 amount, .shi 0 rd rs1 amount, rd), (.shiSrl th rd rs1 amount, .shi 1 rd rs1 amount, rd), (.shiSra th rd rs1 amount, .shi 2 rd rs1 amount, rd), (.shiRor th rd rs1 amount, .shi 3 rd rs1 amount, rd), (.addi th rd rs1 imm, .imm .addi rd rs1 imm, rd), (.slti th rd rs1 imm, .imm .slti rd rs1 imm, rd), (.sltiu th rd rs1 imm, .imm .sltiu rd rs1 imm, rd), (.andi th rd rs1 imm, .imm .andi rd rs1 imm, rd), (.ori th rd rs1 imm, .imm .ori rd rs1 imm, rd), (.xori th rd rs1 imm, .imm .xori rd rs1 imm, rd), (.lui th rd imm, .imm .lui rd 0 imm, rd), (.shori th rd rs1 imm, .imm .shori rd rs1 imm, rd), (.bfx th signed rd rs1 lsb wm, .bfx signed rd rs1 lsb wm, rd), (.bfi th rd rs1 lsb wm, .bfi rd rs1 lsb wm, rd), (.crc th ieee size rd rs1 rs2, .crc ieee size rd rs1 rs2, rd), (.mix th rd rs1 rs2, .mix rd rs1 rs2, rd), (.beq th rs1 rs2 off, .branch .eq rs1 rs2 off, 0), (.bne th rs1 rs2 off, .branch .ne rs1 rs2 off, 0), (.blt th rs1 rs2 off, .branch .lt rs1 rs2 off, 0), (.bge th rs1 rs2 off, .branch .ge rs1 rs2 off, 0), (.bltu th rs1 rs2 off, .branch .ltu rs1 rs2 off, 0), (.bgeu th rs1 rs2 off, .branch .geu rs1 rs2 off, 0), (.j th far, .jump far, 0), (.jal th far, .jal far, 31)] ∧ Ready s th i ∧ Sys2Proof.Machine.exec c s = .next s') ∧
    (∃ (s s' : State) (th : Thread) (rd rs1 rs2 : Fin 32) (imm off : BitVec 16) (far : BitVec 26) (amount lsb wm : Fin 64) (signed ieee : Bool) (size : Fin 4) (c : Instr) (i : SOp) (dest : Fin 32), (c, i, dest) ∈ [(Instr.add th rd rs1 rs2, SOp.alu .add rd rs1 rs2, rd), (.sub th rd rs1 rs2, .alu .sub rd rs1 rs2, rd), (.and th rd rs1 rs2, .alu .and rd rs1 rs2, rd), (.or th rd rs1 rs2, .alu .or rd rs1 rs2, rd), (.xor th rd rs1 rs2, .alu .xor rd rs1 rs2, rd), (.andn th rd rs1 rs2, .alu .andn rd rs1 rs2, rd), (.sll th rd rs1 rs2, .alu .sll rd rs1 rs2, rd), (.srl th rd rs1 rs2, .alu .srl rd rs1 rs2, rd), (.sra th rd rs1 rs2, .alu .sra rd rs1 rs2, rd), (.ror th rd rs1 rs2, .alu .ror rd rs1 rs2, rd), (.slt th rd rs1 rs2, .alu .slt rd rs1 rs2, rd), (.sltu th rd rs1 rs2, .alu .sltu rd rs1 rs2, rd), (.min th rd rs1 rs2, .alu .min rd rs1 rs2, rd), (.max th rd rs1 rs2, .alu .max rd rs1 rs2, rd), (.minu th rd rs1 rs2, .alu .minu rd rs1 rs2, rd), (.maxu th rd rs1 rs2, .alu .maxu rd rs1 rs2, rd), (.clz th rd rs1, .alu .clz rd rs1 0, rd), (.ctz th rd rs1, .alu .ctz rd rs1 0, rd), (.popc th rd rs1, .alu .popc rd rs1 0, rd), (.bswap th rd rs1, .alu .bswap rd rs1 0, rd), (.mul th rd rs1 rs2, .alu .mul rd rs1 rs2, rd), (.mulh th rd rs1 rs2, .alu .mulh rd rs1 rs2, rd), (.mulhu th rd rs1 rs2, .alu .mulhu rd rs1 rs2, rd), (.div th rd rs1 rs2, .alu .div rd rs1 rs2, rd), (.divu th rd rs1 rs2, .alu .divu rd rs1 rs2, rd), (.rem th rd rs1 rs2, .alu .rem rd rs1 rs2, rd), (.remu th rd rs1 rs2, .alu .remu rd rs1 rs2, rd), (.shiSll th rd rs1 amount, .shi 0 rd rs1 amount, rd), (.shiSrl th rd rs1 amount, .shi 1 rd rs1 amount, rd), (.shiSra th rd rs1 amount, .shi 2 rd rs1 amount, rd), (.shiRor th rd rs1 amount, .shi 3 rd rs1 amount, rd), (.addi th rd rs1 imm, .imm .addi rd rs1 imm, rd), (.slti th rd rs1 imm, .imm .slti rd rs1 imm, rd), (.sltiu th rd rs1 imm, .imm .sltiu rd rs1 imm, rd), (.andi th rd rs1 imm, .imm .andi rd rs1 imm, rd), (.ori th rd rs1 imm, .imm .ori rd rs1 imm, rd), (.xori th rd rs1 imm, .imm .xori rd rs1 imm, rd), (.lui th rd imm, .imm .lui rd 0 imm, rd), (.shori th rd rs1 imm, .imm .shori rd rs1 imm, rd), (.bfx th signed rd rs1 lsb wm, .bfx signed rd rs1 lsb wm, rd), (.bfi th rd rs1 lsb wm, .bfi rd rs1 lsb wm, rd), (.crc th ieee size rd rs1 rs2, .crc ieee size rd rs1 rs2, rd), (.mix th rd rs1 rs2, .mix rd rs1 rs2, rd), (.beq th rs1 rs2 off, .branch .eq rs1 rs2 off, 0), (.bne th rs1 rs2 off, .branch .ne rs1 rs2 off, 0), (.blt th rs1 rs2 off, .branch .lt rs1 rs2 off, 0), (.bge th rs1 rs2 off, .branch .ge rs1 rs2 off, 0), (.bltu th rs1 rs2 off, .branch .ltu rs1 rs2 off, 0), (.bgeu th rs1 rs2 off, .branch .geu rs1 rs2 off, 0), (.j th far, .jump far, 0), (.jal th far, .jal far, 31)] ∧ Ready s th i ∧ Sys2Proof.Machine.exec c s = .next s' ∧ s.dev.untranslated th) := ⟨
  ⟨st (pcDev 0 (.alu .sub 1 2 3)), _, .packet 0 0, 1, 2, 3, 0, 0, 0, 0, 0, 0, false, false, 0, .sub (.packet 0 0) 1 2 3, .alu .sub 1 2 3, 1, .tail _ (.head _), by decide +kernel, nexts (f := fun d => d.issue (.packet 0 0) (.alu .sub 1 2 3)) rfl (by decide +kernel)⟩,
  ⟨st (pcDev 0 (.alu .sub 1 2 3)), _, .packet 0 0, 1, 2, 3, 0, 0, 0, 0, 0, 0, false, false, 0, .sub (.packet 0 0) 1 2 3, .alu .sub 1 2 3, 1, .tail _ (.head _), by decide +kernel, nexts (f := fun d => d.issue (.packet 0 0) (.alu .sub 1 2 3)) rfl (by decide +kernel), (fun _ _ h => by cases h)⟩⟩

theorem test_hyp_LoadAndStoreFrame :
    (∃ (s s' : State) (th : Thread) (rd rs1 : Fin 32) (imm : BitVec 16), let a := (gget (s.dev.tregs th) rs1 + imm.signExtend 64).toNat; let d := s.dev.issued th; ∃ (c : Instr) (op : LoadOp) (size : Nat), (c, op, size) ∈ [(Instr.lb th rd rs1 imm, LoadOp.lb, 1), (.lbu th rd rs1 imm, .lbu, 1), (.lh th rd rs1 imm, .lh, 2), (.lhu th rd rs1 imm, .lhu, 2), (.lw th rd rs1 imm, .lw, 4), (.lwu th rd rs1 imm, .lwu, 4), (.ld th rd rs1 imm, .ld, 8)] ∧ Ready s th (.load op rd rs1 imm) ∧ a % size = 0 ∧ Sys2Proof.Machine.exec c s = .next s' ∧ ((∃ core ctx key, th = .packet core ctx ∧ d.target th a size false = .local_ key ∧ d.marked key size = false) ∨ (th = .keystone ∧ d.target th a size false = .mem ∧ d.held a = false ∧ d.tagBad a size = false ∧ d.marked a size = false))) ∧
    (∃ (s s' : State) (th : Thread) (rd rs1 : Fin 32) (imm : BitVec 16), let a := (gget (s.dev.tregs th) rs1 + imm.signExtend 64).toNat; let d := s.dev.issued th; ∃ (c : Instr) (op : StoreOp) (size : Nat), (c, op, size) ∈ [(Instr.sb th rd rs1 imm, StoreOp.sb, 1), (.sh th rd rs1 imm, .sh, 2), (.sw th rd rs1 imm, .sw, 4), (.sd th rd rs1 imm, .sd, 8)] ∧ Ready s th (.store op rd rs1 imm) ∧ a % size = 0 ∧ Sys2Proof.Machine.exec c s = .next s' ∧ ∃ core ctx key, th = .packet core ctx ∧ d.target th a size true = .local_ key) ∧
    (∃ (s s' : State) (th : Thread) (rd rs1 : Fin 32) (imm : BitVec 16), let a := (gget (s.dev.tregs th) rs1 + imm.signExtend 64).toNat; let d := s.dev.issued th; ∃ (c : Instr) (op : StoreOp) (size : Nat), (c, op, size) ∈ [(Instr.sb th rd rs1 imm, StoreOp.sb, 1), (.sh th rd rs1 imm, .sh, 2), (.sw th rd rs1 imm, .sw, 4), (.sd th rd rs1 imm, .sd, 8)] ∧ Ready s th (.store op rd rs1 imm) ∧ a % size = 0 ∧ Sys2Proof.Machine.exec c s = .next s' ∧ ∃ core ctx key, th = .packet core ctx ∧ d.target th a size true = .local_ key ∧ ∃ x, (x < key ∨ key + size ≤ x)) ∧
    (∃ (s s' : State) (th : Thread) (rd rs1 : Fin 32) (imm : BitVec 16), let a := (gget (s.dev.tregs th) rs1 + imm.signExtend 64).toNat; let d := s.dev.issued th; ∃ (c : Instr) (op : StoreOp) (size : Nat), (c, op, size) ∈ [(Instr.sb th rd rs1 imm, StoreOp.sb, 1), (.sh th rd rs1 imm, .sh, 2), (.sw th rd rs1 imm, .sw, 4), (.sd th rd rs1 imm, .sd, 8)] ∧ Ready s th (.store op rd rs1 imm) ∧ a % size = 0 ∧ Sys2Proof.Machine.exec c s = .next s' ∧ th = .keystone ∧ d.target th a size true = .mem ∧ d.held a = false) ∧
    (∃ (s s' : State) (th : Thread) (rd rs1 : Fin 32) (imm : BitVec 16), let a := (gget (s.dev.tregs th) rs1 + imm.signExtend 64).toNat; let d := s.dev.issued th; ∃ (c : Instr) (op : StoreOp) (size : Nat), (c, op, size) ∈ [(Instr.sb th rd rs1 imm, StoreOp.sb, 1), (.sh th rd rs1 imm, .sh, 2), (.sw th rd rs1 imm, .sw, 4), (.sd th rd rs1 imm, .sd, 8)] ∧ Ready s th (.store op rd rs1 imm) ∧ a % size = 0 ∧ Sys2Proof.Machine.exec c s = .next s' ∧ th = .keystone ∧ d.target th a size true = .mem ∧ d.held a = false ∧ ∃ x, (x < a ∨ a + size ≤ x)) ∧
    (∃ (s s' : State) (th : Thread) (rd rs1 : Fin 32) (imm : BitVec 16), let a := (gget (s.dev.tregs th) rs1 + imm.signExtend 64).toNat; let d := s.dev.issued th; ∃ (c : Instr) (op : StoreOp) (size : Nat), (c, op, size) ∈ [(Instr.sb th rd rs1 imm, StoreOp.sb, 1), (.sh th rd rs1 imm, .sh, 2), (.sw th rd rs1 imm, .sw, 4), (.sd th rd rs1 imm, .sd, 8)] ∧ Ready s th (.store op rd rs1 imm) ∧ a % size = 0 ∧ Sys2Proof.Machine.exec c s = .next s' ∧ th = .keystone ∧ d.target th a size true = .mem ∧ d.held a = false ∧ d.protected a size = false) ∧
    (∃ (s s' : State) (th : Thread) (rd rs1 : Fin 32) (imm : BitVec 16), let a := (gget (s.dev.tregs th) rs1 + imm.signExtend 64).toNat; let d := s.dev.issued th; ∃ (c : Instr) (op : StoreOp) (size : Nat), (c, op, size) ∈ [(Instr.sb th rd rs1 imm, StoreOp.sb, 1), (.sh th rd rs1 imm, .sh, 2), (.sw th rd rs1 imm, .sw, 4), (.sd th rd rs1 imm, .sd, 8)] ∧ Ready s th (.store op rd rs1 imm) ∧ a % size = 0 ∧ Sys2Proof.Machine.exec c s = .next s' ∧ ∃ core ctx, th = .packet core ctx ∧ d.target th a size true = .mem ∧ (d.ctx core.val ctx.val).stores.length < 8) := ⟨
  ⟨st (pcDev 0 (.load .ld 3 2 8) fun k => { k with regs := regs 0x20002FF0 0 }), _, .packet 0 0, 3, 2, 8, .ld (.packet 0 0) 3 2 8, .ld, 8, by decide +kernel, by decide +kernel, by decide +kernel, nexts (f := fun d => d.issue (.packet 0 0) (.load .ld 3 2 8)) rfl (by decide +kernel), .inl ⟨0, 0, 2 ^ 48 + 0x2FF8, rfl, by decide +kernel, by decide +kernel⟩⟩,
  ⟨st (pcDev 0 (.store .sd 3 2 8) fun k => { k with regs := regs 0x2003FFF0 0 }), _, .packet 0 0, 3, 2, 8, .sd (.packet 0 0) 3 2 8, .sd, 8, by decide +kernel, by decide +kernel, by decide +kernel, nexts (f := fun d => d.issue (.packet 0 0) (.store .sd 3 2 8)) rfl (by decide +kernel), 0, 0, 2 ^ 48 + 0x3FFF8, rfl, by decide +kernel⟩,
  ⟨st (pcDev 0 (.store .sd 3 2 8) fun k => { k with regs := regs 0x2003FFF0 0 }), _, .packet 0 0, 3, 2, 8, .sd (.packet 0 0) 3 2 8, .sd, 8, by decide +kernel, by decide +kernel, by decide +kernel, nexts (f := fun d => d.issue (.packet 0 0) (.store .sd 3 2 8)) rfl (by decide +kernel), 0, 0, 2 ^ 48 + 0x3FFF8, rfl, by decide +kernel, 0, .inl (by decide)⟩,
  ⟨st (ksDev (.store .sb 3 2 8) fun k => { k with regs := regs 0x10000000 0 }), _, .keystone, 3, 2, 8, .sb .keystone 3 2 8, .sb, 1, by decide +kernel, by decide +kernel, by decide +kernel, nexts (f := fun d => d.issue (.keystone) (.store .sb 3 2 8)) rfl (by decide +kernel), rfl, by decide +kernel, by decide +kernel⟩,
  ⟨st (ksDev (.store .sb 3 2 8) fun k => { k with regs := regs 0x10000000 0 }), _, .keystone, 3, 2, 8, .sb .keystone 3 2 8, .sb, 1, by decide +kernel, by decide +kernel, by decide +kernel, nexts (f := fun d => d.issue (.keystone) (.store .sb 3 2 8)) rfl (by decide +kernel), rfl, by decide +kernel, by decide +kernel, 0, .inl (by decide +kernel)⟩,
  ⟨st (ksDev (.store .sb 3 2 8) fun k => { k with regs := regs 0x10000000 0 }), _, .keystone, 3, 2, 8, .sb .keystone 3 2 8, .sb, 1, by decide +kernel, by decide +kernel, by decide +kernel, nexts (f := fun d => d.issue (.keystone) (.store .sb 3 2 8)) rfl (by decide +kernel), rfl, by decide +kernel, by decide +kernel, by decide +kernel⟩,
  ⟨st (let d := pcDev 0 (.store .sw 3 2 8) fun k => { k with regs := regs 0x1000000000 0 }; ((d.setFld F.PCB_WIN_BASE_HI 0 0 16).setFld F.PCB_WIN_VALID 0 0 1).setFld F.PCB_WIN_WR 0 0 1 |>.setFld F.PCB_WIN_LOG2 0 0 12), _, .packet 0 0, 3, 2, 8, .sw (.packet 0 0) 3 2 8, .sw, 4, by decide +kernel, by decide +kernel, by decide +kernel, nexts (f := fun d => d.issue (.packet 0 0) (.store .sw 3 2 8)) rfl (by decide +kernel), 0, 0, rfl, by decide +kernel, by decide +kernel⟩⟩

/-! ### Ill-formed commands are refused, well-formed ones are not -/

/-- Two writes of one writer in one cycle (R16), and two of two writers. -/
theorem test_wf_writes : (Instr.spanCfgWrite [ks 1, ks 2]).wf = false ∧ (Instr.spanCfgWrite [ks 1, ⟨.sideband, 2⟩]).wf = true ∧
    (Instr.sidebandWriteCommit [ks 1, ks 2]).wf = false ∧ (Instr.registerWrite 0x200000000 ⟨[ks 1, ks 2], []⟩).wf = false := by decide

/-- An address of more than 48 bits (R482). -/
theorem test_wf_address : (Instr.registerWrite (2 ^ 48) ⟨[ks 1], []⟩).wf = false ∧ (Instr.registerWrite 0x200000000 ⟨[ks 1], []⟩).wf = true ∧
    (Instr.counterReadClear (2 ^ 48) [.keystone]).wf = false ∧ (Instr.sidebandRegisterRead .smbus false (2 ^ 48)).wf = false := by decide

/-- A counter read twice by one reader in one cycle (R21). -/
theorem test_wf_readers : (Instr.counterReadClear 0x200000000 [.keystone, .keystone]).wf = false ∧
    (Instr.counterReadClear 0x200000000 [.keystone, .sideband]).wf = true := by decide

/-- A bitfield past bit 63 (R310). -/
theorem test_wf_field : (Instr.bfx .keystone true 1 2 56 8).wf = false ∧ (Instr.bfx .keystone true 1 2 56 7).wf = true ∧
    (Instr.bfi .keystone 1 2 63 1).wf = false := by decide

/-- A cell with no byte, and one of more than 256 bytes (R142). -/
theorem test_wf_cell : (Instr.cellArrival 0 [] false).wf = false ∧ (Instr.cellArrival 0 (List.replicate 257 0) false).wf = false ∧
    (Instr.cellArrival 0 (List.replicate 256 0) false).wf = true ∧ (Instr.frameReceiveStart 0 []).wf = false := by decide +kernel

/-- A submission entry, a descriptor and a metadata record that do not have 64 bytes; a host write of no byte. -/
theorem test_wf_lengths : (Instr.nvmeIdentify 0 (sqe 6 0 0 0 0)).wf = true ∧ (Instr.nvmeIdentify 0 []).wf = false ∧
    (Instr.rx 0 0 (List.replicate 63 0)).wf = false ∧ (Instr.flumeRemoteFrameReceive 0 0 0 0 [] []).wf = false ∧ (Instr.hostMemoryWrite 0 0 0 [] {}).wf = false := by decide +kernel

/-- A cell number outside its kind (R425), and a serial number of more than 64 bits (R463). -/
theorem test_wf_cells : (Instr.eccErrorDetected 1 272 .other false false).wf = false ∧ (Instr.eccErrorDetected 1 271 .other false false).wf = true ∧
    (Instr.bistComplete 2 52 true 0 false).wf = false := by decide

theorem test_wf_beat : (Instr.flumeHeartbeatReceive 0 { role := 1, member := 0, state := 0, seq := 0, prio := 0, serial := 2 ^ 64, conceded := false, tc := 0 }).wf = false := by
  decide

/-! ### Instruction words of the example program (R334) -/

theorem test_word_bitfield : SOp.decode 0xB44100F0 = some (.bfx false 2 1 0 15) ∧ SOp.decode 0xB4A62031 = some (.bfi 5 6 8 3) := by decide +kernel

theorem test_word_immediate : SOp.decode 0x0C630003 = some (.imm .andi 3 3 3) ∧ SOp.decode 0x08800002 = some (.imm .addi 4 0 2) := by decide +kernel

theorem test_word_branch : SOp.decode 0x80640006 = some (.branch .eq 3 4 6) := by decide +kernel

theorem test_word_packet : SOp.decode 0xE0601000 = some (.pktldm 0 3 0) ∧ SOp.decode 0xE8020005 = some (.prim 2 5) := by decide +kernel

theorem test_word_thread : SOp.decode 0xC4000002 = some (.quit 0) := by decide +kernel

/-! ### What the manual says of a few states -/

/-- After a cold reset the configuration store is empty (R39, R395), and the boot record names Bank A (R401). -/
theorem test_store_empty : d0.storeEmpty = true ∧ d0.pref = 0 ∧ d0.attempts = 0 := by decide +kernel

/-- The routes of the example beside R115: 10.0.0.0/8 and 10.1.2.0/24 of VRF 7. -/
def exampleTrie : Trie :=
  (({} : Trie).put { v6 := false, vrf := 7, len := 8, bits := 10 } (some 5)).put { v6 := false, vrf := 7, len := 24, bits := 0x0A0102 } (some 9)

/-- Its lookups, which end where the manual says. -/
theorem test_trie_lookup : exampleTrie.lookup false 7 0x0A010203 = some 9 ∧ exampleTrie.lookup false 7 0x0A010303 = some 5 ∧
    exampleTrie.lookup false 7 0x0B000001 = none := by decide +kernel

/-- Its two nodes, with the runs that the manual lists. -/
theorem test_trie_nodes : (exampleTrie.nodes.map fun e => (e.2.mem, e.2.runs.map (·.1))) =
    [(0, [0, 0x0A00, 0x0A01, 0x0A02, 0x0B00]), (1, [0, 2, 3])] := by decide +kernel

end Sys2Proof.Tests
end

/-! PROOFS. Stavte's arithmetic and flow (chapter 11): its words decode to its instructions, an instruction of a ready thread gives its result or its effect, and the results are the manual's arithmetic. -/

namespace Sys2Proof.Machine

open Sys2Proof

/-! ### The fields of an instruction word (R304) -/

section Fields

variable {major funct imm : Nat} (rd rs1 rs2 : Fin 32)

/-- A word of format A is one of format I whose low half holds rs2 and funct. -/
theorem wordA_eq_wordI (rd rs1 rs2 : Nat) : wordA major rd rs1 rs2 funct = wordI major rd rs1 (rs2 * 2048 + funct) := by
  unfold wordA wordI
  omega

theorem fRd_wordI (hi : imm < 65536) : fRd (wordI major rd rs1 imm) = rd := by
  apply Fin.ext
  show wordI major rd rs1 imm / 2097152 % 32 = rd
  unfold wordI
  omega

theorem fRs1_wordI (hi : imm < 65536) : fRs1 (wordI major rd rs1 imm) = rs1 := by
  apply Fin.ext
  show wordI major rd rs1 imm / 65536 % 32 = rs1
  unfold wordI
  omega

theorem fRs2_wordI (hf : funct < 2048) : fRs2 (wordI major rd rs1 (rs2 * 2048 + funct)) = rs2 := by
  apply Fin.ext
  show wordI major rd rs1 (rs2 * 2048 + funct) / 2048 % 32 = rs2
  unfold wordI
  omega

theorem wordI_mod (hi : imm < 65536) : wordI major rd rs1 imm % 65536 = imm := by
  unfold wordI
  omega

theorem wordI_mod_funct (n : Nat) : wordI major rd rs1 (n * 2048 + funct) % 2048 = funct % 2048 := by
  unfold wordI
  omega

theorem wordI_major (hi : imm < 65536) : wordI major rd rs1 imm / 67108864 = major := by
  unfold wordI
  omega

theorem ofNat_wordI (i : BitVec 16) : BitVec.ofNat 16 (wordI major rd rs1 i.toNat) = i := by
  apply BitVec.eq_of_toNat_eq
  rw [BitVec.toNat_ofNat]
  exact wordI_mod rd rs1 i.isLt

/-- A word of a major opcode below 0x20. -/
theorem decode_wordI_low (hm : major < 32) (hi : imm < 65536) :
    SOp.decode (wordI major rd rs1 imm) = decodeLow major (wordI major rd rs1 imm) := by
  have hw : wordI major rd rs1 imm < 2147483648 := by unfold wordI; omega
  rw [SOp.decode, if_pos hw, wordI_major rd rs1 hi]

/-- A word of a major opcode from 0x20 on. -/
theorem decode_wordI_high (hl : 32 ≤ major) (hm : major < 64) (hi : imm < 65536) :
    SOp.decode (wordI major rd rs1 imm) = decodeHigh major (wordI major rd rs1 imm) := by
  have hlow : ¬ wordI major rd rs1 imm < 2147483648 := by unfold wordI; omega
  have hw : wordI major rd rs1 imm < 4294967296 := by unfold wordI; omega
  rw [SOp.decode, if_neg hlow, if_pos hw, wordI_major rd rs1 hi]

end Fields

/-! ### What each major opcode is decoded by (R306) -/

section Majors

variable (w : Nat)

theorem decodeLow_alu : decodeLow 0 w = decodeAlu (aluOf (w % 2048)) w := rfl
theorem decodeLow_mul : decodeLow 1 w = decodeAlu (mulOf (w % 2048)) w := rfl
theorem decodeLow_shi :
    decodeLow 8 w = guardOp (decide (w % 65536 < 256)) (.shi (Fin.ofNat 4 (w / 64)) (fRd w) (fRs1 w) (Fin.ofNat 64 w)) := rfl
theorem decodeLow_imm (op : ImmOp) :
    decodeLow op.major w = guardOp (op != .lui || fRs1 w == 0) (.imm op (fRd w) (fRs1 w) (BitVec.ofNat 16 w)) := by
  cases op <;> rfl
theorem decodeHigh_branch (op : BranchOp) : decodeHigh op.major w = some (.branch op (fRd w) (fRs1 w) (BitVec.ofNat 16 w)) := by
  cases op <;> rfl
theorem decodeHigh_jump : decodeHigh 0x26 w = some (.jump (BitVec.ofNat 26 w)) := rfl
theorem decodeHigh_jal : decodeHigh 0x27 w = some (.jal (BitVec.ofNat 26 w)) := rfl
theorem decodeHigh_jalr : decodeHigh 0x28 w = some (.jalr (fRd w) (fRs1 w) (BitVec.ofNat 16 w)) := rfl
theorem decodeHigh_field : decodeHigh 0x2D w = decodeBf w := rfl
theorem decodeHigh_check : decodeHigh 0x2E w = decodeCheck w := rfl

end Majors

/-! ### Instructions of chapter 11 decode from their words (R305 to R313) -/

section Decode

variable (rd rs1 rs2 : Fin 32)

/-- An ALU word is the operation of its funct, whose rs2 field must be 0 where it is unary. -/
theorem decodeAlu_wordI {major funct : Nat} (hf : funct < 2048) (op : Option AluOp) :
    decodeAlu op (wordI major rd rs1 (rs2 * 2048 + funct)) = op.bind fun op => guardOp (!op.unary || rs2 == 0) (.alu op rd rs1 rs2) := by
  have hi : rs2.val * 2048 + funct < 65536 := by omega
  cases op with
  | none => rfl
  | some op => simp only [decodeAlu, fRd_wordI rd rs1 hi, fRs1_wordI rd rs1 hi, fRs2_wordI rd rs1 rs2 hf, Option.bind_some]

theorem decode_aluWord {funct : Nat} (hf : funct < 2048) :
    SOp.decode (wordA 0 rd rs1 rs2 funct) = (aluOf funct).bind fun op => guardOp (!op.unary || rs2 == 0) (.alu op rd rs1 rs2) := by
  rw [wordA_eq_wordI, decode_wordI_low rd rs1 (by decide) (by omega), decodeLow_alu, wordI_mod_funct, Nat.mod_eq_of_lt hf,
    decodeAlu_wordI rd rs1 rs2 hf]

theorem decode_mulWord {funct : Nat} (hf : funct < 2048) :
    SOp.decode (wordA 1 rd rs1 rs2 funct) = (mulOf funct).bind fun op => guardOp (!op.unary || rs2 == 0) (.alu op rd rs1 rs2) := by
  rw [wordA_eq_wordI, decode_wordI_low rd rs1 (by decide) (by omega), decodeLow_mul, wordI_mod_funct, Nat.mod_eq_of_lt hf,
    decodeAlu_wordI rd rs1 rs2 hf]

theorem decode_encode_alu (op : AluOp) (hw : (SOp.alu op rd rs1 rs2).wf = true) :
    SOp.decode (SOp.alu op rd rs1 rs2).encode = some (.alu op rd rs1 rs2) := by
  have hg : guardOp (!op.unary || rs2 == 0) (SOp.alu op rd rs1 rs2) = some (.alu op rd rs1 rs2) := if_pos hw
  have hr : (if op.unary then 0 else rs2.val) = rs2.val := by
    cases hu : op.unary with
    | false => rfl
    | true => simp_all [SOp.wf]
  rw [SOp.encode, hr]
  cases op with
  | mul | mulh | mulhu | div | divu | rem | remu => exact (decode_mulWord rd rs1 rs2 (by decide)).trans hg
  | _ => exact (decode_aluWord rd rs1 rs2 (by decide)).trans hg

theorem decode_encode_imm (op : ImmOp) (i : BitVec 16) (hw : (SOp.imm op rd rs1 i).wf = true) :
    SOp.decode (SOp.imm op rd rs1 i).encode = some (.imm op rd rs1 i) := by
  have hr : (if op = .lui then 0 else rs1.val) = rs1.val := by
    split
    · next h => simp_all [SOp.wf]
    · rfl
  have hm : op.major < 32 := by cases op <;> decide
  rw [SOp.encode, hr, decode_wordI_low rd rs1 hm i.isLt, decodeLow_imm, fRd_wordI rd rs1 i.isLt, fRs1_wordI rd rs1 i.isLt, ofNat_wordI]
  exact if_pos hw

theorem decode_encode_shi (k : Fin 4) (n : Fin 64) : SOp.decode (SOp.shi k rd rs1 n).encode = some (.shi k rd rs1 n) := by
  have hi : k.val * 64 + n.val < 65536 := by omega
  have hk : Fin.ofNat 4 (wordI 8 rd rs1 (k * 64 + n) / 64) = k := by apply Fin.ext; show _ % 4 = _; unfold wordI; omega
  have hn : Fin.ofNat 64 (wordI 8 rd rs1 (k * 64 + n)) = n := by apply Fin.ext; show _ % 64 = _; unfold wordI; omega
  have hg : k.val * 64 + n.val < 256 := by omega
  rw [SOp.encode, decode_wordI_low rd rs1 (by decide) hi, decodeLow_shi, wordI_mod rd rs1 hi, fRd_wordI rd rs1 hi, fRs1_wordI rd rs1 hi, hk, hn]
  exact if_pos (decide_eq_true hg)

theorem decode_encode_branch (op : BranchOp) (o : BitVec 16) :
    SOp.decode (SOp.branch op rs1 rs2 o).encode = some (.branch op rs1 rs2 o) := by
  have hm : 32 ≤ op.major ∧ op.major < 64 := by cases op <;> decide
  rw [SOp.encode, decode_wordI_high rs1 rs2 hm.1 hm.2 o.isLt, decodeHigh_branch, fRd_wordI rs1 rs2 o.isLt, fRs1_wordI rs1 rs2 o.isLt, ofNat_wordI]

theorem decode_encode_jalr (i : BitVec 16) : SOp.decode (SOp.jalr rd rs1 i).encode = some (.jalr rd rs1 i) := by
  rw [SOp.encode, decode_wordI_high rd rs1 (by decide) (by decide) i.isLt, decodeHigh_jalr, fRd_wordI rd rs1 i.isLt, fRs1_wordI rd rs1 i.isLt, ofNat_wordI]

/-- A word of format J is its major opcode and 26 bits of offset. -/
theorem decode_wordJ {major : Nat} (hl : 32 ≤ major) (hm : major < 64) (o : BitVec 26) :
    SOp.decode (major * 67108864 + o.toNat) = decodeHigh major (major * 67108864 + o.toNat) := by
  have ho := o.isLt
  have hd : (major * 67108864 + o.toNat) / 67108864 = major := by omega
  rw [SOp.decode, if_neg (by omega), if_pos (by omega), hd]

theorem ofNat_wordJ (major : Nat) (o : BitVec 26) : BitVec.ofNat 26 (major * 67108864 + o.toNat) = o := by
  apply BitVec.eq_of_toNat_eq
  have ho := o.isLt
  rw [BitVec.toNat_ofNat]
  omega

theorem decode_encode_jump (o : BitVec 26) : SOp.decode (SOp.jump o).encode = some (.jump o) := by
  rw [SOp.encode, decode_wordJ (by decide) (by decide), decodeHigh_jump, ofNat_wordJ]

theorem decode_encode_jal (o : BitVec 26) : SOp.decode (SOp.jal o).encode = some (.jal o) := by
  rw [SOp.encode, decode_wordJ (by decide) (by decide), decodeHigh_jal, ofNat_wordJ]

theorem decode_fieldWord {imm : Nat} (hi : imm < 65536) : SOp.decode (wordI 0x2D rd rs1 imm) = decodeBf (wordI 0x2D rd rs1 imm) := by
  rw [decode_wordI_high rd rs1 (by decide) (by decide) hi, decodeHigh_field]

/-- A word of major opcode 0x2D whose low three bits are 0 is BFX, where its field lies within 64 bits (R310). -/
theorem decode_bfxWord {imm : Nat} (hi : imm < 65536) (h : imm % 8 = 0) :
    SOp.decode (wordI 0x2D rd rs1 imm) =
      guardOp (decide (imm / 1024 + imm / 16 % 64 + 1 ≤ 64)) (.bfx (bitOf imm 3) rd rs1 (Fin.ofNat 64 (imm / 1024)) (Fin.ofNat 64 (imm / 16))) := by
  have hl : imm / 1024 % 64 = imm / 1024 := by omega
  rw [decode_fieldWord rd rs1 hi, decodeBf]
  simp only [wordI_mod rd rs1 hi, fRd_wordI rd rs1 hi, fRs1_wordI rd rs1 hi, Fin.val_ofNat, hl, h]

/-- One whose low three bits are 1 is BFI, where its bit 3 is 0 and its field lies within 64 bits (R310). -/
theorem decode_bfiWord {imm : Nat} (hi : imm < 65536) (h : imm % 8 = 1) :
    SOp.decode (wordI 0x2D rd rs1 imm) =
      guardOp (decide (imm / 1024 + imm / 16 % 64 + 1 ≤ 64) && !bitOf imm 3) (.bfi rd rs1 (Fin.ofNat 64 (imm / 1024)) (Fin.ofNat 64 (imm / 16))) := by
  have hl : imm / 1024 % 64 = imm / 1024 := by omega
  rw [decode_fieldWord rd rs1 hi, decodeBf]
  simp only [wordI_mod rd rs1 hi, fRd_wordI rd rs1 hi, fRs1_wordI rd rs1 hi, Fin.val_ofNat, hl, h]

/-- The words of major opcode 0x2D that no instruction has: another number in the low three bits, a field past bit 63, BFI with bit 3 set (R310). -/
theorem decode_fieldWord_none {imm : Nat} (hi : imm < 65536) (h : 2 ≤ imm % 8 ∨ 64 < imm / 1024 + (imm / 16 % 64 + 1) ∨ imm % 16 = 9) :
    SOp.decode (wordI 0x2D rd rs1 imm) = none := by
  by_cases h0 : imm % 8 = 0
  · rw [decode_bfxWord rd rs1 hi h0, decide_eq_false (by omega)]
    rfl
  by_cases h1 : imm % 8 = 1
  · rw [decode_bfiWord rd rs1 hi h1, bitOf]
    by_cases h9 : imm % 16 = 9
    · have h3 : imm / 2 ^ 3 % 2 = 1 := by omega
      rw [h3, Bool.and_comm]
      rfl
    · rw [decide_eq_false (by omega)]
      rfl
  · rw [decode_fieldWord rd rs1 hi, decodeBf]
    simp only [wordI_mod rd rs1 hi]

theorem decode_encode_bfx (sg : Bool) (lsb wm : Fin 64) (hw : (SOp.bfx sg rd rs1 lsb wm).wf = true) :
    SOp.decode (SOp.bfx sg rd rs1 lsb wm).encode = some (.bfx sg rd rs1 lsb wm) := by
  have hn : natOf sg < 2 := by cases sg <;> decide
  have hf : lsb.val + wm.val + 1 ≤ 64 := of_decide_eq_true hw
  have hlsb : (lsb.val * 1024 + wm.val * 16 + natOf sg * 8) / 1024 = lsb := by omega
  have hwm : (lsb.val * 1024 + wm.val * 16 + natOf sg * 8) / 16 = lsb * 64 + wm := by omega
  have hwm' : (lsb.val * 64 + wm.val) % 64 = wm := by omega
  have hsg : bitOf (lsb.val * 1024 + wm.val * 16 + natOf sg * 8) 3 = sg := by
    have : (lsb.val * 1024 + wm.val * 16 + natOf sg * 8) / 2 ^ 3 % 2 = natOf sg := by omega
    rw [bitOf, this]
    cases sg <;> rfl
  rw [SOp.encode, decode_bfxWord rd rs1 (by omega) (by omega), hsg, hlsb, hwm, hwm', guardOp, if_pos (decide_eq_true hf)]
  congr 2 <;> exact Fin.ext (by simp only [Fin.val_ofNat]; omega)

theorem decode_encode_bfi (lsb wm : Fin 64) (hw : (SOp.bfi rd rs1 lsb wm).wf = true) :
    SOp.decode (SOp.bfi rd rs1 lsb wm).encode = some (.bfi rd rs1 lsb wm) := by
  have hf : lsb.val + wm.val + 1 ≤ 64 := of_decide_eq_true hw
  have hlsb : (lsb.val * 1024 + wm.val * 16 + 1) / 1024 = lsb := by omega
  have hwm : (lsb.val * 1024 + wm.val * 16 + 1) / 16 = lsb * 64 + wm := by omega
  have hwm' : (lsb.val * 64 + wm.val) % 64 = wm := by omega
  have h3 : bitOf (lsb.val * 1024 + wm.val * 16 + 1) 3 = false := by
    have : (lsb.val * 1024 + wm.val * 16 + 1) / 2 ^ 3 % 2 = 0 := by omega
    rw [bitOf, this]
    rfl
  rw [SOp.encode, decode_bfiWord rd rs1 (by omega) (by omega), h3, hlsb, hwm, hwm', decide_eq_true hf]
  show some _ = _
  congr 2 <;> exact Fin.ext (by simp only [Fin.val_ofNat]; omega)

/-- Words of major opcode 0x2E with a funct below 8 are CRC: bit 2 the polynomial, bits 1:0 the size (R311). -/
theorem decode_crcWord {funct : Nat} (hf : funct < 8) :
    SOp.decode (wordA 0x2E rd rs1 rs2 funct) = some (.crc (bitOf funct 2) (Fin.ofNat 4 funct) rd rs1 rs2) := by
  have hi : rs2.val * 2048 + funct < 65536 := by omega
  have hm : funct % 2048 = funct := by omega
  rw [wordA_eq_wordI, decode_wordI_high rd rs1 (by decide) (by decide) hi, decodeHigh_check, decodeCheck]
  simp only [wordI_mod_funct, hm, hf, if_true, fRd_wordI rd rs1 hi, fRs1_wordI rd rs1 hi, fRs2_wordI rd rs1 rs2 (by omega : funct < 2048)]

/-- The word of major opcode 0x2E with funct 16 is MIX (R311). -/
theorem decode_mixWord : SOp.decode (wordA 0x2E rd rs1 rs2 16) = some (.mix rd rs1 rs2) := by
  have hi : rs2.val * 2048 + 16 < 65536 := by omega
  rw [wordA_eq_wordI, decode_wordI_high rd rs1 (by decide) (by decide) hi, decodeHigh_check, decodeCheck]
  simp [wordI_mod_funct, fRd_wordI rd rs1 hi, fRs1_wordI rd rs1 hi, fRs2_wordI rd rs1 rs2]

theorem decode_encode_crc (ieee : Bool) (n : Fin 4) : SOp.decode (SOp.crc ieee n rd rs1 rs2).encode = some (.crc ieee n rd rs1 rs2) := by
  have hn : natOf ieee < 2 := by cases ieee <;> decide
  have hb : bitOf (natOf ieee * 4 + n) 2 = ieee := by
    have : (natOf ieee * 4 + n.val) / 2 ^ 2 % 2 = natOf ieee := by omega
    rw [bitOf, this]
    cases ieee <;> rfl
  have hs : Fin.ofNat 4 (natOf ieee * 4 + n) = n := Fin.ext (by simp only [Fin.val_ofNat]; omega)
  rw [SOp.encode, decode_crcWord rd rs1 rs2 (by omega), hb, hs]

theorem decode_encode_mix : SOp.decode (SOp.mix rd rs1 rs2).encode = some (.mix rd rs1 rs2) := decode_mixWord rd rs1 rs2

end Decode

/-! ### What an instruction of a thread that is ready gives -/

section Steps

variable {c : Instr} {s : State} {th : Thread} {i : SOp} {rd : Fin 32} {v : DWord}

/-- A command that issues an instruction computing a register writes that register. -/
theorem writes_of_compute (hx : exec c s = s.on fun d => d.issue th i) (hd : i.wf = true → SOp.decode i.encode = some i)
    (hc : i.compute (s.dev.tregs th) = some (rd, v)) : Writes c s th i rd v := by
  intro h
  have ⟨_, _, _, hwf, _, _⟩ := h
  rw [Gives, hx]
  exact h.on_compute (hd hwf) hc

/-- A command that issues another instruction has the effect of that instruction. -/
theorem gives_of_core (h : Ready s th i) (hx : exec c s = s.on fun d => d.issue th i) (hd : SOp.decode i.encode = some i)
    (hc : i.compute (s.dev.tregs th) = none) :
    Gives c s ((s.dev.issued th).coreInstr th (s.dev.issueSlot th) i.encode (s.dev.tpc th) i) := by
  rw [Gives, hx]
  exact h.on_core hd hc

variable {op : AluOp} {rs1 rs2 : Fin 32}

/-- A command that issues an ALU operation writes its result. -/
theorem writes_alu (hx : exec c s = s.on fun d => d.issue th (.alu op rd rs1 rs2))
    (hv : op.eval (gget (s.dev.tregs th) rs1) (gget (s.dev.tregs th) rs2) = v) : Writes c s th (.alu op rd rs1 rs2) rd v :=
  writes_of_compute hx (decode_encode_alu rd rs1 rs2 op) (congrArg (fun v => some (rd, v)) hv)

/-- A command that issues a shift by an immediate writes its result. -/
theorem writes_shi {k : Fin 4} {n : Fin 64} (hx : exec c s = s.on fun d => d.issue th (.shi k rd rs1 n))
    (hv : (shiOp k).eval (gget (s.dev.tregs th) rs1) (BitVec.ofNat 64 n.val) = v) : Writes c s th (.shi k rd rs1 n) rd v :=
  writes_of_compute hx (fun _ => decode_encode_shi rd rs1 k n) (congrArg (fun v => some (rd, v)) hv)

/-- A command that issues an immediate operation writes its result. -/
theorem writes_imm {op : ImmOp} {i : BitVec 16} (hx : exec c s = s.on fun d => d.issue th (.imm op rd rs1 i))
    (hv : op.eval (gget (s.dev.tregs th) rs1) i = v) : Writes c s th (.imm op rd rs1 i) rd v :=
  writes_of_compute hx (decode_encode_imm rd rs1 op i) (congrArg (fun v => some (rd, v)) hv)

end Steps

/-- A register's value is the word of its number. -/
theorem ofNat_toNat_self (a : DWord) : BitVec.ofNat 64 a.toNat = a := by
  rw [BitVec.ofNat_toNat, BitVec.setWidth_eq]

/-! ### Shifts and rotations as arithmetic (R307) -/

section Shifts

variable (a : DWord) (n : Nat)

theorem shiftLeft_eq_ofNat_mul : a <<< n = BitVec.ofNat 64 (a.toNat * 2 ^ n) := by
  apply BitVec.eq_of_toNat_eq
  rw [BitVec.toNat_shiftLeft, BitVec.toNat_ofNat, Nat.shiftLeft_eq]

theorem ushiftRight_eq_ofNat_div : a >>> n = BitVec.ofNat 64 (a.toNat / 2 ^ n) := by
  rw [← Nat.shiftRight_eq_div_pow, ← BitVec.toNat_ushiftRight, ofNat_toNat_self]

theorem sshiftRight_eq_ofInt_div : a.sshiftRight n = BitVec.ofInt 64 (a.toInt / 2 ^ n) := by
  rw [BitVec.sshiftRight, Int.shiftRight_eq_div_pow]
  norm_cast

/-- The bits that leave a value at the right come back at the left, where the others have left room. -/
theorem rotateRight_eq_ofNat (hn : n < 64) : a.rotateRight n = BitVec.ofNat 64 (a.toNat / 2 ^ n + a.toNat * 2 ^ (64 - n)) := by
  have hsplit : 2 ^ 64 = 2 ^ (64 - n) * 2 ^ n := by rw [← Nat.pow_add, Nat.sub_add_cancel (Nat.le_of_lt hn)]
  have hhigh : a.toNat * 2 ^ (64 - n) % 2 ^ 64 = 2 ^ (64 - n) * (a.toNat % 2 ^ n) := by
    rw [hsplit, Nat.mul_comm a.toNat, Nat.mul_mod_mul_left]
  have hlow : a.toNat / 2 ^ n < 2 ^ (64 - n) := by
    rw [Nat.div_lt_iff_lt_mul (Nat.two_pow_pos n), ← hsplit]
    exact a.isLt
  have hval : (a.rotateRight n).toNat = a.toNat / 2 ^ n + a.toNat * 2 ^ (64 - n) % 2 ^ 64 := by
    rw [BitVec.toNat_rotateRight, Nat.mod_eq_of_lt hn, Nat.shiftRight_eq_div_pow, Nat.shiftLeft_eq, hhigh, Nat.or_comm,
      ← Nat.two_pow_add_eq_or_of_lt hlow, Nat.add_comm]
  apply BitVec.eq_of_toNat_eq
  rw [BitVec.toNat_ofNat, ← Nat.add_mod_mod, ← hval, Nat.mod_eq_of_lt (a.rotateRight n).isLt]

end Shifts

/-! ### What the ALU operations compute (R307) -/

section Alu

variable (a b : DWord)

theorem aluEval_add : AluOp.add.eval a b = BitVec.ofNat 64 (a.toNat + b.toNat) := BitVec.add_def a b

theorem aluEval_sub : AluOp.sub.eval a b = BitVec.ofInt 64 (a.toInt - b.toInt) := by
  apply BitVec.eq_of_toInt_eq
  rw [BitVec.toInt_ofInt]
  exact BitVec.toInt_sub

theorem aluEval_sll : AluOp.sll.eval a b = BitVec.ofNat 64 (a.toNat * 2 ^ (b.toNat % 64)) := shiftLeft_eq_ofNat_mul a _

theorem aluEval_srl : AluOp.srl.eval a b = BitVec.ofNat 64 (a.toNat / 2 ^ (b.toNat % 64)) := ushiftRight_eq_ofNat_div a _

theorem aluEval_sra : AluOp.sra.eval a b = BitVec.ofInt 64 (a.toInt / 2 ^ (b.toNat % 64)) := sshiftRight_eq_ofInt_div a _

theorem aluEval_ror : AluOp.ror.eval a b =
    BitVec.ofNat 64 (a.toNat / 2 ^ (b.toNat % 64) + a.toNat * 2 ^ (64 - b.toNat % 64)) :=
  rotateRight_eq_ofNat a _ (Nat.mod_lt _ (by decide))

theorem aluEval_slt : AluOp.slt.eval a b = if a.toInt < b.toInt then 1 else 0 := by
  simp only [AluOp.eval, BitVec.slt_eq_decide, decide_eq_true_eq]

theorem aluEval_sltu : AluOp.sltu.eval a b = if a.toNat < b.toNat then 1 else 0 := by
  simp only [AluOp.eval, BitVec.ult_eq_decide, decide_eq_true_eq]

theorem aluEval_min : AluOp.min.eval a b = BitVec.ofInt 64 (min a.toInt b.toInt) := by
  simp only [AluOp.eval, BitVec.slt_eq_decide, decide_eq_true_eq]
  split
  · next h => rw [Int.min_eq_right (Int.le_of_lt h), BitVec.ofInt_toInt]
  · next h => rw [Int.min_eq_left (Int.not_lt.1 h), BitVec.ofInt_toInt]

theorem aluEval_max : AluOp.max.eval a b = BitVec.ofInt 64 (max a.toInt b.toInt) := by
  simp only [AluOp.eval, BitVec.slt_eq_decide, decide_eq_true_eq]
  split
  · next h => rw [Int.max_eq_right (Int.le_of_lt h), BitVec.ofInt_toInt]
  · next h => rw [Int.max_eq_left (Int.not_lt.1 h), BitVec.ofInt_toInt]

theorem aluEval_minu : AluOp.minu.eval a b = BitVec.ofNat 64 (min a.toNat b.toNat) := by
  simp only [AluOp.eval, BitVec.ult_eq_decide, decide_eq_true_eq]
  split
  · next h => rw [Nat.min_eq_right (Nat.le_of_lt h), ofNat_toNat_self]
  · next h => rw [Nat.min_eq_left (Nat.not_lt.1 h), ofNat_toNat_self]

theorem aluEval_maxu : AluOp.maxu.eval a b = BitVec.ofNat 64 (max a.toNat b.toNat) := by
  simp only [AluOp.eval, BitVec.ult_eq_decide, decide_eq_true_eq]
  split
  · next h => rw [Nat.max_eq_right (Nat.le_of_lt h), ofNat_toNat_self]
  · next h => rw [Nat.max_eq_left (Nat.not_lt.1 h), ofNat_toNat_self]

/-! ### Counts of bits and the reversal of bytes (R307) -/

theorem bitOf_eq_testBit (x i : Nat) : bitOf x i = x.testBit i := by
  rw [bitOf, Nat.testBit_eq_decide_div_mod_eq]
  rfl

theorem bitOf_toNat (i : Nat) : bitOf a.toNat i = a.getLsbD i := bitOf_eq_testBit a.toNat i

/-- The leading zeros are the index of the first set bit from the top. -/
theorem clz64_eq_find : clz64 a = ((List.range 64).find? fun i => a.getLsbD (63 - i)).getD 64 := by
  unfold clz64
  split
  · next h =>
    have hnone : (List.range 64).find? (fun i => a.getLsbD (63 - i)) = none := by
      rw [List.find?_range_eq_none, h]
      simp
    rw [hnone]
    rfl
  · next h =>
    have hne : a.toNat ≠ 0 := fun h0 => h (BitVec.eq_of_toNat_eq h0)
    have htop : a.toNat.log2 < 64 := (Nat.log2_lt hne).2 a.isLt
    have hfind : (List.range 64).find? (fun i => a.getLsbD (63 - i)) = some (63 - a.toNat.log2) := by
      rw [List.find?_range_eq_some]
      refine ⟨?_, List.mem_range.2 (by omega), fun j hj => ?_⟩
      · rw [show 63 - (63 - a.toNat.log2) = a.toNat.log2 by omega]
        exact Nat.testBit_log2 hne
      · have hzero : a.getLsbD (63 - j) = false :=
          Nat.testBit_lt_two_pow ((Nat.log2_lt hne).1 (by omega))
        rw [hzero]
        rfl
    rw [hfind]
    rfl

theorem ctz64_eq_find : ctz64 a = ((List.range 64).find? fun i => a.getLsbD i).getD 64 := by
  simp only [ctz64, bitOf_toNat]

theorem popc64_eq_countP : popc64 a = (List.range 64).countP fun i => a.getLsbD i := by
  simp only [popc64, bitOf_toNat, List.countP_eq_length_filter]

/-- Eight bytes, least significant first, read in wire order. -/
theorem beVal_leBytes_eight (x : Nat) : beVal (leBytes 8 x) = ((List.range 8).map fun i => x / 2 ^ (8 * i) % 256 * 2 ^ (56 - 8 * i)).sum := by
  simp only [leBytes, beVal, List.foldl_cons, List.foldl_nil, BitVec.toNat_ofNat, Nat.div_div_eq_div_mul]
  simp only [List.range_succ, List.range_zero, List.map_append, List.sum_append, List.map_cons, List.map_nil, List.sum_cons, List.sum_nil, List.nil_append,
    Nat.reducePow, Nat.reduceMul, Nat.reduceSub, Nat.div_one]
  omega

theorem bswap64_eq_sum : bswap64 a =
    BitVec.ofNat 64 (((List.range 8).map fun i => a.toNat / 2 ^ (8 * i) % 256 * 2 ^ (56 - 8 * i)).sum) := by
  rw [bswap64, beVal_leBytes_eight]

end Alu

/-! ### Products, quotients and remainders (R308) -/

section Division

/-- The quotient truncated toward zero and its remainder are the only ones whose remainder is short of the divisor and has the dividend's sign. -/
theorem tdiv_tmod_of_truncated {a b q r : Int} (hb : b ≠ 0) (h : a = q * b + r) (hr : r.natAbs < b.natAbs) (hp : 0 ≤ a → 0 ≤ r) (hn : a ≤ 0 → r ≤ 0) :
    a.tdiv b = q ∧ a.tmod b = r := by
  have he : r + b * q = a := by rw [h, Int.mul_comm q, Int.add_comm]
  by_cases ha : 0 ≤ a
  · exact (Int.tdiv_tmod_unique ha hb).2 ⟨he, hp ha, by omega⟩
  · have ha' : a ≤ 0 := by omega
    exact (Int.tdiv_tmod_unique' ha' hb).2 ⟨he, by omega, hn ha'⟩

variable {a b : DWord}

theorem aluEval_mul (a b : DWord) : AluOp.mul.eval a b = BitVec.ofInt 64 (a.toInt * b.toInt) := by
  rw [BitVec.ofInt_mul, BitVec.ofInt_toInt, BitVec.ofInt_toInt]
  rfl

theorem eq_zero_of_toInt (h : b.toInt = 0) : b = 0 := BitVec.eq_of_toInt_eq h

theorem ne_zero_of_toInt (hb : b.toInt ≠ 0) : b ≠ 0 := fun h => hb (by rw [h]; rfl)

/-- The one quotient that does not fit is −2^63 / −1. -/
theorem overflow_iff : a = BitVec.ofNat 64 (2 ^ 63) ∧ b = BitVec.allOnes 64 ↔ a.toInt = -2 ^ 63 ∧ b.toInt = -1 := by
  have hmin : (BitVec.ofNat 64 (2 ^ 63)).toInt = -2 ^ 63 := by decide
  have hone : (BitVec.allOnes 64).toInt = -1 := by decide
  rw [← BitVec.toInt_inj, hmin, ← BitVec.toInt_inj, hone]

theorem sdiv64_zero_of_nonneg (hb : b.toInt = 0) (ha : 0 ≤ a.toInt) : sdiv64 a b = BitVec.ofInt 64 (2 ^ 63 - 1) := by
  have hs : ¬ a.slt 0 := by rw [BitVec.slt_iff_toInt_lt]; exact Int.not_lt.2 ha
  rw [sdiv64, if_pos (eq_zero_of_toInt hb), if_neg hs]
  decide

theorem sdiv64_zero_of_neg (hb : b.toInt = 0) (ha : a.toInt < 0) : sdiv64 a b = BitVec.ofInt 64 (-2 ^ 63) := by
  have hs : a.slt 0 := BitVec.slt_iff_toInt_lt.2 ha
  rw [sdiv64, if_pos (eq_zero_of_toInt hb), if_pos hs]
  decide

theorem divide_overflow (h : a.toInt = -2 ^ 63 ∧ b.toInt = -1) : sdiv64 a b = BitVec.ofInt 64 (2 ^ 63 - 1) ∧ srem64 a b = 0 := by
  have hb : b ≠ 0 := ne_zero_of_toInt (by rw [h.2]; decide)
  rw [sdiv64, srem64, if_neg hb, if_neg hb, if_pos (overflow_iff.2 h), if_pos (overflow_iff.2 h)]
  exact ⟨by decide, rfl⟩

theorem divide_truncated {q r : Int} (hb : b.toInt ≠ 0) (ho : ¬ (a.toInt = -2 ^ 63 ∧ b.toInt = -1)) (h : a.toInt = q * b.toInt + r)
    (hr : r.natAbs < b.toInt.natAbs) (hp : 0 ≤ a.toInt → 0 ≤ r) (hn : a.toInt ≤ 0 → r ≤ 0) :
    sdiv64 a b = BitVec.ofInt 64 q ∧ srem64 a b = BitVec.ofInt 64 r := by
  obtain ⟨hq, hm⟩ := tdiv_tmod_of_truncated hb h hr hp hn
  have hb' := ne_zero_of_toInt hb
  rw [sdiv64, srem64, if_neg hb', if_neg hb', if_neg (mt overflow_iff.1 ho), if_neg (mt overflow_iff.1 ho), hq, hm]
  exact ⟨rfl, rfl⟩

theorem divideU (hb : b.toNat ≠ 0) : AluOp.divu.eval a b = BitVec.ofNat 64 (a.toNat / b.toNat) ∧ AluOp.remu.eval a b = BitVec.ofNat 64 (a.toNat % b.toNat) := by
  have hb' : b ≠ 0 := fun h => hb (by rw [h]; rfl)
  constructor
  · show (if b = 0 then _ else a / b) = _
    rw [if_neg hb', ← BitVec.toNat_udiv, ofNat_toNat_self]
  · show (if b = 0 then _ else a % b) = _
    rw [if_neg hb', ← BitVec.toNat_umod, ofNat_toNat_self]

end Division

/-! ### Immediate operations (R309) -/

section Immediates

variable (a : DWord) (i : BitVec 16)

theorem toInt_signExtend_imm : (i.signExtend 64).toInt = i.toInt := BitVec.toInt_signExtend_of_le (by decide)

theorem immEval_addi : ImmOp.addi.eval a i = BitVec.ofInt 64 (a.toInt + i.toInt) := by
  rw [BitVec.ofInt_add, BitVec.ofInt_toInt]
  rfl

theorem immEval_slti : ImmOp.slti.eval a i = if a.toInt < i.toInt then 1 else 0 := by
  simp only [ImmOp.eval, BitVec.slt_eq_decide, toInt_signExtend_imm, decide_eq_true_eq]

theorem immEval_sltiu : ImmOp.sltiu.eval a i = if a.toNat < (BitVec.ofInt 64 i.toInt).toNat then 1 else 0 := by
  simp only [ImmOp.eval, BitVec.ult_eq_decide, BitVec.signExtend, decide_eq_true_eq]

theorem zeroExtend_imm : i.zeroExtend 64 = BitVec.ofNat 64 i.toNat := (BitVec.ofNat_toNat 64 i).symm

theorem immEval_andi : ImmOp.andi.eval a i = a &&& BitVec.ofNat 64 i.toNat := congrArg (a &&& ·) (zeroExtend_imm i)

theorem immEval_ori : ImmOp.ori.eval a i = a ||| BitVec.ofNat 64 i.toNat := congrArg (a ||| ·) (zeroExtend_imm i)

theorem immEval_xori : ImmOp.xori.eval a i = a ^^^ BitVec.ofNat 64 i.toNat := congrArg (a ^^^ ·) (zeroExtend_imm i)

theorem immEval_lui : ImmOp.lui.eval a i = BitVec.ofInt 64 (i.toInt * 2 ^ 16) := by
  show i.signExtend 64 <<< 16 = _
  rw [BitVec.shiftLeft_eq_mul_twoPow, BitVec.ofInt_mul]
  rfl

theorem immEval_shori : ImmOp.shori.eval a i = BitVec.ofNat 64 (a.toNat * 2 ^ 16 + i.toNat) := by
  have hi := i.isLt
  have hmod : i.toNat % 2 ^ 64 = i.toNat := by omega
  have hhigh : a.toNat * 2 ^ 16 % 2 ^ 64 = 2 ^ 16 * (a.toNat % 2 ^ 48) := by omega
  apply BitVec.eq_of_toNat_eq
  show (a <<< 16 ||| i.zeroExtend 64).toNat = _
  rw [BitVec.toNat_or, BitVec.toNat_shiftLeft, Nat.shiftLeft_eq, BitVec.toNat_setWidth, hmod, hhigh, ← Nat.two_pow_add_eq_or_of_lt hi,
    BitVec.toNat_ofNat]
  omega

end Immediates

/-! ### Bitfields, CRC and MIX (R310, R311) -/

section Fields

variable (a old b : DWord) {lsb wm i : Nat}

theorem bitsOf_field (x : Nat) : bitsOf x (lsb + wm) lsb = x / 2 ^ lsb % 2 ^ (wm + 1) := by
  rw [bitsOf, show lsb + wm + 1 - lsb = wm + 1 by omega]

theorem testBit_field (x : Nat) : (x / 2 ^ lsb % 2 ^ (wm + 1)).testBit i = (decide (i ≤ wm) && x.testBit (lsb + i)) := by
  rw [Nat.testBit_mod_two_pow, Nat.testBit_div_two_pow, Nat.add_comm i]
  congr 2
  exact propext Nat.lt_succ_iff

/-- BFX bit by bit: the field's bits, then zeros or copies of its top bit. -/
theorem getLsbD_bfxEval (signed : Bool) (hw : wm < 64) (hi : i < 64) :
    (bfxEval signed a lsb wm).getLsbD i = if i ≤ wm then a.getLsbD (lsb + i) else signed && a.getLsbD (lsb + wm) := by
  have hlt : a.toNat / 2 ^ lsb % 2 ^ (wm + 1) < 2 ^ (wm + 1) := Nat.mod_lt _ (Nat.two_pow_pos _)
  have hones : 2 ^ 64 - 2 ^ (wm + 1) = 2 ^ (wm + 1) * (2 ^ (63 - wm) - 1) := by
    rw [Nat.mul_sub, ← Nat.pow_add, show wm + 1 + (63 - wm) = 64 by omega, Nat.mul_one]
  have htop : bitOf (a.toNat / 2 ^ lsb % 2 ^ (wm + 1)) wm = a.getLsbD (lsb + wm) := by
    rw [bitOf_eq_testBit, testBit_field, decide_eq_true (Nat.le_refl wm), Bool.true_and]
    rfl
  simp only [bfxEval, bitsOf_field, htop]
  cases hs : signed && a.getLsbD (lsb + wm) with
  | false =>
    rw [if_neg Bool.false_ne_true, BitVec.getLsbD_ofNat, testBit_field, decide_eq_true hi, Bool.true_and]
    by_cases h : i ≤ wm <;> simp [h, BitVec.getLsbD]
  | true =>
    rw [if_pos rfl, BitVec.getLsbD_ofNat, Nat.add_comm, hones, Nat.testBit_two_pow_mul_add _ hlt, testBit_field, Nat.testBit_two_pow_sub_one,
      decide_eq_true hi, Bool.true_and]
    by_cases h : i ≤ wm
    · rw [if_pos (Nat.lt_succ_of_le h), if_pos h, decide_eq_true h, Bool.true_and]
      rfl
    · rw [if_neg (by omega), if_neg h]
      exact decide_eq_true (by omega)

/-- A number with the field of `wm + 1` bits at `lsb` replaced, as its three parts. -/
theorem replace_field (x y : Nat) :
    x - x / 2 ^ lsb % 2 ^ (wm + 1) * 2 ^ lsb + y * 2 ^ lsb = 2 ^ lsb * (2 ^ (wm + 1) * (x / 2 ^ lsb / 2 ^ (wm + 1)) + y) + x % 2 ^ lsb := by
  have hx : x = 2 ^ lsb * (2 ^ (wm + 1) * (x / 2 ^ lsb / 2 ^ (wm + 1))) + x % 2 ^ lsb + x / 2 ^ lsb % 2 ^ (wm + 1) * 2 ^ lsb := by
    rw [Nat.mul_comm (x / 2 ^ lsb % _), Nat.add_right_comm, ← Nat.mul_add, Nat.div_add_mod, Nat.div_add_mod]
  rw [Nat.sub_eq_of_eq_add hx, Nat.mul_comm y, Nat.add_right_comm, ← Nat.mul_add]

/-- BFI bit by bit: the field's bits from the source, the others as they were. -/
theorem getLsbD_bfiEval (hi : i < 64) :
    (bfiEval old a lsb wm).getLsbD i = if lsb ≤ i ∧ i ≤ lsb + wm then a.getLsbD (i - lsb) else old.getLsbD i := by
  have hlow : old.toNat % 2 ^ lsb < 2 ^ lsb := Nat.mod_lt _ (Nat.two_pow_pos _)
  have hmid : a.toNat % 2 ^ (wm + 1) < 2 ^ (wm + 1) := Nat.mod_lt _ (Nat.two_pow_pos _)
  rw [bfiEval, bitsOf_field, replace_field, BitVec.getLsbD_ofNat, decide_eq_true hi, Bool.true_and, Nat.testBit_two_pow_mul_add _ hlow,
    Nat.testBit_two_pow_mul_add _ hmid, Nat.testBit_mod_two_pow, Nat.testBit_mod_two_pow, Nat.testBit_div_two_pow, Nat.testBit_div_two_pow]
  by_cases hl : i < lsb
  · rw [if_pos hl, if_neg (by omega), decide_eq_true hl, Bool.true_and]
    rfl
  · by_cases hu : i ≤ lsb + wm
    · have hin : i - lsb < wm + 1 := by omega
      rw [if_neg hl, if_pos hin, if_pos ⟨by omega, hu⟩, decide_eq_true hin, Bool.true_and]
      rfl
    · rw [if_neg hl, if_neg (by omega), if_neg (by omega), show i - lsb - (wm + 1) + (wm + 1) + lsb = i by omega]
      rfl

theorem mixEval_eq : mixEval a b =
    BitVec.ofNat 64 (((a ^^^ b) * 0x9E3779B97F4A7C15#64).toNat ^^^ ((a ^^^ b) * 0x9E3779B97F4A7C15#64).toNat / 2 ^ 29) := by
  rw [← Nat.shiftRight_eq_div_pow, ← BitVec.toNat_ushiftRight, ← BitVec.toNat_xor, ofNat_toNat_self]
  rfl

end Fields

/-! ### Branches and jumps (R313) -/

/-- The address an offset leads to is the pc plus four times the offset, modulo 2^64. -/
theorem jumpTo_eq (pc : Nat) (o : Int) : jumpTo pc o = (((pc : Int) + 4 * o) % 2 ^ 64).toNat := by
  rw [jumpTo, ← BitVec.ofInt_natCast, ← BitVec.ofInt_add, BitVec.toNat_ofInt]
  rfl

/-- The address of a register and an immediate, modulo 2^64. -/
theorem effAddr_eq (g : List DWord) (rs1 : Fin 32) (imm : BitVec 16) :
    (effAddr g rs1 imm : Int) = (((gget g rs1).toNat : Int) + imm.toInt) % 2 ^ 64 := by
  have ha : gget g rs1 = BitVec.ofInt 64 (gget g rs1).toNat := by rw [BitVec.ofInt_natCast, ofNat_toNat_self]
  have hi : imm.signExtend 64 = BitVec.ofInt 64 imm.toInt := rfl
  have he : effAddr g rs1 imm = (BitVec.ofInt 64 (gget g rs1).toNat + BitVec.ofInt 64 imm.toInt).toNat := by rw [← ha, ← hi, effAddr]
  rw [he, ← BitVec.ofInt_add, BitVec.toNat_ofInt]
  exact Int.toNat_of_nonneg (Int.emod_nonneg _ (by decide))

section Branches

variable {c : Instr} {s : State} {th : Thread} {rs1 rs2 : Fin 32} {offset : BitVec 16}

/-- A branch goes to its target where its condition holds, and on otherwise. -/
theorem gives_branch {op : BranchOp} {taken : Prop} (hx : exec c s = s.on fun d => d.issue th (.branch op rs1 rs2 offset))
    (ht : op.holds (gget (s.dev.tregs th) rs1) (gget (s.dev.tregs th) rs2) = true ↔ taken) (h : Ready s th (.branch op rs1 rs2 offset)) :
    (taken → Gives c s ((s.dev.issued th).leave th 0 0 (((s.dev.tpc th : Int) + 4 * offset.toInt) % 2 ^ 64).toNat)) ∧
    (¬ taken → Gives c s ((s.dev.issued th).leave th 0 0 (s.dev.tpc th + 4))) := by
  have hg := gives_of_core h hx (decode_encode_branch rs1 rs2 op offset) rfl
  rw [Dev.coreInstr_branch, h.tregs, jumpTo_eq] at hg
  constructor
  · intro hp
    rwa [if_pos (ht.2 hp)] at hg
  · intro hp
    rwa [if_neg (mt ht.1 hp)] at hg

end Branches

theorem BranchOp.holds_eq (a b : DWord) : BranchOp.eq.holds a b = true ↔ a = b := beq_iff_eq
theorem BranchOp.holds_ne (a b : DWord) : BranchOp.ne.holds a b = true ↔ a ≠ b := bne_iff_ne
theorem BranchOp.holds_lt (a b : DWord) : BranchOp.lt.holds a b = true ↔ a.toInt < b.toInt := BitVec.slt_iff_toInt_lt
theorem BranchOp.holds_ltu (a b : DWord) : BranchOp.ltu.holds a b = true ↔ a.toNat < b.toNat := BitVec.ult_iff_lt
theorem BranchOp.holds_ge (a b : DWord) : BranchOp.ge.holds a b = true ↔ b.toInt ≤ a.toInt := by
  rw [BranchOp.holds, BitVec.slt_eq_decide, Bool.not_eq_true', decide_eq_false_iff_not, Int.not_lt]
theorem BranchOp.holds_geu (a b : DWord) : BranchOp.geu.holds a b = true ↔ b.toNat ≤ a.toNat := by
  rw [BranchOp.holds, BitVec.ult_eq_decide, Bool.not_eq_true', decide_eq_false_iff_not, Nat.not_lt]

/-! ### Words and functs as the statements write them -/

section Words

variable {rd rs1 rs2 : Fin 32}

/-- The words of format A as the statements write them. -/
theorem wordA_eq_pow {major funct : Nat} : major * 2 ^ 26 + rd.val * 2 ^ 21 + rs1.val * 2 ^ 16 + rs2.val * 2 ^ 11 + funct = wordA major rd rs1 rs2 funct := rfl

/-- The words of format I as the statements write them. -/
theorem wordI_eq_pow {major imm : Nat} : major * 2 ^ 26 + rd.val * 2 ^ 21 + rs1.val * 2 ^ 16 + imm = wordI major rd rs1 imm := rfl

/-- The words of major opcode 0x00 as the statements write them. -/
theorem wordA_zero_eq_pow {funct : Nat} : rd.val * 2 ^ 21 + rs1.val * 2 ^ 16 + rs2.val * 2 ^ 11 + funct = wordA 0 rd rs1 rs2 funct := by
  rw [← wordA_eq_pow, Nat.zero_mul, Nat.zero_add]

end Words

/-- The functs of the ALU group's operations, and whether they are unary. -/
theorem aluOf_binary : ∀ p ∈ [(0, AluOp.add), (1, .sub), (2, .and), (3, .or), (4, .xor), (5, .andn), (6, .sll), (7, .srl), (8, .sra), (9, .ror), (10, .slt), (11, .sltu),
    (12, .min), (13, .max), (14, .minu), (15, .maxu)], p.1 < 2048 ∧ aluOf p.1 = some p.2 ∧ p.2.unary = false := by decide

theorem aluOf_unary : ∀ p ∈ [(16, AluOp.clz), (17, .ctz), (18, .popc), (19, .bswap)], p.1 < 2048 ∧ aluOf p.1 = some p.2 ∧ p.2.unary = true := by decide

/-! ### The statements of chapter 11 about arithmetic and flow -/

/-- Settles O27: a taken branch or jump goes to its own address plus four times the offset; JALR goes to its target, or traps where that is not aligned. -/
theorem branchesAndJumps : Obligations.BranchesAndJumps := by
  intro s th rs1 rs2 rd offset imm far a b pc goes link t
  refine ⟨fun c op taken hrow => ?_, fun h => ?_, fun h => ?_, fun h => ?_⟩
  · simp only [List.mem_cons, Prod.mk.injEq, List.not_mem_nil, or_false] at hrow
    rcases hrow with ⟨rfl, rfl, rfl⟩ | ⟨rfl, rfl, rfl⟩ | ⟨rfl, rfl, rfl⟩ | ⟨rfl, rfl, rfl⟩ | ⟨rfl, rfl, rfl⟩ | ⟨rfl, rfl, rfl⟩
    · exact gives_branch rfl (BranchOp.holds_eq a b)
    · exact gives_branch rfl (BranchOp.holds_ne a b)
    · exact gives_branch rfl (BranchOp.holds_lt a b)
    · exact gives_branch rfl (BranchOp.holds_ge a b)
    · exact gives_branch rfl (BranchOp.holds_ltu a b)
    · exact gives_branch rfl (BranchOp.holds_geu a b)
  · have hg := gives_of_core h (c := .j th far) rfl (decode_encode_jump far) rfl
    rwa [Dev.coreInstr_jump, jumpTo_eq] at hg
  · have hg := gives_of_core h (c := .jal th far) rfl (decode_encode_jal far) rfl
    rwa [Dev.coreInstr_jal, jumpTo_eq] at hg
  · have ha : (effAddr (s.dev.tregs th) rs1 imm : Int) = t := effAddr_eq _ _ _
    have hg := gives_of_core h (c := .jalr th rd rs1 imm) rfl (decode_encode_jalr rd rs1 imm) rfl
    rw [Dev.coreInstr_jalr, h.tregs] at hg
    refine ⟨fun h4 => ?_, fun h4 => ?_⟩
    · rw [if_neg (by omega)] at hg
      rwa [← ha]
    · rw [if_pos (by omega)] at hg
      rwa [← ha, BitVec.ofInt_natCast]

/-- Settles O23: each operation's result is its arithmetic on the operands as numbers, and the funct of a word selects the operation. -/
theorem aluInstructions : Obligations.AluInstructions := by
  intro s th rd rs1 rs2 amount a b n m
  have hm : (BitVec.ofNat 64 amount.val).toNat % 64 = m := by rw [BitVec.toNat_ofNat]; omega
  refine ⟨writes_alu rfl (aluEval_add a b), writes_alu rfl (aluEval_sub a b), writes_alu rfl rfl, writes_alu rfl rfl, writes_alu rfl rfl, writes_alu rfl rfl,
    writes_alu rfl (aluEval_sll a b), writes_alu rfl (aluEval_srl a b), writes_alu rfl (aluEval_sra a b), writes_alu rfl (aluEval_ror a b),
    writes_alu rfl (aluEval_slt a b), writes_alu rfl (aluEval_sltu a b), writes_alu rfl (aluEval_min a b), writes_alu rfl (aluEval_max a b),
    writes_alu rfl (aluEval_minu a b), writes_alu rfl (aluEval_maxu a b),
    writes_alu rfl (congrArg (BitVec.ofNat 64) (clz64_eq_find a)), writes_alu rfl (congrArg (BitVec.ofNat 64) (ctz64_eq_find a)),
    writes_alu rfl (congrArg (BitVec.ofNat 64) (popc64_eq_countP a)),
    writes_alu rfl (bswap64_eq_sum a),
    writes_shi rfl (hm ▸ aluEval_sll a _), writes_shi rfl (hm ▸ aluEval_srl a _), writes_shi rfl (hm ▸ aluEval_sra a _), writes_shi rfl (hm ▸ aluEval_ror a _),
    fun funct op h => ?_, fun funct op h => ?_⟩
  · obtain ⟨hf, ho, hu⟩ := aluOf_binary _ h
    rw [wordA_zero_eq_pow, decode_aluWord rd rs1 rs2 hf, ho, Option.bind_some, hu]
    rfl
  · obtain ⟨hf, ho, hu⟩ := aluOf_unary _ h
    rw [wordA_zero_eq_pow, decode_aluWord rd rs1 rs2 hf, ho, Option.bind_some, hu, guardOp]
    by_cases h0 : rs2 = 0
    · subst h0
      rfl
    · rw [if_neg h0, if_neg (by simpa using h0)]

/-- Settles O24: the quotient and the remainder of the model are the truncated ones, which the division's equation determines. -/
theorem multiplyAndDivide : Obligations.MultiplyAndDivide := by
  intro s th rd rs1 rs2 a b big
  refine ⟨writes_alu rfl (aluEval_mul a b), writes_alu rfl rfl, writes_alu rfl rfl, fun hb ha => ?_, fun hb ha => ?_, fun hb => ?_, fun h => ?_,
    fun hb ho q r h hr hp hn => ?_, fun hb => ?_⟩
  · exact writes_alu rfl (sdiv64_zero_of_nonneg hb ha)
  · exact writes_alu rfl (sdiv64_zero_of_neg hb ha)
  · have h0 := eq_zero_of_toInt hb
    exact ⟨writes_alu rfl (if_pos h0), writes_alu rfl (if_pos h0), writes_alu rfl (if_pos h0)⟩
  · obtain ⟨hq, hr⟩ := divide_overflow h
    exact ⟨writes_alu rfl hq, writes_alu rfl hr⟩
  · obtain ⟨hq, hr⟩ := divide_truncated hb ho h hr hp hn
    exact ⟨writes_alu rfl hq, writes_alu rfl hr⟩
  · obtain ⟨hq, hr⟩ := divideU hb
    exact ⟨writes_alu rfl hq, writes_alu rfl hr⟩

/-- Settles O25: each immediate operation's result is its arithmetic on the operands as numbers. -/
theorem immediateInstructions : Obligations.ImmediateInstructions := by
  intro s th rd rs1 imm a sx zx
  exact ⟨writes_imm rfl (immEval_addi a imm), writes_imm rfl (immEval_slti a imm), writes_imm rfl (immEval_sltiu a imm),
    writes_imm rfl (immEval_andi a imm), writes_imm rfl (immEval_ori a imm), writes_imm rfl (immEval_xori a imm),
    writes_imm rfl (immEval_lui _ imm), writes_imm rfl (immEval_shori a imm)⟩

/-- Settles O26: bitfields bit by bit, and the words of majors 0x2D and 0x2E by their low halves. -/
theorem bitfieldAndCheckInstructions : Obligations.BitfieldAndCheckInstructions := by
  intro s th rd rs1 rs2 lsb wm ieee size a b old m
  refine ⟨fun signed x hx => ?_, fun x hx => ?_, writes_of_compute rfl (fun _ => decode_encode_crc rd rs1 rs2 ieee size) rfl,
    writes_of_compute rfl (fun _ => decode_encode_mix rd rs1 rs2) (congrArg (fun v => some (rd, v)) (mixEval_eq a b)),
    fun imm hi => ?_, fun funct hf => ?_, wordA_eq_pow ▸ decode_mixWord rd rs1 rs2⟩
  · have hv : bfxEval signed a lsb.val wm.val = x :=
      BitVec.eq_of_getLsbD_eq fun i hi => (getLsbD_bfxEval a signed wm.isLt hi).trans (hx ⟨i, hi⟩).symm
    exact writes_of_compute rfl (decode_encode_bfx rd rs1 signed lsb wm) (congrArg (fun v => some (rd, v)) hv)
  · have hv : bfiEval old a lsb.val wm.val = x :=
      BitVec.eq_of_getLsbD_eq fun i hi => (getLsbD_bfiEval a old hi).trans (hx ⟨i, hi⟩).symm
    exact writes_of_compute rfl (decode_encode_bfi rd rs1 lsb wm) (congrArg (fun v => some (rd, v)) hv)
  · intro word at_ width
    have hw : word = wordI 0x2D rd rs1 imm := wordI_eq_pow
    have hwm : Fin.ofNat 64 (imm / 16) = Fin.ofNat 64 (width - 1) := Fin.ext (by simp only [Fin.val_ofNat]; omega)
    have hb : bitOf imm 3 = (imm / 8 % 2 == 1) := rfl
    rw [hw]
    refine ⟨fun h hle => ?_, fun h hle => ?_, fun h => ?_⟩
    · rw [decode_bfxWord rd rs1 hi h, guardOp, if_pos (decide_eq_true (by omega)), hwm, hb]
    · have h3 : imm / 8 % 2 = 0 := by omega
      rw [decode_bfiWord rd rs1 hi (by omega), hb, h3, decide_eq_true (by omega), hwm]
      rfl
    · exact decode_fieldWord_none rd rs1 hi h
  · have hb : bitOf funct 2 = (funct / 4 == 1) := by
      have : funct / 2 ^ 2 % 2 = funct / 4 := by omega
      rw [bitOf, this]
    rw [wordA_eq_pow, decode_crcWord rd rs1 rs2 hf, hb]

end Sys2Proof.Machine

/-! PROOFS. Stavte's words (chapter 11): decoding is the inverse of encoding, both ways. -/

namespace Sys2Proof.Machine

open Sys2Proof

/-! ### The other majors (R306) -/

section HighMajors

variable (w : Nat)

theorem decodeLow_load (op : LoadOp) : decodeLow op.major w = some (.load op (fRd w) (fRs1 w) (BitVec.ofNat 16 w)) := by
  cases op <;> rfl
theorem decodeLow_store (op : StoreOp) : decodeLow op.major w = some (.store op (fRd w) (fRs1 w) (BitVec.ofNat 16 w)) := by
  cases op <;> rfl
theorem decodeHigh_atomic : decodeHigh 0x2C w = decodeAtomic w := rfl
theorem decodeHigh_fence : decodeHigh 0x30 w = guardOp (decide (w % 67108864 < 32)) (.fence (Fin.ofNat 32 w)) := rfl
theorem decodeHigh_thread : decodeHigh 0x31 w = decodeThread w := rfl
theorem decodeHigh_chin : decodeHigh 0x32 w = guardOp (decide (w % 65536 = 0)) (.chin (fRd w) (fRs1 w)) := rfl
theorem decodeHigh_chout : decodeHigh 0x33 w = guardOp (decide (w % 65536 = 0)) (.chout (fRd w) (fRs1 w)) := rfl
theorem decodeHigh_chtest : decodeHigh 0x34 w = guardOp (decide (w % 65536 < 2)) (.chtest (bitOf w 0) (fRd w) (fRs1 w)) := rfl
theorem decodeHigh_pkt : decodeHigh 0x38 w = decodePkt w := rfl
theorem decodeHigh_table : decodeHigh 0x39 w = decodeTable w := rfl
theorem decodeHigh_prim :
    decodeHigh 0x3A w = guardOp (fRd w == 0 && decide (w % 65536 < 256)) (.prim (fRs1 w) (Fin.ofNat 256 w)) := rfl
theorem decodeHigh_csrr :
    decodeHigh 0x3C w = guardOp (fRs1 w == 0 && decide (w % 65536 < 4096)) (.csrr (fRd w) (Fin.ofNat 4096 w)) := rfl
theorem decodeHigh_csrw :
    decodeHigh 0x3D w = guardOp (fRd w == 0 && decide (w % 65536 < 4096)) (.csrw (fRs1 w) (Fin.ofNat 4096 w)) := rfl
theorem decodeHigh_sys : decodeHigh 0x3E w = decodeSys w := rfl

end HighMajors

/-- A word of format X is one of format I whose low half holds the sub-operation, the size and the argument. -/
theorem wordX_eq_wordI (major rd rs1 xsub xsz xarg : Nat) : wordX major rd rs1 xsub xsz xarg = wordI major rd rs1 (xsub * 4096 + xsz * 1024 + xarg) := by
  unfold wordX wordI
  omega

theorem natOf_lt_two (b : Bool) : natOf b < 2 := by cases b <;> decide

/-- Bit `i` of a number whose quotient by 2^i has a flag's parity is the flag. -/
theorem bitOf_of_div {x i : Nat} {b : Bool} (h : x / 2 ^ i % 2 = natOf b) : bitOf x i = b := by
  rw [bitOf, h]
  cases b <;> rfl

/-! ### Decode of encode (R304 to R306) -/

section Decode

variable (rd rs1 rs2 : Fin 32)

/-- A low half's size and argument, in format X. -/
theorem size_wordI {major sub : Nat} (sz : Fin 4) {arg : Nat} (ha : arg < 1024) :
    Fin.ofNat 4 (wordI major rd rs1 (sub * 4096 + sz * 1024 + arg) / 1024) = sz := by
  apply Fin.ext
  show _ % 4 = _
  unfold wordI
  omega

theorem sub_wordI {major sub : Nat} (sz : Fin 4) {arg : Nat} (hs : sub < 16) (ha : arg < 1024) :
    wordI major rd rs1 (sub * 4096 + sz * 1024 + arg) / 4096 % 16 = sub := by
  unfold wordI
  omega

/-- The low bits of a word as a number below `n`, which divides the low half. -/
theorem low_wordI {major n : Nat} [NeZero n] {imm : Nat} (x : Fin n) (hn : n ∣ 65536) (hx : imm % n = x) : Fin.ofNat n (wordI major rd rs1 imm) = x := by
  apply Fin.ext
  obtain ⟨m, hm⟩ := hn
  have hw : wordI major rd rs1 imm = imm + n * (m * (major * 1024 + rd * 32 + rs1)) := by
    rw [← Nat.mul_assoc, ← hm, wordI]
    omega
  rw [Fin.val_ofNat, hw, Nat.add_mul_mod_self_left, hx]

theorem decode_encode_load (op : LoadOp) (i : BitVec 16) : SOp.decode (SOp.load op rd rs1 i).encode = some (.load op rd rs1 i) := by
  have hm : op.major < 32 := by cases op <;> decide
  rw [SOp.encode, decode_wordI_low rd rs1 hm i.isLt, decodeLow_load, fRd_wordI rd rs1 i.isLt, fRs1_wordI rd rs1 i.isLt, ofNat_wordI]

theorem decode_encode_store (op : StoreOp) (i : BitVec 16) : SOp.decode (SOp.store op rd rs1 i).encode = some (.store op rd rs1 i) := by
  have hm : op.major < 32 := by cases op <;> decide
  rw [SOp.encode, decode_wordI_low rd rs1 hm i.isLt, decodeLow_store, fRd_wordI rd rs1 i.isLt, fRs1_wordI rd rs1 i.isLt, ofNat_wordI]

/-- A word of major opcode 0x2C: bits 5, 4 and 3 of its funct are ACQ, REL and the size (R314). -/
theorem decode_encode_atomic (op : AtomicOp) (wd acq rel : Bool) :
    SOp.decode (SOp.atomic op wd acq rel rd rs1 rs2).encode = some (.atomic op wd acq rel rd rs1 rs2) := by
  have ha := natOf_lt_two acq
  have hr := natOf_lt_two rel
  have hw := natOf_lt_two wd
  have hc : op.code < 3 := by cases op <;> decide
  have hf : natOf acq * 32 + natOf rel * 16 + natOf wd * 8 + op.code < 64 := by omega
  have h3 : bitOf (natOf acq * 32 + natOf rel * 16 + natOf wd * 8 + op.code) 3 = wd := bitOf_of_div (by omega)
  have h4 : bitOf (natOf acq * 32 + natOf rel * 16 + natOf wd * 8 + op.code) 4 = rel := bitOf_of_div (by omega)
  have h5 : bitOf (natOf acq * 32 + natOf rel * 16 + natOf wd * 8 + op.code) 5 = acq := bitOf_of_div (by omega)
  have h8 : (natOf acq * 32 + natOf rel * 16 + natOf wd * 8 + op.code) % 8 = op.code := by omega
  rw [SOp.encode, wordA_eq_wordI, decode_wordI_high rd rs1 (by decide) (by decide) (by omega), decodeHigh_atomic, decodeAtomic, wordI_mod_funct,
    Nat.mod_eq_of_lt (by omega : _ < 2048), fRd_wordI rd rs1 (by omega), fRs1_wordI rd rs1 (by omega), fRs2_wordI rd rs1 rs2 (by omega)]
  simp only [h3, h4, h5, h8, hf]
  cases op <;> rfl

theorem decode_encode_fence (b : Fin 32) : SOp.decode (SOp.fence b).encode = some (.fence b) := by
  have hb : Fin.ofNat 32 (wordI 0x30 0 0 b) = b := low_wordI 0 0 b (by decide) (Nat.mod_eq_of_lt b.isLt)
  have hg : wordI 0x30 0 0 b % 67108864 < 32 := by unfold wordI; omega
  have hd := decode_wordI_high 0 0 (major := 0x30) (by decide) (by decide) (by omega : b.val < 65536)
  rw [SOp.encode]
  refine hd.trans ?_
  rw [decodeHigh_fence]
  show guardOp (decide (wordI 0x30 0 0 b % 67108864 < 32)) (.fence (Fin.ofNat 32 (wordI 0x30 0 0 b))) = _
  rw [hb]
  exact if_pos (decide_eq_true hg)

/-- A word of major opcode 0x31 is decoded by its funct (R316). -/
theorem decode_threadWord {funct : Nat} (hf : funct < 2048) : SOp.decode (wordA 0x31 rd rs1 rs2 funct) = decodeThread (wordA 0x31 rd rs1 rs2 funct) := by
  rw [wordA_eq_wordI, decode_wordI_high rd rs1 (by decide) (by decide) (by omega), decodeHigh_thread]

theorem decode_encode_fork : SOp.decode (SOp.fork rd rs1 rs2).encode = some (.fork rd rs1 rs2) := by
  have hi : rs2.val * 2048 + 0 < 65536 := by omega
  rw [SOp.encode, decode_threadWord rd rs1 rs2 (by decide), wordA_eq_wordI]
  simp only [decodeThread, wordI_mod_funct, Nat.zero_mod, fRd_wordI rd rs1 hi, fRs1_wordI rd rs1 hi, fRs2_wordI rd rs1 rs2 (by decide : 0 < 2048)]

theorem decode_encode_join : SOp.decode (SOp.join rd rs1).encode = some (.join rd rs1) := by
  have hi : 0 * 2048 + 1 < 65536 := by decide
  have h2 : fRs2 (wordI 0x31 rd rs1 (0 * 2048 + 1)) = 0 := fRs2_wordI rd rs1 0 (by decide)
  refine (decode_threadWord rd rs1 0 (by decide)).trans ?_
  rw [wordA_eq_wordI]
  simp only [decodeThread, Fin.val_zero, wordI_mod_funct, Nat.reduceMod, fRd_wordI rd rs1 hi, fRs1_wordI rd rs1 hi, h2]
  rfl

theorem decode_encode_quit : SOp.decode (SOp.quit rs1).encode = some (.quit rs1) := by
  have hi : 0 * 2048 + 2 < 65536 := by decide
  have hf : wordI 0x31 0 rs1 (0 * 2048 + 2) % 2048 = 2 := wordI_mod_funct 0 rs1 0
  have hd : fRd (wordI 0x31 0 rs1 (0 * 2048 + 2)) = 0 := fRd_wordI 0 rs1 hi
  have h1 : fRs1 (wordI 0x31 0 rs1 (0 * 2048 + 2)) = rs1 := fRs1_wordI 0 rs1 hi
  have h2 : fRs2 (wordI 0x31 0 rs1 (0 * 2048 + 2)) = 0 := fRs2_wordI 0 rs1 0 (by decide)
  refine (decode_threadWord 0 rs1 0 (by decide)).trans ?_
  rw [wordA_eq_wordI]
  simp only [decodeThread, Fin.val_zero, hf, hd, h1, h2]
  rfl

theorem decode_encode_chin : SOp.decode (SOp.chin rd rs1).encode = some (.chin rd rs1) := by
  rw [SOp.encode, decode_wordI_high rd rs1 (by decide) (by decide) (by decide), decodeHigh_chin, fRd_wordI rd rs1 (by decide), fRs1_wordI rd rs1 (by decide)]
  exact if_pos (decide_eq_true (wordI_mod rd rs1 (by decide)))

theorem decode_encode_chout : SOp.decode (SOp.chout rd rs1).encode = some (.chout rd rs1) := by
  rw [SOp.encode, decode_wordI_high rd rs1 (by decide) (by decide) (by decide), decodeHigh_chout, fRd_wordI rd rs1 (by decide), fRs1_wordI rd rs1 (by decide)]
  exact if_pos (decide_eq_true (wordI_mod rd rs1 (by decide)))

theorem decode_encode_chtest (room : Bool) : SOp.decode (SOp.chtest room rd rs1).encode = some (.chtest room rd rs1) := by
  have hr := natOf_lt_two room
  have hi : natOf room < 65536 := by omega
  have hb : bitOf (wordI 0x34 rd rs1 (natOf room)) 0 = room := bitOf_of_div (by unfold wordI; omega)
  rw [SOp.encode, decode_wordI_high rd rs1 (by decide) (by decide) hi, decodeHigh_chtest, fRd_wordI rd rs1 hi, fRs1_wordI rd rs1 hi, wordI_mod rd rs1 hi, hb]
  exact if_pos (decide_eq_true hr)

/-- A word of major opcode 0x38 is decoded by its sub-operation (R319). -/
theorem decode_pktWord {sub : Nat} (hs : sub < 16) (sz : Fin 4) (arg : Fin 1024) :
    SOp.decode (wordX 0x38 rd rs1 sub sz arg) = decodePkt (wordI 0x38 rd rs1 (sub * 4096 + sz * 1024 + arg)) := by
  rw [wordX_eq_wordI, decode_wordI_high rd rs1 (by decide) (by decide) (by omega), decodeHigh_pkt]

theorem arg_wordI {major sub : Nat} (sz : Fin 4) (arg : Fin 1024) : Fin.ofNat 1024 (wordI major rd rs1 (sub * 4096 + sz * 1024 + arg)) = arg :=
  low_wordI rd rs1 arg (by decide) (by omega)

theorem decode_encode_pktld (sz : Fin 4) (o : Fin 1024) : SOp.decode (SOp.pktld sz rd rs1 o).encode = some (.pktld sz rd rs1 o) := by
  have hi : 0 * 4096 + sz.val * 1024 + o.val < 65536 := by omega
  rw [SOp.encode, decode_pktWord rd rs1 (by decide)]
  simp only [decodePkt, sub_wordI rd rs1 sz (by decide : 0 < 16) o.isLt, size_wordI rd rs1 sz o.isLt, arg_wordI, fRd_wordI rd rs1 hi, fRs1_wordI rd rs1 hi]

theorem decode_encode_pktst (sz : Fin 4) (o : Fin 1024) : SOp.decode (SOp.pktst sz rd rs1 o).encode = some (.pktst sz rd rs1 o) := by
  have hi : 2 * 4096 + sz.val * 1024 + o.val < 65536 := by omega
  rw [SOp.encode, decode_pktWord rd rs1 (by decide)]
  simp only [decodePkt, sub_wordI rd rs1 sz (by decide : 2 < 16) o.isLt, size_wordI rd rs1 sz o.isLt, arg_wordI, fRd_wordI rd rs1 hi, fRs1_wordI rd rs1 hi]

theorem decode_encode_pktldm (sz : Fin 4) (b : Fin 64) : SOp.decode (SOp.pktldm sz rd b).encode = some (.pktldm sz rd b) := by
  have hi : 1 * 4096 + sz.val * 1024 + b.val < 65536 := by omega
  have h1 : fRs1 (wordI 0x38 rd 0 (1 * 4096 + sz * 1024 + b)) = 0 := fRs1_wordI rd 0 hi
  have harg : (Fin.ofNat 1024 (wordI 0x38 rd 0 (1 * 4096 + sz * 1024 + b))).val = b := congrArg Fin.val (arg_wordI rd 0 sz ⟨b, by omega⟩)
  have hb : Fin.ofNat 64 (wordI 0x38 rd 0 (1 * 4096 + sz * 1024 + b)) = b := low_wordI rd 0 b (by decide) (by omega)
  have hd : fRd (wordI 0x38 rd 0 (1 * 4096 + sz * 1024 + b)) = rd := fRd_wordI rd 0 hi
  have hz : Fin.ofNat 4 (wordI 0x38 rd 0 (1 * 4096 + sz * 1024 + b) / 1024) = sz := size_wordI rd 0 sz (by omega)
  have hs : wordI 0x38 rd 0 (1 * 4096 + sz * 1024 + b) / 4096 % 16 = 1 := sub_wordI rd 0 sz (by decide) (by omega)
  refine (decode_pktWord rd 0 (by decide) sz ⟨b, by omega⟩).trans ?_
  simp only [decodePkt, Fin.val_zero, hs, hz, harg, hb, hd, h1]
  exact if_pos (decide_eq_true b.isLt)

theorem decode_encode_pktstm (sz : Fin 4) (o : Fin 1024) : SOp.decode (SOp.pktstm sz rd o).encode = some (.pktstm sz rd o) := by
  have hi : 3 * 4096 + sz.val * 1024 + o.val < 65536 := by omega
  refine (decode_pktWord rd 0 (by decide) sz o).trans ?_
  simp only [decodePkt, sub_wordI rd 0 sz (by decide : 3 < 16) o.isLt, size_wordI rd 0 sz o.isLt, arg_wordI, fRd_wordI rd 0 hi, fRs1_wordI rd 0 hi]
  rfl

theorem decode_encode_pktlay (o : Fin 1024) : SOp.decode (SOp.pktlay rd o).encode = some (.pktlay rd o) := by
  have hi : 4 * 4096 + (0 : Fin 4).val * 1024 + o.val < 65536 := by have := o.isLt; simp only [Fin.val_zero]; omega
  refine (decode_pktWord rd 0 (by decide) 0 o).trans ?_
  simp only [decodePkt, sub_wordI rd 0 0 (by decide : 4 < 16) o.isLt, size_wordI rd 0 0 o.isLt, arg_wordI, fRd_wordI rd 0 hi, fRs1_wordI rd 0 hi]
  rfl

theorem decode_encode_pktend (op : PktEnd) : SOp.decode (SOp.pktend op).encode = some (.pktend op) := by
  cases op <;> decide

theorem decode_encode_table (op : TblOp) (t : Fin 64) : SOp.decode (SOp.table op rs1 t).encode = some (.table op rs1 t) := by
  have hs : op.xsub < 3 := by cases op <;> decide
  have hi : op.xsub * 4096 + t.val < 65536 := by omega
  have ht : Fin.ofNat 64 (wordI 0x39 0 rs1 (op.xsub * 4096 + t)) = t := low_wordI 0 rs1 t (by decide) (by omega)
  have hsub : wordI 0x39 0 rs1 (op.xsub * 4096 + t) / 4096 % 16 = op.xsub := by unfold wordI; omega
  have hlow : wordI 0x39 0 rs1 (op.xsub * 4096 + t) % 4096 = t := by unfold wordI; omega
  have hd : fRd (wordI 0x39 0 rs1 (op.xsub * 4096 + t)) = 0 := fRd_wordI 0 rs1 hi
  have h1 : fRs1 (wordI 0x39 0 rs1 (op.xsub * 4096 + t)) = rs1 := fRs1_wordI 0 rs1 hi
  rw [SOp.encode, wordX_eq_wordI, Nat.zero_mul, Nat.add_zero]
  refine (decode_wordI_high 0 rs1 (major := 0x39) (by decide) (by decide) hi).trans ?_
  rw [decodeHigh_table, Fin.val_zero]
  simp only [decodeTable, hsub, hlow, hd, h1, ht, t.isLt]
  cases op <;> rfl

theorem decode_encode_prim (c : Fin 256) : SOp.decode (SOp.prim rs1 c).encode = some (.prim rs1 c) := by
  have hi : c.val < 65536 := by omega
  have hc : Fin.ofNat 256 (wordI 0x3A 0 rs1 c) = c := low_wordI 0 rs1 c (by decide) (by omega)
  have hd : fRd (wordI 0x3A 0 rs1 c) = 0 := fRd_wordI 0 rs1 hi
  have h1 : fRs1 (wordI 0x3A 0 rs1 c) = rs1 := fRs1_wordI 0 rs1 hi
  have hm : wordI 0x3A 0 rs1 c % 65536 = c := wordI_mod 0 rs1 hi
  rw [SOp.encode, wordX_eq_wordI]
  simp only [Nat.zero_mul, Nat.zero_add]
  refine (decode_wordI_high 0 rs1 (major := 0x3A) (by decide) (by decide) hi).trans ?_
  rw [decodeHigh_prim, Fin.val_zero, hd, h1, hm, hc]
  exact if_pos (decide_eq_true c.isLt)

theorem decode_encode_csrr (n : Fin 4096) : SOp.decode (SOp.csrr rd n).encode = some (.csrr rd n) := by
  have hi : n.val < 65536 := by omega
  have hn : Fin.ofNat 4096 (wordI 0x3C rd 0 n) = n := low_wordI rd 0 n (by decide) (by omega)
  have hd : fRd (wordI 0x3C rd 0 n) = rd := fRd_wordI rd 0 hi
  have h1 : fRs1 (wordI 0x3C rd 0 n) = 0 := fRs1_wordI rd 0 hi
  have hm : wordI 0x3C rd 0 n % 65536 = n := wordI_mod rd 0 hi
  rw [SOp.encode]
  refine (decode_wordI_high rd 0 (major := 0x3C) (by decide) (by decide) hi).trans ?_
  rw [decodeHigh_csrr, Fin.val_zero, hd, h1, hm, hn]
  exact if_pos (decide_eq_true n.isLt)

theorem decode_encode_csrw (n : Fin 4096) : SOp.decode (SOp.csrw rs1 n).encode = some (.csrw rs1 n) := by
  have hi : n.val < 65536 := by omega
  have hn : Fin.ofNat 4096 (wordI 0x3D 0 rs1 n) = n := low_wordI 0 rs1 n (by decide) (by omega)
  have hd : fRd (wordI 0x3D 0 rs1 n) = 0 := fRd_wordI 0 rs1 hi
  have h1 : fRs1 (wordI 0x3D 0 rs1 n) = rs1 := fRs1_wordI 0 rs1 hi
  have hm : wordI 0x3D 0 rs1 n % 65536 = n := wordI_mod 0 rs1 hi
  rw [SOp.encode]
  refine (decode_wordI_high 0 rs1 (major := 0x3D) (by decide) (by decide) hi).trans ?_
  rw [decodeHigh_csrw, Fin.val_zero, hd, h1, hm, hn]
  exact if_pos (decide_eq_true n.isLt)

theorem decode_encode_trap : SOp.decode (SOp.trap rs1).encode = some (.trap rs1) := by
  have hi : 0 * 2048 + 0 < 65536 := by decide
  have hf : wordI 0x3E 0 rs1 (0 * 2048 + 0) % 2048 = 0 := wordI_mod_funct 0 rs1 0
  have hd : fRd (wordI 0x3E 0 rs1 (0 * 2048 + 0)) = 0 := fRd_wordI 0 rs1 hi
  have h1 : fRs1 (wordI 0x3E 0 rs1 (0 * 2048 + 0)) = rs1 := fRs1_wordI 0 rs1 hi
  have h2 : fRs2 (wordI 0x3E 0 rs1 (0 * 2048 + 0)) = 0 := fRs2_wordI 0 rs1 0 (by decide)
  rw [SOp.encode, wordA_eq_wordI]
  refine (decode_wordI_high 0 rs1 (major := 0x3E) (by decide) (by decide) hi).trans ?_
  rw [decodeHigh_sys]
  simp only [decodeSys, Fin.val_zero, hf, hd, h1, h2]
  rfl

/-- Every instruction of the encodings decodes from its word. -/
theorem decode_encode : (i : SOp) → i.wf = true → SOp.decode i.encode = some i
  | .alu op rd rs1 rs2, h => decode_encode_alu rd rs1 rs2 op h
  | .imm op rd rs1 i, h => decode_encode_imm rd rs1 op i h
  | .shi k rd rs1 n, _ => decode_encode_shi rd rs1 k n
  | .load op rd rs1 i, _ => decode_encode_load rd rs1 op i
  | .store op rs rs1 i, _ => decode_encode_store rs rs1 op i
  | .branch op rs1 rs2 o, _ => decode_encode_branch rs1 rs2 op o
  | .jump o, _ => decode_encode_jump o
  | .jal o, _ => decode_encode_jal o
  | .jalr rd rs1 i, _ => decode_encode_jalr rd rs1 i
  | .atomic op wd acq rel rd rs1 rs2, _ => decode_encode_atomic rd rs1 rs2 op wd acq rel
  | .bfx sg rd rs1 lsb wm, h => decode_encode_bfx rd rs1 sg lsb wm h
  | .bfi rd rs1 lsb wm, h => decode_encode_bfi rd rs1 lsb wm h
  | .crc ieee n rd rs1 rs2, _ => decode_encode_crc rd rs1 rs2 ieee n
  | .mix rd rs1 rs2, _ => decode_encode_mix rd rs1 rs2
  | .fence b, _ => decode_encode_fence b
  | .fork rd rs1 rs2, _ => decode_encode_fork rd rs1 rs2
  | .join rd rs1, _ => decode_encode_join rd rs1
  | .quit rs1, _ => decode_encode_quit rs1
  | .chin rd c, _ => decode_encode_chin rd c
  | .chout rs c, _ => decode_encode_chout rs c
  | .chtest room rd c, _ => decode_encode_chtest rd c room
  | .pktld sz rd rs1 o, _ => decode_encode_pktld rd rs1 sz o
  | .pktldm sz rd b, _ => decode_encode_pktldm rd sz b
  | .pktst sz rs rs1 o, _ => decode_encode_pktst rs rs1 sz o
  | .pktstm sz rs o, _ => decode_encode_pktstm rs sz o
  | .pktlay rd o, _ => decode_encode_pktlay rd o
  | .pktend op, _ => decode_encode_pktend op
  | .table op rs1 t, _ => decode_encode_table rs1 op t
  | .prim rs1 c, _ => decode_encode_prim rs1 c
  | .csrr rd n, _ => decode_encode_csrr rd n
  | .csrw rs1 n, _ => decode_encode_csrw rs1 n
  | .trap rs1, _ => decode_encode_trap rs1
  | .eret, _ => by decide
  | .wfe, _ => by decide

end Decode

/-- Only words of 32 bits decode. -/
theorem lt_of_decode {w : Nat} {i : SOp} (h : SOp.decode w = some i) : w < 2 ^ 32 := by
  unfold SOp.decode at h
  split at h
  · omega
  · split at h
    · omega
    · cases h

/-- Settles O49: every form of instruction decodes from its word, and only words of 32 bits decode. -/
theorem stavteDecodeOfEncode : Obligations.StavteDecodeOfEncode := by
  intro i h
  have hd := decode_encode i h
  exact ⟨hd, lt_of_decode hd⟩

/-! ### Encode of decode (R304 to R306) -/

section Encode

variable {w : Nat} {i : SOp}

theorem guardOp_eq_some {c : Bool} {i j : SOp} : guardOp c i = some j ↔ c = true ∧ i = j := by
  unfold guardOp
  split <;> simp_all

/-- A word of 32 bits is its major opcode, its two register fields and its low half. -/
theorem eq_wordI {major : Nat} (hm : w / 67108864 = major) : wordI major (fRd w) (fRs1 w) (w % 65536) = w := by
  simp only [wordI, fRd, fRs1, Fin.val_ofNat]
  omega

theorem eq_wordA {major : Nat} (hm : w / 67108864 = major) : wordA major (fRd w) (fRs1 w) (fRs2 w) (w % 2048) = w := by
  simp only [wordA, fRd, fRs1, fRs2, Fin.val_ofNat]
  omega

theorem eq_wordX {major : Nat} (hm : w / 67108864 = major) : wordX major (fRd w) (fRs1 w) (w / 4096 % 16) (w / 1024 % 4) (w % 1024) = w := by
  simp only [wordX, fRd, fRs1, Fin.val_ofNat]
  omega


theorem natOf_bitOf (x i : Nat) : natOf (bitOf x i) = x / 2 ^ i % 2 := by
  have h : x / 2 ^ i % 2 = 0 ∨ x / 2 ^ i % 2 = 1 := by omega
  rcases h with h | h <;> rw [bitOf, h] <;> rfl

theorem aluOf_code {n : Nat} {op : AluOp} (h : aluOf n = some op) : op.code = (0, n) := by
  unfold aluOf at h
  split at h <;> cases h <;> rfl

theorem mulOf_code {n : Nat} {op : AluOp} (h : mulOf n = some op) : op.code = (1, n) := by
  unfold mulOf at h
  split at h <;> cases h <;> rfl

theorem encode_decodeAlu {major : Nat} (hm : w / 67108864 = major) {o : Option AluOp} (hc : ∀ op, o = some op → op.code = (major, w % 2048))
    (h : decodeAlu o w = some i) : i.wf = true ∧ i.encode = w := by
  cases o with
  | none => cases h
  | some op =>
    obtain ⟨hg, rfl⟩ := guardOp_eq_some.1 h
    have hr : (if op.unary then 0 else (fRs2 w).val) = fRs2 w := by
      cases hu : op.unary with
      | false => rfl
      | true => simp_all
    exact ⟨hg, by rw [SOp.encode, hr, hc op rfl, eq_wordA hm]⟩

/-- Words of the majors below 0x20. -/
theorem encode_decodeLow {major : Nat} (hm : w / 67108864 = major) (h : decodeLow major w = some i) : i.wf = true ∧ i.encode = w := by
  unfold decodeLow at h
  split at h
  case h_1 => exact encode_decodeAlu hm (fun _ => aluOf_code) h
  case h_2 => exact encode_decodeAlu hm (fun _ => mulOf_code) h
  case h_9 =>
    obtain ⟨hg, rfl⟩ := guardOp_eq_some.1 h
    have hl : w / 64 % 4 * 64 + w % 64 = w % 65536 := by have := of_decide_eq_true hg; omega
    refine ⟨rfl, ?_⟩
    rw [SOp.encode, Fin.val_ofNat, Fin.val_ofNat, hl, eq_wordI hm]
  case h_10 =>
    obtain ⟨hg, rfl⟩ := guardOp_eq_some.1 h
    have h0 : fRs1 w = 0 := beq_iff_eq.1 hg
    refine ⟨hg, ?_⟩
    have he := eq_wordI hm
    rwa [h0] at he
  all_goals cases h <;> exact ⟨rfl, eq_wordI hm⟩

theorem encode_decodeAtomic (hm : w / 67108864 = 0x2C) (h : decodeAtomic w = some i) : i.wf = true ∧ i.encode = w := by
  have key : ∀ op : AtomicOp, w % 2048 < 64 → w % 2048 % 8 = op.code →
      (SOp.atomic op (bitOf (w % 2048) 3) (bitOf (w % 2048) 5) (bitOf (w % 2048) 4) (fRd w) (fRs1 w) (fRs2 w)).encode = w := by
    intro op hlt hop
    have hf : w % 2048 / 2 ^ 5 % 2 * 32 + w % 2048 / 2 ^ 4 % 2 * 16 + w % 2048 / 2 ^ 3 % 2 * 8 + op.code = w % 2048 := by omega
    rw [SOp.encode, natOf_bitOf, natOf_bitOf, natOf_bitOf, hf, eq_wordA hm]
  unfold decodeAtomic at h
  dsimp only at h
  split at h
  case h_4 => cases h
  all_goals
    next hop =>
    obtain ⟨hg, rfl⟩ := guardOp_eq_some.1 h
    exact ⟨rfl, key _ (of_decide_eq_true hg) hop⟩

theorem encode_decodeBf (hm : w / 67108864 = 0x2D) (h : decodeBf w = some i) : i.wf = true ∧ i.encode = w := by
  unfold decodeBf at h
  dsimp only at h
  split at h
  · next h8 =>
    obtain ⟨hg, rfl⟩ := guardOp_eq_some.1 h
    have hl : w % 65536 / 1024 % 64 * 1024 + w % 65536 / 16 % 64 * 16 + w % 65536 / 2 ^ 3 % 2 * 8 = w % 65536 := by omega
    refine ⟨hg, ?_⟩
    rw [SOp.encode, natOf_bitOf, Fin.val_ofNat, Fin.val_ofNat, hl, eq_wordI hm]
  · next h8 =>
    obtain ⟨hg, rfl⟩ := guardOp_eq_some.1 h
    obtain ⟨hfit, h3⟩ := Bool.and_eq_true_iff.1 hg
    have hb : w % 65536 / 2 ^ 3 % 2 = 0 := by
      have h3 : bitOf (w % 65536) 3 = false := by simpa using h3
      rw [← natOf_bitOf, h3]
      rfl
    have hl : w % 65536 / 1024 % 64 * 1024 + w % 65536 / 16 % 64 * 16 + 1 = w % 65536 := by omega
    refine ⟨hfit, ?_⟩
    rw [SOp.encode, Fin.val_ofNat, Fin.val_ofNat, hl, eq_wordI hm]
  · cases h

theorem encode_decodeCheck (hm : w / 67108864 = 0x2E) (h : decodeCheck w = some i) : i.wf = true ∧ i.encode = w := by
  unfold decodeCheck at h
  dsimp only at h
  split at h
  · next hlt =>
    cases h
    have hf : w % 2048 / 2 ^ 2 % 2 * 4 + w % 2048 % 4 = w % 2048 := by omega
    refine ⟨rfl, ?_⟩
    rw [SOp.encode, natOf_bitOf, Fin.val_ofNat, hf, eq_wordA hm]
  · split at h
    · next hf =>
      cases h
      exact ⟨rfl, by rw [SOp.encode, ← hf, eq_wordA hm]⟩
    · cases h

theorem encode_decodeThread (hm : w / 67108864 = 0x31) (h : decodeThread w = some i) : i.wf = true ∧ i.encode = w := by
  have he := eq_wordA hm
  unfold decodeThread at h
  split at h
  · next hf =>
    cases h
    exact ⟨rfl, by rwa [hf] at he⟩
  · next hf =>
    obtain ⟨hg, rfl⟩ := guardOp_eq_some.1 h
    exact ⟨rfl, by rwa [hf, beq_iff_eq.1 hg] at he⟩
  · next hf =>
    obtain ⟨hg, rfl⟩ := guardOp_eq_some.1 h
    obtain ⟨hd, h2⟩ := Bool.and_eq_true_iff.1 hg
    exact ⟨rfl, by rwa [hf, beq_iff_eq.1 hd, beq_iff_eq.1 h2] at he⟩
  · cases h

theorem encode_decodePkt (hm : w / 67108864 = 0x38) (h : decodePkt w = some i) : i.wf = true ∧ i.encode = w := by
  have he := eq_wordX hm
  have bare : ∀ op : PktEnd, w / 4096 % 16 = op.xsub → (fRd w == 0 && fRs1 w == 0 && decide (w % 4096 = 0)) = true → (SOp.pktend op).encode = w := by
    intro op hs hb
    simp only [Bool.and_eq_true, decide_eq_true_eq, beq_iff_eq] at hb
    obtain ⟨⟨hd, h1⟩, h0⟩ := hb
    have hsz : w / 1024 % 4 = 0 := by omega
    have harg : w % 1024 = 0 := by omega
    rwa [hd, h1, hs, hsz, harg] at he
  unfold decodePkt at h
  dsimp only at h
  split at h
  · next hs =>
    cases h
    exact ⟨rfl, by rwa [hs] at he⟩
  · next hs =>
    obtain ⟨hg, rfl⟩ := guardOp_eq_some.1 h
    obtain ⟨h1, hlt⟩ := Bool.and_eq_true_iff.1 hg
    have hb : w % 1024 = w % 64 := by
      have hlt : w % 1024 < 64 := of_decide_eq_true hlt
      omega
    exact ⟨rfl, by rwa [hs, beq_iff_eq.1 h1, hb] at he⟩
  · next hs =>
    cases h
    exact ⟨rfl, by rwa [hs] at he⟩
  · next hs =>
    obtain ⟨h1, rfl⟩ := guardOp_eq_some.1 h
    exact ⟨rfl, by rwa [hs, beq_iff_eq.1 h1] at he⟩
  · next hs =>
    obtain ⟨hg, rfl⟩ := guardOp_eq_some.1 h
    obtain ⟨h1, hz⟩ := Bool.and_eq_true_iff.1 hg
    have hz : w / 1024 % 4 = 0 := Fin.ext_iff.1 (beq_iff_eq.1 hz)
    exact ⟨rfl, by rwa [hs, beq_iff_eq.1 h1, hz] at he⟩
  case h_9 => cases h
  all_goals
    next hs =>
    obtain ⟨hb, rfl⟩ := guardOp_eq_some.1 h
    exact ⟨rfl, bare _ hs hb⟩

theorem encode_decodeTable (hm : w / 67108864 = 0x39) (h : decodeTable w = some i) : i.wf = true ∧ i.encode = w := by
  have he := eq_wordX hm
  have key : ∀ op : TblOp, w / 4096 % 16 = op.xsub → (fRd w == 0 && decide (w % 4096 < 64)) = true → (SOp.table op (fRs1 w) (Fin.ofNat 64 w)).encode = w := by
    intro op hs hg
    simp only [Bool.and_eq_true, decide_eq_true_eq, beq_iff_eq] at hg
    obtain ⟨hd, hlt⟩ := hg
    have hsz : w / 1024 % 4 = 0 := by omega
    have harg : w % 1024 = w % 64 := by omega
    rwa [hd, hs, hsz, harg] at he
  unfold decodeTable at h
  dsimp only at h
  split at h
  case h_4 => cases h
  all_goals
    next hs =>
    obtain ⟨hg, rfl⟩ := guardOp_eq_some.1 h
    exact ⟨rfl, key _ hs hg⟩

theorem encode_decodeSys (hm : w / 67108864 = 0x3E) (h : decodeSys w = some i) : i.wf = true ∧ i.encode = w := by
  unfold decodeSys at h
  split at h
  · next hf =>
    obtain ⟨hg, rfl⟩ := guardOp_eq_some.1 h
    obtain ⟨hd, h2⟩ := Bool.and_eq_true_iff.1 hg
    have he := eq_wordA hm
    exact ⟨rfl, by rwa [hf, beq_iff_eq.1 hd, beq_iff_eq.1 h2] at he⟩
  · obtain ⟨hg, rfl⟩ := guardOp_eq_some.1 h
    have hlow := of_decide_eq_true hg
    exact ⟨rfl, by rw [SOp.encode, wordA]; omega⟩
  · obtain ⟨hg, rfl⟩ := guardOp_eq_some.1 h
    have hlow := of_decide_eq_true hg
    exact ⟨rfl, by rw [SOp.encode, wordA]; omega⟩
  · cases h

/-- Words of the majors from 0x20 on. -/
theorem encode_decodeHigh {major : Nat} (hm : w / 67108864 = major) (h : decodeHigh major w = some i) : i.wf = true ∧ i.encode = w := by
  have he := eq_wordI hm
  unfold decodeHigh at h
  dsimp only at h
  split at h
  case h_7 =>
    cases h
    exact ⟨rfl, by rw [SOp.encode, BitVec.toNat_ofNat]; omega⟩
  case h_8 =>
    cases h
    exact ⟨rfl, by rw [SOp.encode, BitVec.toNat_ofNat]; omega⟩
  case h_10 => exact encode_decodeAtomic hm h
  case h_11 => exact encode_decodeBf hm h
  case h_12 => exact encode_decodeCheck hm h
  case h_13 =>
    obtain ⟨hg, rfl⟩ := guardOp_eq_some.1 h
    have hlow := of_decide_eq_true hg
    exact ⟨rfl, by rw [SOp.encode, wordI, Fin.val_ofNat]; omega⟩
  case h_14 => exact encode_decodeThread hm h
  case h_15 =>
    obtain ⟨hg, rfl⟩ := guardOp_eq_some.1 h
    exact ⟨rfl, by rwa [of_decide_eq_true hg] at he⟩
  case h_16 =>
    obtain ⟨hg, rfl⟩ := guardOp_eq_some.1 h
    exact ⟨rfl, by rwa [of_decide_eq_true hg] at he⟩
  case h_17 =>
    obtain ⟨hg, rfl⟩ := guardOp_eq_some.1 h
    have hb : w % 65536 = w / 2 ^ 0 % 2 := by have := of_decide_eq_true hg; omega
    exact ⟨rfl, by rwa [SOp.encode, natOf_bitOf, ← hb]⟩
  case h_18 => exact encode_decodePkt hm h
  case h_19 => exact encode_decodeTable hm h
  case h_20 =>
    obtain ⟨hg, rfl⟩ := guardOp_eq_some.1 h
    obtain ⟨hd, hlt⟩ := Bool.and_eq_true_iff.1 hg
    have hc : w % 65536 = w % 256 := by have := of_decide_eq_true hlt; omega
    rw [beq_iff_eq.1 hd, hc] at he
    exact ⟨rfl, by simpa [SOp.encode, wordX_eq_wordI] using he⟩
  case h_21 =>
    obtain ⟨hg, rfl⟩ := guardOp_eq_some.1 h
    obtain ⟨h1, hlt⟩ := Bool.and_eq_true_iff.1 hg
    have hn : w % 65536 = w % 4096 := by have := of_decide_eq_true hlt; omega
    exact ⟨rfl, by rwa [beq_iff_eq.1 h1, hn] at he⟩
  case h_22 =>
    obtain ⟨hg, rfl⟩ := guardOp_eq_some.1 h
    obtain ⟨hd, hlt⟩ := Bool.and_eq_true_iff.1 hg
    have hn : w % 65536 = w % 4096 := by have := of_decide_eq_true hlt; omega
    exact ⟨rfl, by rwa [beq_iff_eq.1 hd, hn] at he⟩
  case h_23 => exact encode_decodeSys hm h
  all_goals cases h <;> exact ⟨rfl, he⟩

end Encode

/-- Settles O50: what decodes holds its word's fields and nothing else of the word is free. -/
theorem stavteEncodeOfDecode : Obligations.StavteEncodeOfDecode := by
  intro w i hw h
  by_cases hl : w < 2147483648
  · rw [SOp.decode, if_pos hl] at h
    exact encode_decodeLow rfl h
  · rw [SOp.decode, if_neg hl, if_pos (by omega)] at h
    exact encode_decodeHigh rfl h

end Sys2Proof.Machine

/-! PROOFS. What every command and every step do to the state as a whole: each command is an effect on the device, held off while PWRGD is low, and its changes of memory are applied at its end. -/

namespace Sys2Proof

/-- The commands that act while PWRGD is low (R466, R476): its edges, the loss of VRET, the levels of PERST and the test access port. -/
def Instr.actsHeld : Instr → Bool
  | .pwrgdRise .. | .pwrgdLowPulse | .vretLoss | .perstAssert _ | .perstDeassert _ | .bypass | .idcode | .samplePreload .. | .extest | .clamp | .highz => true
  | _ => false

end Sys2Proof

namespace Sys2Proof.Machine

open Sys2Proof

/-! ### Each command is an effect on the device -/

/-- Every command but those eleven is an effect that PWRGD holds off. -/
theorem exec_eq_on {c : Instr} (h : c.actsHeld = false) : ∃ f, ∀ s, exec c s = s.on f := by
  unfold exec
  cases c
  case pwrgdRise | pwrgdLowPulse | vretLoss | perstAssert | perstDeassert | bypass | idcode | samplePreload | extest | clamp | highz => cases h
  all_goals exact ⟨_, fun _ => rfl⟩

theorem exec_eq_always {c : Instr} (h : c.actsHeld = true) : ∃ f, ∀ s, exec c s = s.always f := by
  unfold Instr.actsHeld at h
  split at h
  case h_12 => cases h
  all_goals
    unfold exec
    exact ⟨_, fun _ => rfl⟩

/-- Whatever the command, its answer is a next state: an effect on the device, with its changes of memory applied. -/
theorem exec_eq_always' (c : Instr) : ∃ f, ∀ s, exec c s = s.always f := by
  cases h : c.actsHeld with
  | true => exact exec_eq_always h
  | false =>
    obtain ⟨f, hf⟩ := exec_eq_on h
    exact ⟨_, hf⟩

/-- A step, too, is an effect on the device and takes at most the front command of the queue. -/
theorem step_eq_always (s : State) : ∃ f, step s = State.always { s with pending := s.pending.tail } f := by
  obtain ⟨d, pending⟩ := s
  cases pending with
  | nil => exact ⟨_, rfl⟩
  | cons c rest =>
    obtain ⟨f, hf⟩ := exec_eq_always' c
    exact ⟨f, hf _⟩

/-! ### The end of a command -/

/-- A device with no change of memory left over settles as it is. -/
theorem Dev.settle_self {d : Dev} (h : d.stores = []) : d.settle d.mem = d := by
  cases d
  subst h
  rfl

/-- Where the device settles, the invariant holds. -/
theorem Inv.always {s s' : State} {f : Dev → Dev} (h : State.Inv s) (hs : s.always f = .next s') : State.Inv s' := by
  cases hs
  exact ⟨Dev.settle_wf _ _ h.1, rfl⟩

/-- A command that PWRGD holds off leaves the state as it is. -/
theorem on_held {s : State} (hi : State.Inv s) (hp : s.dev.boot.pwrgd = false) (f : Dev → Dev) : s.on f = .next s := by
  rw [State.on, State.always]
  simp only [hp, Bool.false_eq_true, if_false, Dev.settle_self hi.2]

/-! ### The statements -/

/-- Settles O52: the end of a step applies its changes of memory, which keeps the canonical form and leaves none over. -/
theorem stepKeepsTheInvariant : Obligations.StepKeepsTheInvariant := by
  intro s s' hi hs
  obtain ⟨f, hf⟩ := step_eq_always s
  have hi' : State.Inv { s with pending := s.pending.tail } := hi
  exact Inv.always hi' (hf.symm.trans hs)

/-- Settles O48: the commands but eleven are held off, and of the levels of PERST a held device keeps note. -/
theorem heldInColdReset : Obligations.HeldInColdReset := by
  refine ⟨fun c s hi hp hr hsp ha hd hl => ?_, fun s h hi hp => ⟨fun hl => ?_, fun hl => ?_⟩⟩
  · have hc : c.actsHeld = false := by
      rw [Bool.eq_false_iff]
      intro hc
      unfold Instr.actsHeld at hc
      split at hc
      · exact hr _ _ _ rfl
      · exact hl (by decide)
      · exact hl (by decide)
      · exact ha _ rfl
      · exact hd _ rfl
      · exact hl (by decide)
      · exact hl (by decide)
      · exact hsp _ _ rfl
      · exact hl (by decide)
      · exact hl (by decide)
      · exact hl (by decide)
      · cases hc
    obtain ⟨f, hf⟩ := exec_eq_on hc
    rw [hf, on_held hi hp]
  · have hx : exec (.perstAssert h) s = execPerstAssert h s := rfl
    have hs : ({ s.dev with perst := s.dev.perst.set false h.val true } : Dev).stores = [] := hi.2
    rw [hx, execPerstAssert, State.always, if_neg (by simp [hl]), if_pos (by simp [hp])]
    exact congrArg (fun d => Host.Outcome.next { s with dev := d }) (Dev.settle_self hs)
  · have hx : exec (.perstDeassert h) s = execPerstDeassert h s := rfl
    have hs : ({ s.dev with perst := s.dev.perst.set false h.val false } : Dev).stores = [] := hi.2
    rw [hx, execPerstDeassert, State.always, if_neg (by simp [hl])]
    simp only [hp, Bool.false_eq_true, if_false]
    exact congrArg (fun d => Host.Outcome.next { s with dev := d }) (Dev.settle_self hs)

/-- Settles O46: `step` by the two forms of the queue. -/
theorem stepRunsTheFrontCommand : Obligations.StepRunsTheFrontCommand := by
  refine ⟨fun s c rest h => ?_, fun s h hu => ?_⟩
  · rw [step, h]
  · obtain ⟨d, pending⟩ := s
    subst h
    exact on_up (s := ⟨d, []⟩) hu fun d => d.landWrites.advance 1

/-- Settles O47: every command is an effect on the device. -/
theorem everyCommandCompletes : Obligations.EveryCommandCompletes := by
  intro c s
  obtain ⟨f, hf⟩ := exec_eq_always' c
  exact ⟨_, hf s⟩

/-- Settles O51: each word evaluated. -/
theorem stavteWordsOfTheSpec : Obligations.StavteWordsOfTheSpec := by
  unfold Obligations.StavteWordsOfTheSpec
  decide

/-- Settles O53: after reset nothing is listed, so every register reads as its reset value. -/
theorem resetState : Obligations.ResetState :=
  ⟨⟨rfl, rfl⟩, rfl, rfl, rfl, by decide, by decide, by decide, by decide, by decide, by decide, fun _ _ => rfl⟩

end Sys2Proof.Machine

/-! PROOFS. Threads (chapter 11): their registers, what an instruction that completes leaves alone, traps and the return from them. -/

namespace Sys2Proof

/-- A thread is a context of a packet core, or has a record of its own. -/
theorem Thread.packet_or (th : Thread) : (∃ c t, th = .packet c t) ∨ ∀ c t, th ≠ .packet c t := by
  cases th with
  | packet c t => exact .inl ⟨c, t, rfl⟩
  | service c t => exact .inr fun _ _ h => by cases h
  | keystone => exact .inr fun _ _ h => by cases h

end Sys2Proof

namespace Sys2Proof.Machine

open Sys2Proof

/-! ### General registers (R302) -/

@[simp] theorem gget_zero (g : List DWord) : gget g 0 = 0 := rfl

@[simp] theorem gset_zero (g : List DWord) (v : DWord) : gset g 0 v = g := rfl

theorem gget_gset_ne (g : List DWord) {i j : Fin 32} (v : DWord) (h : j ≠ i) : gget (gset g i v) j = gget g j := by
  have hv : i.val ≠ j.val := fun e => h (Fin.ext e.symm)
  unfold gset
  split
  · rfl
  · simp only [gget, List.getD_eq_getElem?_getD, List.getElem?_set_ne hv]

theorem gget_gset {g : List DWord} (hg : g.length = 32) (i j : Fin 32) (v : DWord) : gget (gset g i v) j = if j = i ∧ i ≠ 0 then v else gget g j := by
  by_cases h : j = i
  · subst h
    by_cases h0 : j = 0
    · subst h0
      rfl
    · have hj : j.val < g.length := by omega
      rw [if_pos ⟨rfl, h0⟩, gset, if_neg h0, gget, if_neg h0, List.getD_eq_getElem?_getD, List.getElem?_set_self hj]
      rfl
  · rw [gget_gset_ne g v h, if_neg fun hh => h hh.1]

/-! ### Threads and contexts by their numbers -/

section Tables

variable {κ α : Type} [DecidableEq κ]

/-- A table's value at a key depends on the default of that key alone. -/
theorem Sparse.get_congr {d d' : κ → α} (m : List (κ × α)) {k : κ} (h : d k = d' k) : Sparse.get d m k = Sparse.get d' m k := by
  induction m with
  | nil => exact h
  | cons e t ih => simp only [Sparse.get, ih]

end Tables

variable (d : Dev)

@[simp] theorem Dev.updCtx_ctx (c t c' t' : Nat) (f : Ctx → Ctx) :
    (d.updCtx c t f).ctx c' t' = if 16 * c' + t' = 16 * c + t then f (d.ctx c t) else d.ctx c' t' := NMap.at_upd ..

@[simp] theorem Dev.updThr_thr (k k' : Nat) (f : Thr → Thr) : (d.updThr k f).thr k' = if k' = k then f (d.thr k) else d.thr k' := by
  have hset : (d.updThr k f).thr k' = Sparse.get thrReset (Sparse.put (fun a b => decide (a < b)) thrReset d.thrs k (f (d.thr k))) k' :=
    Sparse.get_congr _ rfl
  have hget : d.thr k' = Sparse.get thrReset d.thrs k' := Sparse.get_congr _ rfl
  rw [hset, Sparse.get_put, hget]

@[simp] theorem Dev.updCtx_thr (c t k : Nat) (f : Ctx → Ctx) : (d.updCtx c t f).thr k = d.thr k := rfl
@[simp] theorem Dev.updThr_ctx (k c t : Nat) (f : Thr → Thr) : (d.updThr k f).ctx c t = d.ctx c t := rfl

theorem ctx_number_inj {c c' : Fin 272} {t t' : Fin 16} : 16 * c.val + t.val = 16 * c'.val + t'.val ↔ c = c' ∧ t = t' := by
  simp only [Fin.ext_iff]
  omega

theorem thrOf_inj {th th' : Thread} (h : ∀ c t, th ≠ .packet c t) (h' : ∀ c t, th' ≠ .packet c t) : thrOf th = thrOf th' ↔ th = th' := by
  cases th with
  | packet c t => exact absurd rfl (h c t)
  | service c t =>
    cases th' with
    | packet c' t' => exact absurd rfl (h' c' t')
    | service c' t' => simp only [thrOf, Thread.service.injEq, Fin.ext_iff]; omega
    | keystone => simp only [thrOf, keystoneThr, reduceCtorEq, iff_false]; omega
  | keystone =>
    cases th' with
    | packet c' t' => exact absurd rfl (h' c' t')
    | service c' t' => simp only [thrOf, keystoneThr, reduceCtorEq, iff_false]; omega
    | keystone => simp

theorem Dev.tregs_thr {th : Thread} (h : ∀ c t, th ≠ .packet c t) : d.tregs th = (d.thr (thrOf th)).regs := by
  cases th with
  | packet c t => exact absurd rfl (h c t)
  | _ => rfl

theorem Dev.tpc_thr {th : Thread} (h : ∀ c t, th ≠ .packet c t) : d.tpc th = (d.thr (thrOf th)).pc := by
  cases th with
  | packet c t => exact absurd rfl (h c t)
  | _ => rfl

/-! ### An instruction completes (R302, R335) -/

section Leave

variable (th th' : Thread) (rd : Fin 32) (v : DWord) (pc : Nat)

theorem Dev.leave_thr_eq {th : Thread} (h : ∀ c t, th ≠ .packet c t) : d.leave th rd v pc =
    d.updThr (thrOf th) fun k => { k with regs := gset k.regs rd v, pc := pc % 2 ^ 64, retired := k.retired + 1, blocked := none, wfe := false } := by
  cases th with
  | packet c t => exact absurd rfl (h c t)
  | _ => rfl

/-- Of the threads' registers, those of the thread that goes on take the result. -/
theorem Dev.leave_tregs : (d.leave th rd v pc).tregs th' = if th' = th then gset (d.tregs th) rd v else d.tregs th' := by
  rcases th.packet_or with ⟨c, t, rfl⟩ | h <;> rcases th'.packet_or with ⟨c', t', rfl⟩ | h'
  · simp only [Dev.leave, Dev.tregs, Dev.updCtx_ctx, ctx_number_inj, Thread.packet.injEq]
    split <;> rfl
  · rw [if_neg (h' c t), Dev.tregs_thr _ h', Dev.tregs_thr _ h', Dev.leave, Dev.updCtx_thr]
  · rw [if_neg (Ne.symm (h c' t')), Dev.leave_thr_eq d rd v pc h]
    rfl
  · rw [Dev.leave_thr_eq d rd v pc h, Dev.tregs_thr _ h', Dev.tregs_thr _ h, Dev.tregs_thr _ h', Dev.updThr_thr]
    simp only [thrOf_inj h' h]
    split <;> rfl

/-- Only the thread that goes on has another program counter. -/
theorem Dev.leave_tpc : (d.leave th rd v pc).tpc th' = if th' = th then pc % 2 ^ 64 else d.tpc th' := by
  rcases th.packet_or with ⟨c, t, rfl⟩ | h <;> rcases th'.packet_or with ⟨c', t', rfl⟩ | h'
  · simp only [Dev.leave, Dev.tpc, Dev.updCtx_ctx, ctx_number_inj, Thread.packet.injEq]
    split <;> rfl
  · rw [if_neg (h' c t), Dev.tpc_thr _ h', Dev.tpc_thr _ h', Dev.leave, Dev.updCtx_thr]
  · rw [if_neg (Ne.symm (h c' t')), Dev.leave_thr_eq d rd v pc h]
    rfl
  · rw [Dev.leave_thr_eq d rd v pc h, Dev.tpc_thr _ h', Dev.tpc_thr _ h', Dev.updThr_thr]
    simp only [thrOf_inj h' h]
    split <;> rfl

/-- The trap, interrupt and translation registers of a thread (R327). -/
def Thr.control (x : Thr) : Nat × Nat × Nat × Nat × Nat × Nat × Nat × Nat × Nat × Nat :=
  (x.tstate, x.tcode, x.tpc, x.tinfo, x.tentry, x.irqEn, x.irqPend, x.tsave, x.ptbase, x.tickcmp)

/-- A completed instruction leaves the trap, interrupt and translation registers of every thread. -/
theorem Dev.leave_control (k : Nat) : ((d.leave th rd v pc).thr k).control = (d.thr k).control := by
  rcases th.packet_or with ⟨c, t, rfl⟩ | h
  · rfl
  · rw [Dev.leave_thr_eq d rd v pc h, Dev.updThr_thr]
    split
    · next hk => rw [hk]; rfl
    · rfl

/-- Beyond the threads a completed instruction leaves the device. -/
theorem Dev.leave_eq : ∃ ctxs thrs, d.leave th rd v pc = { d with ctxs := ctxs, thrs := thrs } := by
  cases th <;> exact ⟨_, _, rfl⟩

end Leave

/-! ### A fetch changes memory at most (R330, R331, R412) -/

/-- Two devices that differ at most in memory, its marks, its cached lines and translations, and in counters. -/
def Dev.sameButMemory (d d' : Dev) : Prop :=
  ∃ stores marks lines xlats cnt, d' = { d with stores := stores, marks := marks, lines := lines, xlats := xlats, cnt := cnt }

section Memory

variable {d}

theorem Dev.sameButMemory.refl : d.sameButMemory d := ⟨_, _, _, _, _, rfl⟩

theorem Dev.sameButMemory.trans {e f : Dev} (h : d.sameButMemory e) (h' : e.sameButMemory f) : d.sameButMemory f := by
  obtain ⟨_, _, _, _, _, rfl⟩ := h
  obtain ⟨_, _, _, _, _, rfl⟩ := h'
  exact ⟨_, _, _, _, _, rfl⟩

theorem Dev.sameButMemory.foldl {α : Type} (l : List α) {f : Dev → α → Dev} (hf : ∀ e x, d.sameButMemory e → d.sameButMemory (f e x)) {e : Dev} (h : d.sameButMemory e) :
    d.sameButMemory (l.foldl f e) := by
  induction l generalizing e with
  | nil => exact h
  | cons x t ih => exact ih (hf e x h)

variable (d) (a : Nat) (bs : List Byte) (m : Bool)

theorem Dev.storeRaw_eq : ∃ stores, d.storeRaw a bs = { d with stores := stores } := by
  induction bs generalizing d a with
  | nil => exact ⟨_, rfl⟩
  | cons b t ih => exact ih _ (a + 1)

theorem Dev.dropLines_eq (n : Nat) : ∃ lines, d.dropLines a n = { d with lines := lines } := by
  unfold Dev.dropLines
  split <;> exact ⟨_, rfl⟩

/-- A store without the memory protection changes memory, its marks and its cached lines. -/
theorem Dev.storeFree_eq : ∃ marks lines, d.storeFree a bs m = { d with stores := (d.storeRaw a bs).stores, marks := marks, lines := lines } := by
  obtain ⟨st, hs⟩ := d.storeRaw_eq a bs
  obtain ⟨ln, hl⟩ := (d.storeRaw a bs).dropLines_eq a bs.length
  have hd : (d.storeRaw a bs).dropLines a bs.length = { d with stores := (d.storeRaw a bs).stores, lines := ln } := by
    rw [hl, hs]
  unfold Dev.storeFree
  rw [hd]
  dsimp only
  split
  · exact ⟨_, _, rfl⟩
  · split <;> exact ⟨_, _, rfl⟩

theorem Dev.storeFree_sameButMemory : d.sameButMemory (d.storeFree a bs m) := by
  obtain ⟨_, _, h⟩ := d.storeFree_eq a bs m
  exact ⟨_, _, _, _, _, h⟩

/-- A store changes memory at most, and the counter of stores discarded (R412). -/
theorem Dev.storeMarked_sameButMemory : d.sameButMemory (d.storeMarked a bs m) := by
  unfold Dev.storeMarked
  split
  · exact d.storeFree_sameButMemory a bs m
  · refine Dev.sameButMemory.foldl _ (fun e p h => ?_) ⟨_, _, _, _, _, rfl⟩
    split
    · exact h
    · exact h.trans (e.storeFree_sameButMemory ..)

theorem Dev.walk_sameButMemory (core asid priv : Nat) (kind : AccKind) (va n table : Nat) : d.sameButMemory (d.walk core asid priv kind va n table).1 := by
  have ite : ∀ {c : Prop} [Decidable c] {x y : Dev × Xres}, d.sameButMemory x.1 → d.sameButMemory y.1 → d.sameButMemory (if c then x else y).1 := by
    intro c _ x y hx hy
    split <;> assumption
  induction n generalizing table with
  | zero => exact .refl
  | succ n ih =>
    unfold Dev.walk
    refine ite .refl (ite .refl (ite .refl (ite .refl (ite (ite .refl (ih _)) (ite .refl (ite .refl (ite .refl ?_)))))))
    generalize withBit _ 6 true = e'
    refine Dev.sameButMemory.trans (e := if e' = _ then d else d.storeVal _ 8 e') ?_ ⟨_, _, _, _, _, rfl⟩
    split
    · exact .refl
    · exact d.storeMarked_sameButMemory ..

theorem Dev.translate_sameButMemory (th : Thread) (kind : AccKind) (va : Nat) : d.sameButMemory (d.translate th kind va).1 := by
  unfold Dev.translate
  split
  · dsimp only
    repeat' split
    all_goals first
      | exact .refl
      | exact d.walk_sameButMemory ..
  · exact .refl

variable {d a bs m}

/-- A fetch that gives a word changes memory at most. -/
theorem Dev.fetch_sameButMemory {th : Thread} {pc w : Nat} (h : (d.fetch th pc).2 = .word w) : d.sameButMemory (d.fetch th pc).1 := by
  unfold Dev.fetch at h ⊢
  split
  · next hp => simp [hp] at h
  · next hp =>
    simp only [hp, if_false] at h
    cases th with
    | packet c t => dsimp only at h ⊢; split <;> exact .refl
    | keystone => dsimp only at h ⊢; split <;> exact .refl
    | service c t =>
      have ht := d.translate_sameButMemory (.service c t) .fetch pc
      dsimp only at h ⊢
      generalize d.translate (.service c t) .fetch pc = x at h ht ⊢
      obtain ⟨e, y⟩ := x
      cases y <;> dsimp only at h ⊢ <;> try cases h
      unfold Dev.fetchService at h ⊢
      repeat' split
      all_goals first
        | exact ht
        | simp_all

/-- A fetch whose address is not translated changes nothing. -/
theorem Dev.fetch_untranslated {th : Thread} {pc w : Nat} (hu : d.untranslated th) (h : (d.fetch th pc).2 = .word w) : (d.fetch th pc).1 = d := by
  unfold Dev.fetch at h ⊢
  split
  · rfl
  · next hp =>
    simp only [hp, if_false] at h
    cases th with
    | packet c t => dsimp only; split <;> rfl
    | keystone => dsimp only; split <;> rfl
    | service c t =>
      have ht : d.translate (.service c t) .fetch pc = (d, .at_ pc) := by
        unfold Dev.translate
        simp [hu c t rfl]
      simp only [ht] at h ⊢
      unfold Dev.fetchService at h ⊢
      repeat' split
      all_goals first
        | rfl
        | simp_all

end Memory

/-! ### What a thread's instruction finds and leaves of the rest of the device -/

/-- Two devices whose threads and outside, CSR space and packets stand alike. -/
def Dev.sameView (d e : Dev) : Prop :=
  (∀ th, e.tregs th = d.tregs th) ∧ (∀ th, e.tpc th = d.tpc th) ∧ (∀ k, (e.thr k).control = (d.thr k).control) ∧
  e.csr = d.csr ∧ e.pkts = d.pkts ∧ e.fifos = d.fifos ∧ e.pktCores = d.pktCores ∧ e.out = d.out ∧ e.raised = d.raised

section View

variable {d}

theorem Dev.sameView.refl : d.sameView d := ⟨fun _ => rfl, fun _ => rfl, fun _ => rfl, rfl, rfl, rfl, rfl, rfl, rfl⟩

theorem Dev.sameView.trans {e f : Dev} (h : d.sameView e) (h' : e.sameView f) : d.sameView f := by
  obtain ⟨r, p, k, csr, pkts, fifos, cores, out, raised⟩ := h
  obtain ⟨r', p', k', csr', pkts', fifos', cores', out', raised'⟩ := h'
  exact ⟨fun th => (r' th).trans (r th), fun th => (p' th).trans (p th), fun n => (k' n).trans (k n), csr'.trans csr, pkts'.trans pkts, fifos'.trans fifos,
    cores'.trans cores, out'.trans out, raised'.trans raised⟩

theorem Dev.sameButMemory.sameView {e : Dev} (h : d.sameButMemory e) : d.sameView e := by
  obtain ⟨_, _, _, _, _, rfl⟩ := h
  refine ⟨fun th => ?_, fun th => ?_, fun _ => rfl, rfl, rfl, rfl, rfl, rfl, rfl⟩ <;> cases th <;> rfl

/-- A context that differs at most in the cycle of its next slot. -/
theorem Dev.takeSlot_ctx_same (c t x c' t' : Nat) : ((d.takeSlot c t x).ctx c' t').regs = (d.ctx c' t').regs ∧ ((d.takeSlot c t x).ctx c' t').pc = (d.ctx c' t').pc := by
  rw [Dev.takeSlot_ctx]
  split
  · next h =>
    have hk : d.ctx c' t' = d.ctx c t := by rw [Dev.ctx, h, Dev.ctx]
    rw [hk]
    exact ⟨rfl, rfl⟩
  · exact ⟨rfl, rfl⟩

theorem Dev.takeSlot_sameView (c t x : Nat) : d.sameView (d.takeSlot c t x) := by
  refine ⟨fun th => ?_, fun th => ?_, fun _ => rfl, rfl, rfl, rfl, rfl, rfl, rfl⟩ <;> cases th
  · exact (Dev.takeSlot_ctx_same ..).1
  · rfl
  · rfl
  · exact (Dev.takeSlot_ctx_same ..).2
  · rfl
  · rfl

theorem Dev.inSlot_sameView (th : Thread) : d.sameView (d.inSlot th fun _ d => d) := by
  cases th with
  | packet c t => exact d.takeSlot_sameView ..
  | _ => exact .refl

theorem Dev.inSlot_cnt (th : Thread) : (d.inSlot th fun _ d => d).cnt = d.cnt := by cases th <;> rfl
theorem Dev.inSlot_memByte (th : Thread) : (d.inSlot th fun _ d => d).memByte = d.memByte := by cases th <;> rfl

end View

section Frames

variable {s : State} {th : Thread} {i : SOp}

theorem Ready.issued_sameView (h : Ready s th i) : s.dev.sameView (s.dev.issued th) :=
  (Dev.fetch_sameButMemory h.2.2.1).sameView.trans (Dev.inSlot_sameView th)

/-- The issue of an instruction whose fetch is not translated takes the thread's slot alone. -/
theorem Ready.issued_untranslated (h : Ready s th i) (hu : s.dev.untranslated th) : s.dev.issued th = s.dev.inSlot th fun _ d => d := by
  rw [Dev.issued, Dev.fetch_untranslated hu h.2.2.1]

/-- A device seen as before, in which the thread then goes on, leaves all that a register instruction leaves. -/
theorem State.keeps_leave {e : Dev} (h : s.dev.sameView e) (rd : Fin 32) (v : DWord) (pc : Nat) (m : List Host.Cell) :
    s.keeps { s with dev := (e.leave th rd v pc).settle m } th rd := by
  obtain ⟨regs, pcs, control, csr, pkts, fifos, cores, out, raised⟩ := h
  obtain ⟨ctxs, thrs, hl⟩ := e.leave_eq th rd v pc
  refine ⟨fun th' r hr => ?_, fun th' hth => ?_, fun k => ?_, ?_, ?_, ?_, ?_, ?_, ?_, rfl⟩
  · show gget ((e.leave th rd v pc).tregs th') r = _
    rw [Dev.leave_tregs]
    split
    · next hth =>
      subst hth
      rw [gget_gset_ne _ _ (hr.resolve_left fun hn => hn rfl), regs]
    · rw [regs]
  · show (e.leave th rd v pc).tpc th' = _
    rw [Dev.leave_tpc, if_neg hth, pcs]
  · have hc := (e.leave_control th rd v pc k).trans (control k)
    simp only [Thr.control, Prod.mk.injEq] at hc
    exact hc
  all_goals
    simp only [hl, Dev.settle]
    assumption

/-- What an instruction that completes by its result or its jump alone writes: its destination, JAL's link, or nothing (R307 to R311, R313). -/
def SOp.dest? : SOp → Option (Fin 32)
  | .alu _ rd _ _ | .imm _ rd _ _ | .shi _ rd _ _ | .bfx _ rd _ _ _ | .bfi rd _ _ _ | .crc _ _ rd _ _ | .mix rd _ _ => some rd
  | .branch .. | .jump _ => some 0
  | .jal _ => some 31
  | _ => none

/-- Such an instruction of a thread that is ready leaves a value in its destination, and the thread goes on somewhere. -/
theorem Ready.on_dest (h : Ready s th i) {rd : Fin 32} (hd : i.dest? = some rd) :
    ∃ v pc, (s.on fun d => d.issue th i) = .next { s with dev := ((s.dev.issued th).leave th rd v pc).settle s.dev.mem } := by
  have hdec := decode_encode i h.2.2.2.1
  cases i with
  | alu | imm | shi | bfx | bfi | crc | mix =>
    cases hd
    exact ⟨_, _, h.on_compute hdec rfl⟩
  | branch op rs1 rs2 o =>
    cases hd
    exact ⟨_, _, h.on_core hdec rfl⟩
  | jump o =>
    cases hd
    exact ⟨_, _, h.on_core hdec rfl⟩
  | jal o =>
    cases hd
    exact ⟨_, _, h.on_core hdec rfl⟩
  | _ => cases hd

/-- The frame of such an instruction. -/
theorem Ready.dest_frame (h : Ready s th i) {c : Instr} (hx : exec c s = s.on fun d => d.issue th i) {rd : Fin 32} (hd : i.dest? = some rd) {s' : State}
    (hs : exec c s = .next s') :
    s.keeps s' th rd ∧ (s.dev.untranslated th → s'.dev.cnt = s.dev.cnt ∧ ∀ x, s'.dev.memByte x = s.dev.memByte x) := by
  obtain ⟨v, pc, hon⟩ := h.on_dest hd
  rw [hx, hon] at hs
  cases hs
  refine ⟨State.keeps_leave h.issued_sameView rd v pc _, fun hu => ?_⟩
  obtain ⟨ctxs, thrs, hl⟩ := (s.dev.issued th).leave_eq th rd v pc
  have hi := h.issued_untranslated hu
  have hm : (s.dev.inSlot th fun _ d => d).mem = s.dev.mem := by cases th <;> rfl
  refine ⟨?_, fun x => ?_⟩
  · rw [hl, hi]
    exact Dev.inSlot_cnt th
  · rw [hl, hi]
    show (Dev.settle s.dev.mem _).memByte x = _
    rw [← hm]
    exact (Dev.settle_memByte _ x).trans (congrFun (Dev.inSlot_memByte th) x)

end Frames

/-- What holds of every row of a table of commands holds of the row that a statement names. -/
theorem of_mem_rows {α β γ : Type} {P : α → β → γ → Prop} {l : List (α × β × γ)} {a : α} {b : β} {c : γ} (hmem : (a, b, c) ∈ l)
    (h : ∀ p ∈ l, P p.1 p.2.1 p.2.2) : P a b c := h _ hmem

/-- Settles O59: each of these commands issues its instruction, which leaves its destination alone changed. -/
theorem registerInstructionFrame : Obligations.RegisterInstructionFrame := by
  intro s s' th rd rs1 rs2 imm off far amount lsb wm signed ieee size c i dest hrow h hs
  have hx := of_mem_rows (P := fun c i dest => exec c s = (s.on fun d => d.issue th i) ∧ i.dest? = some dest) hrow (by
    repeat' refine List.forall_mem_cons.2 ⟨⟨rfl, rfl⟩, ?_⟩
    exact fun _ hn => absurd hn List.not_mem_nil)
  exact h.dest_frame hx.1 hx.2 hs

/-- Settles O57: register 0 is never written, and an instruction that has it for destination changes the program counter alone. -/
theorem zeroRegister : Obligations.ZeroRegister := by
  refine ⟨fun g v => ⟨gget_zero g, gset_zero g v⟩, fun g i j v hg => gget_gset hg i j v, fun s s' th rs1 rs2 imm h => ?_⟩
  have key : ∀ {v : DWord}, Host.Outcome.next (φ := Fault) (ρ := Refusal) { s with dev := ((s.dev.issued th).leave th 0 v (s.dev.tpc th + 4)).settle s.dev.mem } = .next s' →
      (s.dev.issued th).tregs th = s.dev.tregs th → s'.dev.tregs th = s.dev.tregs th ∧ s'.dev.tpc th = (s.dev.tpc th + 4) % 2 ^ 64 := by
    intro v hs hr
    cases hs
    have hregs := (s.dev.issued th).leave_tregs th th 0 v (s.dev.tpc th + 4)
    have hpc := (s.dev.issued th).leave_tpc th th 0 v (s.dev.tpc th + 4)
    rw [if_pos rfl, gset_zero, hr] at hregs
    rw [if_pos rfl] at hpc
    cases th <;> exact ⟨hregs, hpc⟩
  rcases h with ⟨h, hs⟩ | ⟨h, hs⟩
  · have hx : exec (.add th 0 rs1 rs2) s = s.on fun d => d.issue th (.alu .add 0 rs1 rs2) := rfl
    rw [hx, h.on_compute (decode_encode _ h.2.2.2.1) rfl] at hs
    exact key hs h.tregs
  · have hx : exec (.addi th 0 rs1 imm) s = s.on fun d => d.issue th (.imm .addi 0 rs1 imm) := rfl
    rw [hx, h.on_compute (decode_encode _ h.2.2.2.1) rfl] at hs
    exact key hs h.tregs

end Sys2Proof.Machine

/-! PROOFS. Register words and their fields after a write (R4), and traps and the return from them (R324, R325). -/

namespace Sys2Proof.Machine

open Sys2Proof

/-! ### Register words and fields -/

section Words

variable (d : Dev)

@[simp] theorem Dev.setWord_word (k k' : RegKey) (v : Word) : (d.setWord k v).word k' = if k' = k then v else d.word k' := Sparse.get_put ..

/-- A field within a word of 32 bits. -/
def Fld.inWord (f : Fld) : Prop := f.lo ≤ f.hi ∧ f.hi < 32

variable {f g : Fld}

theorem Fld.testBit_ofWord (v : Word) (i : Nat) : (f.ofWord v).testBit i = (decide (i < f.width) && v.toNat.testBit (i + f.lo)) := by
  rw [Fld.ofWord, bitsOf, Nat.testBit_mod_two_pow, Nat.testBit_div_two_pow]
  rfl

/-- A word with a field replaced, bit by bit. -/
theorem Fld.testBit_into (hf : f.inWord) (v : Word) (x : Nat) {j : Nat} (hj : j < 32) :
    (f.into v x).toNat.testBit j = if f.lo ≤ j ∧ j ≤ f.hi then x.testBit (j - f.lo) else v.toNat.testBit j := by
  obtain ⟨hl, hh⟩ := hf
  have hw : f.width = f.hi - f.lo + 1 := by unfold Fld.width; omega
  have hlow : v.toNat % 2 ^ f.lo < 2 ^ f.lo := Nat.mod_lt _ (Nat.two_pow_pos _)
  have hmid : x % 2 ^ f.width < 2 ^ f.width := Nat.mod_lt _ (Nat.two_pow_pos _)
  have hfld : bitsOf v.toNat f.hi f.lo = v.toNat / 2 ^ f.lo % 2 ^ (f.hi - f.lo + 1) := by rw [bitsOf, ← hw]; rfl
  rw [Fld.into, hfld, replace_field, ← hw, BitVec.toNat_ofNat, Nat.testBit_mod_two_pow, decide_eq_true hj, Bool.true_and, Nat.testBit_two_pow_mul_add _ hlow,
    Nat.testBit_two_pow_mul_add _ hmid, Nat.testBit_mod_two_pow, Nat.testBit_mod_two_pow, Nat.testBit_div_two_pow, Nat.testBit_div_two_pow]
  by_cases h1 : j < f.lo
  · rw [if_pos h1, if_neg (by omega), decide_eq_true h1, Bool.true_and]
  · by_cases h2 : j ≤ f.hi
    · have hin : j - f.lo < f.width := by omega
      rw [if_neg h1, if_pos hin, if_pos ⟨by omega, h2⟩, decide_eq_true hin, Bool.true_and]
    · rw [if_neg h1, if_neg (by omega), if_neg (by omega), show j - f.lo - f.width + f.width + f.lo = j by omega]

theorem Fld.ofWord_into (hf : f.inWord) (v : Word) (x : Nat) : f.ofWord (f.into v x) = x % 2 ^ f.width := by
  apply Nat.eq_of_testBit_eq
  intro i
  rw [Fld.testBit_ofWord, Nat.testBit_mod_two_pow]
  by_cases hi : i < f.width
  · obtain ⟨hl, hh⟩ := hf
    have hw : i + f.lo ≤ f.hi := by unfold Fld.width at hi; omega
    rw [Fld.testBit_into ⟨hl, hh⟩ v x (by omega), if_pos ⟨by omega, hw⟩, Nat.add_sub_cancel]
  · simp only [hi, decide_false, Bool.false_and]

/-- Another field of the word keeps its value. -/
theorem Fld.ofWord_into_of_apart (hf : f.inWord) (hg : g.inWord) (h : f.hi < g.lo ∨ g.hi < f.lo) (v : Word) (x : Nat) : g.ofWord (f.into v x) = g.ofWord v := by
  apply Nat.eq_of_testBit_eq
  intro i
  rw [Fld.testBit_ofWord, Fld.testBit_ofWord]
  by_cases hi : i < g.width
  · obtain ⟨hl, hh⟩ := hg
    have hw : i + g.lo ≤ g.hi := by unfold Fld.width at hi; omega
    rw [Fld.testBit_into hf v x (by omega), if_neg (by omega)]
  · simp only [hi, decide_false, Bool.false_and]

theorem Dev.setFld_fld_same (hf : f.inWord) (n i x : Nat) : (d.setFld f n i x).fld f n i = x % 2 ^ f.width := by
  rw [Dev.fld, Dev.setFld, Dev.setWord_word, if_pos rfl, Fld.ofWord_into hf]

/-- A field of another word keeps its value. -/
theorem Dev.setFld_fld_of_ne {n i n' i' : Nat} (h : g.key n' i' ≠ f.key n i) (x : Nat) : (d.setFld f n i x).fld g n' i' = d.fld g n' i' := by
  rw [Dev.fld, Dev.setFld, Dev.setWord_word, if_neg h, ← Dev.fld]

/-- A field apart from the one that is set keeps its value, whichever their words. -/
theorem Dev.setFld_fld_of_apart (hf : f.inWord) (hg : g.inWord) (h : f.hi < g.lo ∨ g.hi < f.lo) (n i n' i' x : Nat) :
    (d.setFld f n i x).fld g n' i' = d.fld g n' i' := by
  by_cases hk : g.key n' i' = f.key n i
  · rw [Dev.fld, Dev.setFld, Dev.setWord_word, if_pos hk, Fld.ofWord_into_of_apart hf hg h, ← hk, ← Dev.fld]
  · exact d.setFld_fld_of_ne hk x

end Words

/-! ### Traps of service cores and of the Keystone (R323 to R325) -/

/-- The privilege of a handler fits the field PRIV. -/
theorem trapPriv_lt (k : Nat) : trapPriv k < 4 := by
  unfold trapPriv
  split <;> decide

/-- The fields of TSTATE on the entry of a handler (R324). -/
theorem trapState_fields (s : Nat) {p : Nat} (hp : p < 4) :
    bitsOf (trapState s p) 5 4 = s % 4 ∧ bitOf (trapState s p) 6 = bitOf s 3 ∧ bitOf (trapState s p) 3 = false ∧ bitOf (trapState s p) 7 = true ∧ trapState s p % 4 = p := by
  have hn := natOf_lt_two (bitOf s 3)
  unfold trapState
  refine ⟨?_, bitOf_of_div (by omega), bitOf_of_div (b := false) ?_, bitOf_of_div (b := true) ?_, by omega⟩
  · rw [bitsOf]
    omega
  · show _ = 0
    omega
  · show _ = 1
    omega

/-- TSTATE behind an ERET: PRIV and IE are those saved, INTRAP is clear (R324). -/
theorem eretState_fields (s : Nat) :
    let r := bitsOf s 6 4 * 16 + natOf (bitOf s 6) * 8 + bitsOf s 5 4
    r % 4 = bitsOf s 5 4 ∧ bitOf r 3 = bitOf s 6 ∧ bitOf r 7 = false := by
  have hn := natOf_lt_two (bitOf s 6)
  have hp : bitsOf s 5 4 < 4 := Nat.mod_lt _ (by decide)
  have hx : bitsOf s 6 4 < 8 := Nat.mod_lt _ (by decide)
  refine ⟨by omega, bitOf_of_div (by omega), bitOf_of_div (b := false) ?_⟩
  show _ = 0
  omega

variable (d : Dev)

/-- A synchronous trap outside a handler, but a call and a memory error, enters the handler of its thread. -/
theorem Dev.trap_enters {th : Thread} (h : ∀ c t, th ≠ .packet c t) {cause : Nat} (h10 : cause ≠ 0x10) (h11 : cause ≠ 0x11) (h7 : bitOf (d.thr (thrOf th)).tstate 7 = false)
    (pc : Nat) (tinfo : DWord) :
    d.trap th cause pc tinfo = d.enterTrap (thrOf th) cause pc tinfo (if (d.thr (thrOf th)).tstate % 4 = 0 then 0 else 0x100) := by
  have hc : (cause == 0x10) = false := beq_eq_false_iff_ne.2 h10
  cases th with
  | packet c t => exact absurd rfl (h c t)
  | service c t => simp only [Dev.trap, h7, Bool.false_eq_true, if_false, hc, h11]
  | keystone => simp only [Dev.trap, h7, Bool.false_eq_true, if_false, hc]

/-- ERET of a thread with a record of its own, to an aligned address. -/
theorem Dev.eret_returns {th : Thread} (h : ∀ c t, th ≠ .packet c t) (h4 : (d.thr (thrOf th)).tpc % 4 = 0) (pc : Nat) :
    let x := d.thr (thrOf th)
    let r := (d.eret th pc).thr (thrOf th)
    r.tstate = bitsOf x.tstate 6 4 * 16 + natOf (bitOf x.tstate 6) * 8 + bitsOf x.tstate 5 4 ∧ r.pc = x.tpc % 2 ^ 64 ∧ r.regs = x.regs := by
  dsimp only
  have he : d.eret th pc = (d.updThr (thrOf th) fun y => { y with
      tstate := bitsOf (d.thr (thrOf th)).tstate 6 4 * 16 + natOf (bitOf (d.thr (thrOf th)).tstate 6) * 8 + bitsOf (d.thr (thrOf th)).tstate 5 4 }).leave th 0 0
      (d.thr (thrOf th)).tpc := by
    unfold Dev.eret
    dsimp only
    rw [if_neg (by omega)]
  rw [he, Dev.leave_thr_eq _ _ _ _ h, Dev.updThr_thr, if_pos rfl, Dev.updThr_thr, if_pos rfl]
  exact ⟨rfl, rfl, rfl⟩

/-- Settles O58: a trap outside a handler enters it and saves what ERET behind it gives back; one within a handler stops a service core. -/
theorem trapEntryAndReturn : Obligations.TrapEntryAndReturn := by
  refine ⟨fun d th cause pc tinfo hth h10 h11 h7 => ?_, fun d c t cause pc tinfo h7 => ?_⟩
  · dsimp only
    rw [d.trap_enters hth h10 h11 h7]
    generalize hoff : (if (d.thr (thrOf th)).tstate % 4 = 0 then 0 else 0x100) = off
    have hthr : ∀ k, (d.enterTrap (thrOf th) cause pc tinfo off).thr k = if k = thrOf th then { d.thr (thrOf th) with
        tpc := pc % 2 ^ 64, tcode := cause, tinfo := tinfo.toNat, tstate := trapState (d.thr (thrOf th)).tstate (trapPriv (thrOf th))
        pc := ((d.thr (thrOf th)).tentry - (d.thr (thrOf th)).tentry % 1024 + off) % 2 ^ 64, blocked := none, wfe := false } else d.thr k :=
      fun k => d.updThr_thr _ _ _
    have hself := hthr (thrOf th)
    rw [if_pos rfl] at hself
    obtain ⟨h54, h6, h3, h7', hpriv⟩ := trapState_fields (d.thr (thrOf th)).tstate (trapPriv_lt (thrOf th))
    have hkey : trapPriv (thrOf th) = if th = .keystone then 2 else 1 := by
      have hk : thrOf th = keystoneThr ↔ th = .keystone := thrOf_inj (th' := .keystone) hth (fun _ _ h => by cases h)
      simp only [trapPriv, hk]
    refine ⟨by rw [hself], by rw [hself], by rw [hself], ?_, ?_, ?_, ?_, ?_, by rw [hself], by rw [hself], fun k hk => by rw [hthr, if_neg hk], rfl, rfl, fun h4 pc' => ?_⟩
    · rwa [hself]
    · rwa [hself]
    · rwa [hself]
    · rwa [hself]
    · rwa [hself, ← hkey]
    have h4' : ((d.enterTrap (thrOf th) cause pc tinfo off).thr (thrOf th)).tpc % 4 = 0 := by
      rw [hself]
      show pc % 2 ^ 64 % 4 = 0
      omega
    obtain ⟨hst, hpc, hregs⟩ := Dev.eret_returns _ hth h4' pc'
    rw [hself] at hst hpc hregs
    obtain ⟨e4, e3, e7⟩ := eretState_fields (trapState (d.thr (thrOf th)).tstate (trapPriv (thrOf th)))
    rw [hst, hpc, hregs]
    exact ⟨e4.trans h54, e3.trans h6, e7, Nat.mod_mod _ _, rfl⟩
  · have he : d.trap (.service c t) cause pc tinfo = d.doubleTrap c.val := by
      simp only [Dev.trap, h7, if_true, Dev.trapTwice]
    have hst : F.SCC_CORE_STATE.inWord := ⟨by decide, by decide⟩
    have hsf : F.SCC_CORE_SFAULT.inWord := ⟨by decide, by decide⟩
    dsimp only
    rw [he, Dev.doubleTrap]
    refine ⟨?_, ?_, by simp only [Dev.setFld_thrs]⟩
    · rw [Dev.setFld_fld_of_apart _ hsf hst (.inl (by decide)), Dev.setFld_fld_same _ hst]
      rfl
    · rw [Dev.flag, Dev.setFld_fld_same _ hsf]
      rfl

end Sys2Proof.Machine

/-! PROOFS. Loads, stores and atomics that complete as they issue (R312, R314, R328, R336, R340), and what they leave alone. -/

namespace Sys2Proof.Machine

open Sys2Proof

/-- The same as `of_mem_rows` for rows of two columns. -/
theorem of_mem_pairs {α β : Type} {P : α → β → Prop} {l : List (α × β)} {a : α} {b : β} (hmem : (a, b) ∈ l) (h : ∀ p ∈ l, P p.1 p.2) : P a b := h _ hmem

variable {s : State} {c : Instr} {th : Thread} {rd rs1 rs2 : Fin 32} {imm : BitVec 16}

/-! ### What a memory instruction of a ready thread gives -/

/-- A memory instruction whose access is done: the value extended into its register. -/
theorem Dev.memInstr_done {d e : Dev} {i : SOp} {r : Fin 32} {n v : Nat} {sg : Bool} (h : d.access th (d.tregs th) i none = some (.done e v, r, n, sg)) (w pc : Nat) :
    d.memInstr th w pc i none = e.leave th r (extend n sg v) (pc + 4) := by
  rw [Dev.memInstr, h]

theorem Ready.gives_load {op : LoadOp} {size : Nat} {sg : Bool} (h : Ready s th (.load op rd rs1 imm)) (hx : exec c s = s.on fun d => d.issue th (.load op rd rs1 imm))
    (hs : op.shape = (size, sg)) {e : Dev} {v : Nat} (hl : (s.dev.issued th).load th (effAddr (s.dev.tregs th) rs1 imm) size none = .done e v) :
    Gives c s (e.leave th rd (extend size sg v) (s.dev.tpc th + 4)) := by
  have hg := gives_of_core h hx (decode_encode_load rd rs1 op imm) rfl
  rwa [Dev.coreInstr_load, Dev.memInstr_done (e := e) (v := v) (by rw [h.tregs, Dev.access, hs, hl])] at hg

theorem Ready.gives_store {op : StoreOp} {size : Nat} (h : Ready s th (.store op rd rs1 imm)) (hx : exec c s = s.on fun d => d.issue th (.store op rd rs1 imm))
    (hs : op.size = size) {e : Dev}
    (hl : (s.dev.issued th).storeOut th (effAddr (s.dev.tregs th) rs1 imm) size ((gget (s.dev.tregs th) rd).toNat % 2 ^ (8 * size)) none = .done e 0) :
    Gives c s (e.leave th 0 0 (s.dev.tpc th + 4)) := by
  have hg := gives_of_core h hx (decode_encode_store rd rs1 op imm) rfl
  rwa [Dev.coreInstr_store, Dev.memInstr_done (e := e) (v := 0) (by rw [h.tregs, Dev.access, hs, hl])] at hg

theorem Ready.gives_atomic {op : AtomicOp} {word acq rel : Bool} (h : Ready s th (.atomic op word acq rel rd rs1 rs2))
    (hx : exec c s = s.on fun d => d.issue th (.atomic op word acq rel rd rs1 rs2)) {e : Dev} {v : Nat}
    (hl : (s.dev.issued th).atomic th op (gget (s.dev.tregs th) rs1).toNat (if word then 4 else 8) (gget (s.dev.tregs th) rd).toNat (gget (s.dev.tregs th) rs2).toNat none =
      .done e v) :
    Gives c s (e.leave th rd (BitVec.ofNat 64 v) (s.dev.tpc th + 4)) := by
  have hg := gives_of_core h hx (decode_encode_atomic rd rs1 rs2 op word acq rel) rfl
  rwa [Dev.coreInstr_atomic, Dev.memInstr_done (e := e) (v := v) (by rw [h.tregs, Dev.access, hl])] at hg

/-! ### The accesses that complete at once -/

section Accesses

variable {d : Dev} {va n key : Nat}

theorem not_service_packet (core : Fin 272) (ctx : Fin 16) : ∀ c t, Thread.packet core ctx ≠ .service c t := fun _ _ h => by cases h

theorem not_service_keystone : ∀ c t, Thread.keystone ≠ .service c t := fun _ _ h => by cases h

/-- A load from local memory (R340). -/
theorem Dev.load_local (ht : ∀ c t, th ≠ .service c t) (ha : va % n = 0) (hg : d.target th va n false = .local_ key) (hm : d.marked key n = false) :
    d.load th va n none = .done d (d.memVal key n) := by
  rw [Dev.load_issue ht ha hg (by simp) rfl, Dev.loadNow, hm]
  rfl

/-- A load of the Keystone from memory, which counts toward its page (R328, R368). -/
theorem Dev.load_keystone (ha : va % n = 0) (hg : d.target .keystone va n false = .mem) (hh : d.held va = false) (ht : d.tagBad va n = false) (hm : d.marked va n = false) :
    d.load .keystone va n none = .done (d.touchPages 4 va n) (d.memVal va n) := by
  have hw : d.mustWait .keystone va .mem = false := hh
  rw [Dev.load_issue not_service_keystone ha hg (by simp) hw, Dev.loadNow, Dev.memLoad, ht, hm]
  rfl

/-- An atomic whose memory is local. -/
theorem Dev.atomicMem_local (op : AtomicOp) (cmp operand : Nat) (hm : d.marked key n = false) : d.atomicMem th op va key n cmp operand true =
    .done (match op.eval n (d.memVal key n) cmp operand with
      | some v => d.storeFree key (leBytes n v)
      | none => d) (d.memVal key n) := by
  unfold Dev.atomicMem
  rw [if_pos rfl, Dev.loadNow, hm]
  show (match op.eval n (d.memVal key n) cmp operand with | some v => _ | none => _) = _
  cases op.eval n (d.memVal key n) cmp operand <;> rfl

/-- An atomic of the Keystone. -/
theorem Dev.atomicMem_keystone (op : AtomicOp) (cmp operand : Nat) (ht : d.tagBad va n = false) (hm : d.marked va n = false) :
    d.atomicMem .keystone op va va n cmp operand false = .done (match op.eval n (d.memVal va n) cmp operand with
      | some v => (d.touchPages 4 va n).store va (leBytes n v)
      | none => d.touchPages 4 va n) (d.memVal va n) := by
  unfold Dev.atomicMem
  rw [if_neg (by decide), Dev.memLoad, ht, hm]
  show (match op.eval n (d.memVal va n) cmp operand with | some v => _ | none => _) = _
  cases op.eval n (d.memVal va n) cmp operand <;> rfl

end Accesses

/-- Settles O28: each of these accesses is done as it issues, and its instruction leaves the value that it read. -/
theorem directMemoryInstructions : Obligations.DirectMemoryInstructions := by
  intro s th rd rs1 rs2 imm word acq rel g d pc a at_ n
  refine ⟨fun c op size sg hrow h ha => ?_, fun c op size hrow h ha => ?_, fun c op hrow h ha hb => ?_⟩
  · have hx := of_mem_rows (P := fun c op (p : Nat × Bool) => exec c s = (s.on fun d => d.issue th (.load op rd rs1 imm)) ∧ op.shape = p) hrow (by
      repeat' refine List.forall_mem_cons.2 ⟨⟨rfl, rfl⟩, ?_⟩
      exact fun _ hn => absurd hn List.not_mem_nil)
    refine ⟨fun core ctx key hth hg hm => ?_, fun hth hg hh ht hm => ?_⟩ <;> subst hth
    · exact h.gives_load hx.1 hx.2 (Dev.load_local (not_service_packet core ctx) ha hg hm)
    · exact h.gives_load hx.1 hx.2 (Dev.load_keystone ha hg hh ht hm)
  · have hx := of_mem_rows (P := fun c op (size : Nat) => exec c s = (s.on fun d => d.issue th (.store op rd rs1 imm)) ∧ op.size = size) hrow (by
      repeat' refine List.forall_mem_cons.2 ⟨⟨rfl, rfl⟩, ?_⟩
      exact fun _ hn => absurd hn List.not_mem_nil)
    refine ⟨fun core ctx key hth hg => ?_, fun core ctx hth hg hl => ?_, fun hth hg hh => ?_⟩ <;> subst hth
    · exact h.gives_store hx.1 hx.2 (Dev.storeOut_local (not_service_packet core ctx) ha hg _)
    · exact h.gives_store hx.1 hx.2 (Dev.storeOut_packet ha hg _ hl)
    · exact h.gives_store hx.1 hx.2 (Dev.storeOut_keystone ha hg _ hh)
  · have hx := of_mem_pairs (P := fun c op => exec c s = s.on fun d => d.issue th (.atomic op word acq rel rd rs1 rs2)) hrow (by
      repeat' refine List.forall_mem_cons.2 ⟨rfl, ?_⟩
      exact fun _ hn => absurd hn List.not_mem_nil)
    intro x swapped
    have hsw : ∀ old, swapped old = op.eval n old (gget g rd).toNat (gget g rs2).toNat := by
      intro old
      cases op <;> rfl
    refine ⟨fun core ctx key hth hg hm => ?_, fun hth hg hh ht hm => ?_⟩ <;> subst hth <;> rw [hsw]
    · exact h.gives_atomic hx ((Dev.atomic_local (not_service_packet core ctx) ha hb hg op _ _).trans (Dev.atomicMem_local op _ _ hm))
    · exact h.gives_atomic hx ((Dev.atomic_keystone ha hb hg hh op _ _).trans (Dev.atomicMem_keystone op _ _ ht hm))

/-! ### What stores leave of memory -/

theorem leBytes_mod (n x : Nat) : leBytes n (x % 2 ^ (8 * n)) = leBytes n x := by
  induction n generalizing x with
  | zero => rfl
  | succ n ih =>
    have hp : 2 ^ (8 * (n + 1)) = 256 * 2 ^ (8 * n) := by rw [Nat.mul_add, Nat.pow_add, Nat.mul_comm]
    have hd : x % 2 ^ (8 * (n + 1)) / 256 = x / 256 % 2 ^ (8 * n) := by rw [hp, Nat.mod_mul_right_div_self]
    have hb : BitVec.ofNat 8 (x % 2 ^ (8 * (n + 1))) = BitVec.ofNat 8 x := by
      apply BitVec.eq_of_toNat_eq
      rw [BitVec.toNat_ofNat, BitVec.toNat_ofNat, hp]
      exact Nat.mod_mul_right_mod x 256 _
    rw [leBytes, leBytes, hd, ih, hb]

theorem leBytes_getD {n j : Nat} (h : j < n) (x : Nat) : (leBytes n x).getD j 0 = BitVec.ofNat 8 (x / 2 ^ (8 * j)) := by
  induction n generalizing x j with
  | zero => omega
  | succ n ih =>
    cases j with
    | zero => rw [Nat.mul_zero, Nat.pow_zero, Nat.div_one]; rfl
    | succ j =>
      have hp : 2 ^ (8 * (j + 1)) = 256 * 2 ^ (8 * j) := by rw [Nat.mul_add, Nat.pow_add, Nat.mul_comm]
      rw [hp, ← Nat.div_div_eq_div_mul]
      exact ih (by omega) (x / 256)

section Memory

variable (d : Dev) (a : Nat) (bs : List Byte) (m : Bool)

/-- A byte after a store without the memory protection. -/
theorem Dev.storeFree_memByte (x : Nat) : (d.storeFree a bs m).memByte x = if a ≤ x ∧ x < a + bs.length then bs.getD (x - a) 0 else d.memByte x := by
  obtain ⟨_, _, h⟩ := d.storeFree_eq a bs m
  obtain ⟨_, hr⟩ := d.storeRaw_eq a bs
  rw [← Dev.storeRaw_memByte, h, hr]
  rfl

theorem Dev.storeFree_cnt : (d.storeFree a bs m).cnt = d.cnt := by
  obtain ⟨_, _, h⟩ := d.storeFree_eq a bs m
  rw [h]

/-- The pieces of a range lie within it. -/
theorem piecesAt_within {k n : Nat} (hk : 0 < k) {p : Nat × Nat} (h : p ∈ piecesAt k a n) : a ≤ p.1 ∧ p.1 + p.2 ≤ max p.1 (a + n) := by
  obtain ⟨i, _, rfl⟩ := List.mem_map.1 h
  have hmod := Nat.mod_lt a hk
  have hle := Nat.mod_le a k
  dsimp only
  refine ⟨?_, by omega⟩
  split
  · exact Nat.le_refl a
  · have : k ≤ k * i := Nat.le_mul_of_pos_right k (by omega)
    omega

theorem sliceB_length (o n : Nat) : (sliceB bs o n).length = n := by
  rw [sliceB, List.length_map, List.length_range]

/-- A store leaves the bytes outside its range, whatever of it the memory protection lets through (R412). -/
theorem Dev.storeMarked_memByte_outside {x : Nat} (hx : x < a ∨ a + bs.length ≤ x) : (d.storeMarked a bs m).memByte x = d.memByte x := by
  unfold Dev.storeMarked
  split
  · rw [Dev.storeFree_memByte, if_neg (by omega)]
  · have key : ∀ (l : List (Nat × Nat)), (∀ p ∈ l, a ≤ p.1 ∧ p.1 + p.2 ≤ max p.1 (a + bs.length)) → ∀ e : Dev,
        (l.foldl (fun d p => if d.protected p.1 p.2 then d else d.storeFree p.1 (sliceB bs (p.1 - a) p.2) m) e).memByte x = e.memByte x := by
      intro l hl
      induction l with
      | nil => exact fun _ => rfl
      | cons p t ih =>
        intro e
        have hp := hl p List.mem_cons_self
        rw [List.foldl_cons, ih fun q hq => hl q (List.mem_cons_of_mem p hq)]
        split
        · rfl
        · rw [Dev.storeFree_memByte, sliceB_length, if_neg (by omega)]
    exact key _ (fun p hp => piecesAt_within a (by decide) hp) _

/-- Accesses are counted in the parcels. -/
theorem Dev.touchPages_eq (r n : Nat) : ∃ parcels, d.touchPages r a n = { d with parcels := parcels } := by
  have touch : ∀ (e : Dev) (id : Nat), ∃ parcels, e.touch id r = { e with parcels := parcels } := by
    intro e id
    unfold Dev.touch Dev.updParcel
    split <;> exact ⟨_, rfl⟩
  have each : ∀ (l : List (Nat × Nat)) (e : Dev), ∃ parcels, (e.each l fun p d => d.touch (fwpageId (placedPage p.1)) r) = { e with parcels := parcels } := by
    intro l
    induction l with
    | nil => exact fun e => ⟨_, rfl⟩
    | cons p t ih =>
      intro e
      obtain ⟨_, h1⟩ := touch e (fwpageId (placedPage p.1))
      obtain ⟨_, h2⟩ := ih (e.touch (fwpageId (placedPage p.1)) r)
      rw [Dev.each, List.foldl_cons, ← Dev.each, h2, h1]
      exact ⟨_, rfl⟩
  unfold Dev.touchPages
  split
  · exact ⟨_, rfl⟩
  · exact each _ d

theorem Dev.store_free (hp : d.protected a bs.length = false) : d.store a bs = d.storeFree a bs false := by
  rw [Dev.store, Dev.storeMarked, hp]
  rfl

theorem Dev.touchPages_sameView (r n : Nat) : d.sameView (d.touchPages r a n) := by
  obtain ⟨_, h⟩ := d.touchPages_eq a r n
  rw [h]
  refine ⟨fun th => ?_, fun th => ?_, fun _ => rfl, rfl, rfl, rfl, rfl, rfl, rfl⟩ <;> cases th <;> rfl

/-- A store that joins the outstanding ones of a context is seen nowhere yet. -/
theorem Dev.outstanding_sameView (c t : Nat) (l : List (Nat × Nat × Nat)) : d.sameView (d.updCtx c t fun k => { k with stores := k.stores ++ l }) := by
  have same : ∀ c' t', ((d.updCtx c t fun k => { k with stores := k.stores ++ l }).ctx c' t').regs = (d.ctx c' t').regs ∧
      ((d.updCtx c t fun k => { k with stores := k.stores ++ l }).ctx c' t').pc = (d.ctx c' t').pc := by
    intro c' t'
    rw [Dev.updCtx_ctx]
    split
    · next h =>
      have hk : d.ctx c' t' = d.ctx c t := by rw [Dev.ctx, h, Dev.ctx]
      rw [hk]
      exact ⟨rfl, rfl⟩
    · exact ⟨rfl, rfl⟩
  refine ⟨fun th => ?_, fun th => ?_, fun _ => rfl, rfl, rfl, rfl, rfl, rfl, rfl⟩ <;> cases th
  · exact (same _ _).1
  · rfl
  · rfl
  · exact (same _ _).2
  · rfl
  · rfl

end Memory

/-! ### The frames of loads and stores -/

section Frames

variable {s' : State} {i : SOp}

theorem untranslated_packet (d : Dev) (core : Fin 272) (ctx : Fin 16) : d.untranslated (.packet core ctx) := fun _ _ h => by cases h

theorem untranslated_keystone (d : Dev) : d.untranslated .keystone := fun _ _ h => by cases h

/-- What the issue leaves of memory where the fetch is not translated. -/
theorem Ready.issued_memory (h : Ready s th i) (hu : s.dev.untranslated th) :
    (s.dev.issued th).mem = s.dev.mem ∧ (s.dev.issued th).cnt = s.dev.cnt ∧ (s.dev.issued th).memByte = s.dev.memByte := by
  rw [h.issued_untranslated hu]
  cases th <;> exact ⟨rfl, rfl, rfl⟩

/-- A command that ends with its thread going on, on a device seen as before: what it leaves is what that device has. -/
theorem frame_of_gives {e : Dev} {r : Fin 32} {v : DWord} {pc : Nat} (hg : Gives c s (e.leave th r v pc)) (hs : exec c s = .next s') (hv : s.dev.sameView e)
    (hm : e.mem = s.dev.mem) : s.keeps s' th r ∧ s'.dev.cnt = e.cnt ∧ ∀ x, s'.dev.memByte x = e.memByte x := by
  rw [Gives, hs] at hg
  cases hg
  obtain ⟨_, _, hl⟩ := e.leave_eq th r v pc
  refine ⟨State.keeps_leave hv r v pc _, ?_, fun x => ?_⟩
  · rw [hl]
    rfl
  · rw [hl, ← hm]
    exact Dev.settle_memByte _ x

end Frames

/-- Settles O60: what each of the accesses of O28 leaves behind is seen as before, but for the bytes of a store. -/
theorem loadAndStoreFrame : Obligations.LoadAndStoreFrame := by
  intro s s' th rd rs1 imm a d
  obtain ⟨loads, stores, -⟩ := directMemoryInstructions s th rd rs1 0 imm false false false
  refine ⟨fun c op size hrow h ha hs hwhere => ?_, fun c op size hrow h ha hs => ?_⟩
  · have hfull := of_mem_rows (P := fun c op (size : Nat) => ∃ sg, (c, op, size, sg) ∈ [(Instr.lb th rd rs1 imm, LoadOp.lb, 1, true), (.lbu th rd rs1 imm, .lbu, 1, false),
        (.lh th rd rs1 imm, .lh, 2, true), (.lhu th rd rs1 imm, .lhu, 2, false), (.lw th rd rs1 imm, .lw, 4, true), (.lwu th rd rs1 imm, .lwu, 4, false),
        (.ld th rd rs1 imm, .ld, 8, false)]) hrow (by
      simp only [List.forall_mem_cons, List.not_mem_nil, false_implies, implies_true, and_true]
      exact ⟨⟨true, by simp⟩, ⟨false, by simp⟩, ⟨true, by simp⟩, ⟨false, by simp⟩, ⟨true, by simp⟩, ⟨false, by simp⟩, ⟨false, by simp⟩⟩)
    obtain ⟨sg, hmem⟩ := hfull
    obtain ⟨packet, keystone⟩ := loads c op size sg hmem h ha
    rcases hwhere with ⟨core, ctx, key, hth, hg, hm⟩ | ⟨hth, hg, hh, ht, hm⟩
    · have hgives := packet core ctx key hth hg hm
      subst hth
      obtain ⟨im, ic, ib⟩ := h.issued_memory (untranslated_packet s.dev core ctx)
      obtain ⟨hk, hc, hb⟩ := frame_of_gives hgives hs h.issued_sameView im
      exact ⟨hk, hc.trans ic, fun x => (hb x).trans (congrFun ib x)⟩
    · have hgives := keystone hth hg hh ht hm
      subst hth
      obtain ⟨im, ic, ib⟩ := h.issued_memory (untranslated_keystone s.dev)
      obtain ⟨_, he⟩ := (s.dev.issued .keystone).touchPages_eq a 4 size
      obtain ⟨hk, hc, hb⟩ := frame_of_gives hgives hs (h.issued_sameView.trans (Dev.touchPages_sameView _ a 4 size)) (by rw [he]; exact im)
      rw [he] at hc hb
      exact ⟨hk, hc.trans ic, fun x => (hb x).trans (congrFun ib x)⟩
  · intro v
    obtain ⟨local_, outstanding, keystone⟩ := stores c op size hrow h ha
    have hval : ∀ (e : Dev) (key : Nat), (e.storeFree key (leBytes size (v % 2 ^ (8 * size)))).memByte = fun x =>
        if key ≤ x ∧ x < key + size then BitVec.ofNat 8 (v / 2 ^ (8 * (x - key))) else e.memByte x := by
      intro e key
      funext x
      rw [Dev.storeFree_memByte, leBytes_mod, leBytes_length]
      split
      · rw [leBytes_getD (by omega)]
      · rfl
    refine ⟨fun core ctx key hth hg => ?_, fun hth hg hh => ?_, fun core ctx hth hg hl => ?_⟩
    · have hgives := local_ core ctx key hth hg
      subst hth
      obtain ⟨im, ic, ib⟩ := h.issued_memory (untranslated_packet s.dev core ctx)
      have hsame := Dev.storeFree_sameButMemory (s.dev.issued (.packet core ctx)) key (leBytes size (v % 2 ^ (8 * size))) false
      have hmem : (d.storeFree key (leBytes size (v % 2 ^ (8 * size)))).mem = s.dev.mem := by
        obtain ⟨_, _, _, _, _, he⟩ := hsame
        rw [he]
        exact im
      obtain ⟨hk, hc, hb⟩ := frame_of_gives hgives hs (h.issued_sameView.trans hsame.sameView) hmem
      refine ⟨hk, (hc.trans (Dev.storeFree_cnt ..)).trans ic, fun x hx => ?_, fun j hj => ?_⟩
      · rw [hb, hval]
        dsimp only
        rw [if_neg (by omega), ib]
      · rw [hb, hval]
        dsimp only
        rw [if_pos (by omega), Nat.add_sub_cancel_left]
    · have hgives := keystone hth hg hh
      subst hth
      obtain ⟨im, ic, ib⟩ := h.issued_memory (untranslated_keystone s.dev)
      obtain ⟨_, he⟩ := (s.dev.issued .keystone).touchPages_eq a 4 size
      have hsame := Dev.storeMarked_sameButMemory (d.touchPages 4 a size) a (leBytes size (v % 2 ^ (8 * size))) false
      have hmem : ((d.touchPages 4 a size).store a (leBytes size (v % 2 ^ (8 * size)))).mem = s.dev.mem := by
        obtain ⟨_, _, _, _, _, hst⟩ := hsame
        rw [Dev.store, hst, he]
        exact im
      obtain ⟨hk, hc, hb⟩ := frame_of_gives hgives hs ((h.issued_sameView.trans (Dev.touchPages_sameView _ a 4 size)).trans hsame.sameView) hmem
      have htb : (d.touchPages 4 a size).memByte = s.dev.memByte := by
        rw [he]
        exact ib
      refine ⟨hk, fun x hx => ?_, fun hp => ?_⟩
      · rw [hb, Dev.store, Dev.storeMarked_memByte_outside _ _ _ _ (by rw [leBytes_length]; exact hx), htb]
      · have hp' : (d.touchPages 4 a size).protected a (leBytes size (v % 2 ^ (8 * size))).length = false := by
          rw [leBytes_length, he]
          exact hp
        rw [Dev.store_free _ _ _ hp'] at hc hb
        refine ⟨?_, fun j hj => ?_⟩
        · rw [hc, Dev.storeFree_cnt, he]
          exact ic
        · rw [hb, hval]
          dsimp only
          rw [if_pos (by omega), Nat.add_sub_cancel_left]
    · have hgives := outstanding core ctx hth hg hl
      subst hth
      obtain ⟨im, ic, ib⟩ := h.issued_memory (untranslated_packet s.dev core ctx)
      obtain ⟨hk, hc, hb⟩ := frame_of_gives hgives hs (h.issued_sameView.trans (Dev.outstanding_sameView _ core.val ctx.val _)) im
      exact ⟨hk, hc.trans ic, fun x => (hb x).trans (congrFun ib x)⟩

end Sys2Proof.Machine

/-! PROOFS. Writes and reads of registers, read-clears and sideband messages (R4, R6, R16 to R23, R413, R414, R483, R484, R489). -/

namespace Sys2Proof.Machine

open Sys2Proof

section Arbitration

variable {s : State} {d : Dev} {k : RegKey} {w : Write} {addr : Nat} {m : SbWrite} {eff : RegKey → Write → Dev → Dev}

@[simp] theorem Dev.each_nil {α : Type} (d : Dev) (f : α → Dev → Dev) : d.each [] f = d := rfl

@[simp] theorem Dev.each_singleton {α : Type} (d : Dev) (x : α) (f : α → Dev → Dev) : d.each [x] f = f x d := rfl

@[simp] theorem Dev.readers_nil (d : Dev) (a : Nat) : d.readers a [] = d := rfl

/-- No message whose message time is over: nothing has committed before. -/
theorem Dev.settleMessage_of_not_over (h : d.sbOver = false) : d.settleMessage = d := by
  unfold Dev.settleMessage
  split
  · rfl
  · rw [if_pos (by simp [h])]

theorem Dev.endOverdue_of_not_over (h : d.sbOver = false) : d.endOverdue k eff = d := by
  simp only [Dev.endOverdue, Dev.overdue, h, Bool.false_and, Dev.onlyIf, Bool.false_eq_true, if_false]

/-- A message still in its message time is not over. -/
theorem Dev.sbOver_of_within (h : d.sb = some m) (hn : d.clk.now ≤ m.accepted + 63) : d.sbOver = false := by
  simp only [Dev.sbOver, h, SbWrite.last]
  exact decide_eq_false (Nat.not_lt.2 hn)

/-- Rank and code with which a message in its message time stands on its control. -/
theorem Dev.sbTop_of_within (h : d.sb = some m) (ha : m.addr = addr) (hn : d.clk.now ≤ m.accepted + 63) :
    d.sbTop addr = some (if m.beaten then (0, 1) else (1, 2)) := by
  simp only [Dev.sbTop, h]
  exact if_pos ⟨ha, hn⟩

theorem Dev.arbitrate_nil (d : Dev) (ok : Writer → Bool) (addr : Nat) : d.arbitrate ok addr [] = (d, none) := rfl

/-- A write whose writer is not permitted is answered and discarded (R23). -/
theorem Dev.arbitrate_refused {ok : Writer → Bool} (h : ok w.writer = false) : d.arbitrate ok addr [w] = (d.status w.writer addr 5, none) := by
  simp [Dev.arbitrate, h, Dev.topWrite]

theorem Dev.arbitrate_alone {ok : Writer → Bool} (h : ok w.writer = true) (hs : d.sbTop addr = none) : d.arbitrate ok addr [w] = (d, some w) := by
  simp [Dev.arbitrate, h, Dev.topWrite, hs]

/-- A write below a message that stands on its control is discarded (R18, R19). -/
theorem Dev.arbitrate_below {ok : Writer → Bool} {rank code : Nat} (h : ok w.writer = true) (hs : d.sbTop addr = some (rank, code)) (hr : rank < d.rank w.writer) :
    d.arbitrate ok addr [w] = (d.loseToMessage addr code w.writer, none) := by
  simp [Dev.arbitrate, h, Dev.topWrite, hs, hr]

/-- A write that ranks above a message wins on its control, and the message loses (R18, R19). -/
theorem Dev.arbitrate_above {ok : Writer → Bool} {rank code : Nat} (h : ok w.writer = true) (hs : d.sbTop addr = some (rank, code)) (hr : d.rank w.writer ≤ rank) :
    d.arbitrate ok addr [w] = (d.beatMessage addr, some w) := by
  simp [Dev.arbitrate, h, Dev.topWrite, hs, Nat.not_lt.2 hr]

/-- Writes of a cycle that no message whose time is over stands before: the one that wins is committed. -/
theorem Dev.writeReg_wins {ws : List Write} (h : d.sbOver = false) {e : Dev} (ha : d.arbitrate (d.permits k) k.addr ws = (e, some w)) :
    d.writeReg k ws eff = e.commit k w eff := by
  rw [Dev.writeReg, Dev.endOverdue_of_not_over h, ha]

/-- None of them wins. -/
theorem Dev.writeReg_none {ws : List Write} (h : d.sbOver = false) {e : Dev} (ha : d.arbitrate (d.permits k) k.addr ws = (e, none)) : d.writeReg k ws eff = e := by
  rw [Dev.writeReg, Dev.endOverdue_of_not_over h, ha]

end Arbitration

/-- A command whose meaning acts while power is good: the device that its effect gives. -/
theorem gives_of_exec {c : Instr} {s : State} {o : Out} {f : Dev → Dev} {d : Dev} (hx : exec c s = o) (ho : o = s.on f) (hu : Up s) (hf : f s.dev = d) : Gives c s d :=
  gives_on (hx.trans ho) hu hf

section Writes

variable {s : State} {k : RegKey} {w : Write} {addr : Nat}

theorem exec_registerWrite (s : State) (addr : Nat) (c : Meeting) : exec (.registerWrite addr c) s = s.on fun d =>
    let a := addr - addr % 4
    let d := d.settleMessage.readers a c.readers
    if d.reach a = .nowhere then d.each c.writes fun w d => d.status w.writer a 5 else d.writeWord a c.writes := rfl

/-- A write of one register word in a cycle without readers, no message being over. -/
theorem gives_registerWrite (hu : Up s) (ho : s.dev.sbOver = false) (hr : s.dev.reach (addr - addr % 4) = .word k) {e : Dev}
    (he : s.dev.writeReg k [w] regEffect = e) : Gives (.registerWrite addr ⟨[w], []⟩) s e := by
  refine gives_on (exec_registerWrite s addr ⟨[w], []⟩) hu ?_
  simp only [Dev.settleMessage_of_not_over ho, Dev.readers_nil, hr, reduceCtorEq, if_false, Dev.writeWord, he]

end Writes

/-- Settles O55: a write whose writer is not permitted is answered at most; one out of range wins and is dropped. -/
theorem refusedWritesAreDiscarded : Obligations.RefusedWritesAreDiscarded := by
  intro s addr w k hu ho hr
  refine ⟨fun hp => ?_, fun ht hp hrange => ?_⟩
  · have hw := Dev.writeReg_none (eff := regEffect) ho (Dev.arbitrate_refused (addr := k.addr) hp)
    have hg := gives_registerWrite hu ho hr hw
    refine ⟨fun ⟨f, hf⟩ => ?_, fun hf => ?_⟩
    · rwa [hf] at hg
    · have hn : (functionW w.writer).isNone = true := by
        cases hc : w.writer with
        | host f => exact absurd hc (hf f)
        | _ => rfl
      simpa only [Dev.status, hn, Dev.onlyIf, if_true] using hg
  · refine gives_registerWrite hu ho hr ((Dev.writeReg_wins ho (Dev.arbitrate_alone hp ht)).trans ?_)
    simp only [Dev.commit, hrange, Bool.and_false, Bool.false_eq_true, if_false]

/-- Bit by bit, a word after a write by its access masks (R4). -/
theorem Access.merge_getLsbD (a : Access) (locked : Bool) (old new : Word) {i : Nat} (hi : i < 32) : (a.merge locked old new).getLsbD i =
    if a.w1s.getLsbD i && new.getLsbD i then true
    else if a.w1c.getLsbD i && new.getLsbD i then false
    else if a.rw.getLsbD i || a.rws.getLsbD i || (a.rwl.getLsbD i && !locked) then new.getLsbD i
    else old.getLsbD i := by
  have hl : (if locked then 0#32 else a.rwl).getLsbD i = (a.rwl.getLsbD i && !locked) := by cases locked <;> simp
  simp only [Access.merge, BitVec.getLsbD_or, BitVec.getLsbD_and, BitVec.getLsbD_not, hi, decide_true, Bool.true_and]
  rw [show ((if locked = true then (0 : Word) else a.rwl)).getLsbD i = (a.rwl.getLsbD i && !locked) from hl]
  cases a.w1s.getLsbD i <;> cases new.getLsbD i <;> cases a.w1c.getLsbD i <;> cases (a.rw.getLsbD i || a.rws.getLsbD i || (a.rwl.getLsbD i && !locked)) <;> simp

/-- Settles O56: such a write sets one register word by its access masks. -/
theorem plainRegisterWriteFrame : Obligations.PlainRegisterWriteFrame := by
  intro s s' addr k w ho hr ha hmac hhost hcore hs a
  have ht := writeReg_takes (takes_alone ha) regEffect
  have he : regEffect k w s.dev = s.dev.plainWrite k w.value := by
    rw [regEffect, hmac, hhost, hcore]
    rfl
  have hg := gives_registerWrite ha.1 ho hr (ht.trans he)
  rw [Gives, hs] at hg
  cases hg
  have hw : ∀ k', (Dev.settle s.dev.mem (s.dev.plainWrite k w.value)).word k' = if k' = k then a.merge (s.dev.locked k.reg) (s.dev.word k) w.value else s.dev.word k' :=
    fun k' => s.dev.setWord_word k k' _
  refine ⟨fun i => ?_, fun k' hk => ?_, rfl, rfl, rfl, fun x => Dev.settle_memByte (s.dev.plainWrite k w.value) x, rfl, rfl, rfl⟩
  · rw [hw, if_pos rfl, Access.merge_getLsbD _ _ _ _ i.isLt]
  · rw [hw, if_neg hk]

/-! ### Readers and messages -/

section Readers

variable {d : Dev} {a : Nat}

theorem Dev.readers_nowhere (h : d.reach a = .nowhere) (r : Writer) : d.readers a [r] = d.emit (.regStatus r a 5) := by
  rw [Dev.readers, Dev.each_singleton, if_pos h]

theorem Dev.readers_somewhere (h : d.reach a ≠ .nowhere) (r : Writer) : d.readers a [r] = (d.readWord a).1.emit (.regValue r a (d.readWord a).2) := by
  rw [Dev.readers, Dev.each_singleton, if_neg h]

/-- A message on a register word, its message time over, has committed (R18). -/
theorem Dev.settleMessage_of_over {m : SbWrite} {k : RegKey} (h : d.sb = some m) (ho : m.accepted + 63 < d.clk.now) (hr : d.reach m.addr = .word k) :
    d.settleMessage = d.endMessage k regEffect := by
  have hover : d.sbOver = true := by
    simp only [Dev.sbOver, h, SbWrite.last]
    exact decide_eq_true ho
  unfold Dev.settleMessage
  rw [h]
  dsimp only
  rw [if_neg (by simp [hover]), hr]

end Readers

/-- Settles O35: the message that is over, then the readers, then the write that wins. -/
theorem registerWritesComplete : Obligations.RegisterWritesComplete := by
  refine ⟨?_, ?_, ?_, fun d a r => ⟨fun h => Dev.readers_nowhere h r, fun h => Dev.readers_somewhere h r⟩,
    fun d => ⟨Dev.settleMessage_of_not_over, fun m k h ho hr => Dev.settleMessage_of_over h ho hr⟩⟩
  · intro s addr ws rs w k d a e hu hr ht
    refine gives_on (exec_registerWrite s addr ⟨ws, rs⟩) hu ?_
    show (if e.reach a = .nowhere then _ else e.writeWord a ws) = _
    rw [if_neg (by rw [hr]; exact Reach.noConfusion), Dev.writeWord, hr]
    exact writeReg_takes ht regEffect
  · intro s addr ws w f o d a e hu hr ha
    refine gives_on (exec_registerWrite s addr ⟨ws, []⟩) hu ?_
    show (if e.reach a = .nowhere then _ else e.writeWord a ws) = _
    rw [if_neg (by rw [hr]; exact Reach.noConfusion), Dev.writeWord, hr]
    dsimp only
    rw [ha]
  · intro s addr ws a e hu
    refine ⟨fun hr => ?_, fun hr => ?_⟩ <;> refine gives_on (exec_registerWrite s addr ⟨ws, []⟩) hu ?_ <;>
      show (if e.reach a = .nowhere then _ else e.writeWord a ws) = _
    · rw [if_neg (by rw [hr]; exact Reach.noConfusion), Dev.writeWord, hr]
    · exact if_pos hr

/-! ### Read-clears and sideband messages (R6, R18 to R21, R413, R414) -/

section Messages

variable {d : Dev} {k : RegKey} {m : SbWrite} {w : Writer} {addr code : Nat}

theorem Reg.isCounter_of_clears {r : Reg} (h : r.clears = true) : r.isCounter = true := (Bool.and_eq_true_iff.1 h).1

/-- A read-clear that no message stands before gives the count and clears it. -/
theorem Dev.readClear_alone (h : d.sbTop k.addr = none) : d.readClear k w = (d.setCounter k.reg k.n k.i 0, d.counter k.reg k.n k.i) := by
  rw [Dev.readClear, h]

/-- The end of a message that writes, and that no Keystone write has beaten. -/
theorem Dev.endMessage_commits {eff : RegKey → Write → Dev → Dev} (h : d.sb = some m) (hc : m.clear = false) (hb : m.beaten = false) :
    d.endMessage k eff = { d with sb := none }.commit k ⟨.sideband, m.value⟩ eff := by
  simp only [Dev.endMessage, h, hc, hb, Bool.false_eq_true, if_false]

/-- The end of a message that a Keystone write has beaten: it is logged with its own cycle. -/
theorem Dev.endMessage_beaten {eff : RegKey → Write → Dev → Dev} (h : d.sb = some m) (hc : m.clear = false) (hb : m.beaten = true) {now : Nat} (hnow : d.clk.now = now)
    (hn : now ≤ m.accepted + 63) : d.endMessage k eff = { d with sb := none }.logConflictAt (now % 2 ^ 48) m.addr 1 .sideband := by
  have hs : min d.clk.now m.last = now := by rw [hnow]; exact Nat.min_eq_left hn
  simp only [Dev.endMessage, h, hc, hb, Bool.false_eq_true, if_false, if_true, hs]

/-- The end of a read-clear message: the count is returned and cleared. -/
theorem Dev.endMessage_clears {eff : RegKey → Write → Dev → Dev} (h : d.sb = some m) (hc : m.clear = true) (hb : m.beaten = false) :
    d.endMessage k eff = ({ d with sb := none }.emit (.regValue .sideband m.addr (d.counter k.reg k.n k.i))).setCounter k.reg k.n k.i 0 := by
  simp only [Dev.endMessage, h, hc, hb, Bool.false_eq_true, if_false, if_true]
  rfl

/-- What an effect keeps, it keeps where it runs under a condition. -/
theorem Dev.onlyIf_keeps {β : Type} (get : Dev → β) {c : Bool} {f : Dev → Dev} (h : ∀ e, get (f e) = get e) (d : Dev) : get (d.onlyIf c f) = get d := by
  unfold Dev.onlyIf
  split
  · exact h d
  · rfl

@[simp] theorem Dev.status_sb (d : Dev) (w : Writer) (a st : Nat) : (d.status w a st).sb = d.sb := Dev.onlyIf_keeps Dev.sb (fun e => e.emit_sb _) d

@[simp] theorem Dev.logConflictAt_sb (d : Dev) (stamp a code : Nat) (w : Writer) : (d.logConflictAt stamp a code w).sb = d.sb := by
  simp only [Dev.logConflictAt, Dev.status_sb, Dev.bump_sb, Dev.setChip_sb, Dev.setFld_sb, Dev.setWord_sb]
  exact Dev.onlyIf_keeps Dev.sb (fun e => e.setChip_sb _ _) d

/-- A write that loses to a message leaves the message with one more log entry to its name. -/
theorem Dev.loseToMessage_sb (h : d.sb = some m) :
    (d.loseToMessage addr code w).sb = some { m with logged := m.logged ++ [d.fld F.CHIP_CONFLICT_STAT_NEXT] } := by
  show (d.logConflict addr code w).sb.map _ = _
  rw [Dev.logConflict, Dev.logConflictAt_sb, h]
  rfl

end Messages

section Commands

variable {s : State} {k : RegKey} {addr : Nat} {path : MgmtPath} {inSession : Bool}

theorem gives_sidebandWriteCommit {m : SbWrite} (hu : Up s) (hm : s.dev.sb = some m) (hr : s.dev.reach m.addr = .word k) (ws : List Write) {e : Dev}
    (he : (if m.clear then s.dev else s.dev.writeReg k ws regEffect).endMessage k regEffect = e) : Gives (.sidebandWriteCommit ws) s e := by
  refine gives_of_exec (o := execSidebandWriteCommit ws s) rfl rfl hu ?_
  rw [hm]
  dsimp only
  rw [hr]
  exact he

end Commands

/-- The end of a sideband message, alone or with a write of its cycle (R18, R19). -/
theorem sidebandWriteCommit_ends {s : State} {m : SbWrite} {k : RegKey} (hu : Up s) (hm : s.dev.sb = some m) (hr : s.dev.reach m.addr = .word k) (ha : m.addr = k.addr)
    (hn : s.dev.clk.now ≤ m.accepted + 63) :
    let e := { s.dev with sb := none }
    let stamp := s.dev.clk.now % 2 ^ 48;
    (m.clear = false → m.beaten = false → Gives (.sidebandWriteCommit []) s (e.commit k ⟨.sideband, m.value⟩ regEffect)) ∧
    (m.clear = false → m.beaten = true → Gives (.sidebandWriteCommit []) s (e.logConflictAt stamp m.addr 1 .sideband)) ∧
    (m.clear = true → m.beaten = false →
      Gives (.sidebandWriteCommit []) s ((e.emit (.regValue .sideband m.addr (s.dev.counter k.reg k.n k.i))).setCounter k.reg k.n k.i 0)) ∧
    (∀ w : Write, m.clear = false → m.beaten = false → s.dev.permits k w.writer = true → 1 < s.dev.rank w.writer →
      Gives (.sidebandWriteCommit [w]) s ({ s.dev.loseToMessage k.addr 2 w.writer with sb := none }.commit k ⟨.sideband, m.value⟩ regEffect)) ∧
    (∀ w : Write, m.clear = false → m.beaten = false → s.dev.permits k w.writer = true → s.dev.rank w.writer ≤ 1 →
      let x := (s.dev.beatMessage k.addr).commit k w regEffect;
      x.sb = some { m with beaten := true } → x.clk = s.dev.clk → Gives (.sidebandWriteCommit [w]) s ({ x with sb := none }.logConflictAt stamp m.addr 1 .sideband)) := by
  have ho := Dev.sbOver_of_within hm hn
  have htop := Dev.sbTop_of_within hm ha hn
  have halone : s.dev.writeReg k [] regEffect = s.dev := Dev.writeReg_none ho (Dev.arbitrate_nil _ _ _)
  refine ⟨fun hc hb => ?_, fun hc hb => ?_, fun hc hb => ?_, fun w hc hb hp hrank => ?_, fun w hc hb hp hrank => ?_⟩
  · exact gives_sidebandWriteCommit hu hm hr [] (by rw [hc, halone]; exact Dev.endMessage_commits hm hc hb)
  · exact gives_sidebandWriteCommit hu hm hr [] (by rw [hc, halone]; exact Dev.endMessage_beaten hm hc hb rfl hn)
  · exact gives_sidebandWriteCommit hu hm hr [] (by rw [hc]; exact Dev.endMessage_clears hm hc hb)
  · rw [hb] at htop
    have hw : s.dev.writeReg k [w] regEffect = s.dev.loseToMessage k.addr 2 w.writer := Dev.writeReg_none ho (Dev.arbitrate_below hp htop hrank)
    exact gives_sidebandWriteCommit hu hm hr [w] (by rw [hc, hw, if_neg Bool.false_ne_true]; exact Dev.endMessage_commits (m := { m with logged := m.logged ++ [s.dev.fld F.CHIP_CONFLICT_STAT_NEXT] }) (Dev.loseToMessage_sb hm) hc hb)
  · intro x hx hclk
    rw [hb] at htop
    have hw : s.dev.writeReg k [w] regEffect = x := Dev.writeReg_wins ho (Dev.arbitrate_above hp htop hrank)
    refine gives_sidebandWriteCommit hu hm hr [w] ?_
    rw [hc, hw, if_neg Bool.false_ne_true]
    exact Dev.endMessage_beaten (m := { m with beaten := true }) hx hc rfl (congrArg Clk.now hclk) hn

/-- Settles O36: read-clears by the rank of their readers, messages as they are accepted, refused and end. -/
theorem readClearAndSidebandCommandsComplete : Obligations.ReadClearAndSidebandCommandsComplete := by
  refine ⟨?_, ?_, ?_, ?_, fun s m k hu hm hr ha hn => sidebandWriteCommit_ends hu hm hr ha hn⟩
  · intro s addr rs k e v hu hr hc
    have hcnt := Reg.isCounter_of_clears hc
    refine ⟨fun top ht hw => ?_, fun r rank code hrs ht hrank => ?_⟩ <;> refine gives_of_exec (o := execCounterReadClear addr _ s) rfl rfl hu ?_
    · show (match e.reach (addr - addr % 8) with | .word k => _ | _ => _) = _
      rw [hr]
      dsimp only
      rw [if_neg (by simp [hc]), if_neg (by simp [hc]), hw]
      dsimp only
      rw [ht]
      dsimp only
      rw [Dev.readClear_alone ht]
    · subst hrs
      show (match e.reach (addr - addr % 8) with | .word k => _ | _ => _) = _
      rw [hr]
      dsimp only
      rw [if_neg (by simp [hc]), if_neg (by simp [hc])]
      change s.dev.settleMessage.sbTop k.addr = _ at ht
      change rank < s.dev.settleMessage.rank r at hrank
      change _ = (s.dev.settleMessage.emit (.regValue r k.addr 0)).loseToMessage k.addr code r
      simp only [List.map_cons, List.map_nil, Dev.topWrite, ht, hrank, if_true, Dev.each_singleton]
  · intro s addr r k e hu hr hcnt hc
    refine gives_of_exec (o := execCounterReadClear addr [r] s) rfl rfl hu ?_
    show (match e.reach (addr - addr % 8) with | .word k => _ | _ => _) = _
    rw [hr]
    dsimp only
    rw [if_pos ⟨hcnt, by simp [hc]⟩, Dev.each_singleton]
  · intro s addr rs hu hr
    refine gives_of_exec (o := execCounterReadClear addr rs s) rfl rfl hu ?_
    dsimp only
    rw [hr]
  · intro s addr path inSession value e hu hopen hsb
    have hgo : ¬ (¬ e.sbOpen path = true ∨ e.sb.isSome = true) := by simp [hopen, hsb]
    refine ⟨fun st hst => ?_, fun hst k hr => ⟨fun hp => ?_, fun hp => ?_⟩, fun hst hr => ?_, fun st hst => ?_, fun hst => ⟨fun hk => ?_, fun k hk => ?_⟩⟩
    · refine gives_of_exec (o := execSidebandRegisterWrite path inSession addr value s) rfl rfl hu ((if_neg hgo).trans ?_)
      rw [hst]
    · refine gives_of_exec (o := execSidebandRegisterWrite path inSession addr value s) rfl rfl hu ((if_neg hgo).trans ?_)
      rw [hst]
      dsimp only
      rw [hr]
      exact if_pos hp
    · refine gives_of_exec (o := execSidebandRegisterWrite path inSession addr value s) rfl rfl hu ((if_neg hgo).trans ?_)
      rw [hst]
      dsimp only
      rw [hr]
      exact if_neg (Bool.eq_false_iff.1 hp)
    · refine gives_of_exec (o := execSidebandRegisterWrite path inSession addr value s) rfl rfl hu ((if_neg hgo).trans ?_)
      rw [hst]
      dsimp only
      rw [hr]
    · refine gives_of_exec (o := execSidebandRegisterRead path inSession addr s) rfl rfl hu ((if_neg hgo).trans ?_)
      rw [hst]
    · refine gives_of_exec (o := execSidebandRegisterRead path inSession addr s) rfl rfl hu ((if_neg hgo).trans ?_)
      rw [hst]
      dsimp only
      rw [hk]
    · refine gives_of_exec (o := execSidebandRegisterRead path inSession addr s) rfl rfl hu ((if_neg hgo).trans ?_)
      rw [hst]
      dsimp only
      rw [hk]

end Sys2Proof.Machine

/-! PROOFS. Tables: their configuration and the commands of CLS_TCMD (R91 to R99, R105, R106). -/

namespace Sys2Proof.Machine

open Sys2Proof

section Tables

variable {s : State} {k : RegKey} {ws : List Write} {w : Write} {d : Dev}

/-- A register command whose write takes effect: the device that the register's effect gives. -/
theorem gives_writeReg {c : Instr} {eff : RegKey → Write → Dev → Dev} {e : Dev} (hx : exec c s = s.on fun d => d.writeReg k ws eff) (h : Takes s k ws w d)
    (he : eff k w d = e) : Gives c s e :=
  gives_on hx h.1 ((writeReg_takes h eff).trans he)

/-- A table without entries that holds no buckets and stays without them: the word is stored, and the bad words shown again. -/
theorem tblEffect_empty (h0 : k.w = 0 → F.CLS_TBL_KIND.ofWord (d.wouldBe k w.value) ≠ 3 ∧ F.CLS_TBL_STAGE.ofWord (d.wouldBe k w.value) ≤ 11 ∧
      1 ≤ F.CLS_TBL_KEY_WORDS.ofWord (d.wouldBe k w.value) ∧ F.CLS_TBL_KEY_WORDS.ofWord (d.wouldBe k w.value) ≤ 16)
    (h2 : k.w = 2 → 1 ≤ F.CLS_TBL_NB_K.ofWord (d.wouldBe k w.value) ∧ F.CLS_TBL_NB_K.ofWord (d.wouldBe k w.value) ≤ 16384)
    (he : d.fld F.CLS_TBL_ENTRIES (d.homeOf k.n k.i) k.i = 0) (hp : d.tblPlaces.at none (64 * k.n + k.i) = none)
    (hen : (d.setWord k (d.wouldBe k w.value)).tblEn k.n k.i = false) : tblEffect k w d = (d.setWord k (d.wouldBe k w.value)).showAllBad := by
  have hp' : (d.setWord k (d.wouldBe k w.value)).tblPlaces.at none (64 * k.n + k.i) = none := hp
  unfold tblEffect
  simp only [he, hen, hp, ne_eq, not_true_eq_false, and_false, if_false, Option.isSome_none, Bool.false_eq_true, false_and, decide_false, Bool.or_false, Bool.and_false, Bool.false_and]
  rw [if_neg]
  split
  · obtain ⟨a, b, c, e⟩ := h0 ‹_›
    simp only [Bool.or_eq_true, beq_iff_eq, decide_eq_true_eq]
    omega
  · obtain ⟨a, b⟩ := h2 ‹_›
    simp only [decide_eq_true_eq]
    omega
  · simp

/-- A change of SEED or NB_K while the table holds entries is refused and noted in HELDCFG. -/
theorem tblEffect_held (hk : k.w = 1 ∨ k.w = 2) (h2 : k.w = 2 → 1 ≤ F.CLS_TBL_NB_K.ofWord (d.wouldBe k w.value) ∧ F.CLS_TBL_NB_K.ofWord (d.wouldBe k w.value) ≤ 16384)
    (hv : d.wouldBe k w.value ≠ d.word k) (he : d.fld F.CLS_TBL_ENTRIES (d.homeOf k.n k.i) k.i ≠ 0) :
    tblEffect k w d = d.setFld F.CLS_TBL_HELDCFG k.n k.i 1 := by
  unfold tblEffect
  obtain hk | hk := hk
  · simp [hk, hv, he]
  · obtain ⟨a, b⟩ := h2 hk
    have hb : ¬ (F.CLS_TBL_NB_K.ofWord (d.wouldBe k w.value) < 1 ∨ 16384 < F.CLS_TBL_NB_K.ofWord (d.wouldBe k w.value)) := by omega
    simp only [hk, hb, decide_false, Bool.false_eq_true, if_false, bne_iff_ne, ne_eq, hv, he, not_false_eq_true, and_self, if_true]

/-- A command of CLS_TCMD that is not busy is carried out at once. -/
theorem tcmdEffect_runs {op : Nat} (hop : F.CLS_TCMD_OP.ofWord (d.wouldBe k w.value) = op) (h5 : op ≤ 5) (hgo : bitOf w.value.toNat 31 = true)
    (hbusy : d.flag F.CLS_TCMD_BUSY k.n = false) : tcmdEffect k w d = (d.setWord k (d.wouldBe k w.value)).runTcmd k.n op
      (F.CLS_TCMD_TBL.ofWord (d.wouldBe k w.value)) (F.CLS_TCMD_INDEX.ofWord (d.wouldBe k w.value)) ((d.setWord k (d.wouldBe k w.value)).rank w.writer) := by
  unfold tcmdEffect
  simp only [hop, hgo, hbusy, Nat.not_lt.2 h5, Bool.false_eq_true, and_false, or_false, if_false, if_true]

end Tables

/-- Settles O9: the writes that a table's configuration takes or refuses, and a run of each command. -/
theorem tableCommandsComplete : Obligations.TableCommandsComplete := by
  refine ⟨?_, ?_, ?_⟩
  · intro s r t word ws w d h k v h0 h2 he hp hen
    exact gives_writeReg rfl h (tblEffect_empty h0 h2 he hp hen)
  · intro s r t word ws w d hw h k v h2 hv he
    exact gives_writeReg rfl h (tblEffect_held (by simpa using hw) h2 hv he)
  · intro s region ws w d h r k v op t i e done x hgo hbusy
    have run {c : Instr} {n : Nat} {d' : Dev} (hx : exec c s = s.on fun d => d.writeTcmd r ws) (hn : n ≤ 5) (hop : op = n)
        (hd : e.runTcmd r n t i (e.rank w.writer) = d') : Gives c s d' :=
      gives_writeReg hx h ((tcmdEffect_runs hop hn hgo hbusy).trans hd)
    refine ⟨fun h0 hx => ?_, fun h0 hx => ?_, fun h1 => ?_, fun h2 => ?_, fun h3 hm => ?_, fun h4 => ?_, fun h5 => ?_⟩
    · refine run rfl (by omega) h0 ?_
      have hx' : x.2.1 ≠ 0 := hx
      simp only [Dev.runTcmd, done, x, h0] at hx' ⊢
      rw [if_neg fun hst => hx' hst.2]
    · refine run rfl (by omega) h0 ?_
      have hx' : x.2.1 = 0 := hx
      simp only [Dev.runTcmd, done, x, h0] at hx' ⊢
      rw [if_pos ⟨trivial, hx'⟩, hx']
    · refine run rfl (by omega) h1 ?_
      simp only [Dev.runTcmd, done, x, h1, Nat.one_ne_zero, false_and, if_false]
    · refine run rfl (by omega) h2 ?_
      simp only [Dev.runTcmd, done, x, h2, (by decide : ¬(2 : Nat) = 0), false_and, if_false]
    · refine run rfl (by omega) h3 ?_
      simp only [Dev.runTcmd, hm]
      rfl
    · exact run rfl (by omega) h4 rfl
    · exact run rfl (by omega) h5 rfl
end Sys2Proof.Machine

/-! PROOFS. Public-key operations (R289 to R293). -/

namespace Sys2Proof.Machine

open Sys2Proof

section PublicKey

variable {d : Dev} {r op e : Nat} {host : List Byte} {at_ : ReadEnd}

/-- The public-key engine of a region asks for the jobs of its running chain engines. -/
def Dev.pkAsked (d : Dev) (r : Nat) : Dev := d.each (List.range 4) fun i d => d.onlyIf (d.chainRuns (8 * r + 4 + i)) fun d => d.chainAsk (8 * r + 4 + i)

/-- A free engine whose turn's entry asks for this operation, in an allowed shape: operands read, outcome fixed, time begun. -/
theorem Dev.pkStart_begins {lo hi n us : Nat} (hp : (d.pkAsked r).pk.at none r = none) (ht : (d.pkAsked r).pkTurn r = some e)
    (ho : ((d.pkAsked r).chainJob (8 * r + e)).pkOp = op)
    (hs : pkShape op ((d.pkAsked r).chainJob (8 * r + e)).pkParam ((d.pkAsked r).chainJob (8 * r + e)).pkSize = some (lo, hi, n, us))
    {f : Dev} {bs : List Byte} {ms : List Bool}
    (hr : ((d.pkAsked r).touchPages r ((d.pkAsked r).chainJob (8 * r + e)).addr ((d.pkAsked r).chainJob (8 * r + e)).len).intRead
      ((d.pkAsked r).chainJob (8 * r + e)).addr ((d.pkAsked r).chainJob (8 * r + e)).len host at_ (.chain (8 * r + e)) = (f, bs, ms)) :
    d.pkStart r op host at_ =
      let x := (d.pkAsked r).chainJob (8 * r + e)
      let mark := ms.any id
      let y := pkCompute op x.pkParam x.pkSize bs f.draws
      let run : PkRun := { engine := e, due := f.clk.now + cyclesOfUs us, out := if mark = true ∨ y.1 ≠ 0 then List.replicate n 0 else y.2, pkstat := if mark then 0 else y.1, mark := mark }
      { f with draws := f.draws + 1, pk := f.pk.set none r (some run), pkLast := f.pkLast.set 3 r e } := by
  unfold Dev.pkStart
  rw [← Dev.pkAsked]
  simp only [hp, ht, ho, hs, hr, Option.isSome_none, Bool.false_eq_true, if_false, ne_eq, not_true_eq_false]

end PublicKey

/-- Settles O21: each operation is one start of the engine with its code; the end of one is read off its two outcomes. -/
theorem publicKeyCommandsComplete : Obligations.PublicKeyCommandsComplete := by
  refine ⟨?_, ?_⟩
  · intro s region host at_ c op e lo hi n us hu hc r d0 x hp ht ho hs d bs ms hr mark y run
    have hx : exec c s = s.on fun d => d.pkStart r op host at_ := by
      refine of_mem_pairs (P := fun c op => exec c s = s.on fun d => d.pkStart r op host at_) hc ?_
      repeat' refine List.forall_mem_cons.2 ⟨rfl, ?_⟩
      exact fun _ h => absurd h List.not_mem_nil
    exact gives_on hx hu (Dev.pkStart_begins hp ht ho hs hr)
  · intro s region k hu hk r n d0 x d1 hh
    refine ⟨fun hr => ?_, fun hr => ?_⟩
    · refine gives_of_exec (o := execPkOperationComplete region s) rfl rfl hu ?_
      dsimp only
      rw [hk]
      show (if ¬ d0.hostReady x.addr2 k.out.length true = true then _ else if ¬ d1.reaches x.addr2 k.out.length true = true then _ else _) = _
      rw [if_neg (Classical.not_not.2 hh), if_neg (Classical.not_not.2 hr)]
    · refine gives_of_exec (o := execPkOperationComplete region s) rfl rfl hu ?_
      dsimp only
      rw [hk]
      show (if ¬ d0.hostReady x.addr2 k.out.length true = true then _ else if ¬ d1.reaches x.addr2 k.out.length true = true then _ else _) = _
      rw [if_neg (Classical.not_not.2 hh), if_pos (Bool.not_eq_true _ ▸ hr)]

end Sys2Proof.Machine

/-! PROOFS. Spans, the time counter and PPS (R28 to R38, R69, R71, R77, R487). -/

namespace Sys2Proof.Machine

open Sys2Proof

section Guards

variable {s : State} {c : Instr} {d e : Dev} {b : Bool} {f : Dev → Dev}

theorem Dev.onlyIf_pos (h : b = true) : d.onlyIf b f = f d := if_pos h

theorem Dev.onlyIf_neg (h : b = false) : d.onlyIf b f = d := if_neg (Bool.eq_false_iff.1 h)

/-- A register command of a port whose write takes effect: the device that the register's effect gives. -/
theorem gives_writePort {p : Nat} {k : RegKey} {ws : List Write} {w : Write} {eff : RegKey → Write → Dev → Dev}
    (hx : exec c s = s.on fun d => d.onlyIf (d.isPort p) fun d => d.writeReg k ws eff) (hp : s.dev.isPort p = true) (h : Takes s k ws w d) (he : eff k w d = e) :
    Gives c s e :=
  gives_on hx h.1 ((Dev.onlyIf_pos hp).trans ((writeReg_takes h eff).trans he))

end Guards

section Clock

variable {k : RegKey} {w : Write} {d : Dev}

theorem spanCfgEffect_ok (h : 10 ≤ F.SPAN_CFG_LEN_US.ofWord w.value) (h' : F.SPAN_CFG_LEN_US.ofWord w.value ≤ 1000) :
    spanCfgEffect k w d = { d.plainWrite k w.value with span := { d.span with cfgWait := 1 } }.setChip F.SPAN_STATUS_PENDING 1 := by
  rw [spanCfgEffect, if_neg (by omega)]
  rfl

theorem spanCfgEffect_bad (h : F.SPAN_CFG_LEN_US.ofWord w.value < 10 ∨ 1000 < F.SPAN_CFG_LEN_US.ofWord w.value) :
    spanCfgEffect k w d = d.setChip F.SPAN_STATUS_BADCFG 1 := if_pos h

/-- A write of MAC_TC_CTL that changes SYNC and leaves the pulse of PTP_PPS_OUT alone. -/
theorem tcCtlEffect_sync (hs : (d.plainWrite k w.value).flag F.MAC_TC_CTL_SYNC ≠ d.flag F.MAC_TC_CTL_SYNC)
    (hp : d.ppsOut = false ∨ (d.plainWrite k w.value).flag F.MAC_TC_CTL_PPS_OUT_EN = true) : tcCtlEffect k w d = (d.plainWrite k w.value).spanEvent d.spanIsAligned := by
  have hc : ((d.plainWrite k w.value).ppsOut && !(d.plainWrite k w.value).flag F.MAC_TC_CTL_PPS_OUT_EN) = false := by
    obtain hp | hp := hp
    · rw [show (d.plainWrite k w.value).ppsOut = false from hp, Bool.false_and]
    · rw [hp, Bool.not_true, Bool.and_false]
  rw [tcCtlEffect]
  dsimp only
  rw [Dev.onlyIf_neg hc, if_neg (by simpa using hs)]

/-- One that changes SYNC and disables PPS_OUT ends the pulse as well. -/
theorem tcCtlEffect_sync_pulse (hs : (d.plainWrite k w.value).flag F.MAC_TC_CTL_SYNC ≠ d.flag F.MAC_TC_CTL_SYNC) (hp : d.ppsOut = true)
    (he : (d.plainWrite k w.value).flag F.MAC_TC_CTL_PPS_OUT_EN = false) :
    tcCtlEffect k w d = { (d.plainWrite k w.value).emit (.pin "PTP_PPS_OUT" false) with ppsOut := false }.spanEvent d.spanIsAligned := by
  have hc : ((d.plainWrite k w.value).ppsOut && !(d.plainWrite k w.value).flag F.MAC_TC_CTL_PPS_OUT_EN) = true := by
    rw [he, show (d.plainWrite k w.value).ppsOut = true from hp, Bool.not_false, Bool.and_true]
  rw [tcCtlEffect]
  dsimp only
  rw [Dev.onlyIf_pos hc]
  exact if_neg (mt beq_iff_eq.1 hs)

theorem tlyBaseEffect_ok (he : d.flag F.TLY_BASE_EN = false) (hd : (d.plainWrite k w.value).inDram (d.plainWrite k w.value).tlyBase 0x8000000 = true) :
    tlyBaseEffect k w d = d.plainWrite k w.value := by
  simp only [tlyBaseEffect, he, hd, Bool.false_eq_true, not_true_eq_false, false_and, and_false, if_false]

/-- Synchronisation is lost. -/
theorem Dev.setSync_loses (h : d.flag F.MAC_TC_CTL_SYNC = true) : d.setSync false = (d.setChip F.MAC_TC_CTL_SYNC 0).spanEvent d.spanIsAligned := by
  unfold Dev.setSync
  exact if_neg (by rw [h]; exact Bool.noConfusion)

end Clock

/-- Settles O1: the writes by their register's effect, the rest by the state that each command finds. -/
theorem spanAndTimeCommandsComplete : Obligations.SpanAndTimeCommandsComplete := by
  refine ⟨fun s hu hen => ?_, fun s hu hen hp => ?_, fun s hu hen hp => ?_, fun s ws w d h h1 h2 => ?_, fun s ws w d h hb => ?_, fun s ws w d h => ?_,
    fun s hu hf hb hs => ?_, fun s word ws w d h he hd => ?_, fun s ws w d h => ?_, fun s silent hu => ?_⟩
  · exact gives_of_exec (o := execPpsInEdge s) rfl rfl hu (Dev.onlyIf_pos hen)
  · exact gives_of_exec (o := execPpsOutSecond s) rfl rfl hu ((Dev.onlyIf_pos hen).trans (if_pos hp))
  · exact gives_of_exec (o := execPpsOutSecond s) rfl rfl hu ((Dev.onlyIf_pos hen).trans (if_neg (Bool.eq_false_iff.1 hp)))
  · exact gives_writeReg rfl h (spanCfgEffect_ok h1 h2)
  · exact gives_writeReg rfl h (spanCfgEffect_bad hb)
  · intro e hs
    exact ⟨fun hp => gives_writeReg rfl h (tcCtlEffect_sync hs hp), fun hp he => gives_writeReg rfl h (tcCtlEffect_sync_pulse hs hp he)⟩
  · refine gives_of_exec (o := execSyncChange .announceTimeout s) rfl rfl hu ((Dev.onlyIf_pos ?_).trans (Dev.setSync_loses hs))
    rw [hf, Bool.true_and, Option.isSome_iff_ne_none]
    exact hb
  · exact gives_writeReg rfl h (tlyBaseEffect_ok he hd)
  · exact gives_writeReg rfl h rfl
  · exact gives_of_exec (o := execSpanBoundary silent s) rfl rfl hu rfl

end Sys2Proof.Machine

/-! PROOFS. Lane maps, ports and pause frames (R45 to R61, R493). -/

namespace Sys2Proof.Machine

open Sys2Proof

/-! ### Lane maps and ports -/

section Ports

variable {s : State} {c : Instr} {k : RegKey} {ws : List Write} {w : Write} {d : Dev}

theorem laneMapEffect_bad (h : mapValid w.value.toNat = false) : laneMapEffect k w d = d.setChip F.MAC_LANE_STAT_BADMAP 1 :=
  if_pos (by rw [h]; exact Bool.false_ne_true)

theorem laneMapEffect_ok (h : mapValid w.value.toNat = true) :
    laneMapEffect k w d =
      let old := d.laneMap
      let new := w.value.toNat
      let changed : Nat → Bool := fun l => laneCode old l != laneCode new l || portIn old l != portIn new l
      let gone := (List.range 16).filter fun p => portIn old p == p && (List.range (widthOf (laneCode old p))).any fun j => changed (p + j)
      let come := (List.range 16).filter fun p => portIn new p == p && (List.range (widthOf (laneCode new p))).any fun j => changed (p + j)
      (((d.each gone fun p d => d.toDisabled p).setWord k w.value).showMembers).each come fun p d => d.evalDisabled p :=
  if_neg (Classical.not_not.2 h)

/-- A write of MAC_PORT_CFG within its bounds that changes EN, AN_EN, FEC or LANE_RATE: the port restarts from DISABLED. -/
theorem portCfgEffect_restarts (h64 : 64 ≤ F.MAC_PORT_CFG_MAX_LEN.ofWord (d.wouldBe k w.value)) (h5 : F.MAC_PORT_CFG_LANE_RATE.ofWord (d.wouldBe k w.value) ≤ 5)
    (hc : (d.wouldBe k w.value).toNat / 2 ^ 24 ≠ (d.word k).toNat / 2 ^ 24) :
    portCfgEffect k w d = ((d.setWord k (d.wouldBe k w.value)).toDisabled k.n).evalDisabled k.n :=
  (if_neg (by omega)).trans (if_neg hc)

/-- One that changes none of them is stored alone. -/
theorem portCfgEffect_stores (h64 : 64 ≤ F.MAC_PORT_CFG_MAX_LEN.ofWord (d.wouldBe k w.value)) (h5 : F.MAC_PORT_CFG_LANE_RATE.ofWord (d.wouldBe k w.value) ≤ 5)
    (hc : (d.wouldBe k w.value).toNat / 2 ^ 24 = (d.word k).toNat / 2 ^ 24) : portCfgEffect k w d = d.setWord k (d.wouldBe k w.value) :=
  (if_neg (by omega)).trans (if_pos hc)

end Ports

/-- Settles O2: a write of the map and of a port's configuration by their effects, each event by the state of the port. -/
theorem portCommandsComplete : Obligations.PortCommandsComplete := by
  refine ⟨fun s ws w d h hm => gives_writeReg rfl h (laneMapEffect_ok hm), fun s ws w d h hm => gives_writeReg rfl h (laneMapEffect_bad hm),
    fun s lane ws w d hp h => ?_, fun s port rates fecs rate fec hu hs hm => ?_, fun s port hu hs => ⟨?_, ?_⟩, fun s port hu hs => ⟨?_, ?_, fun hh hr => ?_, fun hh hr => ?_⟩,
    fun s port hu hs hh => ⟨fun ht hr => ?_, ?_⟩, fun s port hu hs => ?_, fun s port hu hs => ?_, fun s port hu hs => ?_⟩
  · intro k v h64 h5
    refine ⟨fun hc => ?_, fun hc => gives_writePort rfl hp h (portCfgEffect_stores h64 h5 hc)⟩
    have he := portCfgEffect_restarts h64 h5 hc
    exact ⟨gives_writePort rfl hp h he, gives_writePort rfl hp h he, gives_writePort rfl hp h he⟩
  · refine gives_of_exec (o := execAnResolved port rates fecs s) rfl rfl hu ((Dev.onlyIf_pos (beq_iff_eq.2 hs)).trans ?_)
    simp only [hm]
  · exact gives_of_exec (o := execAnNoCommonMode port s) rfl rfl hu (Dev.onlyIf_pos (beq_iff_eq.2 hs))
  · exact gives_of_exec (o := execAnBasePageTimeout port s) rfl rfl hu (Dev.onlyIf_pos (beq_iff_eq.2 hs))
  · exact gives_of_exec (o := execTrainingFail port s) rfl rfl hu (Dev.onlyIf_pos (beq_iff_eq.2 hs))
  · refine gives_of_exec (o := execPcsAlignmentLoss port s) rfl rfl hu ?_
    simp only [hs]
  · exact gives_of_exec (o := execTrainingComplete port s) rfl rfl hu ((Dev.onlyIf_pos (by simp [hs, hh])).trans (if_neg (by simp [hr])))
  · exact gives_of_exec (o := execTrainingComplete port s) rfl rfl hu ((Dev.onlyIf_pos (by simp [hs, hh])).trans (if_pos hr))
  · exact gives_of_exec (o := execTrialAligned port s) rfl rfl hu ((Dev.onlyIf_pos (by simp [hs, hh, ht])).trans (if_neg (by simp [hr])))
  · exact gives_of_exec (o := execTrialTimeout port s) rfl rfl hu (Dev.onlyIf_pos (by simp [hs, hh]))
  · refine gives_of_exec (o := execPcsAlignmentLoss port s) rfl rfl hu ?_
    simp only [hs]
  · exact gives_of_exec (o := execRemoteFaultReceived port s) rfl rfl hu (if_pos hs)
  · exact gives_of_exec (o := execRemoteFaultCleared port s) rfl rfl hu (if_pos hs)

/-! ### Pause frames, holds and the watchdog -/

section Pauses

variable {k : RegKey} {w : Write} {d : Dev}

/-- A write of MAC_WD_CFG within its bounds that enables the watchdog. -/
theorem wdCfgEffect_enabled (h1 : 1 ≤ F.MAC_WD_CFG_TREC_MS.ofWord (d.wouldBe k w.value) ∧ F.MAC_WD_CFG_TREC_MS.ofWord (d.wouldBe k w.value) ≤ 10000)
    (h2 : 1 ≤ F.MAC_WD_CFG_TWD_MS.ofWord (d.wouldBe k w.value) ∧ F.MAC_WD_CFG_TWD_MS.ofWord (d.wouldBe k w.value) ≤ 10000)
    (he : (d.setWord k (d.wouldBe k w.value)).flag F.MAC_WD_CFG_EN k.n = true) :
    wdCfgEffect k w d = (d.setWord k (d.wouldBe k w.value)).each (List.range 8) fun q e =>
      let e := e.settleHold k.n q
      let e := if d.flag F.MAC_WD_CFG_EN k.n = false ∧ (e.pauseOf k.n q).stretch = true then e.updPause k.n q fun x => { x with timed := some d.clk.now } else e
      (e.stormTest k.n q).stormExit k.n q := by
  unfold wdCfgEffect
  simp only [h1, h2, he, and_self, decide_true, not_true_eq_false, if_false, Bool.not_eq_true]
  rfl

/-- One that leaves it disabled. -/
theorem wdCfgEffect_disabled (h1 : 1 ≤ F.MAC_WD_CFG_TREC_MS.ofWord (d.wouldBe k w.value) ∧ F.MAC_WD_CFG_TREC_MS.ofWord (d.wouldBe k w.value) ≤ 10000)
    (h2 : 1 ≤ F.MAC_WD_CFG_TWD_MS.ofWord (d.wouldBe k w.value) ∧ F.MAC_WD_CFG_TWD_MS.ofWord (d.wouldBe k w.value) ≤ 10000)
    (he : (d.setWord k (d.wouldBe k w.value)).flag F.MAC_WD_CFG_EN k.n = false) :
    wdCfgEffect k w d = (d.setWord k (d.wouldBe k w.value)).each (List.range 8) fun q e => (e.updPause k.n q fun x => { x with timed := none }).leaveStorm k.n q := by
  unfold wdCfgEffect
  simp only [h1, h2, he, and_self, decide_true, not_true_eq_false, if_false, Bool.false_eq_true, not_false_eq_true, if_true]

/-- A watermark is stored and tested; a low one only below the high one. -/
theorem watermarkEffect_stores (h : k.reg = .MAC_PAUSE_LWM → F.MAC_PAUSE_LWM_CELLS.ofWord (d.wouldBe k w.value) < d.fld F.MAC_PAUSE_HWM_CELLS k.n k.i) :
    watermarkEffect k w d = (d.setWord k (d.wouldBe k w.value)).pauseTest k.n :=
  if_neg fun hw => Nat.not_lt.2 hw.2 (h hw.1)

end Pauses

/-- Settles O3: the writes by their register's effect; frames, holds and storms by what the priority's pause state is. -/
theorem pauseCommandsComplete : Obligations.PauseCommandsComplete := by
  refine ⟨fun s port f t hu hup hm ht hc => ?_, fun s port f hu hup hm ht hc hd hf => ?_, fun s port prio hu hx => ?_, fun s port ws w d hp h hm => ?_,
    fun s port prio ws w d hp h => ?_, fun s port prio ws w d hp h hl => ?_, fun s port ws w d hp h => ?_, fun s port frame t l hu hup hty hps hfcs hmin hmax => ?_,
    fun s port prio e hu he => ?_, fun s port prio g hu hg => ?_, fun s port prio e t hu he ht hlt => ?_, fun s port prio hu hs => ?_⟩
  · refine gives_of_exec (o := execPauseFrameSend port s) rfl rfl hu ((Dev.onlyIf_pos (by simp [hup, hm, ht])).trans ?_)
    simp only [hc]
  · refine gives_of_exec (o := execPauseFrameSend port s) rfl rfl hu ((Dev.onlyIf_pos (by simp [hup, hm, ht])).trans ?_)
    obtain ⟨f', hf'⟩ := Option.ne_none_iff_exists'.1 hd
    simp only [hc, hf', hf]
  · exact gives_of_exec (o := execPauseRefresh port prio s) rfl rfl hu ((Dev.onlyIf_pos hx).trans (by simp only [decide_eq_true_eq]))
  · exact ⟨gives_writePort rfl hp h rfl, gives_writePort rfl hp h rfl⟩
  · exact gives_writePort rfl hp h (watermarkEffect_stores fun hr => absurd (show Reg.MAC_PAUSE_HWM = .MAC_PAUSE_LWM from hr) (by decide))
  · exact gives_writePort rfl hp h (watermarkEffect_stores fun _ => hl)
  · intro k v h1 h2
    exact ⟨fun he => gives_writePort rfl hp h (wdCfgEffect_enabled h1 h2 he), fun he => gives_writePort rfl hp h (wdCfgEffect_disabled h1 h2 he)⟩
  · intro op d
    have hg : (s.dev.portUp port.val && beVal (sliceB frame 12 2) == 0x8808) = true := by rw [hup, hty]; rfl
    refine ⟨fun hn => ?_, fun hn => ?_⟩
    · refine gives_of_exec (o := execControlFrameReceive port frame s) rfl rfl hu ((Dev.onlyIf_pos hg).trans ?_)
      simp only [hps, hfcs, Nat.not_lt.2 hmin, Nat.not_lt.2 hmax, Bool.false_eq_true, not_true_eq_false, if_false]
      rw [show Dev.pauseNamed _ _ _ = t :: l from hn]
    · refine gives_of_exec (o := execControlFrameReceive port frame s) rfl rfl hu ((Dev.onlyIf_pos hg).trans ?_)
      simp only [hps, hfcs, Nat.not_lt.2 hmin, Nat.not_lt.2 hmax, Bool.false_eq_true, not_true_eq_false, if_false]
      rw [show Dev.pauseNamed _ _ _ = [] from hn]
  · refine gives_of_exec (o := execPauseHoldExpiry port prio s) rfl rfl hu ?_
    simp only [he]
  · refine gives_of_exec (o := execPauseGapExpiry port prio s) rfl rfl hu ?_
    simp only [hg]
  · refine gives_of_exec (o := execStormStateEntry port prio s) rfl rfl hu ?_
    simp only [he, ht, hlt, if_true]
  · exact gives_of_exec (o := execStormStateExit port prio s) rfl rfl hu (Dev.onlyIf_pos hs)

end Sys2Proof.Machine

/-! PROOFS. Gate control lists and module management buses (R62 to R65, R74 to R76). -/

namespace Sys2Proof.Machine

open Sys2Proof

/-- Settles O4: the commit by its register's effect; a list's changes by the list that is pending or operates. -/
theorem gateCommandsComplete : Obligations.GateCommandsComplete := by
  refine ⟨?_, ?_, fun s port g e hu hg he hlt => ?_, fun s port hu hg => ?_⟩
  · intro s port ws w d hp h hc h1 h2 d'
    exact gives_writePort rfl hp h ((if_neg (by omega)).trans (if_pos hc))
  · intro s port g hu hg d
    refine ⟨fun hv => gives_of_exec (o := execGclConfigChange port s) rfl rfl hu ?_, fun hv => gives_of_exec (o := execGclConfigChange port s) rfl rfl hu ?_⟩
    · simp only [hg]
      exact if_pos hv
    · simp only [hg]
      exact if_neg (Bool.eq_false_iff.1 hv)
  · refine gives_of_exec (o := execGateEntryChange port s) rfl rfl hu ?_
    simp only [hg, he]
    exact Dev.onlyIf_pos (decide_eq_true hlt)
  · exact gives_of_exec (o := execGateCycleStart port s) rfl rfl hu (Dev.onlyIf_pos hg)

section ModuleBus

variable {sdaLow : Bool} {k : RegKey} {w : Write} {d : Dev}

/-- GO with a length within bounds on a bus that is not busy: the command starts, or the bus is recovered first. -/
theorem modCmdEffect_go (hgo : bitOf w.value.toNat 31 = true) (hb : d.flag F.MAC_MOD_STAT_BUSY k.n = false)
    (h1 : 1 ≤ F.MAC_MOD_CMD_LEN.ofWord (d.wouldBe k w.value)) (h8 : F.MAC_MOD_CMD_LEN.ofWord (d.wouldBe k w.value) ≤ 8) :
    modCmdEffect sdaLow k w d =
      let e := (d.setWord k (d.wouldBe k w.value)).setFld F.MAC_MOD_STAT_BUSY k.n 0 1
      if (e.modBus k.n).recovered ∧ ¬ sdaLow ∧ ¬ e.flag F.MAC_MOD_STAT_UNAVAIL k.n then e.startModCmd k.n
      else e.updMod k.n fun x => { x with phase := .recover d.clk.now, queued := true } := by
  unfold modCmdEffect
  dsimp only
  rw [if_neg (by simp only [hb, Bool.false_eq_true, and_false, or_false]; omega), if_neg (Classical.not_not.2 hgo)]
  simp only [Dev.setFld_clk, Dev.setWord_clk]

end ModuleBus

/-- Settles O5: the write that starts a command by its effect, the rest by the phase of the bus. -/
theorem moduleBusCommandsComplete : Obligations.ModuleBusCommandsComplete := by
  refine ⟨?_, fun s bus nack data hu hp => ?_, fun s bus t0 hu hp => ⟨fun k => ?_, ?_⟩, fun s bus t0 hu hp => ⟨fun k => ?_, ?_⟩⟩
  · intro s bus sdaLow ws w d h hgo hb h1 h8 k e
    refine ⟨fun hr hs hun => ?_, fun hor => ?_⟩
    · exact gives_writeReg rfl h ((modCmdEffect_go hgo hb h1 h8).trans (if_pos ⟨hr, by simp [hs], fun hu => Bool.noConfusion (hun.symm.trans hu)⟩))
    · refine gives_writeReg rfl h ((modCmdEffect_go hgo hb h1 h8).trans (if_neg ?_))
      rintro ⟨hr, hs, hun⟩
      obtain hor | hor | hor := hor
      · exact Bool.noConfusion (hor.symm.trans hr)
      · exact hs hor
      · exact hun hor
  · have hb : ((s.dev.modBus bus.val).phase == ModPhase.command) = true := by rw [hp]; decide
    refine ⟨fun hor => ?_, ?_, ?_⟩
    · refine gives_of_exec (o := execModCmdDone bus nack data s) rfl rfl hu ((Dev.onlyIf_pos hb).trans ?_)
      have hn : ¬ (s.dev.flag F.MAC_MOD_CMD_READ bus.val = true ∧ ¬ nack = true) := by rcases hor with h | h <;> simp [h]
      simp only [hn, if_false]
    · intro hr hn v
      refine gives_of_exec (o := execModCmdDone bus nack data s) rfl rfl hu ((Dev.onlyIf_pos hb).trans ?_)
      simp only [hr, hn, Bool.false_eq_true, not_false_eq_true, and_self, if_true]
      rfl
    · exact gives_of_exec (o := execModStretchTimeout bus s) rfl rfl hu (Dev.onlyIf_pos hb)
  · refine gives_of_exec (o := execModBusRecovery bus (some k) s) rfl rfl hu ?_
    simp only [hp]
  · refine gives_of_exec (o := execModBusRecovery bus none s) rfl rfl hu ?_
    simp only [hp]
  · refine gives_of_exec (o := execModRecoveryWaitExpiry bus (some k) s) rfl rfl hu ?_
    simp only [hp]
  · intro d hq
    refine gives_of_exec (o := execModRecoveryWaitExpiry bus none s) rfl rfl hu ?_
    simp only [hp]
    exact if_pos hq

end Sys2Proof.Machine

/-! PROOFS. Reception, the pipeline's slots, the stages and the exit of a pass (R48, R78 to R81, R92 to R94, R140 to R143). -/

namespace Sys2Proof.Machine

open Sys2Proof

theorem Dev.portCount_rx (d : Dev) (p k x : Nat) : (d.portCount p k x).rx = d.rx := rfl

section Pipeline

variable {s : State} {region : Fin 4} {stage : Fin 12} {id : Nat}

/-- The packet at a stage passes it with what the stage made of the device, unless its action program polices behind an older packet (R153). -/
theorem execStageLookup_passes {d e : Dev} (hd : s.dev.advanceTo ((s.dev.pkt id).slot + 96 + 128 * stage.val) = d)
    (he : (if (d.pkt id).nextTbl < 64 ∧ d.tblLive region.val (d.pkt id).nextTbl ∧ d.fld F.CLS_TBL_STAGE region.val (d.pkt id).nextTbl = stage.val then
      d.stageLookup region.val stage.val (d.pkt id).nextTbl id else d) = e) (hu : Up s)
    (hf : ((s.dev.pipeQ.at [] region.val).find? fun id => (s.dev.pkt id).place == .stage stage.val) = some id)
    (hp : ¬ (e.hasPkt id ∧ (e.pkt id).policed ≠ (d.pkt id).policed ∧ d.olderAhead id)) :
    Gives (.stageLookup region stage) s ((e.dropHeld id stage.val).nextStage id stage.val) := by
  refine gives_of_exec (o := execStageLookup region stage s) rfl rfl hu ?_
  simp only [hf, hd, he]
  exact if_neg hp

end Pipeline

/-- Settles O6: each clause runs its command in the state that it names. -/
theorem packetPathCommandsComplete : Obligations.PacketPathCommandsComplete := by
  refine ⟨?_, fun s port data noSlot x hu hx hd hl hn ho hb => ?_, ?_, ?_, fun s region id l hu hw => ?_, fun s region id hu hf => ?_, ?_, ?_, ?_, ?_⟩
  · intro s port head hu hup hrx hty hps p r prio x
    refine gives_of_exec (o := execFrameReceiveStart port head s) rfl rfl hu ((Dev.onlyIf_pos ?_).trans (if_neg (Bool.eq_false_iff.1 hps)))
    rw [hup, hrx, bne_iff_ne.2 hty]
    rfl
  · refine gives_of_exec (o := execCellArrival port data noSlot s) rfl rfl hu ?_
    have hfull : ¬ ((noSlot = true ∧ s.dev.portWidth port.val = 8) ∨ s.dev.fld F.SCH_IN_LIMIT_CELLS (port.val / 4) (8 * (port.val % 4) + (s.dev.pkt x.pkt).prio) ≤
        s.dev.occ port.val (s.dev.pkt x.pkt).prio ∨ 65536 ≤ s.dev.fld F.SCH_BUF_STAT_USED (s.dev.pkt x.pkt).region) := by
      rintro (⟨h1, h2⟩ | h | h)
      · exact hn.elim (fun h => Bool.noConfusion (h.symm.trans h1)) (fun h => h h2)
      · omega
      · omega
    simp only [hx, hd, Nat.not_le.2 hl, hfull, Bool.false_eq_true, if_false]
  · intro s port corrected uncorrectable x d f hu hup hx hd e h64 hmax hfcs hsec
    refine gives_of_exec (o := execFrameReceiveEnd ⟨port, corrected, uncorrectable⟩ s) rfl rfl hu ?_
    simp only [hup, Dev.onlyIf_pos, Dev.portCount_rx, hx, hd, hfcs, Nat.not_lt.2 h64, Bool.false_eq_true, not_true_eq_false, if_false]
    rw [if_neg (Nat.not_lt.2 hmax), show Dev.macsecRx _ _ _ = (d, some f) from hsec]
  · intro s region hu hf r d0 d
    refine ⟨fun hw => gives_of_exec (o := execPipelineSlotGrant region s) rfl rfl hu ?_, fun src a hw ha => gives_of_exec (o := execPipelineSlotGrant region s) rfl rfl hu ?_⟩
    · simp only [hf, Bool.false_eq_true, if_false]
      exact if_pos (by simpa using hw)
    · simp only [hf, Bool.false_eq_true, if_false]
      rw [if_neg (Classical.not_not.2 (List.isEmpty_iff.2 hw)), show Dev.arbPick _ _ _ = some (src, a) from ha]
  · refine gives_of_exec (o := execRecircWaitExpiry region s) rfl rfl hu ?_
    simp only [hw]
  · intro r k d
    refine gives_of_exec (o := execPacketParse region s) rfl rfl hu ?_
    simp only [hf]
    rfl
  · intro s region ws w d h hc e
    exact gives_writeReg rfl h (if_pos hc)
  · intro s region stage id hu hf d t e
    refine ⟨fun ht hl hs hp => execStageLookup_passes rfl (if_pos ⟨ht, hl, hs⟩) hu hf ?_, fun ht => execStageLookup_passes rfl (if_neg fun h => Nat.not_lt.2 ht h.1) hu hf fun h => h.2.1 rfl⟩
    rintro ⟨h1, h2, h3⟩
    obtain hp | hp | hp := hp
    · exact Bool.noConfusion (hp.symm.trans h1)
    · exact h2 hp
    · exact Bool.noConfusion (hp.symm.trans h3)
  · intro s region f hu hf e d
    refine gives_of_exec (o := execDeferFetchComplete region s) rfl rfl hu ?_
    simp only [hf]
    rfl
  · intro s region id hu hx r d0 d1 k d
    refine ⟨fun hk => gives_of_exec (o := execPassExit region s) rfl rfl hu ?_, fun x hk => gives_of_exec (o := execPassExit region s) rfl rfl hu ?_⟩
    · dsimp only
      rw [hx]
      show (match k.sa with | some sid => d.withSa r id sid | none => d.dispose r id) = _
      rw [hk]
    · dsimp only
      rw [hx]
      show (match k.sa with | some sid => d.withSa r id sid | none => d.dispose r id) = _
      rw [hk]

end Sys2Proof.Machine

/-! PROOFS. The egress scheduler and the primitives of action programs (R103 to R106, R127, R149 to R155). -/

namespace Sys2Proof.Machine

open Sys2Proof

section Scheduler

variable {k : RegKey} {w : Write} {d : Dev}

/-- A write of SCH_TNODE that keeps the node's class, queues and enable is stored. -/
theorem tnodeEffect_stores (hw : (d.setWord k (d.wouldBe k w.value)).fld F.SCH_TNODE_WEIGHT k.n k.i ≠ 0)
    (hq : ((d.setWord k (d.wouldBe k w.value)).nodeQueues k.n k.i).2 ≤ 16383)
    (hc : (d.setWord k (d.wouldBe k w.value)).fld F.SCH_TNODE_CLASS k.n k.i = d.fld F.SCH_TNODE_CLASS k.n k.i)
    (hn : (d.setWord k (d.wouldBe k w.value)).nodeQueues k.n k.i = d.nodeQueues k.n k.i)
    (he : (d.setWord k (d.wouldBe k w.value)).flag F.SCH_TNODE_EN k.n k.i = d.flag F.SCH_TNODE_EN k.n k.i) : tnodeEffect k w d = d.setWord k (d.wouldBe k w.value) := by
  rw [hn] at hq
  simp only [tnodeEffect, hw, hc, hn, he, Nat.not_lt.2 hq, ne_eq, not_true_eq_false, or_self, decide_false, Bool.or_false, Bool.and_not_self, Bool.false_and, Bool.false_eq_true,
    if_false]

/-- A write of SCH_POL within its bounds fills both buckets. -/
theorem polEffect_fills (h0 : k.w = 0 → bitsOf (d.wouldBe k w.value).toNat 31 30 ≠ 3 ∧ bitsOf (d.wouldBe k w.value).toNat 20 0 ≤ 1600000)
    (h2 : k.w = 2 → bitsOf (d.wouldBe k w.value).toNat 20 0 ≤ 1600000) :
    polEffect k w d =
      let e := (d.keepPolicer k.n k.i).setWord k (d.wouldBe k w.value)
      let full := (e.fld F.SCH_POL_CBS k.n k.i * 2 ^ 40, e.fld F.SCH_POL_EBS_PBS k.n k.i * 2 ^ 40, e.clk.now)
      { e with pols := e.pols.set (0, 0, 0) (65536 * k.n + k.i) full } := by
  refine if_neg ?_
  rintro (⟨hk, hb | hb⟩ | ⟨hk, hb⟩)
  · exact (h0 hk).1 hb
  · exact Nat.not_lt.2 (h0 hk).2 hb
  · exact Nat.not_lt.2 (h2 hk) hb

end Scheduler

/-- Settles O7: the frames by the port's state and the scheduler's choice, the two registers by their effects. -/
theorem schedulerCommandsComplete : Obligations.SchedulerCommandsComplete := by
  refine ⟨fun s port c tn id p3 c3 d e b hu hp hup hm ht hc hdue hch hst hw hl hpr => ?_, fun s port id hu ht => ?_, ?_, ?_⟩
  · refine gives_of_exec (o := execFrameTransmitStart port s) rfl rfl hu ((if_neg ?_).trans ?_)
    · simp [hp, hup, hm, ht, hc, hdue]
    · dsimp only
      rw [hch]
      dsimp only
      rw [if_neg (Bool.eq_false_iff.1 hst), if_neg, hpr]
      rintro (h | ⟨h1, h2⟩)
      · omega
      · exact hl.elim (fun h => h1 (List.isEmpty_iff.2 h)) (fun h => Nat.not_lt.2 h h2)
  · intro p st n d0 d1 d2 d3
    refine gives_of_exec (o := execFrameTransmitEnd port s) rfl rfl hu ?_
    dsimp only
    rw [ht]
  · intro s region node word ws w d h k e hw hq hc hn he
    exact gives_writeReg rfl h (tnodeEffect_stores hw hq hc hn he)
  · intro s region policer word ws w d h k v e h0 h2 full
    exact gives_writeReg rfl h (polEffect_fills h0 h2)

section Primitives

variable {s : State} {c : Instr} {id code : Nat} {x : DWord} {e : Dev}

/-- A primitive on a packet in a stage gives what the primitive of its code does. -/
theorem gives_prim (hu : Up s) (hs : s.dev.inStage id = true) (hx : exec c s = s.on fun d => d.primOn id code x) (he : s.dev.prim id code x.toNat = e) : Gives c s e :=
  gives_on hx hu ((Dev.onlyIf_pos hs).trans he)

end Primitives

/-- Settles O8: each primitive on a packet in a stage. -/
theorem primitivesComplete : Obligations.PrimitivesComplete := by
  intro s id x hu hs d k op
  refine ⟨gives_prim hu hs rfl rfl, gives_prim hu hs rfl rfl, fun hm hl => gives_prim hu hs rfl ?_, fun hm hl => gives_prim hu hs rfl ?_, gives_prim hu hs rfl rfl,
    fun ho => ?_, gives_prim hu hs rfl rfl, gives_prim hu hs rfl rfl, fun h1 h11 => gives_prim hu hs rfl (if_pos ⟨h1, h11⟩), gives_prim hu hs rfl rfl, gives_prim hu hs rfl rfl,
    gives_prim hu hs rfl rfl, gives_prim hu hs rfl rfl, gives_prim hu hs rfl rfl, fun h31 h30 => gives_prim hu hs rfl ?_, fun h31 h30 => gives_prim hu hs rfl ?_,
    fun h31 h30 => gives_prim hu hs rfl ?_⟩
  · exact (if_neg (Classical.not_not.2 hm)).trans (if_pos hl)
  · exact (if_neg (Classical.not_not.2 hm)).trans (if_neg (Nat.not_lt.2 hl))
  · refine gives_of_exec (o := execPolice id x s) rfl rfl hu ((Dev.onlyIf_pos ?_).trans ((Dev.onlyIf_pos hs).trans rfl))
    rw [show s.dev.olderAhead id = false from ho]
    rfl
  · show s.dev.primSetctx id op = _
    simp only [Dev.primSetctx, h31, h30, if_true, Bool.false_eq_true, if_false]
    rfl
  · show s.dev.primSetctx id op = _
    simp only [Dev.primSetctx, h31, h30, if_true, Bool.false_eq_true, if_false]
    rfl
  · show s.dev.primSetctx id op = _
    simp only [Dev.primSetctx, h31, h30, if_true]
    rfl

end Sys2Proof.Machine

/-! PROOFS. The trie's update queue, learning and the sweeper (R113 to R119, R129 to R134). -/

namespace Sys2Proof.Machine

open Sys2Proof

section Tuq

variable {s : State} {c : Instr} {ok : Nat → Bool} {f : List Byte → Dev → Dev} {e : List Byte} {d : Dev} {op : Nat}

/-- The next entry of the update queue, processed by the command that its OP stands for. -/
theorem Dev.tuqStep_runs (he : d.tuqEntry = some e) (hop : (e.headD 0).toNat = op) (hok : ok op = true) : d.tuqStep ok f = f e d := by
  rw [Dev.tuqStep, he]
  exact Dev.onlyIf_pos (hop ▸ hok)

theorem gives_tuq (hx : exec c s = s.on fun d => d.tuqStep ok f) (hu : Up s) (he : s.dev.tuqEntry = some e) (hop : (e.headD 0).toNat = op) (hok : ok op = true)
    (hf : f e s.dev = d) : Gives c s d :=
  gives_on hx hu ((Dev.tuqStep_runs he hop hok).trans hf)

end Tuq

/-- Settles O10: the update queue by its next entry, learning by what stands at the key, the sweeper by its round. -/
theorem forwardingCommandsComplete : Obligations.ForwardingCommandsComplete := by
  refine ⟨fun s ws w d h => gives_writeReg rfl h rfl, fun s e hu he => ⟨fun h0 => ?_, fun h5 => ?_, fun h1 => ?_, fun h2 => ?_, fun h3 hr => ?_, fun h4 => ?_⟩,
    fun s t l hu ht => ?_, fun s region x l hu hl => ?_, fun s region x l hu hl => ?_, fun s region table x hu hx => ?_⟩
  · exact gives_tuq rfl hu he h0 rfl (congrArg _ (if_pos (BitVec.eq_of_toNat_eq h0)))
  · refine gives_tuq rfl hu he rfl ?_ (congrArg _ (if_neg fun h => ?_))
    · rw [decide_eq_true h5, Bool.or_true]
    · rw [h] at h5
      exact absurd h5 (by decide)
  · exact gives_tuq rfl hu he h1 rfl rfl
  · exact gives_tuq rfl hu he h2 rfl rfl
  · intro d
    exact gives_of_exec (o := execTuqCommit s) rfl rfl hu ((Dev.onlyIf_pos (List.isEmpty_iff.2 hr)).trans (Dev.tuqStep_runs he h3 rfl))
  · exact gives_tuq rfl hu he h4 rfl rfl
  · refine gives_of_exec (o := execTrieNodeFree s) rfl rfl hu ?_
    dsimp only
    rw [ht]
  · intro d e stands
    refine ⟨fun hn => gives_of_exec (o := execLearnRequest region s) rfl rfl hu ?_, fun y hy => ⟨fun hp => gives_of_exec (o := execLearnRequest region s) rfl rfl hu ?_,
      fun hp hs => gives_of_exec (o := execLearnRequest region s) rfl rfl hu ?_, fun hp hs => gives_of_exec (o := execLearnRequest region s) rfl rfl hu ?_⟩⟩
    all_goals dsimp only; rw [hl]
    · show (match stands with | none => _ | some w => _) = _
      rw [hn]
    all_goals
      show (match stands with
        | none => _
        | some w => if adBport w.adata = x.bport then d.hitKey x.home x.table x.key else if adStatic w.adata then d.bump .FWD_CNT 0 4
          else (d.bump .FWD_CNT 0 1).queueLearn { x with action := some w.action }) = _
      rw [hy]
    · exact if_pos hp
    · exact (if_neg hp).trans (if_pos hs)
    · exact (if_neg hp).trans (if_neg (Bool.eq_false_iff.1 hs))
  · intro d y hb
    refine ⟨fun hs => gives_of_exec (o := execLearnInsert region s) rfl rfl hu ?_, fun hs => ⟨fun h3 => gives_of_exec (o := execLearnInsert region s) rfl rfl hu ?_,
      fun h1 => gives_of_exec (o := execLearnInsert region s) rfl rfl hu ?_, fun h3 h1 => gives_of_exec (o := execLearnInsert region s) rfl rfl hu ?_⟩⟩
    all_goals dsimp only; rw [hl]
    · exact (if_neg (Classical.not_not.2 hb)).trans (if_pos hs)
    all_goals
      refine (if_neg (Classical.not_not.2 hb)).trans ((if_neg (Bool.eq_false_iff.1 hs)).trans ?_)
      show (match y.2 with | 3 => y.1.learnFail | 1 => y.1 | _ => (y.1.bump .FWD_CNT 0 0).tally 0x08 1) = _
    · rw [h3]
      rfl
    · rw [h1]
      rfl
    · split
      · exact absurd ‹_› h3
      · exact absurd ‹_› h1
      · rfl
  · intro r t
    refine ⟨fun hp ha => ?_, fun hor => gives_of_exec (o := execSweepRoundStart region table s) rfl rfl hu ?_⟩
    · intro d
      refine gives_of_exec (o := execSweeperVisit region table s) rfl rfl hu ?_
      dsimp only
      rw [hx]
      exact Dev.onlyIf_pos (by rw [decide_eq_true hp]; exact ha)
    · dsimp only
      rw [hx]
      exact if_neg fun h => hor.elim (fun ha => Bool.noConfusion (ha.symm.trans h.1)) (Nat.not_le.2 h.2)

end Sys2Proof.Machine

/-! PROOFS. Functions, host links, resets and configuration (R161 to R169, R176, R183, R195 to R197, R490). -/

namespace Sys2Proof.Machine

open Sys2Proof

section Functions

variable {s : State} {k : RegKey} {w : Write} {d : Dev} {fn : Fin 512} {host : Fin 2} {down : LinkDown}

theorem funcResEffect_bad (hk : k.reg ≠ .STO_FUNC) (hb : d.resBad k.i ((d.plainWrite k w.value).resWritten k.i) = true) : funcResEffect k w d = d.setChip F.HIF_STAT_BADCFG 1 :=
  (if_neg fun h => hk h.1).trans (if_pos hb)

/-- A write for an enabled function is held, with the resources in effect kept. -/
theorem funcResEffect_held (hk : k.reg ≠ .STO_FUNC) (hb : d.resBad k.i ((d.plainWrite k w.value).resWritten k.i) = false) (he : (d.fn k.i).enabled = true) :
    funcResEffect k w d = ((d.plainWrite k w.value).updFn k.i fun x => { x with held := some (d.res k.i) }).setFld F.HIF_FUNC_RES_PENDING 0 k.i 1 :=
  (if_neg fun h => hk h.1).trans ((if_neg (Bool.eq_false_iff.1 hb)).trans (if_pos he))

/-- EN from 0 to 1 samples the port's shape. -/
theorem hifPortEffect_enables (hb : F.HIF_PORT_CFG_BIFURC.ofWord (d.wouldBe k w.value) ≠ 3) (hg : F.HIF_PORT_CFG_MAX_GEN.ofWord (d.wouldBe k w.value) ≠ 0)
    (h0 : d.flag F.HIF_PORT_CFG_EN 0 k.i = false) (h1 : (d.setWord k (d.wouldBe k w.value)).flag F.HIF_PORT_CFG_EN 0 k.i = true) :
    hifPortEffect k w d = (d.setWord k (d.wouldBe k w.value)).samplePort k.i := by
  refine (if_neg fun h => h.elim hb hg).trans ?_
  simp only [h0, h1, Bool.false_eq_true, false_and, not_false_eq_true, and_self, if_false, if_true]

/-- EN from 1 to 0 takes every link to Detect. -/
theorem hifPortEffect_disables (hb : F.HIF_PORT_CFG_BIFURC.ofWord (d.wouldBe k w.value) ≠ 3) (hg : F.HIF_PORT_CFG_MAX_GEN.ofWord (d.wouldBe k w.value) ≠ 0)
    (h1 : d.flag F.HIF_PORT_CFG_EN 0 k.i = true) (h0 : (d.setWord k (d.wouldBe k w.value)).flag F.HIF_PORT_CFG_EN 0 k.i = false) :
    hifPortEffect k w d = (d.setWord k (d.wouldBe k w.value)).each (List.range 4) fun l d => d.dropLink k.i l := by
  refine (if_neg fun h => h.elim hb hg).trans ?_
  simp only [h0, h1, Bool.false_eq_true, not_false_eq_true, and_self, if_true]

/-- A link goes down by an error that has a bit, which is reported while the link is up. -/
theorem gives_hostLinkDown_error {b : Nat} (hu : Up s) (hb : lossBit down.loss = some b) :
    (s.dev.linkUp host.val down.link.val = true → Gives (.hostLinkDown host down) s ((s.dev.reportLink host.val down.link.val b).dropLink host.val down.link.val)) ∧
    (s.dev.linkUp host.val down.link.val = false → Gives (.hostLinkDown host down) s (s.dev.dropLink host.val down.link.val)) := by
  refine ⟨fun hl => gives_of_exec (o := execHostLinkDown host down s) rfl rfl hu ?_, fun hl => gives_of_exec (o := execHostLinkDown host down s) rfl rfl hu ?_⟩
  · simp only [hb, Dev.onlyIf_pos hl]
  · simp only [hb, Dev.onlyIf_neg hl]

/-- A configuration request to a function that answers it. -/
theorem execConfigRequest_answers {field : CfgField} {write : Option Nat} (hu : Up s) (hc : s.dev.cfgArrives fn.val = true) (hr : s.dev.released = true)
    (hi : (s.dev.fn fn.val).inReset = none) (he : s.dev.fnExists fn.val = true) :
    Gives (.configRequest fn field write) s (match write with
      | none => s.dev.emit (.cfgReply fn.val 0 (s.dev.cfgRead fn.val field))
      | some v => (s.dev.emit (.cfgReply fn.val 0 0)).cfgWrite fn.val field v) := by
  refine gives_of_exec (o := execConfigRequest fn field write s) rfl rfl hu ((if_neg (Classical.not_not.2 hc)).trans ((if_neg ?_).trans (if_neg (Classical.not_not.2 he))))
  rw [hr, hi]
  decide

end Functions

/-- Settles O11: each clause runs its command in the state that it names. -/
theorem hostFunctionCommandsComplete : Obligations.HostFunctionCommandsComplete := by
  refine ⟨fun s fn vector hu hp hm hv hc => ?_, fun s fn hu he hb hi => ?_, ?_, fun s fn itag page pages hu => ?_, fun s fn id tags hu hf ht => ?_,
    fun s host link gen hu hen hp hw hl hpf hg => ?_, fun s host link hu => ⟨?_, fun loss bit hmem => ?_⟩, fun s fn hu hr he hi => ?_, fun s fn hu hi hp => ?_,
    fun s fn field hu hc hr hi he => ⟨execConfigRequest_answers hu hc hr hi he, fun v => execConfigRequest_answers hu hc hr hi he⟩,
    fun s fn enable n hu h16 hr he hi => ?_, fun s host hu => ⟨fun hp => ?_, fun hp => ?_⟩, ?_⟩
  · exact gives_of_exec (o := execMsixUnmask fn vector s) rfl rfl hu (if_pos ⟨hp, hm, Bool.eq_false_iff.1 hv, hc⟩)
  · exact gives_of_exec (o := execFunctionEnable fn s) rfl rfl hu (if_pos ⟨he, Bool.eq_false_iff.1 hb, by rw [hi]; rfl⟩)
  · intro s fn word ws w d h e
    exact ⟨fun hb => gives_writeReg rfl h (funcResEffect_bad Reg.noConfusion hb), fun hb he => gives_writeReg rfl h (funcResEffect_held Reg.noConfusion hb he)⟩
  · exact gives_of_exec (o := execAtsInvalidate fn itag page pages s) rfl rfl hu rfl
  · refine gives_of_exec (o := execAtsInvalidateComplete fn s) rfl rfl hu ?_
    dsimp only
    rw [hf]
    exact if_neg (Bool.eq_false_iff.1 ht)
  · intro i g
    refine gives_of_exec (o := execHostLinkUp host link gen s) rfl rfl hu (if_neg ?_)
    rintro (h | h | h | h | h | h)
    · exact h hen
    · exact Bool.noConfusion (hp.symm.trans h)
    · rw [hw] at h
      exact Bool.noConfusion h
    · exact Nat.not_le.2 hl h
    · exact hpf (List.isEmpty_iff.1 h)
    · exact Nat.ne_of_gt hg h
  · exact gives_of_exec (o := execHostLinkDown host ⟨link, .plain⟩ s) rfl rfl hu rfl
  · refine gives_hostLinkDown_error (down := ⟨link, loss⟩) hu (of_mem_pairs (P := fun l b => lossBit l = some b) hmem ?_)
    repeat' refine List.forall_mem_cons.2 ⟨rfl, ?_⟩
    exact fun _ h => absurd h List.not_mem_nil
  · exact gives_of_exec (o := execFlrInitiate fn s) rfl rfl hu (if_pos ⟨hr, he, by rw [hi]; rfl⟩)
  · refine gives_of_exec (o := execFlrComplete fn s) rfl rfl hu (if_neg ?_)
    rintro (h | h)
    · rw [Option.isNone_iff_eq_none] at h
      rw [h] at hi
      exact Bool.noConfusion hi
    · exact Bool.noConfusion (hp.symm.trans h)
  · refine gives_of_exec (o := execVfEnable fn enable n s) rfl rfl hu (if_neg ?_)
    simp only [hr, he, hi, not_true_eq_false, Option.isSome_none, Bool.false_eq_true, or_false]
    omega
  · exact gives_always (show exec (.perstAssert host) s = execPerstAssert host s from rfl) ((if_neg (Bool.eq_false_iff.1 hp)).trans (if_neg (Classical.not_not.2 hu)))
  · exact gives_always (show exec (.perstDeassert host) s = execPerstDeassert host s from rfl) ((if_neg (Classical.not_not.2 hp)).trans (if_pos hu))
  · intro s host ws w d h v e hb hg
    exact ⟨fun h0 h1 => gives_writeReg rfl h (hifPortEffect_enables hb hg h0 h1), fun h1 h0 => gives_writeReg rfl h (hifPortEffect_disables hb hg h1 h0)⟩

end Sys2Proof.Machine

/-! PROOFS. Requests of a host to memory space, and completions of the device's own reads (R178, R179, R190 to R194). -/

namespace Sys2Proof.Machine

open Sys2Proof

section HostWrites

variable {d : Dev} {fn : Fin 512} {o i : Nat} {bs : List Byte} {tlp : Tlp} {x : HeldWrite}

theorem Dev.writePiece_arrives (hw : d.flag F.HIF_ITT_WR 0 i = true) (he : tlp.ep = false) :
    d.writePiece fn o (some i) bs tlp = d.arriveWrite i tlp { fn := fn, addr := d.innerAddr i o, data := bs, ep := false } := by
  simp only [Dev.writePiece, hw, he, Bool.false_eq_true, not_true_eq_false, false_and, if_false, Dev.onlyIf_neg]

/-- A list whose elements all fail the test keeps them all. -/
theorem dropWhile_of_none {α : Type} {p : α → Bool} {l : List α} (h : ∀ y, p y = false) : l.dropWhile p = l := by
  cases l with
  | nil => rfl
  | cons y t => exact List.dropWhile_cons_of_neg (Bool.eq_false_iff.1 (h y))

/-- A list whose elements all pass the test keeps none. -/
theorem dropWhile_of_all {α : Type} {p : α → Bool} {l : List α} (h : ∀ y ∈ l, p y = true) : l.dropWhile p = [] := by
  induction l with
  | nil => rfl
  | cons y t ih => exact (List.dropWhile_cons_of_pos (h y (List.mem_cons_self ..))).trans (ih fun z hz => h z (List.mem_cons_of_mem _ hz))

/-- A write that may pass none of those held: all of them become visible first. -/
theorem Dev.arriveWrite_behind (h : ∀ y, d.mayPass i tlp x.fn y = false) :
    d.arriveWrite i tlp x = if tlp.held then { d.landWrites with heldWrites := d.landWrites.heldWrites ++ [x] } else d.landWrites.landWrite x := by
  rw [Dev.arriveWrite, dropWhile_of_none fun y => h y, List.length_reverse]
  rfl

/-- A write that may pass all of them. -/
theorem Dev.arriveWrite_ahead (h : ∀ y ∈ d.heldWrites, d.mayPass i tlp x.fn y = true) :
    d.arriveWrite i tlp x = if tlp.held then { d with heldWrites := d.heldWrites ++ [x] } else d.landWrite x := by
  rw [Dev.arriveWrite, dropWhile_of_all fun y hy => h y (List.mem_reverse.1 hy)]
  rfl

end HostWrites

/-- Settles O12: requests and completions by what the device finds at each of their tests; a write by the held writes that it may pass. -/
theorem hostAccessCommandsComplete : Obligations.HostAccessCommandsComplete := by
  refine ⟨?_, ?_, ?_, ?_, ?_⟩
  · intro s fn bar offset len tlp d hu ha ht hs hr hun x
    refine gives_of_exec (o := execHostMemoryRead fn bar offset ⟨len, tlp⟩ s) rfl rfl hu ?_
    dsimp only
    rw [if_neg (Classical.not_not.2 ha), ht]
    simp only [hs, hr, hun, not_true_eq_false, Bool.false_eq_true, Option.isSome_none, if_false]
    rfl
  · intro s fn bar offset data tlp d hu ha ht hs hr hun hp x
    refine gives_of_exec (o := execHostMemoryWrite fn bar offset data tlp s) rfl rfl hu ?_
    dsimp only
    rw [if_neg (Classical.not_not.2 ha), ht]
    simp only [hs, hr, hun, hp, not_true_eq_false, Bool.false_eq_true, Option.isSome_none, or_self, if_false]
    rfl
  · intro d fn o i bs tlp hw he x
    refine ⟨fun hor => ?_, fun ho hor => ?_⟩
    · have hb : ∀ y, d.mayPass i tlp x.fn y = false := by
        intro y
        rcases hor with h | ⟨h1, h2⟩
        · rw [Dev.mayPass, h]
          rfl
        · rw [Dev.mayPass, h1, h2, Bool.false_and, Bool.or_false, Bool.and_false]
      have hx := (Dev.writePiece_arrives (fn := fn) (o := o) (bs := bs) hw he).trans (Dev.arriveWrite_behind hb)
      exact ⟨fun hh => hx.trans (if_neg (Bool.eq_false_iff.1 hh)), fun hh => hx.trans (if_pos hh)⟩
    · have hb : ∀ y ∈ d.heldWrites, d.mayPass i tlp x.fn y = true := by
        intro y hy
        rw [Dev.mayPass, ho]
        rcases hor with h | ⟨h1, h2⟩
        · rw [h]
          rfl
        · rw [h1, bne_iff_ne.2 (h2 y hy), Bool.true_and, Bool.or_true]
          rfl
      have hx := (Dev.writePiece_arrives (fn := fn) (o := o) (bs := bs) hw he).trans (Dev.arriveWrite_ahead hb)
      exact ⟨fun hh => hx.trans (if_neg (Bool.eq_false_iff.1 hh)), fun hh => hx.trans (if_pos hh)⟩
  · intro s fn tag data tlp d hu hc ht
    have arrives {e : Dev} (he : (match d.reads.at none tag with
        | none => d.report fn.val aerUnexpected
        | some r => if r.fn ≠ fn.val then d.report fn.val aerUnexpected else if ¬ r.who.byTag then d
          else d.finishRead tag r data (if tlp.ep then .poisoned else .good)) = e) : Gives (.hostCompletionReceive ⟨fn, tag⟩ data tlp) s e := by
      refine gives_of_exec (o := execHostCompletionReceive ⟨fn, tag⟩ data tlp s) rfl rfl hu ?_
      dsimp only
      rw [if_neg (Classical.not_not.2 hc), ht, ← he]
      rfl
    refine ⟨fun hn => arrives (by rw [hn]), fun r hr => ⟨fun hf => arrives ?_, fun hf hb => ?_⟩⟩
    · rw [hr]
      exact if_pos hf
    · intro ends e0 e
      refine arrives ?_
      rw [hr]
      refine (if_neg (Classical.not_not.2 hf)).trans ((if_neg (Classical.not_not.2 hb)).trans ?_)
      have hgood : (ends != ReadEnd.timedOut) = true := by
        cases h : tlp.ep <;> simp [ends, h]
      exact congrArg (fun d : Dev => (d.endRead r data ends).pumpReads.pumpAnswers) (Dev.onlyIf_pos hgood)
  · intro s tag r hu hr hb e
    refine gives_of_exec (o := execCompletionTimeout tag s) rfl rfl hu ?_
    rw [hr]
    exact if_pos hb

end Sys2Proof.Machine

/-! PROOFS. Doorbells, queue pairs, jobs and events (R200 to R220). -/

namespace Sys2Proof.Machine

open Sys2Proof

section Queues

variable {s : State} {c : Instr} {d e : Dev} {fn : Fin 512} {n op j : Nat} {rq : Bool} {x : Job}

/-- A doorbell at a running queue of a device that waits for no peer. -/
theorem Dev.ringDoorbellIn_runs (hp : d.passive = false) (hw : d.peerWaits = false) (hq : d.hasQp n = true) (he : d.flag F.QCP_CTL_EN n = true) (p : Nat) :
    d.ringDoorbellIn n rq p = if d.ringAccepts n rq p then d.updQp n fun q => if rq then { q with rqPi := p } else { q with sqPi := p } else d.bump .QCP_CNT n 1 := by
  simp only [Dev.ringDoorbellIn, Dev.ringDoorbell, hp, hw, hq, he, Bool.false_and, Bool.false_eq_true, not_true_eq_false, or_self, if_false]

theorem Dev.eqDoorbellIn_runs {f q v : Nat} (hp : d.passive = false) (hw : d.peerWaits = false) (hq : d.hasEq f q = true) (he : d.flag F.EQC_CTL_EN (16 * f + q) = true) :
    d.eqDoorbellIn f q v =
      let n := 16 * f + q
      let c := v % 65536
      if idxDist (d.fld F.EQC_STAT_PI n) (d.fld F.EQC_STAT_CI n) < idxDist c (d.fld F.EQC_STAT_CI n) then d.bump .EQC_DB_BAD n 0
      else
        let e := d.setFld F.EQC_STAT_CI n 0 c
        if bitOf v 31 ∧ d.fld F.EQC_STAT_PI n ≠ c then { e with eqArm := e.eqArm.set false n false }.trigger f (e.fld F.EQC_CTL_VEC n)
        else { e with eqArm := e.eqArm.set false n (bitOf v 31) } := by
  simp only [Dev.eqDoorbellIn, Dev.eqDoorbell, hp, hw, hq, he, Bool.false_and, Bool.false_eq_true, not_true_eq_false, or_self, if_false]

/-- A write that only stops a running queue pair. -/
theorem qcpCtlEffect_stops {k : RegKey} {w : Write} (he : d.flag F.QCP_CTL_EN k.n = true) (hn : bitOf w.value.toNat 31 = false)
    (hpv : F.QCP_CTL_PV.ofWord (d.wouldBe k w.value) = d.fld F.QCP_CTL_PV k.n) (hps : F.QCP_CTL_PASID.ofWord (d.wouldBe k w.value) = d.fld F.QCP_CTL_PASID k.n) :
    qcpCtlEffect k w d = ((d.setFld F.QCP_CTL_EN k.n 0 0).updQp k.n fun q => { q with stopping := true }).showStopped k.n := by
  simp only [qcpCtlEffect, he, hn, hpv, hps, Bool.false_eq_true, ne_eq, not_true_eq_false, or_self, if_true, if_false]

/-- The next job of a send queue, run by the command of its opcode. -/
theorem gives_runJob {go : Nat → Job → Dev → Dev} (hx : exec c s = s.on fun d => d.runJob n op go) (hu : Up s) (hj : s.dev.nextFetched n = some (j, x)) (ho : x.op = op)
    (he : go j x s.dev = e) : Gives c s e := by
  refine gives_on hx hu ?_
  rw [Dev.runJob, hj]
  exact (if_pos ho).trans he

end Queues

/-- Settles O13: doorbells and register writes by what the queue accepts, jobs by their opcode and state, turns and events by what stands first. -/
theorem queueCommandsComplete : Obligations.QueueCommandsComplete := by
  refine ⟨?_, ?_, fun s fn qp ws w d h hw => gives_writeReg rfl h (if_neg (Bool.eq_false_iff.1 hw)), fun s fn qp ws w d h he hn hpv hps => gives_writeReg rfl h (qcpCtlEffect_stops he hn hpv hps),
    ?_, fun s fn qp j x hu hj => ⟨fun ho hs => ?_, fun ho hs hl => ?_, fun ho hs => ?_, fun ho hs hl => ?_, fun ho hl => ?_, fun ho hl => ?_, fun ho hc => ?_,
      fun ho => gives_runJob rfl hu hj ho rfl, fun ho => gives_runJob rfl hu hj ho rfl⟩, ?_, ?_, fun s fn qp rq desc j x l hu hl hd => ?_, ?_⟩
  · intro s fn qp v hu hp hw hq he n p
    have rings (rq : Bool) {e : Dev} (hf : s.dev.ringDoorbellIn n rq p = e) : Gives (.doorbell fn qp rq v) s e := gives_of_exec (o := execDoorbell fn qp rq v s) rfl rfl hu hf
    exact ⟨fun ha => rings false ((Dev.ringDoorbellIn_runs hp hw hq he p).trans (if_pos ha)), fun ha => rings true ((Dev.ringDoorbellIn_runs hp hw hq he p).trans (if_pos ha)),
      fun rq ha => rings rq ((Dev.ringDoorbellIn_runs hp hw hq he p).trans (if_neg (Bool.eq_false_iff.1 ha)))⟩
  · intro s fn eq v hu hp hw hq he n ci pi c
    have hd := Dev.eqDoorbellIn_runs (v := v.toNat) hp hw hq he
    refine ⟨fun hlt => gives_of_exec (o := execEqDoorbell fn eq v s) rfl rfl hu (hd.trans (if_pos hlt)), fun hle ha hne => ?_⟩
    exact gives_of_exec (o := execEqDoorbell fn eq v s) rfl rfl hu (hd.trans ((if_neg (Nat.not_lt.2 hle)).trans (if_pos ⟨ha, hne⟩)))
  · intro s host descs n t hu ht hr d
    refine gives_of_exec (o := execQueueServiceTurn host descs s) rfl rfl hu ?_
    rw [ht]
    exact if_neg (Classical.not_not.2 hr)
  · exact gives_runJob rfl hu hj ho (if_pos (Or.inl hs))
  · exact gives_runJob rfl hu hj ho (if_neg fun h => h.elim hs (Nat.ne_of_gt hl))
  · exact gives_runJob rfl hu hj ho (if_pos (Or.inl hs))
  · exact gives_runJob rfl hu hj ho (if_neg fun h => h.elim hs (Nat.ne_of_gt hl))
  · exact gives_runJob rfl hu hj ho (if_neg (Nat.ne_of_gt hl))
  · exact gives_runJob rfl hu hj ho (if_pos hl)
  · exact gives_runJob rfl hu hj ho (if_neg (Classical.not_not.2 hc))
  · intro s fn qp desc hu n x hq he hw hr h0 hlt
    exact gives_of_exec (o := execRx fn qp desc s) rfl rfl hu (if_pos ⟨hq, he, hw, hr, h0, hlt⟩)
  · intro s fn queue id j l hu hh h256 n hq he hc hr hf hi hj
    refine gives_of_exec (o := execRxFrameDelivery fn queue s) rfl rfl hu ?_
    dsimp only
    rw [hh]
    simp only [Nat.not_le.2 h256, show s.dev.hasQp (256 * fn.val + queue.val) = true from hq, show s.dev.flag F.QCP_CTL_EN (256 * fn.val + queue.val) = true from he,
      show s.dev.isChannel (256 * fn.val + queue.val) = false from hc, show s.dev.rqEmpty (256 * fn.val + queue.val) = false from hr,
      show s.dev.cqFull (256 * fn.val + queue.val) = false from hf, hi, show s.dev.rxNext (256 * fn.val + queue.val) = some j from hj, not_true_eq_false, Bool.false_eq_true,
      or_self, if_false]
    rfl
  · refine gives_of_exec (o := execJobCompletion fn qp rq desc s) rfl rfl hu ?_
    dsimp only
    rw [hl]
    exact congrArg (Dev.showStopped · _) (if_pos hd)
  · intro s ev l hu hr d
    refine gives_of_exec (o := execEventWrite s) rfl rfl hu ?_
    rw [hr]

end Sys2Proof.Machine

/-! PROOFS. The command window of a function, and page requests (R184, R227, R231, R232, R248, R250, R251). -/

namespace Sys2Proof.Machine

open Sys2Proof

/-- Settles O14: the window's commands by OP, the rest by what waits. -/
theorem windowCommandsComplete : Obligations.WindowCommandsComplete := by
  refine ⟨?_, fun s fn hu hi hq => ?_, fun s fn page pasid hu hc => ⟨?_, fun code h0 h15 => ?_⟩, ?_⟩
  · intro s fn ws w d h hgo hb f e id
    refine ⟨fun ho => gives_writeReg rfl h ?_, fun ho => gives_writeReg rfl h ?_, fun ho => gives_writeReg rfl h ?_, fun ho => gives_writeReg rfl h ?_,
      fun ho hk => gives_writeReg rfl h ?_⟩
    all_goals
      refine (if_neg (Bool.eq_false_iff.1 hb)).trans ((if_neg (Classical.not_not.2 hgo)).trans ?_)
      dsimp only
      rw [show Dev.fld _ F.RMW_CMD_OP fn.val = _ from ho]
    · rfl
    · rfl
    · rfl
    · rfl
    · exact if_pos hk
  · refine gives_of_exec (o := execKeyInvalComplete fn s) rfl rfl hu (if_neg ?_)
    rw [hq]
    simp [hi]
  · exact gives_of_exec (o := execPageRequestResponse fn page pasid 0 s) rfl rfl hu ((if_neg (Classical.not_not.2 hc)).trans rfl)
  · refine gives_of_exec (o := execPageRequestResponse fn page pasid code s) rfl rfl hu ((if_neg (Classical.not_not.2 hc)).trans ((if_neg h15).trans ?_))
    simp only [beq_eq_false_iff_ne.2 h0, Bool.false_eq_true, if_false]
  · intro s key page at_ w hu hk ht hf d
    refine gives_of_exec (o := execOdpPageResolved key page at_ s) rfl rfl hu ?_
    dsimp only
    rw [hf]
    exact if_neg (by simp [hk, ht])

end Sys2Proof.Machine

/-! PROOFS. The requester's jobs, its timers, and what a transport engine receives (R230 to R250). -/

namespace Sys2Proof.Machine

open Sys2Proof

section Transport

variable {s : State} {c : Instr} {d e : Dev} {q n op j : Nat} {x : Job}

theorem Dev.qpHears_of_state (h : (d.qctx q).state = 3) : d.qpHears q = true := by
  rw [Dev.qpHears, h]
  rfl

/-- A job of a QP that may run it: the stall ends, the context is touched, and its data is read or its packets begin. -/
theorem Dev.runRm_runs (hj : d.rmDrain.rmNext n op = some (j, x)) (ho : d.rmDrain.ownsQpn (n / 256) x.qpn = true) (h3 : (d.rmDrain.qctx x.qpn).state = 3)
    (hp : (d.rmDrain.qctx x.qpn).page = n) (hb : (d.rmDrain.qctx x.qpn).bad = false) (hf : x.op = 0x28 → x.plt = 1 ∨ x.plt = 2)
    (he : ((d.rmDrain.updQctx x.qpn fun c => { c with stall := none }).touch (qpctxId x.qpn) (d.rmDrain.qpRegion x.qpn)) = e) (hi : e.canIssue (n / 256) = true) :
    d.runRm n op true = if x.carries = true ∧ x.state = .fetched ∧ x.len ≠ 0 then e.startRead j else e.rmLaunch j := by
  have hplt : ¬ (x.op = 0x28 ∧ x.plt ≠ 1 ∧ x.plt ≠ 2) := by
    rintro ⟨h, h1, h2⟩
    exact (hf h).elim h1 h2
  subst he
  rw [Dev.runRm]
  dsimp only
  rw [hj]
  simp only [ho, h3, hp, hb, hplt, hi, not_true_eq_false, Bool.false_eq_true, ne_eq, or_self, if_false]

end Transport

/-- Settles O15: each clause runs its command in the state that it names. -/
theorem transportCommandsComplete : Obligations.TransportCommandsComplete := by
  refine ⟨?_, fun s qpn path t hu ht hst hun hw => ?_, ?_, fun s qpn t j hu hst => ?_, ?_, ?_, ?_, ?_⟩
  · intro s fn qp j op x hu n d0 d e hj ho h3 hp hb hf hi
    have hn : n / 256 = fn.val := by omega
    have hrun : s.dev.runRm n op true = e := Dev.runRm_runs hj (hn ▸ ho) h3 hp hb hf rfl (hn ▸ hi)
    have runs {c : Instr} (hx : exec c s = s.on fun d => d.runRm n op true) : Gives c s e := gives_on hx hu hrun
    refine ⟨fun h => runs ?_, fun h => runs ?_, fun h => runs ?_, fun h => runs ?_, fun h => runs ?_, fun h => runs ?_, fun h => runs ?_, fun h => runs ?_, fun h => runs ?_⟩
    all_goals rw [h]; rfl
  · refine gives_of_exec (o := execAckTimeout qpn path s) rfl rfl hu ?_
    dsimp only
    rw [ht]
    exact if_pos ⟨hst, by simpa using hun, by simp [hw]⟩
  · intro s qpn t l hu hl d due
    refine gives_of_exec (o := execRnrTimerExpiry qpn s) rfl rfl hu ?_
    dsimp only
    rw [hl] <;> rfl
  · refine gives_of_exec (o := execLocalPageFaultTimeout qpn s) rfl rfl hu ?_
    rw [hst]
  · intro s region id ib ce hu hp op q psn d0 d e h3 hb
    have hh := Dev.qpHears_of_state h3
    have answers {e' : Dev} (he : (match op with
        | 0x11 => e.onAeth q 0 psn (be ib 12 1)
        | 0x12 => e.onAtomicAck q psn ib
        | 0xE1 => e
        | _ => e.onReadResponse q psn op ib) = e') (hc : opClass op = 2) (hm : (d.qctx q).mp = false) : Gives (.rdmaResponseReceive region) s e' := by
      refine gives_of_exec (o := execRdmaResponseReceive region s) rfl rfl hu ?_
      dsimp only
      rw [hp]
      refine (if_neg fun h => h.1 hc).trans ((if_neg (Classical.not_not.2 hh)).trans ((if_neg (Bool.eq_false_iff.1 hb)).trans ?_))
      exact (if_neg (Bool.eq_false_iff.1 hm)).trans ((if_neg (Classical.not_not.2 h3)).trans he)
    refine ⟨fun ho hm => answers (by rw [ho]; rfl) (by rw [ho]; rfl) hm, fun ho hm => answers (by rw [ho]; rfl) (by rw [ho]; rfl) hm, fun ho hm => ?_, fun h1 h2 hm => answers ?_ ?_ hm⟩
    · refine gives_of_exec (o := execRdmaResponseReceive region s) rfl rfl hu ?_
      dsimp only
      rw [hp]
      refine (if_neg fun h => h.2 (by rw [show be ib 0 1 = 0xE1 from ho]; rfl)).trans ((if_neg (Classical.not_not.2 hh)).trans ((if_neg (Bool.eq_false_iff.1 hb)).trans ?_))
      exact (if_pos hm).trans (if_pos ho)
    · clear_value op
      split
      · omega
      · omega
      · omega
      · rfl
    · unfold opClass
      rw [if_neg (by omega), if_neg (by omega), if_neg (by omega), if_pos ⟨h1, by omega⟩]
  · intro s region id ib y hu hp q d ho h3 hcc
    refine gives_of_exec (o := execCnpReceive region s) rfl rfl hu ?_
    dsimp only
    rw [hp]
    refine (if_neg (by rw [ho]; decide)).trans ((if_neg (Classical.not_not.2 h3)).trans ((if_neg (Classical.not_not.2 hcc)).trans rfl))
  · intro s region qpn no id ib ce hu hp op q psn c d ack after hq hn hc hh hm hb hx
    have receives {x : RxStep} (hgo : (match (rcKind op).1 with
        | 0 => d.rcSend q psn (rcKind op).2.1 (rcKind op).2.2.1 (rcKind op).2.2.2 ack ib
        | 2 => d.rcWrite q psn (rcKind op).2.1 (rcKind op).2.2.1 (rcKind op).2.2.2 ack ib
        | _ => d.rcRequest q psn (rcKind op).1 op ib) = x) : Gives (.rdmaRequestReceive region qpn no) s (after x) := by
      refine gives_of_exec (o := execRdmaRequestReceive region qpn no s) rfl rfl hu ?_
      dsimp only
      rw [hp]
      refine (if_neg ?_).trans ((if_neg (Classical.not_not.2 hh)).trans ((if_neg (Bool.eq_false_iff.1 hb)).trans ((if_neg ?_).trans ((if_neg (Bool.eq_false_iff.1 hm)).trans ?_))))
      · rintro (h | h | h)
        · exact absurd hc (Nat.ne_of_gt h)
        · exact h hq
        · exact h hn
      · exact fun h => Nat.one_ne_zero (hc.symm.trans h)
      · subst hgo
        exact (if_pos hx).trans rfl
    refine ⟨fun h => receives (by rw [h]; rfl), fun h => receives (by rw [h]; rfl), fun h0 h2 => receives ?_⟩
    split
    · exact absurd ‹_› h0
    · exact absurd ‹_› h2
    · rfl
  · intro s region qpn no id ib ce e hu hp q psn p c d hq hn ho hh hm hb hx hi he
    refine gives_of_exec (o := execMpDataReceive region qpn no s) rfl rfl hu ?_
    dsimp only
    rw [hp]
    refine (if_neg ?_).trans ((if_neg ?_).trans ((if_neg (Bool.eq_false_iff.1 hb)).trans ((if_pos hx).trans ?_)))
    · rintro (h | h | h)
      · exact h (by rw [ho]; rfl)
      · exact h hq
      · exact h hn
    · exact fun h => h.elim (fun h => h hh) fun h => h hm
    · show (match d.mpInOrder q p psn ib with | .waits d => d.enginePass id q | .done d ok => _) = _
      rw [hi]
      exact if_neg fun h => h.elim (fun h => h rfl) fun h => h he

end Sys2Proof.Machine

/-! PROOFS. The control commands of NVMe controllers (R258, R259, R262). -/

namespace Sys2Proof.Machine

open Sys2Proof

section Nvme

variable {s : State} {c : Instr} {d e : Dev} {f sq op o v : Nat} {sqe : List Byte} {q : NvmeQ}

/-- The entry at the head of a submission queue, with an opcode that its queue knows: taken, and run. -/
theorem nvFetch_takes {go : Nat → Dev → Dev} (hf : Fetches s f sq op sqe q) (hk : (if sq = 0 then adminOps.contains op else ioOps.contains op) = true) :
    s.dev.nvFetch f sq op sqe go = go q.cq (s.dev.nvTaken f sq q) := by
  obtain ⟨-, hh, hr, hq, hne, hi, hroom, hcq, hop, hrep⟩ := hf
  rw [Dev.nvFetch]
  dsimp only
  rw [hq]
  rw [hop]
  refine (if_neg ?_).trans ((if_neg fun h => h.2 rfl).trans ((if_neg (Classical.not_not.2 hrep)).trans (if_pos hk)))
  simp [hh, hr, hne, hi, hroom, hcq]

/-- An admin command that is fetched completes with the result and the status that it comes to. -/
theorem gives_nvAdmin {go : Dev → Dev × Nat × Nat} {dw0 st : Nat} (hf : Fetches s f 0 op sqe q) (hx : exec c s = s.on fun d => d.nvAdmin f op sqe go)
    (hk : adminOps.contains op = true) (hgo : go (s.dev.nvTaken f 0 q) = (e, dw0, st)) : Gives c s ((e.nvPost f q.cq 0 (sqeCid sqe) dw0 st).nvNotify f) := by
  refine gives_on hx hf.1 ((nvFetch_takes hf hk).trans ?_)
  rw [hgo]

/-- A doorbell of a controller, where no peer is waited for. -/
theorem Dev.nvWrite_doorbell (hp : d.passive = false) (hh : d.hasNvme f = true) (hw : d.peerWaits = false) (h1 : 0x1000 ≤ o) (h2 : o < 0x4000) :
    d.nvWrite f o v = d.nvDoorbell f o v := by
  rw [Dev.nvWrite, if_neg (Bool.eq_false_iff.1 hp), if_neg (Classical.not_not.2 hh)]
  split
  · exact if_neg (Bool.eq_false_iff.1 hw)
  · exact absurd (And.intro h1 h2) ‹_›
  all_goals omega

theorem Dev.nvWrite_cc (hp : d.passive = false) (hh : d.hasNvme f = true) : d.nvWrite f 0x14 v = d.nvWriteCc f v := by
  rw [Dev.nvWrite, if_neg (Bool.eq_false_iff.1 hp), if_neg (Classical.not_not.2 hh)]

end Nvme

/-- Settles O16: CC by what its write changes, doorbells by their queue, admin commands by the entry that is fetched. -/
theorem nvmeControlCommandsComplete : Obligations.NvmeControlCommandsComplete := by
  refine ⟨?_, fun s fn hu hout => ⟨fun h1 hl => ?_, fun h1 hl => ?_, fun h2 => ?_⟩, fun s fn y value q hu hp hh hw hr hlt => ⟨fun hq => ?_, fun hq => ?_⟩, ?_⟩
  · intro s fn value hu hp hh f v e
    have hcc {e' : Dev} (he : s.dev.nvWriteCc f v = e') : s.dev.nvWrite f 0x14 v = e' := (Dev.nvWrite_cc hp hh).trans he
    refine ⟨fun h1 h0 hn ha hb hc => ?_, fun h1 h0 hn => ?_, fun h1 hn hs => ?_⟩
    · refine gives_of_exec (o := execNvmeCcEnable fn value s) rfl rfl hu ((if_pos h1).trans (hcc ?_))
      rw [Dev.nvWriteCc]
      rw [if_neg fun h => h.1 hn, if_pos ⟨h1, Bool.eq_false_iff.1 h0⟩]
      exact if_neg fun h => h.elim (Nat.not_lt.2 ha) fun h => h.elim (fun h => h hb) fun h => h hc
    · refine gives_of_exec (o := execNvmeCcDisable fn value s) rfl rfl hu ((if_neg (Bool.eq_false_iff.1 h1)).trans (hcc ?_))
      rw [Dev.nvWriteCc]
      rw [if_neg fun h => h.1 hn, if_neg fun h => Bool.noConfusion ((show bitOf v 0 = false from h1).symm.trans h.1), if_pos ⟨Bool.eq_false_iff.1 h1, h0⟩]
      rfl
    · refine gives_of_exec (o := execNvmeShutdown fn value s) rfl rfl hu ((if_neg hn).trans (hcc ?_))
      rw [Dev.nvWriteCc, ← h1]
      rw [if_neg (c := bitOf v 0 = true ∧ ¬ bitOf v 0 = true) fun h => h.2 h.1, if_neg (c := ¬ bitOf v 0 = true ∧ bitOf v 0 = true) fun h => h.1 h.2]
      exact if_pos ⟨hn, hs⟩
  · refine gives_of_exec (o := execNvmeShutdownComplete fn s) rfl rfl hu ((if_neg (Bool.eq_false_iff.1 hout)).trans ((if_pos h1).trans (if_pos (List.isEmpty_iff.2 hl))))
  · refine gives_of_exec (o := execNvmeShutdownComplete fn s) rfl rfl hu ((if_neg (Bool.eq_false_iff.1 hout)).trans ((if_pos h1).trans (if_neg (mt List.isEmpty_iff.1 hl))))
  · refine gives_of_exec (o := execNvmeShutdownComplete fn s) rfl rfl hu ((if_neg (Bool.eq_false_iff.1 hout)).trans ((if_neg (by rw [h2]; decide)).trans (if_pos h2)))
  · refine gives_of_exec (o := execNvmeDoorbell fn ⟨2 * y.val, by omega⟩ value s) rfl rfl hu ((Dev.nvWrite_doorbell hp hh hw (by omega) (by omega)).trans ?_)
    have ho : (0x1000 + 4 * (2 * y.val) - 0x1000) / 8 = y.val := by omega
    rw [Dev.nvDoorbell]
    dsimp only
    rw [if_neg (Classical.not_not.2 hr), if_pos (by omega), ho, hq]
    exact if_neg (Nat.not_le.2 hlt)
  · refine gives_of_exec (o := execNvmeDoorbell fn ⟨2 * y.val + 1, by omega⟩ value s) rfl rfl hu ((Dev.nvWrite_doorbell hp hh hw (by omega) (by omega)).trans ?_)
    have ho : (0x1000 + 4 * (2 * y.val + 1) - 0x1000) / 8 = y.val := by omega
    rw [Dev.nvDoorbell]
    dsimp only
    rw [if_neg (Classical.not_not.2 hr), if_neg (by omega), ho, hq]
    exact if_neg (Nat.not_le.2 hlt)
  · intro s fn sqe op q hf f d done id n dw
    refine ⟨fun ho hid hmax hnone hn hb hv => ?_, fun ho hid hmax hnone hn hcq hcqs hb => ?_, fun ho hid hcq hused => ?_, fun ho hor => ?_, fun ho hle bs hbs => ?_,
      fun ho list hl hsz => ?_, fun ho hm hsel => ?_, fun ho hm hsv h7 h9 => ?_, fun ho => ?_, fun ho ha => ?_⟩
    all_goals subst ho
    · refine gives_nvAdmin hf rfl rfl ((if_neg ?_).trans ((if_neg hn).trans ((if_neg (Classical.not_not.2 hb)).trans (if_neg (Nat.not_le.2 hv)))))
      rintro (h | h | h)
      · exact hid h
      · exact Nat.not_lt.2 hmax h
      · rw [hnone] at h
        exact Bool.noConfusion h
    · refine gives_nvAdmin hf rfl rfl ((if_neg ?_).trans ((if_neg hn).trans ((if_neg ?_).trans (if_neg (Classical.not_not.2 hb)))))
      · rintro (h | h | h)
        · exact hid h
        · exact Nat.not_lt.2 hmax h
        · rw [hnone] at h
          exact Bool.noConfusion h
      · exact fun h => h.elim hcq fun h => hcqs (Option.isNone_iff_eq_none.1 h)
    · refine gives_nvAdmin hf rfl rfl ((if_neg ?_).trans (if_neg ?_))
      · exact fun h => h.elim hid fun h => hcq (Option.isNone_iff_eq_none.1 h)
      · rw [List.any_eq_true]
        rintro ⟨x, hx, hu⟩
        rw [Bool.and_eq_true, bne_iff_ne] at hu
        obtain ⟨h0, hu⟩ := hu
        split at hu
        · exact (hused x hx).elim h0 fun h => h _ ‹_› (beq_iff_eq.1 hu)
        · exact Bool.noConfusion hu
    · refine gives_nvAdmin hf rfl rfl (if_pos (hor.imp_right Option.isNone_iff_eq_none.2))
    · refine gives_nvAdmin hf rfl rfl ((if_neg (Nat.not_lt.2 hle)).trans ?_)
      rw [show Dev.identify _ _ _ _ = some bs from hbs]
    · refine gives_nvAdmin hf rfl rfl ((if_neg (Nat.not_lt.2 hsz)).trans ?_)
      rw [hl]
      rfl
    · refine gives_nvAdmin hf rfl rfl ((if_neg (Classical.not_not.2 (List.contains_iff_mem.2 hm))).trans ((if_neg (by rw [hsel]; decide)).trans (if_pos (Or.inl hsel))))
    · refine gives_nvAdmin hf rfl rfl ((if_neg (Classical.not_not.2 (List.contains_iff_mem.2 hm))).trans ((if_neg (Bool.eq_false_iff.1 hsv)).trans ((if_neg h7).trans ?_)))
      simp only [h9, if_false]
      rfl
    · exact gives_nvAdmin hf rfl rfl rfl
    · refine gives_of_exec (o := execNvmeAsyncEventRequest fn sqe s) rfl rfl hf.1 ((nvFetch_takes hf rfl).trans (if_neg ?_))
      rw [show Nvme.aers _ = [] from ha]
      exact Nat.not_lt_zero _

end Sys2Proof.Machine

/-! PROOFS. NVMe I/O commands and the end of commands on backing paths (R253, R254, R256, R259 to R261). -/

namespace Sys2Proof.Machine

open Sys2Proof

section NvmeIo

variable {s : State} {c : Instr} {d e : Dev} {f cq sq op code n : Nat} {sqe data : List Byte} {list : List Nat} {q : NvmeQ} {ends : ReadEnd}

/-- The blocks that an entry of an I/O submission queue names: of a read, a write and a write of zeroes. -/
def nvBlocks (op : Nat) (sqe : List Byte) : Nat := if op = 1 ∨ op = 2 ∨ op = 4 then sqeDw sqe 12 % 65536 + 1 else 0

/-- The first of them. -/
def nvLba (op : Nat) (sqe : List Byte) : Nat := if (op = 1 ∨ op = 2 ∨ op = 4) ∨ op = 5 then sqeDw sqe 11 * 2 ^ 32 + sqeDw sqe 10 else 0

/-- The bytes of the entry's buffer. -/
def Dev.nvLen (d : Dev) (n op : Nat) (sqe : List Byte) : Nat :=
  if op ≤ 2 then nvBlocks op sqe * d.nsBlock n else if op = 5 then 16 * (sqeDw sqe 10 % 256 + 1) else 0

/-- The entry's command started, with the end that it may have at once. -/
def Dev.nvStart (d : Dev) (f cq sq n op : Nat) (sqe : List Byte) (list : List Nat) (data : List Byte) (ends : ReadEnd) : Dev :=
  let ps := if d.nvLen n op sqe = 0 then [] else prpPieces (d.nvme f).pageBytes (sqePrp1 sqe) (sqePrp2 sqe) list (d.nvLen n op sqe)
  let c : StoCmd := { fn := f, ns := n, op := op, lba := nvLba op sqe, blocks := nvBlocks op sqe, fua := decide (op = 1 ∨ op = 2 ∨ op = 4) && bitOf (sqeDw sqe 12) 30
                      pieces := ps, origin := .nvme sq (sqeCid sqe) }
  let x := (d.fetchList f (sqePrp2 sqe) ps).stoStart c data ends
  match x.2 with
  | some e => (x.1.nvPost f cq sq (sqeCid sqe) 0 e.nvStatus).stoLatency d.clk.now
  | none => x.1

/-- An entry of an I/O submission queue that names no namespace of the function. -/
theorem nvIo_noNamespace (hs : sq ≠ 0) (hf : Fetches s f sq code sqe q) (hk : ioOps.contains code = true) (hn : (s.dev.nvTaken f sq q).nvNs f (sqeNsid sqe) = none) :
    s.dev.nvIo f sq op code sqe list data ends = (s.dev.nvTaken f sq q).nvPost f q.cq sq (sqeCid sqe) 0 (nvSt 0 0x0B true) := by
  refine (if_neg hs).trans ((nvFetch_takes hf (by rw [if_neg hs]; exact hk)).trans ?_)
  dsimp only
  rw [hn]

/-- One that names a namespace: refused for its length or its blocks, or started. -/
theorem nvIo_namespace (hs : sq ≠ 0) (hf : Fetches s f sq code sqe q) (hk : ioOps.contains code = true) (hd : s.dev.nvTaken f sq q = d) (hn : d.nvNs f (sqeNsid sqe) = some n) :
    s.dev.nvIo f sq op code sqe list data ends =
      if 1048576 < d.nvLen n op sqe then d.nvPost f q.cq sq (sqeCid sqe) 0 (nvSt 0 2 true)
      else if ((op = 1 ∨ op = 2 ∨ op = 4) ∧ d.nsSize n < nvLba op sqe + nvBlocks op sqe) ∨ (op = 5 ∧ d.rangesOut n (sqeDw sqe 10 % 256 + 1) data) then
        d.nvPost f q.cq sq (sqeCid sqe) 0 (nvSt 0 0x80 true)
      else d.nvStart f q.cq sq n op sqe list data ends := by
  subst hd
  refine (if_neg hs).trans ((nvFetch_takes hf (by rw [if_neg hs]; exact hk)).trans ?_)
  dsimp only
  rw [hn]
  rfl

/-- Blocks within the namespace's size are not refused. -/
theorem Dev.nvFits (h5 : op ≠ 5) (hfit : nvLba op sqe + nvBlocks op sqe ≤ d.nsSize n) :
    ¬ (((op = 1 ∨ op = 2 ∨ op = 4) ∧ d.nsSize n < nvLba op sqe + nvBlocks op sqe) ∨ (op = 5 ∧ d.rangesOut n (sqeDw sqe 10 % 256 + 1) data)) :=
  fun h => h.elim (fun h => Nat.not_lt.2 hfit h.2) fun h => h5 h.1

end NvmeIo

/-- Settles O17: an entry by its namespace, its length and its blocks; the end of a command by the outcome that it has. -/
theorem nvmeIoCommandsComplete : Obligations.NvmeIoCommandsComplete := by
  refine ⟨?_, fun s id status data ep p hu hp => ⟨fun e he => ?_, fun he hst => ?_, fun he hst hop => ?_⟩, fun s path ws hu hl hk hq => ?_, fun s path ws w d h hl => ?_⟩
  · intro s fn sq sqe data list at_ op n q hs hf f d fails lba blocks bytes base ends fits
    refine ⟨fun hn => ?_, fun hn => ?_⟩
    · have none_ {c : Instr} {o : Nat} {l : List Nat} {bs : List Byte} {en : ReadEnd} (hk : ioOps.contains op = true)
          (hx : exec c s = s.on fun d => d.nvIo f sq.val o op sqe l bs en) : Gives c s (fails (nvSt 0 0x0B true)) := gives_on hx hf.1 (nvIo_noNamespace hs hf hk hn)
      refine ⟨fun ho => ?_, fun ho => ?_, fun ho => ?_, fun ho => ?_, fun ho => ?_⟩
      all_goals subst ho; exact none_ rfl rfl
    · have runs {c : Instr} {o : Nat} {l : List Nat} {bs : List Byte} {en : ReadEnd} {e : Dev} (hx : exec c s = s.on fun d => d.nvIo f sq.val o op sqe l bs en)
          (hk : ioOps.contains op = true)
          (he : (if 1048576 < d.nvLen n o sqe then fails (nvSt 0 2 true)
            else if ((o = 1 ∨ o = 2 ∨ o = 4) ∧ d.nsSize n < nvLba o sqe + nvBlocks o sqe) ∨ (o = 5 ∧ d.rangesOut n (sqeDw sqe 10 % 256 + 1) bs) then fails (nvSt 0 0x80 true)
            else d.nvStart f q.cq sq.val n o sqe l bs en) = e) : Gives c s e := gives_on hx hf.1 ((nvIo_namespace hs hf hk rfl hn).trans he)
      refine ⟨fun ho hb hfit h0 => ?_, fun ho hb hfit h0 => ?_, fun _ hb => ⟨fun ho => ?_, fun ho => ?_⟩, fun ho => ?_, fun ho hfit => ?_, fun ho hfit => ?_, ?_⟩
      · subst ho
        intro ps
        refine runs rfl rfl ((if_neg (Nat.not_lt.2 hb)).trans ((if_neg (Dev.nvFits (d := d) (n := n) (op := 1) (sqe := sqe) (by decide) hfit)).trans ?_))
        rw [Dev.nvStart, if_neg (show d.nvLen n 1 sqe ≠ 0 from Nat.ne_of_gt h0)]
        rfl
      · subst ho
        intro ps
        refine runs rfl rfl ((if_neg (Nat.not_lt.2 hb)).trans ((if_neg (Dev.nvFits (d := d) (n := n) (op := 2) (sqe := sqe) (by decide) hfit)).trans ?_))
        rw [Dev.nvStart, if_neg (show d.nvLen n 2 sqe ≠ 0 from Nat.ne_of_gt h0)]
        rfl
      · subst ho
        exact runs rfl rfl (if_pos hb)
      · subst ho
        exact runs rfl rfl (if_pos hb)
      · subst ho
        exact runs rfl rfl ((if_neg (Nat.not_lt_zero _)).trans (if_neg (by simp)))
      · subst ho
        exact runs rfl rfl ((if_neg (Nat.not_lt_zero _)).trans (if_neg (Dev.nvFits (d := d) (n := n) (op := 4) (sqe := sqe) (by decide) hfit)))
      · subst ho
        exact runs rfl rfl ((if_neg (Nat.not_lt_zero _)).trans (if_pos (Or.inl ⟨by decide, Nat.not_le.1 hfit⟩)))
      · intro count ps
        have hlen : d.nvLen n 5 sqe = 16 * count := rfl
        have hcount : count ≤ 256 := Nat.succ_le_of_lt (Nat.mod_lt _ (by decide))
        refine ⟨fun ho hr => ?_, fun ho hr => ?_⟩
        · subst ho
          exact runs rfl rfl ((if_neg (by omega)).trans (if_pos (Or.inr ⟨rfl, hr⟩)))
        · subst ho
          refine runs rfl rfl ((if_neg (by omega)).trans ((if_neg ?_).trans ?_))
          · rintro (h | h)
            · exact absurd h.1 (by decide)
            · exact Bool.noConfusion (hr.symm.trans h.2)
          · rw [Dev.nvStart, if_neg (show d.nvLen n 5 sqe ≠ 0 by rw [hlen]; exact Nat.succ_ne_zero _)]
            rfl
  · refine gives_of_exec (o := execFabricCommandComplete id status data ep s) rfl rfl hu ((if_neg (by rw [hp]; exact Bool.noConfusion)).trans ?_)
    rw [he]
  · refine gives_of_exec (o := execFabricCommandComplete id status data ep s) rfl rfl hu ((if_neg (by rw [hp]; exact Bool.noConfusion)).trans ?_)
    rw [he, Dev.targetEnd]
    dsimp only
    rw [if_pos hst]
  · refine gives_of_exec (o := execFabricCommandComplete id status data ep s) rfl rfl hu ((if_neg (by rw [hp]; exact Bool.noConfusion)).trans ?_)
    rw [he, Dev.targetEnd]
    dsimp only
    rw [if_neg (Classical.not_not.2 hst), hop]
    rfl
  · exact gives_of_exec (o := execPathDown path ws s) rfl rfl hu (if_pos ⟨hl, hk, hq⟩)
  · exact gives_of_exec (o := execPathDown path ws s) rfl rfl h.1 ((if_neg fun hd => Bool.noConfusion (hl.symm.trans hd.1)).trans (writeReg_takes h stoPathEffect))

end Sys2Proof.Machine

/-! PROOFS. The compact block function, SA commands and chain engines (R221 to R224, R263 to R270, R274, R275, R284, R287). -/

namespace Sys2Proof.Machine

open Sys2Proof

section Effects

variable {k : RegKey} {w : Write} {d e : Dev}

theorem cbfIssueEffect_issues (hp : d.passive = false) (hc : d.hasCbf k.n = true) (hw : d.peerWaits = false) : cbfIssueEffect k w d = d.issueTags k.n w.value.toNat := by
  simp only [cbfIssueEffect, hp, hc, hw, Bool.false_eq_true, not_true_eq_false, if_false]

theorem cbfDoneEffect_frees (hp : d.passive = false) (hw : d.peerWaits = false) : cbfDoneEffect k w d = d.freeTags k.n w.value.toNat := by
  simp only [cbfDoneEffect, hp, hw, Bool.false_eq_true, if_false]

theorem cbfPwrEffect_sets (hr : bitOf w.value.toNat 31 = true) (hw : d.flag F.CBF_PWR_IDLE_REQ k.n = false) :
    cbfPwrEffect k w d = (d.plainWrite k w.value).setFld F.CBF_PWR_ENTERING k.n 0 1 := if_pos ⟨hr, Bool.eq_false_iff.1 hw⟩

theorem cbfPwrEffect_clears (hr : bitOf w.value.toNat 31 = false) :
    cbfPwrEffect k w d = ((d.plainWrite k w.value).setFld F.CBF_PWR_ENTERING k.n 0 0).setFld F.CBF_PWR_IDLE_ACK k.n 0 0 :=
  (if_neg fun h => Bool.noConfusion (hr.symm.trans h.1)).trans (if_pos (Bool.eq_false_iff.1 hr))

/-- A tag that is refused when it begins ends at once. -/
theorem Dev.runTag_bad {f op tag : Nat} {rest : List Nat} {data : List Byte} {ends : ReadEnd} {y : StoEnd} (hw : d.working f = true) (ho : (d.cbf f).order = tag :: rest)
    (hop : slotOp ((d.cbf f).slots.at [] tag) = op) (hb : d.slotBad f ((d.cbf f).slots.at [] tag) = some y) :
    d.runTag f op data ends = (d.updCbf f fun c => { c with order := rest }).endTag f tag op y 0 := by
  rw [Dev.runTag, if_pos hw, ho]
  refine (if_neg fun h => h.2 hop).trans ?_
  rw [hb, hop]

/-- The command of a tag, from its slot. -/
def Dev.tagCmd (d : Dev) (f tag op n : Nat) : StoCmd :=
  let b := (d.cbf f).slots.at [] tag
  { fn := f, ns := d.cbfNs f, op := op, lba := slotLba b, blocks := slotBlocks b, fua := slotFua b, pieces := [(slotAddr b, n)], origin := .cbf tag }

/-- One that is not, and that no earlier write covers in part, starts its command. -/
theorem Dev.runTag_starts {f op tag n : Nat} {rest : List Nat} {data : List Byte} {ends : ReadEnd} (hw : d.working f = true) (ho : (d.cbf f).order = tag :: rest)
    (hop : slotOp ((d.cbf f).slots.at [] tag) = op) (hb : d.slotBad f ((d.cbf f).slots.at [] tag) = none) (hc : op < 3 → d.cbfOverlaps f tag = false)
    (hn : slotBlocks ((d.cbf f).slots.at [] tag) * d.nsBlock (d.cbfNs f) = n) {x : Dev × Option StoEnd}
    (hx : (d.updCbf f fun c => { c with order := rest }).stoStart (d.tagCmd f tag op n) data ends = x) :
    d.runTag f op data ends = match x.2 with
      | some y => x.1.endTag f tag op y (y.moved (if op < 3 then n else 0))
      | none => x.1 := by
  subst hn hx
  rw [Dev.runTag, if_pos hw, ho]
  refine (if_neg fun h => h.2 hop).trans ?_
  rw [hb]
  exact if_neg fun h => Bool.noConfusion ((hc h.1).symm.trans h.2)

end Effects

/-- Settles O19: a run of each command by OP, its SA's identifier, and the SA that stands. -/
theorem saCommandsComplete : Obligations.SaCommandsComplete := by
  intro s ws w d h hgo hb e id op
  have run {c : Instr} {e' : Dev} (hx : exec c s = s.on fun d => d.writeReg ⟨.CRY_SACMD, 0, 0, 0⟩ ws sacmdEffect) (he : (match op with
      | 1 => (e.saWrite id).1.setChip F.CRY_SACMD_STATUS (e.saWrite id).2
      | 2 => if ¬ saIdOk id then e.setChip F.CRY_SACMD_STATUS 1 else (e.showImage (match e.sa id with
          | some x => x.image
          | none => List.replicate 80 0)).setChip F.CRY_SACMD_STATUS 0
      | 3 => if ¬ saIdOk id then e.setChip F.CRY_SACMD_STATUS 1 else (e.setSa id none).setChip F.CRY_SACMD_STATUS 0
      | _ => e) = e') : Gives c s e' := by
    exact gives_writeReg hx h ((if_neg fun hd => Bool.noConfusion (hb.symm.trans hd.2)).trans ((if_neg (Classical.not_not.2 hgo)).trans he))
  refine ⟨fun ho => run rfl (by rw [ho]; rfl), fun ho hi hn => run rfl ?_, fun ho hi x hx => run rfl ?_, fun ho hi => run rfl ?_, fun ho hi => ?_⟩
  · rw [ho, hn]
    exact if_neg (Classical.not_not.2 hi)
  · rw [ho, hx]
    exact if_neg (Classical.not_not.2 hi)
  · rw [ho]
    exact if_neg (Classical.not_not.2 hi)
  · have refused {c : Instr} (hx : exec c s = s.on fun d => d.writeReg ⟨.CRY_SACMD, 0, 0, 0⟩ ws sacmdEffect) : Gives c s (e.setChip F.CRY_SACMD_STATUS 1) := by
      refine run hx ?_
      rcases ho with ho | ho <;> rw [ho] <;> exact if_pos (Bool.eq_false_iff.1 hi)
    exact ⟨refused rfl, refused rfl⟩

/-- Settles O18: the writes by their effects, a tag by its slot, an end and the idle handshake by what has completed. -/
theorem blockFunctionCommandsComplete : Obligations.BlockFunctionCommandsComplete := by
  refine ⟨fun s fn ws w d h hp hc hw => gives_writeReg rfl h (cbfIssueEffect_issues hp hc hw), fun s fn ws w d h hp hw => gives_writeReg rfl h (cbfDoneEffect_frees hp hw),
    fun s fn ws w d h => ⟨fun hr hw => gives_writeReg rfl h (cbfPwrEffect_sets hr hw), fun hr => gives_writeReg rfl h (cbfPwrEffect_clears hr)⟩, ?_, ?_,
    fun s fn hu he hb hf hfl => ?_⟩
  · intro s fn data at_ t rest hu hw ho f b op e n c ends
    refine ⟨fun y hy => ?_, fun hb hc => ?_⟩
    · have bad {c : Instr} {o : Nat} {bs : List Byte} {en : ReadEnd} (hx : exec c s = s.on fun d => d.runTag f o bs en) (hop : op = o) : Gives c s (e.endTag f t op y 0) := by
        subst hop
        exact gives_on hx hu (Dev.runTag_bad hw ho rfl hy)
      exact ⟨fun h => bad rfl h, fun h => bad rfl h, fun h => bad rfl h⟩
    · have starts {c' : Instr} {o : Nat} {bs : List Byte} {en : ReadEnd} (hx : exec c' s = s.on fun d => d.runTag f o bs en) (hop : op = o) :
          Gives c' s (ends (e.stoStart c bs en)) := by
        subst hop
        exact gives_on hx hu (Dev.runTag_starts hw ho rfl hb hc rfl rfl)
      exact ⟨fun h => starts rfl h, fun h => starts rfl h, fun h => starts rfl h⟩
  · intro s fn tag op n y hu hf f t d1 d2 d3
    refine gives_of_exec (o := execCbfCommandEnd fn tag s) rfl rfl hu ?_
    dsimp only
    rw [hf]
  · refine gives_of_exec (o := execIdleAck fn s) rfl rfl hu ((if_neg ?_).trans ?_)
    · simp [he, hb, hf]
    · dsimp only
      rw [if_pos hfl]
      rfl

/-- START on an engine that does not run. -/
theorem chnCtlEffect_starts {k : RegKey} {w : Write} {d : Dev} (hv : w.value.toNat / 2 ^ 29 = 4) (hs : d.chnState (8 * k.n + k.i) ≠ 1) :
    chnCtlEffect k w d = (d.updChain (8 * k.n + k.i) fun _ => { starter := w.writer }).chainGo (8 * k.n + k.i)
      (d.fld F.CHN_HEAD_ADDR_HI k.n k.i * 2 ^ 32 + d.fld F.CHN_HEAD_ADDR_LO k.n k.i * 64) := by
  unfold chnCtlEffect
  dsimp only
  rw [hv]
  split
  case h_2 => rfl
  all_goals simp_all

/-- Settles O20: the control register by its command and the engine's state, the end of an entry by what the entry asks for. -/
theorem chainCommandsComplete : Obligations.ChainCommandsComplete := by
  refine ⟨?_, ?_⟩
  · intro s region engine ws w d h n
    refine ⟨fun hv hs => gives_writeReg rfl h (chnCtlEffect_starts hv hs), fun hv hs => gives_writeReg rfl h ?_, fun hv hs => gives_writeReg rfl h ?_,
      fun hv hs => gives_writeReg rfl h ?_, fun hv hs => gives_writeReg rfl h ?_⟩
    all_goals
      unfold chnCtlEffect
      dsimp only
      rw [hv, show Dev.chnState _ _ = _ from hs]
      rfl
  · intro s region engine host at_ hu n x a hr
    have ends {e : Dev} (he : (if 4 ≤ engine.val ∧ x.op = 0x40 then
          if (s.dev.chain n).finished then s.dev.chainNext n
          else match s.dev.pkBad x with
            | some st => (s.dev.chainResult a st 0 (some 0)).chainNext n
            | none => s.dev.chainAsk n
        else match s.dev.chainRun n x host at_ with
          | .waits d => d.chainAsk n
          | .ends d st bytes =>
            ((d.onlyIf (st == 0 || st == 3) fun d => (d.touchPages region.val x.addr x.len).onlyIf (x.op != 5) fun d => d.touchPages region.val x.addr2 bytes).chainResult
              a st bytes none).chainNext n) = e) : Gives (.chainEntryDone region engine host at_) s e :=
      gives_of_exec (o := execChainEntryDone region engine host at_ s) rfl rfl hu ((if_neg (Classical.not_not.2 hr)).trans he)
    refine ⟨fun hor => ⟨fun d hd => ends ?_, fun d st bytes hd => ends ?_⟩, fun h4 ho hf => ends ?_, fun h4 ho hf => ⟨fun st hst => ends ?_, fun hn => ends ?_⟩⟩
    · rw [if_neg fun h => hor.elim (Nat.not_lt.2 h.1) fun hx => hx h.2, hd]
    · rw [if_neg fun h => hor.elim (Nat.not_lt.2 h.1) fun hx => hx h.2, hd]
    · rw [if_pos ⟨h4, ho⟩, if_pos hf]
    · rw [if_pos ⟨h4, ho⟩, if_neg (Bool.eq_false_iff.1 hf), hst]
    · rw [if_pos ⟨h4, ho⟩, if_neg (Bool.eq_false_iff.1 hf), hn]

end Sys2Proof.Machine

/-! PROOFS. Rules for instructions of a ready thread and of a waiting context; fences, waited accesses and outstanding stores (R329, R336). -/

namespace Sys2Proof.Machine

open Sys2Proof

section Rules

variable {s : State} {c : Instr} {th : Thread} {i : SOp} {core : Fin 272} {ctx : Fin 16} {w : Nat} {e : Dev}

/-- An instruction of a ready thread that computes no register gives what the instruction is run as. -/
theorem Ready.gives (h : Ready s th i) (hx : exec c s = s.on fun d => d.issue th i) (hc : i.compute (s.dev.tregs th) = none)
    (he : (s.dev.issued th).coreInstr th (s.dev.issueSlot th) i.encode (s.dev.tpc th) i = e) : Gives c s e := by
  have hg := gives_of_core h hx (decode_encode i h.2.2.2.1) hc
  rwa [he] at hg

/-- A waiting context's instruction, tried again by a command for its kind. -/
theorem Waits.gives {kind : SOp → Bool} (h : Waits s core ctx w i) (hx : exec c s = s.on fun d => d.retry core ctx kind) (hk : kind i = true)
    (he : (s.dev.slotted core ctx).packetInstr core ctx (s.dev.nextSlot core.val ctx.val) w (s.dev.tpc (.packet core ctx)) true i = e) : Gives c s e :=
  gives_on hx h.1 ((h.retry hk).trans he)

/-- A packet core's outstanding stores are the same when its instruction runs. -/
theorem Ready.issued_stores (h : Ready s (.packet core ctx) i) (c' t' : Nat) :
    ((s.dev.issued (.packet core ctx)).ctx c' t').stores = (s.dev.ctx c' t').stores := by
  have hf := Dev.fetch_threads h.2.2.1
  show ((Dev.takeSlot _ core.val ctx.val _).ctx c' t').stores = _
  have hc : ∀ a b, (s.dev.fetch (.packet core ctx) (s.dev.tpc (.packet core ctx))).1.ctx a b = s.dev.ctx a b := fun a b => by
    rw [Dev.ctx, hf.2.1]
    rfl
  rw [Dev.takeSlot_ctx, hc, hc]
  split
  · next h => rw [Dev.ctx, Dev.ctx, h]
  · rfl

end Rules

section WaitedLoads

variable {d : Dev} {th : Thread} {va n : Nat}

/-- A load from memory that its thread has waited for: the outstanding stores land before it. -/
theorem Dev.load_back (ht : ∀ c t, th ≠ .service c t) (ha : va % n = 0) (hg : d.target th va n false = .mem) (hh : d.held va = false)
    (hb : (d.landAll th).tagBad va n = false) (hm : (d.landAll th).marked va n = false) (host : List Byte) (ends : ReadEnd) :
    d.load th va n (some (.ok host ends)) = .done ((d.landAll th).countPage th va n) ((d.landAll th).memVal va n) := by
  simp only [Dev.load, Dev.translate_plain ht, xfault, Xres.addr, hg, ha, hh]
  simp only [not_true_eq_false, ne_eq, reduceCtorEq, if_false, Bool.false_eq_true, Dev.loadNow, Dev.memLoad, hb, hm]

end WaitedLoads

/-- Settles O29: a fence by the stores that it selects, a waited load by its place, an outstanding store by what holds it. -/
theorem waitedMemoryCommandsComplete : Obligations.WaitedMemoryCommandsComplete := by
  refine ⟨fun s th bits h => ⟨fun core ctx hth hn => ?_, fun core ctx hth hn => ?_, fun hth => ?_⟩, ?_, ?_, ?_⟩
  · subst hth
    rw [← h.issued_stores] at hn
    exact h.gives rfl rfl (if_neg (Bool.eq_false_iff.1 hn))
  · subst hth
    rw [← h.issued_stores] at hn
    exact h.gives rfl rfl (if_pos hn)
  · cases th with
    | packet c t => exact absurd rfl (hth c t)
    | service c t => exact h.gives rfl rfl rfl
    | keystone => exact h.gives rfl rfl rfl
  · intro s core ctx w bits h d hn
    exact h.gives rfl rfl (if_neg (Bool.eq_false_iff.1 hn))
  · intro s core ctx w op rd rs1 imm host ends h th d e a n ha hg hh hb hm
    have hw : s.dev.waitsMem th = some (w, .load op rd rs1 imm) := by
      rw [Dev.waitsMem, h.2.1]
      show (match (SOp.decode w).map fun i => (w, i) with | some (w, i) => _ | none => _) = _
      rw [h.2.2.1]
      rfl
    have hl := Dev.load_back (va := effAddr (s.dev.tregs th) rs1 imm) (n := op.shape.1) (not_service_packet core ctx) ha hg hh hb hm host ends
    refine gives_of_exec (o := execMemoryAccessComplete th (.ok host ends) s) rfl rfl h.1 ?_
    rw [hw]
    refine (if_pos h.2.2.2).trans ?_
    show d.memInstr th w (d.tpc th) (.load op rd rs1 imm) (some (.ok host ends)) = _
    rw [Dev.memInstr, Dev.access, Dev.slotted_tregs]
    rw [hl, Dev.slotted_tpc]
    rfl
  · intro s core ctx result x hu hb hf
    refine gives_of_exec (o := execMemoryAccessComplete (.packet core ctx) result s) rfl rfl hu ?_
    have hw : s.dev.waitsMem (.packet core ctx) = none := by rw [Dev.waitsMem, hb]; rfl
    rw [hw]
    show s.dev.landOldest core.val ctx.val = _
    rw [Dev.landOldest, hf]

end Sys2Proof.Machine

/-! PROOFS. Threads, traps, interrupts and the return from them (R316, R324 to R326, R337 to R339). -/

namespace Sys2Proof.Machine

open Sys2Proof

section Threads

variable {s : State} {th : Thread} {i : SOp} (h : ∀ core ctx, th ≠ .packet core ctx)

include h

theorem takesIrqs_of_not_packet : takesIrqs th = true := by
  cases th with
  | packet c t => exact absurd rfl (h c t)
  | _ => rfl

theorem thrOf_eq_keystoneThr : thrOf th = keystoneThr ↔ th = .keystone := thrOf_inj (th' := .keystone) h fun _ _ h => by cases h

theorem trapPriv_thrOf : trapPriv (thrOf th) = if th = .keystone then 2 else 1 := by
  simp only [trapPriv, thrOf_eq_keystoneThr h]

/-- A call outside a handler enters it at its own place, with the address behind the call. -/
theorem Dev.trap_call {d : Dev} (h7 : bitOf (d.thr (thrOf th)).tstate 7 = false) (pc : Nat) (tinfo : DWord) :
    d.trap th 0x10 pc tinfo = d.enterTrap (thrOf th) 0x10 (pc + 4) tinfo 0x300 := by
  cases th with
  | packet c t => exact absurd rfl (h c t)
  | service c t => simp only [Dev.trap, h7, Bool.false_eq_true, if_false, beq_self_eq_true, if_true]; rfl
  | keystone => simp only [Dev.trap, h7, Bool.false_eq_true, if_false, beq_self_eq_true, if_true]

omit h in
/-- TIMER is pending exactly while its level stands. -/
theorem Dev.irqs_timer (d : Dev) (k : Nat) : bitOf (d.irqs k) 1 = d.timerLevel k := by
  have hb (x n : Nat) (b : Bool) : bitOf (withBit x 1 b + 8 * n) 1 = b := by
    cases b <;> simp only [bitOf, withBit, beq_iff_eq] <;> split <;> simp_all <;> omega
  rw [Dev.irqs, hb]

omit h in
theorem Dev.join_done {d : Dev} {c t u : Nat} (hp : (d.ctx c u).parent = some t) (h2 : (d.ctx c u).st = 2) :
    d.join c t u = some (d.updCtx c u fun k => { k with st := 0, parent := none }, (d.ctx c u).value) := by
  rw [Dev.join, if_neg (by simp [hp, h2]), if_pos h2]

omit h in
/-- An update of a thread is known by what it makes of the thread as it stands. -/
theorem Dev.updThr_congr {d : Dev} {k : Nat} {f g : Thr → Thr} (hf : f (d.thr k) = g (d.thr k)) : d.updThr k f = d.updThr k g := by
  unfold Dev.updThr
  rw [hf]

end Threads

/-- Settles O30: the instructions of a ready thread by what they find, waits and interrupts by the sources that are enabled. -/
theorem threadInstructionsComplete : Obligations.ThreadInstructionsComplete := by
  refine ⟨?_, ?_, ?_⟩
  · intro s core ctx rd rs1 rs2 th d g next
    refine ⟨fun h => ⟨fun u hu => h.gives rfl rfl ?_, fun hu => h.gives rfl rfl ?_⟩, fun h => ?_, fun h h0 => h.gives rfl rfl ?_, fun h h0 => h.gives rfl rfl ?_⟩
    · rw [Dev.coreInstr_fork, Dev.packetInstr_fork, h.tregs, Dev.fork, hu]
    · rw [Dev.coreInstr_fork, Dev.packetInstr_fork, h.tregs, Dev.fork, hu]
      rfl
    · intro u k
      have joins {e : Dev} (he : (match d.join core.val ctx.val u with
          | some (d, v) => d.leave th rd v next
          | none => d.block th (SOp.join rd rs1).encode) = e) : Gives (.join th rd rs1) s e := by
        refine h.gives rfl rfl ?_
        rw [Dev.coreInstr_join, Dev.packetInstr_join, h.tregs]
        exact he
      refine ⟨fun hk => joins ?_, fun hp h2 => joins ?_, fun hp h0 h2 => joins ?_⟩
      · rw [Dev.join, if_pos hk]
      · rw [Dev.join_done hp h2]
      · rw [Dev.join, if_neg (fun hk => hk.elim (fun hk => hk hp) h0), if_neg h2]
    · rw [Dev.coreInstr_quit, Dev.packetInstr_quit, h.tregs, if_neg h0]
    · rw [Dev.coreInstr_quit, Dev.packetInstr_quit, if_pos h0]
  · intro s core ctx w rd rs1 h th d u hp h2
    refine h.gives rfl rfl ?_
    rw [Dev.packetInstr_join, Dev.slotted_tregs, Dev.join_done hp h2]
  · intro s th rs1 hth k x d
    refine ⟨fun h h7 => h.gives rfl rfl ?_, fun h h4 => h.gives rfl rfl ?_, fun h hi => h.gives rfl rfl ?_, fun h hi => h.gives rfl rfl ?_, fun hu hm hw hi => ?_,
      fun hu hr hw hb hs hi h3 => ?_, fun hu => ?_⟩
    · rw [Dev.coreInstr_trap, Dev.trap_call hth (by rw [h.thr]; exact h7), h.tregs, Dev.enterTrap]
      refine Dev.updThr_congr ?_
      rw [h.thr, Dev.tregs_thr _ hth, Dev.tpc_thr _ hth, trapPriv_thrOf hth]
      rfl
    · rw [Dev.coreInstr_eret, Dev.eret, h.thr]
      exact if_neg (Classical.not_not.2 h4)
    · rw [Dev.coreInstr_wfe, Dev.wfe, if_pos hi, Dev.tpc_thr _ hth]
    · rw [Dev.coreInstr_wfe, Dev.wfe, if_neg (Classical.not_not.2 hi)]
    · exact gives_of_exec (o := execWfeWake th s) rfl rfl hu (if_pos ⟨takesIrqs_of_not_packet hth, hm, hw, hi⟩)
    · refine ⟨({ s.dev with draws := s.dev.draws + 1 } : Dev).enterTrap k (256 + (s.dev.irqsOn k).log2) x.pc (Config.interruptInfo s.dev.draws) 0x200,
        gives_of_exec (o := execInterruptTaken th s) rfl rfl hu ((if_neg ?_).trans ?_), ?_⟩
      · simp only [takesIrqs_of_not_packet hth, hr, show (s.dev.thr (thrOf th)).wfe = false from hw, show (s.dev.thr (thrOf th)).blocked = none from hb,
          show (s.dev.thr (thrOf th)).stopped = false from hs, show s.dev.irqReady (thrOf th) = true from hi]
        decide
      · dsimp only
        rw [Dev.onlyIf_neg (beq_eq_false_iff_ne.2 h3)]
      · rw [Dev.enterTrap, Dev.updThr_thr, if_pos rfl, trapPriv_thrOf hth]
        exact ⟨rfl, rfl, rfl, rfl⟩
    · intro e
      refine ⟨gives_of_exec (o := execTimerCompare th s) rfl rfl hu ((if_neg (Classical.not_not.2 (takesIrqs_of_not_packet hth))).trans ?_), (Dev.irqs_timer e k).trans ?_⟩
      · simp only [thrOf_eq_keystoneThr hth]
        rfl
      · have hn : e.clk.now = s.dev.clk.now + ((if th = .keystone then 3 * x.tickcmp else (x.tickcmp + 1) / 2) - s.dev.clk.now) := rfl
        have ht : (e.thr k).tickcmp = x.tickcmp := rfl
        rw [Dev.timerLevel, ht, hn]
        simp only [k, thrOf_eq_keystoneThr hth]
        by_cases hk : th = .keystone
        · simp only [hk, if_true]
          exact decide_eq_true (by omega)
        · simp only [hk, if_false]
          exact decide_eq_true (by omega)

end Sys2Proof.Machine

/-! PROOFS. Channels, packet instructions and table operations of a packet core (R303, R317 to R322, R343 to R345). -/

namespace Sys2Proof.Machine

open Sys2Proof

section Channels

variable {d : Dev} {c t x ch f : Nat} {v : DWord}

/-- A channel instruction of a context behind which its FIFO's word stands. -/
theorem Dev.chin_ready {w : DWord × Nat} {r : List (DWord × Nat)} (h4 : 4 ≤ ch) (hb : d.bound c t ch = some (f, false)) (hf : d.fifo (coreBlock c) f = w :: r)
    (hw : w.2 < x) : d.chin c t x ch = .done (d.setFifo (coreBlock c) f r) w.1 := by
  rw [Dev.chin_bound d c t x ch h4, hb]
  dsimp only
  rw [hf]
  exact if_pos hw

theorem Dev.chin_empty (h4 : 4 ≤ ch) (hb : d.bound c t ch = some (f, false)) (hf : d.fifo (coreBlock c) f = []) : d.chin c t x ch = .wait := by
  rw [Dev.chin_bound d c t x ch h4, hb]
  dsimp only
  rw [hf]

/-- CHOUT to a FIFO whose ends live, when the context's stores have all landed (R344). -/
theorem Dev.chout_append (h4 : 4 ≤ ch) (hb : d.bound c t ch = some (f, true)) (hs : ((d.landStores c t fun _ => true).ctx c t).stores = [])
    (hd : (d.landStores c t fun _ => true).fifoDead (coreBlock c) f = false) (hl : ((d.landStores c t fun _ => true).fifo (coreBlock c) f).length < 4)
    (hr : (d.landStores c t fun _ => true).readerOf (coreBlock c) f = some c) : d.chout c t x ch v =
      .done ((d.landStores c t fun _ => true).setFifo (coreBlock c) f (appendWord (v, x) ((d.landStores c t fun _ => true).fifo (coreBlock c) f))) 0 := by
  rw [Dev.chout, if_neg (Nat.not_lt.2 h4), hb]
  dsimp only
  rw [hs, hr, if_neg (by simp), if_neg (Bool.eq_false_iff.1 hd), if_neg (Nat.not_le.2 hl)]
  simp

theorem Dev.chout_full (h4 : 4 ≤ ch) (hb : d.bound c t ch = some (f, true)) (hs : ((d.landStores c t fun _ => true).ctx c t).stores = [])
    (hd : (d.landStores c t fun _ => true).fifoDead (coreBlock c) f = false) (hl : 4 ≤ ((d.landStores c t fun _ => true).fifo (coreBlock c) f).length) :
    d.chout c t x ch v = .wait := by
  rw [Dev.chout, if_neg (Nat.not_lt.2 h4), hb]
  dsimp only
  rw [hs, if_neg (by simp), if_neg (Bool.eq_false_iff.1 hd), if_pos hl]

/-- With no store outstanding, none lands. -/
theorem Dev.landStores_none (hs : (d.ctx c t).stores = []) (sel : Nat × Nat × Nat → Bool) :
    d.landStores c t sel = d.updCtx c t fun k => { k with stores := k.stores.filter fun y => !(sel y && !d.storeHeld y) } := by
  rw [Dev.landStores, hs]
  rfl

theorem Dev.landStores_stores_none (hs : (d.ctx c t).stores = []) (sel : Nat × Nat × Nat → Bool) : ((d.landStores c t sel).ctx c t).stores = [] := by
  rw [Dev.landStores_none hs, Dev.updCtx_ctx, if_pos rfl, hs]
  rfl

end Channels

/-- Settles O31: each channel by what stands in it, and by the ends of the FIFO that it is bound to. -/
theorem channelInstructionsComplete : Obligations.ChannelInstructionsComplete := by
  intro s core ctx rd ch c t th d x next v
  have not2 (n : Nat) (hn : n ≠ 2) (hc : ch.val = n) : ¬(ch.val = 2 ∧ ctx.val ≠ 0) := fun h => hn (hc.symm.trans h.1)
  have bound2 (h4 : 4 ≤ ch.val) : ¬(ch.val = 2 ∧ ctx.val ≠ 0) := fun h => by omega
  refine ⟨fun h => ?_, fun h => ?_, fun room h => ?_, ?_, ?_⟩
  · have takes {e : Dev} (h2 : ¬(ch.val = 2 ∧ ctx.val ≠ 0)) (he : chanEnd core ctx (SOp.chin rd ch).encode (s.dev.tpc th) d rd (d.chin c t x ch.val) = e) :
        Gives (.chin th rd ch) s e := by
      refine h.gives rfl rfl ?_
      rw [Dev.coreInstr_chin, Dev.packetInstr_chin, if_neg h2]
      exact he
    refine ⟨fun id p y h0 hc hi hy => takes (not2 0 (by decide) h0) ?_, fun w r h3 hr => takes (not2 3 (by decide) h3) ?_,
      fun f w r h4 hb hf hw => takes (bound2 h4) ?_, fun f h4 hb hf => takes (bound2 h4) ?_⟩
    · rw [h0, Dev.chin]
      rw [hc, hi]
      dsimp only
      rw [if_neg (by simp), if_pos hy]
      rfl
    · rw [h3, Dev.chin]
      rw [hr]
      rfl
    · rw [Dev.chin_ready h4 hb hf hw]
      rfl
    · rw [Dev.chin_empty h4 hb hf]
      rfl
  · intro f h4 hb hs hd
    have hs' := Dev.landStores_stores_none hs fun _ => true
    have hl := Dev.landStores_none hs fun _ => true
    have hf : (d.landStores c t fun _ => true).fifo (coreBlock c) f = d.fifo (coreBlock c) f := by rw [hl]; rfl
    have hd' : (d.landStores c t fun _ => true).fifoDead (coreBlock c) f = false := by rw [hl]; exact hd
    refine ⟨fun hn hr => h.gives rfl rfl ?_, fun hn => h.gives rfl rfl ?_⟩
    · rw [Dev.coreInstr_chout, Dev.packetInstr_chout, h.tregs]
      rw [Dev.chout_append h4 hb hs' hd' (by rw [hf]; exact hn) (by rw [hl]; exact hr), hf]
      rfl
    · rw [Dev.coreInstr_chout, Dev.packetInstr_chout, Dev.chout_full h4 hb hs' hd' (by rw [hf]; exact hn)]
      rfl
  · have tests {e : Dev} (h2 : ¬(ch.val = 2 ∧ ctx.val ≠ 0)) (he : chanEnd core ctx (SOp.chtest room rd ch).encode (s.dev.tpc th) d rd (d.chtest c t x ch.val room) = e) :
        Gives (.chtest th room rd ch) s e := by
      refine h.gives rfl rfl ?_
      rw [Dev.coreInstr_chtest, Dev.packetInstr_chtest, if_neg h2]
      exact he
    refine ⟨fun h3 => tests (not2 3 (by decide) h3) ?_, fun y h4 hb => tests (bound2 h4) ?_⟩
    · rw [h3]
      rfl
    · rw [Dev.chtest_bound d c t x ch.val room h4, hb]
      rfl
  · intro w f y r h h4 e hb hf hy
    refine h.gives rfl rfl ?_
    rw [Dev.packetInstr_chin, if_neg (bound2 h4), Dev.chin_ready h4 hb hf hy, chanEnd]
  · intro w f h h4 e hb hs hd hl hr
    refine h.gives rfl rfl ?_
    rw [Dev.packetInstr_chout, Dev.slotted_tregs, Dev.chout_append h4 hb hs hd hl hr, chanEnd]

section Packets

variable {s : State} {core : Fin 272} {ctx : Fin 16} {i : SOp} {id : Nat}

/-- The value of a packet's window is that of its bytes there, the most significant first. -/
theorem windowVal_eq_beVal (bs : List Byte) (o n : Nat) :
    windowVal bs o n = beVal ((List.range n).map fun j => if o + j < min 256 bs.length then bs.getD (o + j) 0 else 0) := by
  rw [windowVal, beVal, List.foldl_map]
  congr 1
  funext a j
  split <;> rfl

/-- An instruction of the device as its thread issues finds the packets and the context's own as they stood. -/
theorem Ready.writes_pkt {c : Instr} {rd : Fin 32} {v : DWord} (hx : exec c s = s.on fun d => d.issue (.packet core ctx) i)
    (hk : ((s.dev.issued (.packet core ctx)).ctx core.val ctx.val).current = some id)
    (hc : i.compute (s.dev.tregs (.packet core ctx)) = none)
    (hi : ∀ (d : Dev) (x w pc : Nat), d.coreInstr (.packet core ctx) x w pc i = d.pktInstr core ctx pc (d.tregs (.packet core ctx)) i)
    (hr : i.readPkt (s.dev.tregs (.packet core ctx)) ((s.dev.issued (.packet core ctx)).pkt id) = some (rd, v)) :
    Writes c s (.packet core ctx) i rd v := by
  intro h
  refine h.gives hx hc ?_
  rw [hi, h.tregs, Dev.pktInstr, hk]
  dsimp only
  rw [hr]

end Packets

/-- An update of a context is known by what it makes of the context as it stands. -/
theorem Dev.updCtx_congr {d : Dev} {c t : Nat} {f g : Ctx → Ctx} (hf : f (d.ctx c t) = g (d.ctx c t)) : d.updCtx c t f = d.updCtx c t g := by
  unfold Dev.updCtx NMap.upd
  exact congrArg (fun k => { d with ctxs := d.ctxs.set {} (16 * c + t) k }) hf

/-- Settles O32: each packet instruction on the current packet; a table operation by its request block and the room for its result. -/
theorem packetAndTableInstructionsComplete : Obligations.PacketAndTableInstructionsComplete := by
  refine ⟨?_, ?_, ?_⟩
  · intro s core ctx size rd rs1 off arg byte id th d g k n o next left hk
    have ends {c : Instr} {op : PktEnd} {e : Dev} (h : Ready s th (.pktend op)) (hx : exec c s = s.on fun d => d.issue th (.pktend op))
        (he : (d.endPacket core.val ctx.val id op).leave th 0 0 next = e) : Gives c s e := by
      refine h.gives hx rfl ?_
      rw [Dev.coreInstr_pktend, Dev.pktInstr, hk]
      exact he
    refine ⟨Ready.writes_pkt rfl hk rfl (fun _ _ _ _ => rfl) (by rw [← windowVal_eq_beVal]; exact rfl), Ready.writes_pkt rfl hk rfl (fun _ _ _ _ => rfl) rfl,
      Ready.writes_pkt rfl hk rfl (fun _ _ _ _ => rfl) rfl, fun h hn => h.gives rfl rfl ?_, fun h hn => h.gives rfl rfl ?_, fun h h16 h64 => h.gives rfl rfl ?_,
      fun h => ends h rfl ?_, fun h => ends h rfl rfl, fun h h3 => ends h rfl ?_⟩
    · rw [Dev.coreInstr_pktst, Dev.pktInstr, hk, h.tregs]
      exact if_neg (Nat.not_lt.2 hn)
    · rw [Dev.coreInstr_pktst, Dev.pktInstr, hk, h.tregs]
      exact if_pos hn
    · rw [Dev.coreInstr_pktstm, Dev.pktInstr, hk, h.tregs]
      exact if_neg (by omega)
    · rw [Dev.endPacket, Dev.dropCurrent, hk]
      rfl
    · exact congrArg (Dev.leave · th 0 0 next) (if_neg h3)
  · intro s core ctx rs1 table c op th a key hrow h8 hin hopen run
    have hx := of_mem_pairs (P := fun c op => exec c s = s.on fun d => d.issue th (.table op rs1 table)) hrow (by
      repeat' refine List.forall_mem_cons.2 ⟨rfl, ?_⟩
      exact fun _ hn => absurd hn List.not_mem_nil)
    have asks (d : Dev) (w : Nat) (hm : d.marked key 80 = false) : d.tableInstr core ctx w (s.dev.tpc th) a op table.val =
        if ¬(d.ctx core.val ctx.val).tableRoom then d.block th w else run d := by
      rw [Dev.tableInstr, if_neg (Classical.not_not.2 h8), if_neg (fun h => h.elim (fun h => h hin) fun h => h hopen)]
      exact if_neg (Bool.eq_false_iff.1 hm)
    refine ⟨fun h hm => ⟨fun hr => h.gives hx rfl ?_, fun hr => h.gives hx rfl ?_⟩, fun w h hm hr => h.gives rfl rfl ?_⟩
    · rw [Dev.coreInstr_table, Dev.packetInstr_table, h.tregs, asks _ _ hm, if_neg (Classical.not_not.2 hr)]
    · rw [Dev.coreInstr_table, Dev.packetInstr_table, h.tregs, asks _ _ hm, if_pos (Bool.eq_false_iff.1 hr)]
    · rw [Dev.packetInstr_table, Dev.slotted_tregs, asks _ _ hm, if_neg (Classical.not_not.2 hr)]
  · intro s core ctx x l hu ho
    refine gives_of_exec (o := execTableOpResult core ctx s) rfl rfl hu ?_
    refine Dev.updCtx_congr ?_
    rw [ho]

end Sys2Proof.Machine

/-! PROOFS. CSRs and the writes of them that act (R326, R327, R331, R337, R343, R359); cores, dispatch, messages, the thread switch and the directory (R351 to R358). -/

namespace Sys2Proof.Machine

open Sys2Proof

section Csrs

variable {s : State} {c : Instr} {th : Thread} {rd rs1 : Fin 32} {num : Fin 4096} {priv : Nat} {writable : Bool}

/-- A CSR of the thread's profile written with the privilege for it. -/
theorem Ready.gives_csrw (h : Ready s th (.csrw rs1 num)) (hx : exec c s = s.on fun d => d.issue th (.csrw rs1 num))
    (hn : csrInfo (profileOf th) num.val = some (priv, true)) (hp : priv ≤ s.dev.tpriv th) {e : Dev}
    (he : (s.dev.issued th).csrPut th num.val (gget (s.dev.tregs th) rs1).toNat = e) : Gives c s (e.leave th 0 0 (s.dev.tpc th + 4)) := by
  refine h.gives hx rfl ?_
  rw [Dev.coreInstr_csrw, Dev.csrInstr, hn, ← he, h.tregs]
  exact (if_neg (by simp)).trans ((if_neg (by rw [h.tpriv]; exact Nat.not_lt.2 hp)).trans (if_pos rfl))

/-- A thread that goes on keeps its compare value. -/
theorem Dev.leave_timerLevel {d : Dev} (ht : ∀ c t, th ≠ .packet c t) (v : DWord) (pc k : Nat) : (d.leave th rd v pc).timerLevel k = d.timerLevel k := by
  rw [Dev.leave_thr_eq d rd v pc ht, Dev.timerLevel, Dev.timerLevel, Dev.updThr_thr]
  by_cases hk : k = thrOf th
  · rw [if_pos hk, hk]
    rfl
  · rw [if_neg hk]
    rfl

end Csrs

/-- Settles O33: the access of a CSR by its table's entry, and the CSRs whose writes act by the value written. -/
theorem csrInstructionsComplete : Obligations.CsrInstructionsComplete := by
  refine ⟨?_, ?_, ?_⟩
  · intro s th rd rs1 num priv writable d next hn
    refine ⟨fun h hp => h.gives rfl rfl ?_, fun h hw hp => ?_, fun h hw => h.gives rfl rfl ?_, fun h hp => h.gives rfl rfl ?_⟩
    · rw [Dev.coreInstr_csrr, Dev.csrInstr, hn]
      exact (if_neg (by simp)).trans ((if_neg (by rw [h.tpriv]; exact Nat.not_lt.2 hp)).trans (if_neg Bool.false_ne_true))
    · exact h.gives_csrw rfl (hn.trans (by rw [hw])) hp rfl
    · rw [Dev.coreInstr_csrw, Dev.csrInstr, hn]
      exact if_pos ⟨rfl, Bool.eq_false_iff.1 hw⟩
    · rw [Dev.coreInstr_csrr, Dev.csrInstr, hn]
      exact (if_neg (by simp)).trans (if_pos (by rw [h.tpriv]; exact hp))
  · intro s c t rs1 th d v hp
    refine ⟨fun h => h.gives_csrw rfl rfl hp rfl, fun h => ⟨h.gives_csrw rfl rfl hp rfl, ?_⟩⟩
    have hk : (2 * c.val + t.val) ≠ keystoneThr := by unfold keystoneThr; omega
    rw [Dev.irqs_timer, Dev.leave_timerLevel (th := th) (fun _ _ h => Thread.noConfusion h), Dev.timerLevel, Dev.updThr_thr, if_pos rfl, if_neg hk]
    rfl
  · intro s core rs1 th d v c u next
    refine ⟨fun h hu => ?_, fun h => ?_⟩
    · have acts {i : Instr} {e : Dev} (hx : exec i s = s.on fun d => d.issue th (.csrw rs1 0x101)) (he : d.ctxCmd c v = e) : Gives i s (e.leave th 0 0 next) :=
        h.gives_csrw hx rfl (Nat.le_refl 1) he
      refine ⟨fun ho hst => acts rfl ?_, fun ho hst => acts rfl ?_⟩
      · rw [Dev.ctxCmd, if_neg hu, ho]
        exact if_pos hst
      · rw [Dev.ctxCmd, if_neg hu, ho]
        exact if_pos hst
    · intro ch f key h4
      have binds {i : Instr} {e : Dev} (hx : exec i s = s.on fun d => d.issue th (.csrw rs1 0x110)) (he : d.chBind c v = e) : Gives i s (e.leave th 0 0 next) :=
        h.gives_csrw hx rfl (Nat.le_refl 1) he
      refine ⟨fun h63 hb hr => binds rfl ?_, fun f' h63 hb => binds rfl ?_⟩
      · rw [Dev.chBind]
        refine (if_neg (Nat.not_lt.2 h4)).trans ((if_pos h63).trans ((if_neg ?_).trans (if_neg ?_)))
        · rw [show d.bound c (v % 16) (bitsOf v 12 8) = none from hb]
          exact Bool.false_ne_true
        · rintro ⟨hw, hs⟩
          obtain hr | hr := hr
          · exact hw hr
          · rw [show d.readerOf (coreBlock c) (bitsOf v 23 16) = none from hr] at hs
            exact Bool.false_ne_true hs
      · rw [Dev.chBind]
        refine (if_neg (Nat.not_lt.2 h4)).trans ((if_neg (Bool.eq_false_iff.1 h63)).trans ?_)
        rw [show d.bound c (v % 16) (bitsOf v 12 8) = some (f', false) from hb]
        rfl

/-- A service core by its region and its place in it. -/
theorem core_region_place (core : Fin 52) : 13 * (core.val / 13) + core.val % 13 = core.val := Nat.div_add_mod core.val 13

/-- Settles O34: the writes by their register's effect, dispatch by the packet and the member that are found, the directory by its line. -/
theorem coreCommandsComplete : Obligations.CoreCommandsComplete := by
  refine ⟨?_, ?_, ?_, ?_, ?_, ?_⟩
  · intro s region core c ws w d hc h n e
    have hx : exec c s = s.on fun d => d.writeReg ⟨.PCB_CORE, region.val, core.val, 0⟩ ws pcbCoreEffect :=
      (List.forall_mem_cons.2 ⟨rfl, List.forall_mem_cons.2 ⟨rfl, fun _ hn => absurd hn List.not_mem_nil⟩⟩ :
        ∀ c ∈ [Instr.coreRun region core ws, .coreStop region core ws], exec c s = s.on fun d => d.writeReg ⟨.PCB_CORE, region.val, core.val, 0⟩ ws pcbCoreEffect) c hc
    have effect : pcbCoreEffect ⟨.PCB_CORE, region.val, core.val, 0⟩ w d =
        if bitOf w.value.toNat 31 = true then
          if d.flag F.PCB_CORE_SFAULT region.val core.val = true then d else if e.coreState n = 0 then e.startCore n else e
        else if e.coreState n = 1 then e.stopCore n 2 else e := rfl
    refine ⟨fun hr hf h0 => gives_writeReg hx h ?_, fun hr hf => gives_writeReg hx h ?_, fun hr h1 => gives_writeReg hx h ?_⟩
    · rw [effect, if_pos hr, if_neg (Bool.eq_false_iff.1 hf), if_pos h0]
    · rw [effect, if_pos hr, if_pos hf]
    · rw [effect, if_neg (Bool.eq_false_iff.1 hr), if_pos h1]
  · intro s core ws w d h hw e pc
    have effect (hr : bitOf w.value.toNat 31 = true) : sccCoreEffect ⟨.SCC_CORE, core.val / 13, core.val % 13, 0⟩ w d =
        if d.flag F.SCC_CORE_SFAULT (core.val / 13) (core.val % 13) = true then d
        else if e.fld F.SCC_CORE_STATE (core.val / 13) (core.val % 13) = 1 ∨ e.cellGone 2 core.val = true then e
        else { (e.updThr (2 * core.val) fun _ => { pc := pc }).updThr (2 * core.val + 1) fun _ => { pc := pc } with scActive := e.scActive.set 0 core.val 0 }.setFld
          F.SCC_CORE_STATE (core.val / 13) (core.val % 13) 1 := by
      unfold sccCoreEffect
      dsimp only
      rw [core_region_place, if_neg (Classical.not_not.2 hw), if_neg (Classical.not_not.2 rfl), if_pos hr]
      rfl
    refine ⟨fun hr hf h1 hg => gives_writeReg rfl h ?_, fun hr hf => gives_writeReg rfl h ?_, fun hr h1 => gives_writeReg rfl h ?_⟩
    · rw [effect hr, if_neg (Bool.eq_false_iff.1 hf), if_neg (fun h => h.elim h1 fun h => Bool.noConfusion (hg.symm.trans h))]
    · rw [effect hr, if_pos hf]
    · exact (if_neg (Classical.not_not.2 hw)).trans ((if_neg (Classical.not_not.2 rfl)).trans ((if_neg (Bool.eq_false_iff.1 hr)).trans (Dev.onlyIf_pos (beq_iff_eq.2 h1))))
  · intro s core ws w d h h0 h1
    refine gives_writeReg rfl h ?_
    have hl : (List.range 2).filter (fun t => bitOf w.value.toNat t) = [0, 1] := by
      simp [List.range_succ, h0, h1]
    unfold sccMsgEffect
    dsimp only
    rw [core_region_place, hl]
    rfl
  · intro s core hu hr a other hw hb
    refine gives_of_exec (o := execThreadSwitch core s) rfl rfl hu (Dev.onlyIf_pos ?_)
    have hn : s.dev.thrWaits (2 * core.val + (1 - a)) = false := by
      rw [Dev.thrWaits, show (s.dev.thr (2 * core.val + (1 - a))).wfe = false from hw, show (s.dev.thr (2 * core.val + (1 - a))).blocked = none from hb]
      rfl
    rw [hr, hn]
    rfl
  · intro s region hu id p m hq hm r y e1 e
    refine gives_of_exec (o := execDispatch region s) rfl rfl hu ?_
    dsimp only
    rw [hq]
    dsimp only
    rw [hm]
  · intro s region line writeback requests hu k l0 l1 l2 h0 h2
    refine gives_of_exec (o := execDirectoryRequest region line writeback requests s) rfl rfl hu ?_
    have hl : (l0.st == 0 && l2.st != 0 && decide (16 ≤ (s.dev.lines.filter fun e =>
        e.1 % 4 == region.val && e.1 / 4 % 32768 == line % 32768 && e.1 != k).length)) = false := by
      rw [beq_eq_false_iff_ne.2 h0]
      rfl
    refine (congrArg (fun d : Dev => { d with lines := d.lines.set {} k (if l2.st = 0 then {} else { l2 with since := if l0.st = 0 then d.clk.now else l0.since }) })
      (Dev.onlyIf_neg hl)).trans ?_
    rw [if_neg h2, if_neg h0]

end Sys2Proof.Machine

/-! PROOFS. Power and the test access port (R439, R442, R466, R474, R476); data moves and flow-bucket moves (R365, R370, R372, R375 to R377, R389). -/

namespace Sys2Proof.Machine

open Sys2Proof

/-- Settles O37: each command's own next state; the instructions that drive pins by the level of PWRGD. -/
theorem powerAndTestPortCommandsComplete : Obligations.PowerAndTestPortCommandsComplete := by
  refine ⟨fun s role cascId wakeIn => ?_, fun s => ?_, fun s => ?_, fun s => ?_, fun s => ?_, fun s sampled preload => ?_, fun s c i levels hc => ?_⟩
  · exact gives_always (show exec _ s = execPwrgdRise role cascId wakeIn s from rfl) rfl
  · exact gives_always (show exec _ s = execPwrgdLowPulse s from rfl) rfl
  · exact gives_always (show exec _ s = execVretLoss s from rfl) rfl
  · exact gives_always (show exec _ s = execBypass s from rfl) rfl
  · exact gives_always (show exec _ s = execIdcode s from rfl) rfl
  · exact gives_always (show exec _ s = execSamplePreload sampled preload s from rfl) rfl
  · obtain ⟨hx, rfl⟩ :=
      of_mem_rows (P := fun c i levels => exec c s = (s.always fun d => d.tapDrive i (if i = 5 then [] else d.tap.boundary)) ∧
        levels = if i = 5 then [] else s.dev.tap.boundary) hc (by
          repeat' refine List.forall_mem_cons.2 ⟨⟨rfl, rfl⟩, ?_⟩
          exact fun _ hn => absurd hn List.not_mem_nil)
    exact ⟨fun hp => gives_always hx (if_pos hp), fun hp => gives_always hx (if_neg (Bool.eq_false_iff.1 hp))⟩

section Moves

variable {d : Dev} {r : Nat} {x : PlanItem} {p : Parcel} {y : Nat}

/-- A planned move that its place has room for starts (R372). -/
theorem Dev.startMove_room {e : Dev} (hx : x.dest = some y) (hp : d.parcel x.id = some p) (hs : p.sram ≠ some y) (hr : d.room y p.majority p.tenant p.bytes = true)
    (h5 : x.reason ≠ 5) (he : (d.charge (some y) p.majority p.tenant p.bytes).setChip F.CRU_STAT_MOVING (d.fld F.CRU_STAT_MOVING + 1) = e) :
    d.startMove r x = e.setParcel x.id { p with
      move := some { dest := some y, step := 1, t0 := e.clk.now, src := p.sram, reason := x.reason, span := x.span, rgn := r } } := by
  subst he
  rw [Dev.startMove, hp]
  dsimp only
  rw [hx, if_neg hs]
  exact if_neg (Classical.not_not.2 ((if_neg h5).trans hr))

end Moves

/-- Settles O38: each move by its item of the plan, or by the step in which it stands. -/
theorem moveCommandsComplete : Obligations.MoveCommandsComplete := by
  refine ⟨?_, ?_, ?_, ?_, ?_⟩
  · intro s region hu h4 x p y hx hy e hp hs hr h5 e1
    refine gives_of_exec (o := execMoveStart region s) rfl rfl hu ((if_neg (Nat.not_le.2 h4)).trans ?_)
    rw [hx]
    exact Dev.startMove_room hy hp hs hr h5 rfl
  · intro s parcel p m hu hp hm
    refine ⟨fun h1 => ?_, fun h2 => ?_⟩
    · refine gives_of_exec (o := execMoveSwitch parcel s) rfl rfl hu ?_
      rw [hp]
      dsimp only
      rw [hm]
      exact if_neg (Classical.not_not.2 h1)
    · refine gives_of_exec (o := execMoveDrain parcel s) rfl rfl hu ?_
      rw [hp]
      dsimp only
      rw [hm]
      exact if_neg (Classical.not_not.2 h2)
  · intro s region ns hu x p y hx hy hp r e
    refine ⟨?_, fun hr => ?_⟩
    · refine gives_of_exec (o := execQpctxWorkMove region ns false s) rfl rfl hu ?_
      dsimp only
      rw [hx]
      dsimp only
      rw [hp, hy]
      exact if_pos Bool.false_ne_true
    · intro e1 e2 e3
      refine gives_of_exec (o := execQpctxWorkMove region ns true s) rfl rfl hu ?_
      dsimp only
      rw [hx]
      dsimp only
      rw [hp, hy]
      exact (if_neg (Classical.not_not.2 rfl)).trans (if_neg (Classical.not_not.2 hr))
  · intro s region hu x hx e hm
    refine gives_of_exec (o := execFlowBucketMoveStart region s) rfl rfl hu ?_
    dsimp only
    rw [hx]
    exact if_neg (Bool.eq_false_iff.1 hm)
  · intro s region bucket hu m hm r b
    refine ⟨?_, ?_⟩
    · intro hd h6 q e e1 e2 e3 ns e4
      refine gives_of_exec (o := execFlowBucketSwitch region bucket s) rfl rfl hu ?_
      dsimp only
      rw [hm]
      exact (if_neg (Classical.not_not.2 hd)).trans (if_neg h6)
    · intro hold e0 hd hr e e1
      refine gives_of_exec (o := execFlowBucketHoldExpiry region bucket s) rfl rfl hu ?_
      dsimp only
      rw [hm]
      refine (if_neg (Bool.eq_false_iff.1 hd)).trans ?_
      rw [hr]
      rfl

end Sys2Proof.Machine

/-! PROOFS. Parcel commands, freezes, the flow-bucket map and swaps (R361, R366, R379, R380, R382, R384, R385, R389). -/

namespace Sys2Proof.Machine

open Sys2Proof

section Parcels

variable {s : State} {c : Instr} {d e : Dev} {ws : List Write} {w : Write}

/-- The parcel command that GO starts: its effect and its STATUS. -/
theorem gives_pcmd {st : Nat} (hx : exec c s = s.on fun d => d.writePcmd ws) (h : Takes s ⟨.CRU_PCMD, 0, 0, 0⟩ ws w d) (hgo : bitOf w.value.toNat 31 = true) {op : Nat}
    (hop : (d.plainWrite ⟨.CRU_PCMD, 0, 0, 0⟩ w.value).fld F.CRU_PCMD_OP = op) (h0 : op ≠ 0)
    (he : (d.plainWrite ⟨.CRU_PCMD, 0, 0, 0⟩ w.value).parcelCommand op ((d.plainWrite ⟨.CRU_PCMD, 0, 0, 0⟩ w.value).fld F.CRU_PCMD_TIER)
      ((d.plainWrite ⟨.CRU_PCMD, 0, 0, 0⟩ w.value).fld F.CRU_PCMD_ARG)
      ((d.plainWrite ⟨.CRU_PCMD, 0, 0, 0⟩ w.value).fld F.CRU_PCMD_ID_HI * 2 ^ 32 + (d.plainWrite ⟨.CRU_PCMD, 0, 0, 0⟩ w.value).fld F.CRU_PCMD_ID_LO) = (e, st)) :
    Gives c s (e.setChip F.CRU_PCMD_STATUS st) := by
  refine gives_writeReg hx h ?_
  unfold cruPcmdEffect
  dsimp only
  rw [hop, he, if_neg]
  rintro (hk | hk | hk)
  · exact hk rfl
  · exact hk hgo
  · exact h0 hk

section Commands

variable {tier arg id : Nat} {p : Parcel}

theorem Dev.parcelCommand_unpin (hp : d.parcel id = some p) : d.parcelCommand 2 tier arg id = ((d.setParcel id { p with pin := none }).unplan id 3, 0) := by
  unfold Dev.parcelCommand
  rw [if_neg (by decide), hp]
  rfl

theorem Dev.parcelCommand_hint (hp : d.parcel id = some p) : d.parcelCommand 3 tier arg id = (d.setParcel id { p with hint := some (arg % 4) }, 0) := by
  unfold Dev.parcelCommand
  rw [if_neg (by decide), hp]
  rfl

theorem Dev.parcelCommand_unhint (hp : d.parcel id = some p) : d.parcelCommand 4 tier arg id = (d.setParcel id { p with hint := none }, 0) := by
  unfold Dev.parcelCommand
  rw [if_neg (by decide), hp]
  rfl

theorem Dev.parcelCommand_query (hp : d.parcel id = some p) : d.parcelCommand 5 tier arg id =
    ((d.setFld F.CRU_PCMD_WHERE 0 0 (locByte p.sram + 8 * natOf (d.pinOf id p).isSome + 16 * natOf (d.hintOf id p).isSome + 32 * natOf p.move.isSome)).setFld
      F.CRU_PCMD_HEAT 0 0 p.heat, 0) := by
  unfold Dev.parcelCommand
  rw [if_neg (by decide), hp]
  rfl

theorem Dev.parcelCommand_free (hp : d.parcel id = some p) (hk : idKind id = 4) : d.parcelCommand 7 tier arg id = (d.freeParcel id, 0) := by
  unfold Dev.parcelCommand
  rw [if_neg (by decide), hp]
  exact if_pos hk

end Commands

/-- PIN of a parcel that is at its place, or that its place has room for. -/
theorem Dev.parcelCommand_pin {tier arg id : Nat} {p : Parcel} (hp : d.parcel id = some p) (h3 : tier ≠ 3)
    (hr : ∀ y, placeOf tier (arg % 4) = some y → p.sram ≠ some y → d.quotaOk p.tenant (tierFor p.majority y) p.bytes = true ∧ p.bytes ≤ d.placeFree y) :
    d.parcelCommand 1 tier arg id =
      (((d.setParcel id { p with pin := some (placeOf tier (arg % 4)) }).skipItems fun _ i => i.id == id && i.reason != 5).obeyPin id, 0) := by
  have hgo : (match placeOf tier (arg % 4) with
      | none => 0
      | some y =>
        if p.sram = placeOf tier (arg % 4) then 0
        else if ¬d.quotaOk p.tenant (tierFor p.majority y) p.bytes = true then 1
        else if d.placeFree y < p.bytes then 5 else 0) = 0 := by
    split
    · rfl
    · next y hy =>
      by_cases hs : p.sram = placeOf tier (arg % 4)
      · exact if_pos hs
      · obtain ⟨hq, hf⟩ := hr y hy (by rwa [← hy])
        exact (if_neg hs).trans ((if_neg (Classical.not_not.2 hq)).trans (if_neg (Nat.not_lt.2 hf)))
  unfold Dev.parcelCommand
  rw [if_neg (by decide), hp]
  dsimp only
  rw [if_neg h3]
  refine (if_neg (Classical.not_not.2 hgo)).trans ?_
  rfl

/-- With no swap in progress the buckets' barriers are not fed. -/
theorem Dev.feedSwap_inactive {r : Nat} (h : d.flag F.CRU_SWAP_ACTIVE r = false) : d.feedSwap r 64 = d :=
  if_pos (.inl fun ⟨ha, _⟩ => Bool.noConfusion (h.symm.trans ha))

/-- A function that leaves the device, run for each of a list, leaves it. -/
theorem Dev.each_eq_self {α : Type} {l : List α} {f : α → Dev → Dev} (h : ∀ x ∈ l, f x d = d) : d.each l f = d := by
  induction l with
  | nil => rfl
  | cons x t ih =>
    show Dev.each (f x d) t f = d
    rw [h x (List.mem_cons_self ..)]
    exact ih fun y hy => h y (List.mem_cons_of_mem _ hy)

/-- A freeze with no swap in progress drops the planned moves alone. -/
theorem cruFreezeEffect_inactive {k : RegKey} (h : ∀ r < 4, (d.plainWrite k w.value).dropFrozen.flag F.CRU_SWAP_ACTIVE r = false) :
    cruFreezeEffect k w d = (d.plainWrite k w.value).dropFrozen := by
  refine Dev.each_eq_self fun r hr => ?_
  have hr := h r (List.mem_range.1 hr)
  exact (if_neg fun ⟨ha, _⟩ => Bool.noConfusion (hr.symm.trans ha)).trans (Dev.feedSwap_inactive hr)

/-- A write of a bucket's entry in the flow-bucket map while no barrier of the bucket stands (R389). -/
theorem fbmapEffect_barrierless {k : RegKey} (hp : F.CRU_FBMAP_POOL.ofWord w.value ≠ 63)
    (he : (d.plainWrite k w.value).setFld F.CRU_FBMAP_POOL k.n k.i (d.fld F.CRU_FBMAP_POOL k.n k.i) = e) (hm : (e.fbMoves.find? fun m => m.id == fbId k.n k.i) = none) :
    fbmapEffect k w d =
      if F.CRU_FBMAP_POOL.ofWord w.value = d.fld F.CRU_FBMAP_POOL k.n k.i then e.skipItems fun r x => r == k.n && x.id == fbId k.n k.i
      else if (e.skipItems fun r x => r == k.n && x.id == fbId k.n k.i).fbFrozen k.n k.i then
        (e.skipItems fun r x => r == k.n && x.id == fbId k.n k.i).skipped (fbId k.n k.i) (e.skipItems fun r x => r == k.n && x.id == fbId k.n k.i).spanSeq
          (d.fld F.CRU_FBMAP_POOL k.n k.i) (F.CRU_FBMAP_POOL.ofWord w.value) 4
      else (e.skipItems fun r x => r == k.n && x.id == fbId k.n k.i).fbStart k.n k.i (F.CRU_FBMAP_POOL.ofWord w.value) 4 true := by
  have hc : e.fbCancel k.n k.i = e := by rw [Dev.fbCancel, hm]
  unfold fbmapEffect
  dsimp only
  rw [if_neg hp, he, hc]

/-- A swap of action programs begins: the classes of a region that are in use and frozen wait with the old program (R384). -/
def Dev.beginProgramSwap (d : Dev) (r : Nat) : Dev :=
  let frozen := ((List.range 8).filter fun c => d.classFrozen c && d.classUsed r c).foldl (fun a c => a + 2 ^ c) 0
  { d with swapAt := d.swapAt.set 0 r d.clk.now, swapFrozen := d.swapFrozen.set 0 r frozen }.setFld F.CRU_SWAP_PENDING r 0 (if frozen = 0 then 0 else 1)

end Parcels

/-- Settles O39: a parcel command by the command's number, the writes by what the register's effect finds. -/
theorem placementCommandsComplete : Obligations.PlacementCommandsComplete := by
  refine ⟨?_, ?_, ?_, ?_, ?_, ?_⟩
  · intro s ws w d c op p hc h e id tier arg hgo hop hp
    obtain ⟨hx, h0, h6⟩ := of_mem_pairs (P := fun c op => exec c s = (s.on fun d => d.writePcmd ws) ∧ op ≠ 0 ∧ op ≠ 6) hc (by
      repeat' refine List.forall_mem_cons.2 ⟨⟨rfl, by simp, by simp⟩, ?_⟩
      exact fun _ hn => absurd hn List.not_mem_nil)
    have runs {e' : Dev} (he : e.parcelCommand op tier arg id = (e', 0)) : Gives c s (e'.setChip F.CRU_PCMD_STATUS 0) := gives_pcmd hx h hgo hop h0 he
    refine ⟨fun h1 h3 hr => runs ?_, fun h2 => runs ?_, fun h3 => runs ?_, fun h4 => runs ?_, fun h5 => runs ?_, fun h7 hk => runs ?_⟩
    · rw [h1]
      exact Dev.parcelCommand_pin hp h3 hr
    · rw [h2]
      exact Dev.parcelCommand_unpin hp
    · rw [h3]
      exact Dev.parcelCommand_hint hp
    · rw [h4]
      exact Dev.parcelCommand_unhint hp
    · rw [h5]
      exact Dev.parcelCommand_query hp
    · rw [h7]
      exact Dev.parcelCommand_free hp hk
  · intro s ws w d h e hgo hop
    refine ⟨fun n hn => gives_pcmd (st := 0) rfl h hgo hop (by decide) ((if_pos rfl).trans ?_), fun hn => gives_pcmd (st := 5) rfl h hgo hop (by decide) ((if_pos rfl).trans ?_)⟩
    · rw [show Dev.freePage _ _ _ = some n from hn]
    · rw [show Dev.freePage _ _ _ = none from hn]
  · intro s ws w d h e hs
    exact gives_writeReg rfl h (cruFreezeEffect_inactive hs)
  · intro s region bucket ws w d h r b p old e hp hm e1
    have effect : fbmapEffect ⟨.CRU_FBMAP, r, b, 0⟩ w d = if p = old then e1 else
        if e1.classFrozen (e1.fld F.CRU_FBMAP_CLASS r b) = true then e1.skipped (fbId r b) e1.spanSeq old p 4 else e1.fbStart r b p 4 true := fbmapEffect_barrierless hp rfl hm
    refine ⟨fun ho => gives_writeReg rfl h ?_, fun ho hf => gives_writeReg rfl h ?_, fun ho hf => gives_writeReg rfl h ?_⟩
    · exact effect.trans (if_pos ho)
    · exact effect.trans ((if_neg ho).trans (if_neg (Bool.eq_false_iff.1 hf)))
    · exact effect.trans ((if_neg ho).trans (if_pos hf))
  · intro s region ws w d h hgo ha hn r e0 e
    have starts {c : Instr} {e' : Dev} (hx : exec c s = s.on fun d => d.writeReg ⟨.CRU_SWAP, region.val, 0, 0⟩ ws cruSwapEffect)
        (he : (if e.swapKind r = 0 then e.beginProgramSwap r else (e.feedSwap r 64).endPoolSwap r) = e') : Gives c s e' := by
      refine gives_writeReg hx h ((if_neg (Classical.not_not.2 hgo)).trans ((if_neg ?_).trans he))
      rintro (hf | ⟨h1, h62⟩)
      · exact Bool.noConfusion (ha.symm.trans hf)
      · exact Nat.not_lt.2 (hn h1) h62
    exact ⟨fun h0 => starts rfl (if_pos h0), fun h0 => starts rfl (if_neg h0)⟩
  · intro s region hu ha hk hf hp r p e
    refine gives_of_exec (o := execSwapComplete region s) rfl rfl hu (Dev.onlyIf_pos ?_)
    rw [ha, hk, hf, hp]
    rfl

end Sys2Proof.Machine

/-! PROOFS. Boot attempts, release, deep sleep and DRAM training (R395 to R407, R471); the loader, firmware update, monitoring and measurement (R394, R403, R409 to R415). -/

namespace Sys2Proof.Machine

open Sys2Proof

/-- Settles O40: each command behind what it waits for; a boot attempt by the path that it takes. -/
theorem bootCommandsComplete : Obligations.BootCommandsComplete := by
  refine ⟨?_, ?_, ?_, ?_, ?_, ?_, ?_, ?_, ?_⟩
  · intro s proofs hu hr ha hup hw hk d0 b d1 d2 d3 d4
    have starts {e : Dev} (he : (if d0.fastPath b = true then (d4.bump .BOOT_CNT 0 0).setChip F.BOOT_STAT_PHASE 1
        else if d3.bankFails b = 1 ∨ d3.bankFails b = 2 then d4 else d4.setChip F.BOOT_STAT_PHASE 1) = e) : Gives (.bootAttemptStart proofs) s e := by
      refine gives_of_exec (o := execBootAttemptStart proofs s) rfl rfl hu ((if_neg ?_).trans he)
      rw [hr, ha, hup, hw, hk]
      decide
    exact ⟨fun hf => starts (if_pos hf), fun hf h1 h2 => starts ((if_neg (Bool.eq_false_iff.1 hf)).trans (if_neg (not_or.2 ⟨h1, h2⟩)))⟩
  · intro s hu hr hp hq d1 d2 d3 d4
    refine gives_of_exec (o := execRelease s) rfl rfl hu ((if_neg ?_).trans rfl)
    rw [hr, hp, hq]
    decide
  · intro s hu hr ha hf x hx e
    refine gives_of_exec (o := execBootAttemptFail s) rfl rfl hu ((if_neg ?_).trans rfl)
    rw [hr, ha, hf]
    rintro (h | h | h | h)
    · exact Bool.false_ne_true h
    · exact h rfl
    · exact Bool.false_ne_true h
    · exact hx h
  · intro s t hu hw e
    refine gives_of_exec (o := execBootRetryWaitExpiry s) rfl rfl hu ?_
    rw [hw]
  · intro s ws w d h
    exact gives_writeReg rfl h rfl
  · intro s hu hen ha d1 d2
    refine gives_of_exec (o := execDeepSleepEntry false s) rfl rfl hu ((if_neg ?_).trans rfl)
    rw [hen, ha]
    decide
  · intro s training hu ha hd hr d1 d2 d4 d5
    refine gives_of_exec (o := execSleepRecordWrite training s) rfl rfl hu ((if_neg ?_).trans rfl)
    rw [hd, hr, Option.isNone_eq_false_iff.2 ha]
    decide
  · intro s hu ha e
    refine gives_of_exec (o := execSleepAbort s) rfl rfl hu (if_neg ?_)
    rw [Option.isNone_eq_false_iff.2 ha]
    exact Bool.false_ne_true
  · intro s hu
    exact gives_of_exec (o := execDramTrainingComplete s) rfl rfl hu rfl

section Flash

variable {d : Dev} {a p : Nat} {data : List Byte}

/-- Of flash that an update may change: the banks that do not run, and the boot record. -/
theorem Dev.flashChange_part (hp : flashPart a data.length = some p) (hr : p < 2 → d.runningBank ≠ some p) : d.flashChange a data =
    (if p = 2 then d.flashEpoch.storeRaw a data
    else (d.flashEpoch.storeRaw a data).updBoot fun k => { k with programmed := insertNum p k.programmed, updated := some p }).emit (.pldm 0 []) := by
  rw [Dev.flashChange, hp]
  exact if_neg fun ⟨h2, hb⟩ => hr h2 hb

end Flash

section Loader

/-- GO while the loader does not run: the image is copied, and the command waits for its checks (R411). -/
theorem ldrEffect_start {k : RegKey} {w : Write} {d e f : Dev} {copy : Dev × Nat × List Byte} (host : List Byte) (ends : ReadEnd) (hgo : bitOf w.value.toNat 31 = true)
    (hb : d.flag F.LDR_CMD_BUSY = false) (he : d.plainWrite k w.value = e)
    (hc : e.ldrCopy (e.fld F.LDR_SRC_ADDR_HI * 2 ^ 32 + e.fld F.LDR_SRC_ADDR_LO * 4096) host ends = copy)
    (hf : (copy.1.setChip F.LDR_CMD_BUSY 1).setChip F.LDR_CMD_STATUS 0 = f) : ldrEffect host ends k w d = f.updBoot fun k => { k with
      ldr := some ((f.word ⟨.LDR_CMD, 0, 0, 0⟩).toNat, e.fld F.LDR_DST_ADDR_HI * 2 ^ 32 + e.fld F.LDR_DST_ADDR_LO * 4096), ldrImage := copy.2.2, ldrErr := copy.2.1 } := by
  unfold ldrEffect
  dsimp only
  rw [if_neg fun ⟨_, h⟩ => Bool.noConfusion (hb.symm.trans h), he, hc, hf, if_neg (Classical.not_not.2 hgo)]

variable (d : Dev) (cmd dst : Nat) (img : List Byte)

/-- How a loader command ends before its count and STATUS are shown: the device, and the error or 0. -/
def Dev.ldrEnd (d : Dev) (cmd dst : Nat) (img : List Byte) : Dev × Nat :=
  if d.boot.ldrErr ≠ 0 then (d, d.boot.ldrErr)
  else if d.imgFails [2, 3, 4, 5] (2 ^ 21) img false = 0 then d.ldrInstall cmd dst img
  else (d, if d.imgFails [2, 3, 4, 5] (2 ^ 21) img false = 5 then 4 else d.imgFails [2, 3, 4, 5] (2 ^ 21) img false)

/-- The checks in the order in which the loader makes them: the anti-rollback check is shown as the one before it. -/
theorem Dev.ldrEnd_eq : d.ldrEnd cmd dst img =
    if d.boot.ldrErr ≠ 0 then (d, d.boot.ldrErr)
    else if d.imgFails [2, 3, 4, 5] (2 ^ 21) img false = 5 then (d, 4)
    else if d.imgFails [2, 3, 4, 5] (2 ^ 21) img false ≠ 0 then (d, d.imgFails [2, 3, 4, 5] (2 ^ 21) img false)
    else d.ldrInstall cmd dst img := by
  unfold Dev.ldrEnd
  generalize d.imgFails [2, 3, 4, 5] (2 ^ 21) img false = x
  by_cases h0 : x = 0
  · rw [if_pos h0, if_neg (c := x = 5) (by omega), if_neg (Classical.not_not.2 h0)]
  · by_cases h5 : x = 5
    · rw [if_neg h0, if_pos h5, if_pos h5]
    · rw [if_neg h0, if_neg h5, if_neg h5, if_pos h0]

end Loader

/-- Settles O41: the loader by what it has copied and what its checks say, an update by whether it is under way. -/
theorem loaderAndManagementCommandsComplete : Obligations.LoaderAndManagementCommandsComplete := by
  refine ⟨?_, ?_, ?_, ?_, ?_⟩
  · intro s ws w d host ends c hc h e copy e1
    have hx : ∀ c ∈ [Instr.installSc ws host ends, .installPc ws host ends, .installAct ws host ends, .installParse ws host ends],
        exec c s = s.on fun d => d.writeReg ⟨.LDR_CMD, 0, 0, 0⟩ ws (ldrEffect host ends) := by
      repeat' refine List.forall_mem_cons.2 ⟨rfl, ?_⟩
      exact fun _ hn => absurd hn List.not_mem_nil
    refine ⟨fun hgo hb => gives_writeReg (hx c hc) h ?_, fun hgo hb => gives_writeReg (hx c hc) h ?_⟩
    · exact if_pos ⟨hgo, hb⟩
    · exact ldrEffect_start host ends hgo hb rfl rfl rfl
  · intro s cmd dst hu hl img x y e f chain
    refine gives_of_exec (o := execLoaderCommandComplete s) rfl rfl hu ?_
    rw [hl]
    have hy : y = _ := s.dev.ldrEnd_eq cmd dst img
    clear_value y
    dsimp only
    rw [← hy]
    have hb : y.1.onlyIf (decide (1 ≤ y.2 ∧ y.2 ≤ 6)) (fun d => d.bump .BOOT_CNT 0 1) = e := by
      rw [Dev.onlyIf]
      simp only [decide_eq_true_eq]
      rfl
    rw [hb]
  · intro s hu
    refine ⟨fun hup => ⟨?_, ?_⟩, fun hup => ⟨?_, ?_⟩⟩
    · exact gives_of_exec (o := execPldmRequestUpdate s) rfl rfl hu (if_neg (Bool.eq_false_iff.1 hup))
    · exact gives_of_exec (o := execPldmCancelUpdate s) rfl rfl hu (if_neg (Bool.eq_false_iff.1 hup))
    · exact gives_of_exec (o := execPldmRequestUpdate s) rfl rfl hu (if_pos hup)
    · exact gives_of_exec (o := execPldmCancelUpdate s) rfl rfl hu (if_pos hup)
  · intro s hu hup hs e
    have open_ : ¬(¬s.dev.boot.updating = true ∨ s.dev.boot.asleep.isSome = true) := by
      rw [hup, hs]
      decide
    have transfers {op : FlashOp} {f : Dev} (he : (match op with
        | .program a data => s.dev.flashChange a data
        | .erase a n => s.dev.flashChange a (List.replicate n 0xFF)
        | .slot i digest =>
          if i.val = 0 then s.dev.emit (.pldm 1 [])
          else
            (s.dev.updBoot fun k => { k with
              slots := k.slots.set [] i.val (List.zipWith (· ||| ·) (sliceB (s.dev.boot.slots.at [] i.val) 0 48) (sliceB digest 0 48)) }).emit (.pldm 0 [])
        | .revoke i => (s.dev.updBoot fun k => { k with revoked := insertNum i.val k.revoked }).emit (.pldm 0 [])
        | .svn n => (s.dev.updBoot fun k => { k with minSvn := max k.minSvn (min n 64) }).emit (.pldm 0 [])) = f) : Gives (.pldmComponentTransfer op) s f :=
      gives_of_exec (o := execPldmComponentTransfer op s) rfl rfl hu ((if_neg open_).trans (he ▸ rfl))
    refine ⟨fun b hb => ?_, fun a data p hp hr => ?_, fun a n => transfers rfl, fun i digest hi => transfers (if_neg hi), fun i => transfers rfl, fun n => transfers rfl⟩
    · refine gives_of_exec (o := execPldmActivateFirmware s) rfl rfl hu ((if_neg open_).trans ?_)
      dsimp only
      rw [hb]
    · exact ⟨fun h2 => transfers ((Dev.flashChange_part hp hr).trans (by rw [if_pos h2])), fun h2 => transfers ((Dev.flashChange_part hp hr).trans (by rw [if_neg h2]))⟩
  · intro s path hu hp e
    exact ⟨gives_of_exec (o := execPldmMonitoring path s) rfl rfl hu (if_pos hp), gives_of_exec (o := execGetMeasurements path s) rfl rfl hu (if_neg (Classical.not_not.2 hp)),
      gives_of_exec (o := execSpdmSecureSession path s) rfl rfl hu (if_pos hp)⟩

end Sys2Proof.Machine

/-! PROOFS. Errors found, spares and Flume lanes (R13, R351, R422 to R424, R426, R429, R445); the Lookout, the monitors, the safe state, restoration and self-test (R417 to R438, R468). -/

namespace Sys2Proof.Machine

open Sys2Proof

section Errors

variable {d : Dev} {kind n r : Nat} {place : ErrPlace}

/-- An ECC error that is corrected in a cell of a region is counted there (R422 code 1). -/
theorem Dev.eccError_corrected (hr : cellRegion kind n = some r) :
    d.eccError kind n place false = ((d.errCount 0).tally (tlyRgn r + 0x80) 1).correction kind n 1 (placeDetail place) 0 1 := by
  rw [Dev.eccError, if_neg Bool.false_ne_true, hr]

/-- The spare of a fenced cell takes its work over (R426). -/
def Dev.substitute (d : Dev) (kind n : Nat) : Dev :=
  match kind with
  | 1 => d.takeWork n (d.standIn 1 n)
  | 2 =>
    let x := d.standIn 2 n
    let pc := d.fld F.SCC_CORE_ENTRY_HI (n / 13) (n % 13) * 2 ^ 32 + d.fld F.SCC_CORE_ENTRY_LO (n / 13) (n % 13) * 4096
    if d.flag F.SCC_CORE_RUN (n / 13) (n % 13) then
      let d := d.each (List.range 3) fun w d => d.setWord ⟨.SCC_CORE, x / 13, x % 13, w⟩ (d.word ⟨.SCC_CORE, n / 13, n % 13, w⟩)
      let d := (d.updThr (2 * x) fun _ => { pc := pc }).updThr (2 * x + 1) fun _ => { pc := pc }
      (d.setFld F.SCC_CORE_STATE (x / 13) (x % 13) 1).assignTasks
    else d.assignTasks
  | 8 => d.showFlume (n / 5)
  | _ => d

theorem Dev.substitute_core : d.substitute 1 n = d.takeWork n (d.standIn 1 n) := rfl

theorem Dev.substitute_lane (hk : kind = 8) : d.substitute kind n = d.showFlume (n / 5) := by
  unfold Dev.substitute
  split
  · omega
  · omega
  · rfl
  · next h8 => exact absurd hk h8

theorem Dev.substitute_bank : d.substitute 3 n = d := by
  unfold Dev.substitute
  rfl

/-- The spare of a service core that ran is set up as the core was, and runs. -/
theorem Dev.substitute_service (hr : d.flag F.SCC_CORE_RUN (n / 13) (n % 13) = true) : d.substitute 2 n =
    ((((d.each (List.range 3) fun w e => e.setWord ⟨.SCC_CORE, d.standIn 2 n / 13, d.standIn 2 n % 13, w⟩ (e.word ⟨.SCC_CORE, n / 13, n % 13, w⟩)).updThr (2 * d.standIn 2 n)
      fun _ => { pc := d.fld F.SCC_CORE_ENTRY_HI (n / 13) (n % 13) * 2 ^ 32 + d.fld F.SCC_CORE_ENTRY_LO (n / 13) (n % 13) * 4096 }).updThr (2 * d.standIn 2 n + 1)
      fun _ => { pc := d.fld F.SCC_CORE_ENTRY_HI (n / 13) (n % 13) * 2 ^ 32 + d.fld F.SCC_CORE_ENTRY_LO (n / 13) (n % 13) * 4096 }).setFld
      F.SCC_CORE_STATE (d.standIn 2 n / 13) (d.standIn 2 n % 13) 1).assignTasks := by
  unfold Dev.substitute
  exact if_pos hr

end Errors

/-- Settles O42: an error by its code, a substitution by the kind of the oldest cell that waits. -/
theorem faultCommandsComplete : Obligations.FaultCommandsComplete := by
  refine ⟨?_, ?_, ?_, ?_, ?_, ?_⟩
  · intro s kind cell place hu marked corrected
    have finds {e : Dev} {beyond : Bool} (he : s.dev.eccError kind.val cell.val place beyond = e) : Gives (.eccErrorDetected kind cell place beyond false) s e :=
      gives_of_exec (o := execEccErrorDetected kind cell place beyond false s) rfl rfl hu ((if_neg fun ⟨h, _⟩ => Bool.false_ne_true h).trans he)
    have visits {e : Dev} {beyond : Bool} (he : s.dev.eccError kind.val cell.val place beyond = e) : Gives (.scrubVisit kind cell place true beyond) s e :=
      gives_of_exec (o := execScrubVisit kind cell place true beyond s) rfl rfl hu he
    exact ⟨finds rfl, visits rfl, gives_of_exec (o := execScrubVisit kind cell place false false s) rfl rfl hu rfl,
      fun r hr => ⟨finds (Dev.eccError_corrected hr), visits (Dev.eccError_corrected hr)⟩⟩
  · intro s cell place beyond hu
    exact gives_of_exec (o := execEccErrorDetected 9 cell place beyond true s) rfl rfl hu rfl
  · intro s kind cell r hu hr
    have finds {v : Victim} {e f : Dev} (hv : (match v with
        | .packet id => if s.dev.hasPkt id then s.dev.losePkts [id] else s.dev
        | .job j => if s.dev.jobs.any fun e => e.1 == j then s.dev.unitFault j else s.dev
        | .other => s.dev) = e) (he : ((e.errCount 6).tally (tlyRgn r + 0x88) 1).correction kind.val cell.val 8 0 1 0 = f) :
        Gives (.parityErrorDetected kind cell v) s f := by
      refine gives_of_exec (o := execParityErrorDetected kind cell v s) rfl rfl hu ?_
      subst hv
      rw [hr]
      exact he
    exact ⟨fun id hid => finds (if_pos hid) rfl, fun j hj => finds (if_pos hj) rfl⟩
  · intro s core hu ht hf e
    refine gives_of_exec (o := execSfaultAckTimeout core s) rfl rfl hu (if_neg ?_)
    rintro (h | h)
    · exact ht h
    · exact h hf
  · intro s lane hu
    exact gives_of_exec (o := execFlumeLaneLoss lane s) rfl rfl hu rfl
  · intro s kind n t rest hu hs e
    have hg : Gives .spareSubstitutionComplete s (e.substitute kind n) := by
      refine gives_of_exec (o := execSpareSubstitutionComplete s) rfl rfl hu ?_
      rw [hs]
      rfl
    refine ⟨fun hk => ?_, fun hk hr => ?_, fun hk => ?_, fun hk => ?_⟩
    · rwa [hk, Dev.substitute_core] at hg
    · rwa [hk, Dev.substitute_service hr] at hg
    · rwa [Dev.substitute_lane hk] at hg
    · rwa [hk, Dev.substitute_bank] at hg

section Safety

variable {d : Dev} {cause mech : Nat}

/-- A takeover by the Lookout while VRET stands and the Keystone is not held (R438). -/
theorem Dev.takeover_runs {e f : Dev} (hv : d.boot.vret = true) (hk : d.safety.keystoneHeld = false) (he : (d.setChip F.LK_STAT_TOOK 1).setChip F.LK_STAT_CAUSE cause = e)
    (hf : ((e.setChip F.LK_STAT_COUNT (min (e.fld F.LK_STAT_COUNT + 1) 65535)).safe fun f => { f with keystoneHeld := true }).fatal mech 0 0 0 = f) :
    d.takeover cause mech = f.safe fun g => { g with safeAt := some f.clk.now } := by
  subst he hf
  rw [Dev.takeover, if_neg]
  rintro (h | h)
  · exact h hv
  · exact Bool.noConfusion (hk.symm.trans h)

end Safety

/-- Settles O43: each command by the state of the unit that it concerns. -/
theorem safetyCommandsComplete : Obligations.SafetyCommandsComplete := by
  refine ⟨?_, ?_, ?_, ?_, ?_, ?_, ?_, ?_⟩
  · intro s c cause mech e hc hu hv hk
    have hg : Gives c s (e.takeover cause mech) := by
      simp only [List.mem_cons, List.not_mem_nil, or_false, Prod.mk.injEq] at hc
      obtain ⟨rfl, rfl, rfl, rfl⟩ | ⟨rfl, rfl, rfl, rfl⟩ := hc
      · exact gives_of_exec (o := execLockstepMiscompare s) rfl rfl hu rfl
      · exact gives_of_exec (o := execLookoutWatchdogExpiry s) rfl rfl hu rfl
    rwa [Dev.takeover_runs hv hk rfl rfl] at hg
  · intro s hu
    exact ⟨gives_of_exec (o := execClockMonitorTrip .root s) rfl rfl hu rfl, gives_of_exec (o := execClockMonitorTrip .divided s) rfl rfl hu rfl,
      fun lanes => gives_of_exec (o := execClockMonitorTrip (.serdes lanes) s) rfl rfl hu rfl, fun h => gives_of_exec (o := execClockMonitorTrip (.phy h) s) rfl rfl hu rfl,
      fun rail uv h => gives_of_exec (o := execVoltageMonitorTrip rail uv s) rfl rfl hu (if_pos h),
      fun region t ht => gives_of_exec (o := execThermalTrip region t s) rfl rfl hu (if_pos ⟨ht, region.isLt⟩)⟩
  · intro s t hu ht
    have reboots {e : Dev} (he : (if s.dev.safety.keystoneHeld then (s.dev.advanceTo (t + cyclesOfMs (1 + s.dev.fld F.ERR_CTL_REBOOT_MS))).chipReset
        else if s.dev.fld F.ERR_CTL_REBOOT_MS = 0 then s.dev else (s.dev.advanceTo (t + cyclesOfMs (s.dev.fld F.ERR_CTL_REBOOT_MS))).chipReset) = e) :
        Gives .chipRebootTimer s e := by
      refine gives_of_exec (o := execChipRebootTimer s) rfl rfl hu ?_
      dsimp only
      rw [ht]
      exact he
    exact ⟨fun hk => reboots (if_pos hk), fun hk hm => reboots ((if_neg (Bool.eq_false_iff.1 hk)).trans (if_neg hm)),
      fun hk hm => reboots ((if_neg (Bool.eq_false_iff.1 hk)).trans (if_pos hm))⟩
  · intro s ws w d h hr hs
    exact gives_writeReg rfl h (if_pos ⟨hr, hs⟩)
  · intro s region ws w d h hr hf hn e
    refine gives_writeReg rfl h (if_neg ?_)
    rintro (h | h | h)
    · exact h hr
    · exact h hf
    · rw [show d.safety.restores.at none _ = none from hn] at h
      exact Bool.false_ne_true h
  · intro s region hu hr r e
    have open_ : ¬(s.dev.safety.restores.at none region.val).isNone = true := by
      rw [Option.isNone_eq_false_iff.2 hr]
      exact Bool.false_ne_true
    exact ⟨gives_of_exec (o := execRegionRejoin region false s) rfl rfl hu ((if_neg open_).trans (if_pos Bool.false_ne_true)),
      gives_of_exec (o := execRegionRejoin region true s) rfl rfl hu ((if_neg open_).trans (if_neg (Classical.not_not.2 rfl)))⟩
  · intro s hu hr hs e0 n hn e1 e2 tests
    have runs {proofs : Option (Fin 4096)} {e : Dev} (he : (match proofs with | some p => e2.showProofs p.val | none => e2) = e) : Gives (.selftestRound proofs) s (tests e) := by
      refine gives_of_exec (o := execSelftestRound proofs s) rfl rfl hu ((if_neg ?_).trans ((if_pos hn).trans (congrArg tests he)))
      rintro (h | h)
      · exact h hr
      · exact Bool.noConfusion (hs.symm.trans h)
    exact ⟨runs rfl, fun p => runs rfl⟩
  · intro s kind cell pass measure bufferBank t hu ht
    have ends {e : Dev} (he : (if kind.val = 1 ∧ ¬ t.onSpare ∧ s.dev.coreState cell.val = 1 ∧ s.dev.coreHolds cell.val then
          ((s.dev.safe fun f => { f with tests := f.tests.erase t, deferred := insertNum cell.val f.deferred }).errCount 7).updCore cell.val fun x => { x with away := false }
        else if kind.val = 3 ∧ bufferBank ∧ ¬ t.onSpare ∧ ¬ s.dev.isSpare 3 cell.val then
          (s.dev.safe fun f => { f with tests := f.tests.erase t }).untestable 3 cell.val
        else if kind.val = 1 ∧ t.onSpare ∧ s.dev.coreHolds (spareCell 1 cell.val) then s.dev.updCore (spareCell 1 cell.val) fun x => { x with away := true }
        else s.dev.endTest t pass measure.val bufferBank) = e) : Gives (.bistComplete kind cell pass measure bufferBank) s e := by
      refine gives_of_exec (o := execBistComplete kind cell pass measure bufferBank s) rfl rfl hu ?_
      dsimp only
      rw [ht]
      exact he
    refine ⟨fun h1 h3 => ends ?_, fun h3 hb hs hn => ends ?_, fun h1 hs hc => ends ?_, fun h1 hs hc hh => ends ?_⟩
    · rw [if_neg fun h => h1 h.1, if_neg, if_neg fun h => h1 h.1]
      rintro ⟨hk, hb, hs, hn⟩
      obtain h | h | h := h3 hk
      · exact Bool.noConfusion (h.symm.trans hb)
      · exact hs h
      · exact hn h
    · rw [if_neg fun h => by omega, if_pos ⟨h3, hb, Bool.eq_false_iff.1 hs, Bool.eq_false_iff.1 hn⟩]
    · rw [if_neg fun h => h.2.1 hs, if_neg fun h => by omega, if_neg fun h => Bool.noConfusion (hc.symm.trans h.2.2)]
    · rw [if_pos ⟨h1, Bool.eq_false_iff.1 hs, hc, hh⟩]

end Sys2Proof.Machine

/-! PROOFS. Flume ports, heartbeats, election and the ring (R443 to R447, R453, R457, R461, R462). -/

namespace Sys2Proof.Machine

open Sys2Proof

section RingFrames

variable {d e : Dev} {port cls id : Nat} {md bytes : List Byte}

/-- A packet from the ring made in a region, with its buffer. -/
def Dev.enterRing (d : Dev) (md bytes : List Byte) (r : Nat) : Dev × Nat :=
  let x := d.newPkt { packetOfMd md bytes with region := r, buf := d.nextPkt, rxNs := d.ptpNs }
  (({ x.1 with bufs := x.1.bufs.set {} x.2 { region := r, refs := 1 } }).takeCells x.2 (cellsFor (bytes.length + 4)), x.2)

/-- A frame from the ring that is this member's: to its port, or to the recirculation queue of a region that is a free value (R461). -/
def Dev.ringFrame (d : Dev) (port cls : Nat) (md bytes : List Byte) : Dev :=
  let r := if port = 15 then Config.ringRegion d.draws % 4 else port / 4
  let d := if port = 15 then { d with draws := d.draws + 1 } else d
  let (d, id) := d.newPkt { packetOfMd md bytes with region := r, buf := d.nextPkt, rxNs := d.ptpNs }
  let d := ({ d with bufs := d.bufs.set {} id { region := r, refs := 1 } }).takeCells id (cellsFor (bytes.length + 4))
  if port = 15 then (d.updPkt id fun k => { k with pass := 0, disp := 0, resumed := false }).joinRecirc id r
  else d.enqueue id port cls

theorem Dev.ringFrame_port (hp : port ≠ 15) (he : d.enterRing md bytes (port / 4) = (e, id)) : d.ringFrame port cls md bytes = e.enqueue id port cls := by
  obtain ⟨rfl, rfl⟩ := Prod.mk.inj he
  unfold Dev.ringFrame
  dsimp only
  rw [if_neg hp, if_neg hp, if_neg hp]

theorem Dev.ringFrame_recirc (hp : port = 15)
    (he : ({ d with draws := d.draws + 1 } : Dev).enterRing md bytes (Config.ringRegion d.draws % 4) = (e, id)) :
    d.ringFrame port cls md bytes = (e.updPkt id fun k => { k with pass := 0, disp := 0, resumed := false }).joinRecirc id (Config.ringRegion d.draws % 4) := by
  obtain ⟨rfl, rfl⟩ := Prod.mk.inj he
  unfold Dev.ringFrame
  dsimp only
  rw [if_pos hp, if_pos hp, if_pos hp]

end RingFrames

/-- Settles O44: each command behind what it needs of the pair, the cascade and the port. -/
theorem flumeCommandsComplete : Obligations.FlumeCommandsComplete := by
  refine ⟨?_, ?_, ?_, ?_, ?_, ?_, ?_, ?_⟩
  · intro s fl hu hr hq hs hp g hg
    refine gives_of_exec (o := execFlumePortUp fl true s) rfl rfl hu (if_neg ?_)
    rw [hr, hq, hs, hp]
    rintro (h | h | h | h | h | h)
    · exact h rfl
    · exact h rfl
    · exact Bool.false_ne_true h
    · exact Bool.false_ne_true h
    · exact h rfl
    · exact Nat.not_lt.2 hg h
  · intro s fl hu hl e
    exact gives_of_exec (o := execFlumeHeartbeatSend fl s) rfl rfl hu (if_neg (Classical.not_not.2 hl))
  · intro s fl beat hu hr hq hup
    have open_ : ¬(¬s.dev.released = true ∨ s.dev.quiet = true ∨ ¬s.dev.flag F.FLM_STAT_UP 0 fl.val = true) := by
      rw [hr, hq, hup]
      decide
    exact ⟨fun hc h3 => gives_of_exec (o := execFlumeHeartbeatReceive fl beat s) rfl rfl hu ((if_neg open_).trans ((if_pos hc).trans (if_pos h3))),
      fun hc hp h12 => gives_of_exec (o := execFlumeHeartbeatReceive fl beat s) rfl rfl hu
        ((if_neg open_).trans ((if_neg (Bool.eq_false_iff.1 hc)).trans (if_pos ⟨hp, h12⟩)))⟩
  · intro s hu hr hs hp
    refine gives_of_exec (o := execFlumeRefreshTimeout s) rfl rfl hu (if_neg ?_)
    rw [hr, hs, hp]
    decide
  · intro s fl member hu
    refine ⟨fun hc hl hm h0 => ?_, fun hc hp hb hm => ?_⟩
    · intro e
      refine gives_of_exec (o := execPeerHeartbeatTimeout fl member s) rfl rfl hu ((if_pos hc).trans ((if_neg ?_).trans (if_neg h0)))
      rintro (h | h)
      · exact h hl
      · exact hm h
    · intro e all
      refine gives_of_exec (o := execPeerHeartbeatTimeout fl member s) rfl rfl hu ((if_neg (Bool.eq_false_iff.1 hc)).trans (if_neg ?_))
      rintro (h | h | h)
      · exact h hp
      · exact hb h
      · exact Bool.noConfusion (hm.symm.trans h)
  · intro s asserted e hu he
    refine ⟨fun h1 => ?_, fun h2 t ht => ?_, fun h0 => ?_⟩
    · refine gives_of_exec (o := execPeerActiveChange asserted s) rfl rfl hu ?_
      rw [he]
      show (match e.pairState with | 1 => _ | 2 => _ | 4 => _ | _ => _) = _
      split
      · rfl
      · omega
      · omega
      · next hn _ _ => exact absurd h1 hn
    · intro e1
      have rules {f : Dev} (hf : (if asserted = true ∧ e1.clk.now ≤ t + cyclesOfUs 1 ∧ e1.fld F.PAIR_STAT_ROLE = 2 then e1.detach else e1) = f) :
          Gives (.peerActiveChange asserted) s f := by
        refine gives_of_exec (o := execPeerActiveChange asserted s) rfl rfl hu ?_
        rw [he]
        show (match e.pairState with | 1 => _ | 2 => (match e.pair.pinRule with | none => _ | some _ => _) | 4 => _ | _ => _) = _
        rw [ht]
        split
        · omega
        · exact hf
        · omega
        · next _ hn _ => exact absurd h2 hn
      exact ⟨fun ha hn hr => rules (if_pos ⟨ha, hn, hr⟩), fun ha => rules (if_neg fun h => Bool.noConfusion (ha.symm.trans h.1))⟩
    · refine gives_of_exec (o := execPeerActiveChange asserted s) rfl rfl hu ?_
      rw [he]
      show (match e.pairState with | 1 => _ | 2 => _ | 4 => _ | _ => _) = _
      split
      · omega
      · omega
      · omega
      · rfl
  · intro s t hu ht h1 e
    have expires {f : Dev} (hf : (if e.pair.peerSeen = true then e.enterActive else if e.pair.pinSeen = true ∨ e.flag F.PAIR_STAT_PEER_PIN = true then e.detach
        else e.enterActive.updPair fun p => { p with pinRule := some e.clk.now }) = f) : Gives .electTimerExpiry s f := by
      refine gives_of_exec (o := execElectTimerExpiry s) rfl rfl hu ?_
      rw [ht]
      exact (if_neg (Classical.not_not.2 h1)).trans hf
    refine ⟨fun hp => expires (if_pos hp), fun hp hs => expires ((if_neg (Bool.eq_false_iff.1 hp)).trans (if_pos hs)),
      fun hp hs hn => expires ((if_neg (Bool.eq_false_iff.1 hp)).trans (if_neg ?_))⟩
    rw [hs, hn]
    decide
  · intro s fl port cls md bytes member hu hc hr hq hup hm hd enter
    have open_ : ¬(¬s.dev.inCascade = true ∨ ¬s.dev.released = true ∨ s.dev.quiet = true ∨ ¬s.dev.flag F.FLM_STAT_UP 0 fl.val = true) := by
      rw [hc, hr, hq, hup]
      decide
    have here : ¬(member.val ≠ s.dev.board.cascId ∨ s.dev.flag F.CAS_STAT_DUPID = true) := by
      rintro (h | h)
      · exact h hm
      · exact Bool.noConfusion (hd.symm.trans h)
    have takes {f : Dev} (hf : s.dev.ringFrame port.val cls.val md bytes = f) : Gives (.flumeRemoteFrameReceive fl member port cls md bytes) s f :=
      gives_of_exec (o := execFlumeRemoteFrameReceive fl member port cls md bytes s) rfl rfl hu ((if_neg open_).trans ((if_neg here).trans hf))
    refine ⟨fun hp e id he => takes (Dev.ringFrame_port hp he), fun hp => ?_⟩
    intro r e id he
    exact takes (Dev.ringFrame_recirc hp he)

end Sys2Proof.Machine

/-! PROOFS. Commits, intents, the bulk copy, promotion, switchover and replication (R448 to R450, R454 to R457, R459, R460). -/

namespace Sys2Proof.Machine

open Sys2Proof

/-- Settles O45: commits and intents by their numbers, the rest by the state of the pair and of the member. -/
theorem mirrorCommandsComplete : Obligations.MirrorCommandsComplete := by
  refine ⟨?_, ?_, ?_, ?_, ?_, ?_, ?_⟩
  · intro s seq covers items hu hm hc ha
    have open_ : ¬(¬s.dev.mirrored = true ∨ ¬true = true ∨ ¬s.dev.pair.copied = true) := by
      rw [hm, hc]
      decide
    refine ⟨fun hn => ?_, fun hn => ?_⟩
    · intro e e1
      refine gives_of_exec (o := execCommitApply seq covers true items s) rfl rfl hu ((if_neg open_).trans ((if_neg fun h => h.2 hn).trans ?_))
      rw [if_pos ha]
    · exact gives_of_exec (o := execCommitApply seq covers true items s) rfl rfl hu ((if_neg open_).trans (if_pos ⟨ha, hn⟩))
  · intro s seq c hu hc e
    refine gives_of_exec (o := execCommitAck seq s) rfl rfl hu ?_
    rw [hc]
  · intro s hu
    refine ⟨fun x hx => ?_, fun n i hm hn => ?_, fun n i hm hn => ?_, fun number x hx => ?_, fun n t i rest hi => ?_⟩
    · refine gives_of_exec (o := execIntentRecord none s) rfl rfl hu ?_
      show (match s.dev.pair.intents.find? (fun x => x.2.1.isNone) with | none => _ | some _ => _) = _
      rw [hx]
    · exact gives_of_exec (o := execIntentRecord (some (n, i)) s) rfl rfl hu ((if_neg (Classical.not_not.2 hm)).trans (if_neg (Classical.not_not.2 hn)))
    · exact gives_of_exec (o := execIntentRecord (some (n, i)) s) rfl rfl hu ((if_neg (Classical.not_not.2 hm)).trans (if_pos hn))
    · refine gives_of_exec (o := execIntentAck number s) rfl rfl hu ?_
      rw [hx]
    · refine gives_of_exec (o := execIntentTimeout s) rfl rfl hu ?_
      rw [hi]
  · intro s hu hp h4 hb hn
    refine gives_of_exec (o := execPromotion s) rfl rfl hu (if_pos ?_)
    exact ⟨hp, h4, Bool.eq_false_iff.1 hb, Bool.eq_false_iff.1 hn⟩
  · intro s ws w d h hp
    refine ⟨fun h31 h5 => gives_writeReg rfl h ?_, fun h30 h2 hs => gives_writeReg rfl h ?_⟩
    · exact (if_neg (Classical.not_not.2 hp)).trans (if_pos ⟨h31, h5⟩)
    · exact (if_neg (Classical.not_not.2 hp)).trans ((if_neg fun h => by omega).trans (if_pos ⟨h30, h2, hs⟩))
  · intro s items hu hp h3 hc
    refine gives_of_exec (o := execBulkCopyComplete items s) rfl rfl hu (if_neg ?_)
    rintro (h | h | h)
    · exact h hp
    · exact h h3
    · exact Bool.noConfusion (hc.symm.trans h)
  · intro s fl items hu hm hr hq hup hd pass
    have open_ : ¬(¬s.dev.member = true ∨ ¬s.dev.released = true ∨ s.dev.quiet = true ∨ ¬s.dev.flag F.FLM_STAT_UP 0 fl.val = true) := by
      rw [hm, hr, hq, hup]
      decide
    have comes {full : Bool} {f : Dev} (hf : (if s.dev.flag F.CAS_STAT_DUPID = true ∨ (s.dev.flag F.CAS_STAT_HEADLESS = true ∧ ¬full = true) then pass full s.dev
        else pass full ((if full = true then s.dev.forgetReplicas.setChip F.CAS_STAT_HEADLESS 0 else s.dev).applyItems
          (items.filter (if full = true then s.dev.forgetReplicas.setChip F.CAS_STAT_HEADLESS 0 else s.dev).replicatedItem))) = f) :
        Gives (.cascadeReplicationApply fl full items) s f :=
      gives_of_exec (o := execCascadeReplicationApply fl full items s) rfl rfl hu ((if_neg open_).trans hf)
    refine ⟨fun hh => comes ((if_neg ?_).trans rfl), fun hh => comes (if_pos (.inr ⟨hh, Bool.false_ne_true⟩)), comes ((if_neg ?_).trans rfl)⟩
    · rintro (h | ⟨h, _⟩)
      · exact Bool.noConfusion (hd.symm.trans h)
      · exact Bool.noConfusion (hh.symm.trans h)
    · rintro (h | ⟨_, h⟩)
      · exact Bool.noConfusion (hd.symm.trans h)
      · exact h rfl

end Sys2Proof.Machine
